-- ==== Sys2Proof/Word.lean ====
section
/-! DEFINITION. The words of the block: 32-bit registers (R11) and the bytes of its memories, pennants and images. -/

namespace Sys2Proof

/-- A register's contents (R11: every register is 32 bits wide). -/
abbrev Word := BitVec 32

/-- One byte of a memory, a pennant, a frame or an image. -/
abbrev Byte := BitVec 8

end Sys2Proof
end

