-- ==== Sys2Proof/Syntax.lean ====
section
/-! DEFINITION. The commands of the block: one constructor for each row of the table of operations and events, with the
operands that reach the block from outside, or the index of the engine, queue, lane or timer whose moment it is. -/

namespace Sys2Proof

/-- Who makes a register access (R60, R61): the register port with its `rp_src`, the steward (14), debug access (15). -/
inductive Who where
  | port (src : BitVec 4)
  | steward
  | debug
deriving DecidableEq, Repr

/-- One granule lane of a memory tap beat (R65). -/
structure Granule where
  /-- `mt_gaddr`: host physical address bits [51:8]. -/
  gaddr : BitVec 44
  wr    : Bool
  smask : BitVec 8
  err   : Bool
  /-- The 256 bytes of the granule. -/
  data  : List Byte
deriving DecidableEq, Repr

/-- What the device on the PMBus answers to a transaction (R84). -/
inductive PbEnd where
  | ok (data : BitVec 16)
  | noAck
  | timeout
  | badPec
deriving DecidableEq, Repr

/-- A record on the trace port (R72), or an internal one of the steward. -/
structure TraceIn where
  steward : Bool
  kind    : BitVec 2
  addr    : BitVec 52
  data    : BitVec 64
  size    : BitVec 4
  priv    : Bool
  sec     : Bool
deriving DecidableEq, Repr

/-- What the scrubber finds in the codeword it reads (R499, R500). -/
inductive Codeword where
  | clean
  | corrected
  | uncorrectable
deriving DecidableEq, Repr

/-- The commands. Word offsets are `rp_addr`: byte offset [19:2] (R58). -/
inductive Instr where
  | powerOn
  | powerOff
  | aonResetAssert
  | aonResetRelease (cfgRole : Bool)
  | fastResetAssert
  | fastResetRelease
  | laneReset (lane : Fin 16) (assert : Bool)
  | portReset (port : Fin 4) (assert : Bool)
  | fastClockNeed
  | dueWake
  | fclkAckRise
  | fclkAckFall
  | wakeLateTimer
  | fastClockRelease
  | warmResetKey (who : Who) (data : Word)
  | warmResetRelease
  | sramInitDone
  | romBoot
  | bootGo (who : Who) (data : Word)
  | pmBootStageWrite (who : Who) (data : Word)
  | registerWrite (who : Who) (addr : BitVec 18) (data : Word)
  | readClear (who : Who) (addr : BitVec 18)
  | pairLowRead (who : Who) (addr : BitVec 18)
  | pairHighRead (who : Who) (addr : BitVec 18)
  | pairHighWrite (who : Who) (addr : BitVec 18) (data : Word)
  | pairLowWrite (who : Who) (addr : BitVec 18) (data : Word)
  | shadowWrite (who : Who) (addr : BitVec 18) (data : Word)
  | liveWrite (who : Who) (addr : BitVec 18) (data : Word)
  | debugUpdateDr
  | debugCaptureDr
  | debugReset
  | secAuthChange (level : Bool)
  | eventInputCount (levels : BitVec 1024)
  | gapCount
  | buntingIncrement (incs : BitVec 512)
  | hostQueueMonitor (levels : BitVec 1024)
  | planLatch (plan : Fin 16)
  | latchBankDrain
  | sample (q : Fin 16)
  | snapshot (q : Fin 16)
  | strikeLatch
  | score (q : Fin 16)
  | scoreVectorDone (q : Fin 16)
  | scoreBound (q : Fin 16)
  | check (q : Fin 16)
  | tileSummary (lane : Fin 2)
  | recomputeDone (lane : Fin 2)
  | knownAnswerDone
  | checkBound (q : Fin 16)
  | dump (q : Fin 16)
  | send (q : Fin 16)
  | waitFlag (q : Fin 16)
  | waitFlagSatisfied (q : Fin 16)
  | cycleDetected (q : Fin 16)
  | waitFlagTimeout (q : Fin 16)
  | setFlag (q : Fin 16)
  | clearFlag (q : Fin 16)
  | waitTime (q : Fin 16)
  | waitTimeReached (q : Fin 16)
  | fence (q : Fin 16)
  | commandCompletion (q : Fin 16) (slot : Fin 128)
  | plovWatchdog (q : Fin 16)
  | ringSlotWrite (who : Who) (addr : BitVec 14) (data : Word)
  | queueDoorbell (who : Who) (q : Fin 16) (data : Word)
  | swapRequest (who : Who) (q : Fin 16) (data : Word)
  | queueBankSwap (q : Fin 16)
  | queueResume (who : Who) (q : Fin 16)
  | queueReset (who : Who) (q : Fin 16)
  | predSet (who : Who) (data : Word)
  | predClr (who : Who) (data : Word)
  | flagSetExternal (who : Who) (data : Word)
  | flagClrExternal (who : Who) (data : Word)
  | doorbell (who : Who) (data : Word)
  | claimHost (who : Who)
  | claimSteward (who : Who)
  | hoistLoad (who : Who)
  | hoistLoadEnd
  | hoistFeedWord (who : Who) (data : Word)
  | feedTimeout
  | hoistCommit (who : Who) (data : Word)
  | commitSwap
  | commitDrainTimeout
  | copyBackDone
  | hoistDiscard (who : Who)
  | requireSigWrite (who : Who) (data : Word)
  | epochSwitch (base : BitVec 20)
  | rateWrite (who : Who) (data : Word)
  | offsetStep (who : Who) (data : Word)
  | todArm (who : Who) (data : Word)
  | ppsEdge (tick : BitVec 4)
  | captureEdge (input : Fin 4) (tick : BitVec 4)
  | pulseFire (output : Fin 4)
  | syncExchangeStart
  | syncExchangeLost
  | syncMiss
  | holdWrite (who : Who) (data : Word)
  | lapChange
  | memoryTapBeat (tap : Fin 16) (granules : List (Option Granule)) (drop : Bool)
  | memoryTapDrop (tap : Fin 16)
  | trackerAgeOut (region : Fin 64) (frame : BitVec 52) (wr : Bool)
  | linkTapBeat (tap : Fin 8) (ingress sof eof : Bool) (data : List Byte) (peer : BitVec 17) (err drop : Bool)
  | taintEntryExpire (entry : Fin 16)
  | drainedWrite (who : Who) (data : Word)
  | drainLateTimer
  | laneTrainStart (lane : Fin 16) (lock : Bool)
  | announceTimer (lane : Fin 16)
  | laneBlockReceive (lane : Fin 16) (block : List Byte)
  | laneLockLoss (lane : Fin 16)
  | laneReplayTimeout (lane : Fin 16)
  | laneRetrainTimer (lane : Fin 16)
  | egressBoundary (egress : Fin 20)
  | ethernetFrameReceive (port : Fin 4) (frame : List Byte) (fcsErr : Bool)
  | ethernetLinkChange (port : Fin 4) (up : Bool)
  | associationRto (peer : BitVec 14)
  | associationAnnounce (peer : BitVec 14)
  | ackTimer (peer : BitVec 14)
  | refusalSummary
  | epochFold (base : BitVec 20)
  | resultPublish
  | retiredTagExpire (place : Fin 128)
  | cubeTokenRefill (cube : Fin 2048)
  | sparesAdd (who : Who) (data : Word)
  | admitTimeReached (slot : Fin 8)
  | satWindowEnd
  | levelSatWindow
  | sensorReading (id : BitVec 8) (value : BitVec 16)
  | droopReport (monitor : Fin 16)
  | vinPoll
  | pmbusFwCommand (who : Who) (data : Word)
  | pmbusTransactionEnd (answer : PbEnd)
  | pmbusAlert
  | throttleFallTimer
  | throttleAck
  | throttleAckRelease
  | throttleAckLate
  | throttleGrant (level : BitVec 3)
  | hostReadResponse (tag : BitVec 10) (data : List Byte) (err : Bool)
  | fleetStoreResponse (tag : BitVec 8) (data : List Byte) (err : Bool)
  | flashOperationEnd
  | flashBusyTimeout
  | traceRecord (r : TraceIn)
  | lowPowerEntry
  | lowPowerExit
  | traceArm (who : Who) (data : Word)
  | traceTriggerWrite (who : Who) (data : Word)
  | traceOff (who : Who) (data : Word)
  | hangDumpKey (who : Who) (data : Word)
  | segmentSend (engine : Fin 4)
  | dumpBound (q : Fin 16)
  | engineSave (who : Who) (engine : Fin 4) (data : Word)
  | engineRestore (who : Who) (engine : Fin 4) (data : Word)
  | engineReset (who : Who) (engine : Fin 4) (data : Word)
  | engineImageDone (engine : Fin 4)
  | segmentStore
  | contextIdleFree (context : Fin 1024)
  | logRecordWrite
  | overflowMarker
  | logFreeze (who : Who) (data : Word)
  | freezeTimeout
  | logClear (who : Who) (data : Word)
  | lifeBaseWrite (who : Who) (pcc : Bool) (data : Word)
  | opsecTick
  | lifeSave
  | nvPageProgram
  | logRebuild
  | scrubStep (found : Codeword)
  | scrubLate
  | stewardInstruction
  | pnOpen (rd rs1 rs2 : BitVec 5)
  | pnPut (rd rs1 rs2 : BitVec 5)
  | pnDrop (rd rs1 rs2 : BitVec 5)
  | pnSend (rd rs1 rs2 : BitVec 5)
  | dbRing (rd rs1 rs2 : BitVec 5)
  | tmRd (rd rs1 rs2 : BitVec 5)
  | stewardTimer
  | stewardWatchdog
  | wdogKick (who : Who) (data : Word)
  | firmwareRecord (who : Who) (data : Word)
  | imageLoad (who : Who) (data : Word)
  | imageLoadEnd
  | imageSwap (who : Who) (data : Word)
  | flashCommand (who : Who) (data : Word)
  | secFloorWrite (who : Who) (data : Word)
  | debugShiftDr (tdi : Bool)
  | unknownOpcode (q : Fin 16)
  | queuedPennantBound (lane : Fin 16)
  | mtErrReportTimeout (region : Fin 64) (frame : BitVec 52) (wr : Bool)
  | lifeBlockReadEnd
deriving DecidableEq, Repr

end Sys2Proof
end

