-- ==== Sys2Proof/Decode.lean ====
section
/-! DEFINITION. Commands by table word. The rows of the command table give no bits: a command is an access or an event at
a port, and no word spells one. -/

namespace Sys2Proof

/-- The command that the low `nbits` bits of a table word spell: none, for every word.
[DESIGN CHOICE, unsafe: log entry 188] -/
def decodeTableWord (_nbits _w : Nat) : Option Instr := none

end Sys2Proof
end

