-- ==== Sys2Proof/Machine/Bits.lean ====
section
/-! DEFINITION. Bit fields, byte order and serial-number comparison: the notation of chapter 00 (little-endian byte
order, [hi:lo] fields, two's complement, R17) as functions on `Nat`. -/

namespace Sys2Proof.Machine

/-- The `w` bits of `n` from bit `lo` up. -/
def bits (n lo w : Nat) : Nat := (n >>> lo) % 2 ^ w

/-- `n` with its `w` bits from `lo` up replaced by `v`. -/
def putBits (n lo w v : Nat) : Nat :=
  n - (bits n lo w) * 2 ^ lo + (v % 2 ^ w) * 2 ^ lo

/-- Bit `i` of `n`. -/
def bit (n i : Nat) : Bool := (n >>> i) % 2 == 1

/-- 1 for true, 0 for false. -/
def b2n (b : Bool) : Nat := if b then 1 else 0

/-- Two's complement reading of the low `w` bits. -/
def toSigned (w n : Nat) : Int :=
  let m := n % 2 ^ w
  if m < 2 ^ (w - 1) then (m : Int) else (m : Int) - (2 ^ w : Nat)

/-- The low `w` bits of an integer, in two's complement. -/
def ofSigned (w : Nat) (i : Int) : Nat := (i % ((2 ^ w : Nat) : Int)).toNat

/-- Addition that stops at `cap`: the saturating counts of the register tables. -/
def satAdd (cap a b : Nat) : Nat := min cap (a + b)

/-- R17: `a` is later than `b` under serial-number arithmetic of `n` bits. -/
def later (n a b : Nat) : Bool :=
  let d := (a + 2 ^ n - b % 2 ^ n) % 2 ^ n
  decide (1 ≤ d) && decide (d ≤ 2 ^ (n - 1) - 1)

/-- `a − b` modulo `2 ^ n`. -/
def subMod (n a b : Nat) : Nat := (a % 2 ^ n + 2 ^ n - b % 2 ^ n) % 2 ^ n

/-- Little-endian value of a byte string. -/
def leNat : List Byte → Nat
  | [] => 0
  | b :: bs => b.toNat + 256 * leNat bs

/-- The `k` little-endian bytes of `n`. -/
def leBytes : Nat → Nat → List Byte
  | 0, _ => []
  | k + 1, n => BitVec.ofNat 8 n :: leBytes k (n / 256)

/-- The field of `w` bytes at byte `i` of a byte string, little-endian; bytes beyond its end read 0. -/
def field (bs : List Byte) (i w : Nat) : Nat := leNat ((bs.drop i).take w)

/-- `bs` cut or padded with zero bytes to `n` bytes. -/
def padTo (n : Nat) (bs : List Byte) : List Byte := bs.take n ++ List.replicate (n - bs.length) 0

/-- Big-endian value of a byte string. -/
def beNat (bs : List Byte) : Nat := bs.foldl (fun a b => a * 256 + b.toNat) 0

/-- The `k` big-endian bytes of `n`. -/
def beBytes (k n : Nat) : List Byte := (leBytes k n).reverse

/-- Number of bits at 1 among the low `w` bits. -/
def popcount : Nat → Nat → Nat
  | 0, _ => 0
  | w + 1, n => n % 2 + popcount w (n / 2)

/-- The largest `i < w` with bit `i` of `n` set. -/
def highBit? : Nat → Nat → Option Nat
  | 0, _ => none
  | w + 1, n => if bit n w then some w else highBit? w n

/-- Arithmetic shift right: floor division by `2 ^ k`. -/
def asr (i : Int) (k : Nat) : Int := i / ((2 ^ k : Nat) : Int)

/-- Element `i` of a list replaced by its image under `f`. -/
def modAt {α : Type} (l : List α) (i : Nat) (f : α → α) : List α :=
  match l, i with
  | [], _ => []
  | a :: as, 0 => f a :: as
  | a :: as, n + 1 => a :: modAt as n f

/-- Insert keeping a list sorted by `lt`; equal elements stay in arrival order. -/
def insertBy {α : Type} (lt : α → α → Bool) (x : α) : List α → List α
  | [] => [x]
  | y :: ys => if lt x y then x :: y :: ys else y :: insertBy lt x ys

/-- Insertion sort by `lt`, stable. -/
def sortBy {α : Type} (lt : α → α → Bool) : List α → List α
  | [] => []
  | x :: xs => insertBy (fun a b => !lt b a) x (sortBy lt xs)

/-- Truncation of `a / b` toward zero. -/
def divTrunc (a b : Int) : Int := Int.tdiv a b

/-- `List.range n` without duplicates, for folds over indices. -/
def upto (n : Nat) : List Nat := List.range n

end Sys2Proof.Machine
end

