-- ==== Sys2Proof/Machine/Crc.lean ====
section
/-! DEFINITION. The check codes: CRC-32C with the parameters of R248, the Reed–Solomon code RS(36,32) of R369 and
SHA-384 (R131, R523). -/

namespace Sys2Proof.Machine

/-- One bit of the reflected CRC-32C (polynomial 0x1EDC6F41, reflected 0x82F63B78). -/
def crcBit (c : Nat) : Nat := if c % 2 = 1 then (c / 2) ^^^ 0x82F63B78 else c / 2

def crcByte (c : Nat) (b : Byte) : Nat :=
  let x := c ^^^ b.toNat
  crcBit (crcBit (crcBit (crcBit (crcBit (crcBit (crcBit (crcBit x)))))))

/-- CRC-32C of a byte string: initial value and final XOR 0xFFFFFFFF, reflected (R248). -/
def crc32c (bs : List Byte) : Nat := (bs.foldl crcByte 0xFFFFFFFF) ^^^ 0xFFFFFFFF

/-! ### RS(36,32) over GF(2⁸), R369 -/

/-- Multiplication by α = 0x02 in GF(2⁸) with x⁸ + x⁴ + x³ + x² + 1. -/
def gfDouble (a : Nat) : Nat := if a < 128 then 2 * a else (2 * a - 256) ^^^ 0x1D

/-- Multiplication in GF(2⁸), by the bits of `b`. -/
def gfMulAux : Nat → Nat → Nat → Nat
  | 0, _, _ => 0
  | k + 1, a, b => (if b % 2 = 1 then a else 0) ^^^ gfMulAux k (gfDouble a) (b / 2)

def gfMul (a b : Nat) : Nat := gfMulAux 8 a b

/-- α to the power `k`. -/
def gfExp : Nat → Nat
  | 0 => 1
  | k + 1 => gfDouble (gfExp k)

def gfPow (a : Nat) : Nat → Nat
  | 0 => 1
  | k + 1 => gfMul a (gfPow a k)

/-- The inverse in GF(2⁸): a²⁵⁴. -/
def gfInv (a : Nat) : Nat := gfPow a 254

/-- The generator (x − α⁰)(x − α¹)(x − α²)(x − α³), coefficients of x³ down to x⁰ below the leading 1. -/
def rsGen : List Nat :=
  let mulRoot (p : List Nat) (r : Nat) : List Nat :=
    List.zipWith (fun a b => a ^^^ b) (p ++ [0]) (0 :: p.map (gfMul r))
  ((List.range 4).foldl (fun p i => mulRoot p (gfExp i)) [1]).drop 1

/-- The four parity bytes of 32 data bytes, data byte 0 the highest-order coefficient (R369). -/
def rsParity (data : List Byte) : List Byte :=
  let g := rsGen
  let r := data.foldl (fun (r : List Nat) b =>
    match r with
    | [] => []
    | r0 :: rest =>
      let f := b.toNat ^^^ r0
      List.zipWith (fun a c => a ^^^ gfMul f c) (rest ++ [0]) g) [0, 0, 0, 0]
  r.map (BitVec.ofNat 8)

/-- A codeword: 32 data bytes followed by their parity. -/
def rsEncode (data : List Byte) : List Byte := padTo 32 data ++ rsParity (padTo 32 data)

/-- The syndromes S₀ to S₃ of a 36-byte codeword. -/
def rsSyndromes (cw : List Byte) : List Nat :=
  (List.range 4).map (fun i => cw.foldl (fun a b => gfMul a (gfExp i) ^^^ b.toNat) 0)

/-- The outcome of reading a codeword: clean, corrected, or uncorrectable (R369, R499). -/
inductive RsRead where
  | clean (data : List Byte)
  | corrected (data : List Byte)
  | uncorrectable
deriving DecidableEq, Repr

/-- XOR `e` into byte `i`. -/
def rsFlip (cw : List Byte) (i e : Nat) : List Byte := modAt cw i (fun b => b ^^^ BitVec.ofNat 8 e)

/-- Correct up to two byte errors: one error where the syndromes are in geometric progression, else the pair of
positions whose errors solve them. -/
def rsDecode (cw : List Byte) : RsRead :=
  match rsSyndromes cw with
  | [s0, s1, s2, s3] =>
    if s0 = 0 ∧ s1 = 0 ∧ s2 = 0 ∧ s3 = 0 then .clean (cw.take 32)
    else
      let one := (List.range 36).find? (fun i =>
        let x := gfExp (35 - i)
        s0 ≠ 0 && s1 == gfMul s0 x && s2 == gfMul s1 x && s3 == gfMul s2 x)
      match one with
      | some i => .corrected ((rsFlip cw i s0).take 32)
      | none =>
        let det := gfMul s0 s2 ^^^ gfMul s1 s1
        if det = 0 then .uncorrectable
        else
          -- locator x² + σ₁ x + σ₂, from S₂ = σ₁ S₁ + σ₂ S₀ and S₃ = σ₁ S₂ + σ₂ S₁
          let inv := gfInv det
          let sg1 := gfMul inv (gfMul s0 s3 ^^^ gfMul s1 s2)
          let sg2 := gfMul inv (gfMul s1 s3 ^^^ gfMul s2 s2)
          let roots := (List.range 36).filter (fun i =>
            let x := gfExp (35 - i)
            (gfMul x x ^^^ gfMul sg1 x ^^^ sg2) == 0)
          match roots with
          | [i, j] =>
            let xi := gfExp (35 - i)
            let xj := gfExp (35 - j)
            let ej := gfMul (s1 ^^^ gfMul s0 xi) (gfInv (xi ^^^ xj))
            let ei := s0 ^^^ ej
            .corrected ((rsFlip (rsFlip cw i ei) j ej).take 32)
          | _ => .uncorrectable
  | _ => .uncorrectable

/-! ### SHA-384 (FIPS 180-4), the digest of R131 and R523 -/

def m64 : Nat := 2 ^ 64

def rotr64 (n x : Nat) : Nat := (x >>> n ||| (x <<< (64 - n))) % m64

/-- The integer part of the cube root, by bits from `2 ^ k` down. -/
def icbrt : Nat → Nat → Nat → Nat
  | 0, _, r => r
  | k + 1, n, r => let t := r + 2 ^ k; if t * t * t ≤ n then icbrt k n t else icbrt k n r

/-- The integer part of the square root, by bits from `2 ^ k` down. -/
def isqrt : Nat → Nat → Nat → Nat
  | 0, _, r => r
  | k + 1, n, r => let t := r + 2 ^ k; if t * t ≤ n then isqrt k n t else isqrt k n r

/-- The first 80 primes. -/
def primes80 : List Nat :=
  (List.range 410).filter (fun p => decide (2 ≤ p) && (List.range 20).all (fun d => decide (d + 2 ≥ p) || p % (d + 2) != 0))

/-- K of SHA-384: 64 fraction bits of the cube roots of the first 80 primes. -/
def sha512K : List Nat := primes80.map (fun p => icbrt 68 (p * 2 ^ 192) 0 % m64)

/-- Initial hash of SHA-384: 64 fraction bits of the square roots of the ninth to sixteenth primes. -/
def sha384H0 : List Nat := ((primes80.drop 8).take 8).map (fun p => isqrt 68 (p * 2 ^ 128) 0 % m64)

/-- Message padding to a whole number of 128-byte blocks. -/
def shaPad (bs : List Byte) : List Byte :=
  let l := bs.length
  let z := (128 - (l + 17) % 128) % 128
  bs ++ [0x80] ++ List.replicate z 0 ++ beBytes 16 (8 * l)

/-- The 80 schedule words of a block, newest first. -/
def shaSchedule : Nat → List Nat → List Nat
  | 0, w => w
  | k + 1, w =>
    let w15 := w.getD 14 0
    let w2 := w.getD 1 0
    let g0 := rotr64 1 w15 ^^^ rotr64 8 w15 ^^^ (w15 >>> 7)
    let g1 := rotr64 19 w2 ^^^ rotr64 61 w2 ^^^ (w2 >>> 6)
    shaSchedule k (((w.getD 15 0 + g0 + w.getD 6 0 + g1) % m64) :: w)

def shaRound (h : List Nat) (kw : Nat × Nat) : List Nat :=
  match h with
  | [a, b, c, d, e, f, g, hh] =>
    let S1 := rotr64 14 e ^^^ rotr64 18 e ^^^ rotr64 41 e
    let ch := (e &&& f) ^^^ ((m64 - 1 - e) &&& g)
    let t1 := hh + S1 + ch + kw.1 + kw.2
    let S0 := rotr64 28 a ^^^ rotr64 34 a ^^^ rotr64 39 a
    let mj := (a &&& b) ^^^ (a &&& c) ^^^ (b &&& c)
    [(t1 + S0 + mj) % m64, a, b, c, (d + t1) % m64, e, f, g]
  | x => x

/-- One block of compression. -/
def shaBlock (h : List Nat) (blk : List Byte) : List Nat :=
  let w0 := (List.range 16).map (fun i => beNat ((blk.drop (8 * i)).take 8))
  let w := (shaSchedule 64 w0.reverse).reverse
  let r := (sha512K.zip w).foldl shaRound h
  List.zipWith (fun a b => (a + b) % m64) h r

def shaBlocks : Nat → List Nat → List Byte → List Nat
  | 0, h, _ => h
  | k + 1, h, bs => shaBlocks k (shaBlock h (bs.take 128)) (bs.drop 128)

/-- The 48-byte SHA-384 digest. -/
def sha384 (bs : List Byte) : List Byte :=
  let p := shaPad bs
  (((shaBlocks (p.length / 128) sha384H0 p).take 6).map (beBytes 8)).flatten

end Sys2Proof.Machine
end

