-- ==== Sys2Proof/Config.lean ====
section
/-! DEFINITION. What the build or the surroundings fix and the spec leaves open: constants without a body, so that no
statement can rest on a value of theirs. `State.free` counts the draws made so far. -/

namespace Sys2Proof.Config

/-- A fresh value of up to `w` bits for each draw (values the spec leaves undefined or does not give).
[DESIGN CHOICE, safe: log entry 10] -/
opaque freeNat : Nat → Nat

/-- R526: the public key at an index of the ROM key table, as its two 48-byte coordinates; the manual lists none.
[DESIGN CHOICE, safe: log entry 11] -/
opaque romKey : Nat → Option (Nat × Nat)

/-- R317: the words of the known-answer tile the build fixes, by lane and run: whether the lane's answer is the stored
one is a fact of the hardware at that moment. -/
opaque knownAnswerGood : Nat → Bool

/-- R362: the traversal slots in use in an AON cycle, with so many draws made: how far the vectors in flight have come
then is timing.
[DESIGN CHOICE, safe: log entry 211] -/
opaque scoreSlots : Nat → Nat → Nat

/-- R512, R525: the bytes of the boot ROM, which the integrator supplies at build time. -/
opaque romByte : Nat → Byte

end Sys2Proof.Config
end

