-- ==== Sys2Proof/Machine/CheckArith.lean ====
section
/-! DEFINITION. The arithmetic of a checker lane (R278–R301): element formats, the exact sum, the host model's bound, the
judgement of one element and the summary of a tile. Values are integers in units of 2⁻⁵⁷⁶. -/

namespace Sys2Proof.Machine

/-- A floating-point format of R279, R292: exponent and mantissa bits and bias. -/
structure FpFmt where
  eb   : Nat
  mb   : Nat
  bias : Nat
deriving DecidableEq, Repr

/-- R279's codes. Integer formats have no `FpFmt`. -/
def fpFmt (code : Nat) : FpFmt :=
  match code with
  | 0x1 => ⟨8, 23, 127⟩
  | 0x2 => ⟨8, 7, 127⟩
  | 0x3 => ⟨5, 10, 15⟩
  | 0x4 => ⟨4, 3, 7⟩
  | 0x5 => ⟨5, 2, 15⟩
  | 0x6 => ⟨3, 2, 3⟩
  | 0x7 => ⟨2, 3, 1⟩
  | _ => ⟨2, 1, 1⟩

/-- Width in bits of a format code; INT32 (0xB) is an output format. -/
def fmtBits (code : Nat) : Nat :=
  match code with
  | 0x1 => 32
  | 0x2 => 16
  | 0x3 => 16
  | 0x6 => 6
  | 0x7 => 6
  | 0x8 => 4
  | 0xA => 4
  | 0xB => 32
  | _ => 8

/-- A value read from a format. Finite values are in units of 2⁻¹⁴⁹. -/
inductive Elem where
  | fin (v : Int)
  | inf (neg : Bool)
  | nan
deriving DecidableEq, Repr

/-- All exponent bits are ones and mean a special value (R279). -/
def specialOf (code m : Nat) (neg : Bool) : Option Elem :=
  if code = 1 ∨ code = 2 ∨ code = 3 ∨ code = 5 then some (if m = 0 then .inf neg else .nan)
  else if code = 4 ∧ m = 7 then some .nan
  else none

/-- R279, R281: the value of an element's bits. -/
def elemOf (code w : Nat) (ftz : Bool) : Elem :=
  if code = 9 then .fin (toSigned 8 w * 2 ^ 149)
  else if code = 0xA then .fin (toSigned 4 w * 2 ^ 149)
  else
    let f := fpFmt code
    let m := w % 2 ^ f.mb
    let e := bits w f.mb f.eb
    let neg := bit w (f.mb + f.eb)
    let special := if e = 2 ^ f.eb - 1 then specialOf code m neg else none
    match special with
    | some x => x
    | none =>
      let v : Nat := if e = 0 then (if ftz then 0 else m * 2 ^ (150 - f.bias - f.mb)) else (2 ^ f.mb + m) * 2 ^ (149 + e - f.bias - f.mb)
      .fin (if neg then -(v : Int) else v)

/-- S, A and the flags of one output element (R285, R287). -/
structure Acc where
  s    : Int := 0
  a    : Nat := 0
  nan  : Bool := false
  pinf : Bool := false
  ninf : Bool := false
deriving DecidableEq, Repr

/-- R283, R285, R287: one product, with scales `sa` and `sb` (255 is NaN). -/
def Acc.add (c : Acc) (x y : Elem) (sa sb : Nat) : Acc :=
  if sa = 255 ∨ sb = 255 then { c with nan := true }
  else
    match x, y with
    | .fin u, .fin v =>
      let p := u * v * 2 ^ (sa + sb + 24)
      { c with s := c.s + p, a := c.a + p.natAbs }
    | .nan, _ => { c with nan := true }
    | _, .nan => { c with nan := true }
    | .inf n, .fin v => if v = 0 then { c with nan := true } else if n == decide (v < 0) then { c with pinf := true } else { c with ninf := true }
    | .fin u, .inf n => if u = 0 then { c with nan := true } else if n == decide (u < 0) then { c with pinf := true } else { c with ninf := true }
    | .inf n, .inf k => if n == k then { c with pinf := true } else { c with ninf := true }

/-- An operand's row or column: elements with their scales. -/
abbrev OpRow := List (Elem × Nat)

/-- R286: the sums do not depend on the order, so they are taken along K. -/
def accOf (xs ys : OpRow) : Acc := (xs.zip ys).foldl (fun c (x, y) => c.add x.1 y.1 x.2 y.2) {}

/-- R287: the expected special value. -/
def Acc.special (c : Acc) : Option Elem :=
  if c.nan || (c.pinf && c.ninf) then some .nan
  else if c.pinf then some (.inf false)
  else if c.ninf then some (.inf true)
  else none

/-- A host model (R302). -/
structure HostModel where
  aFmt : Nat
  bFmt : Nat
  aScale : Bool
  bScale : Bool
  ftz : Bool
  outFmt : Nat
  sat : Bool
  intSat : Bool
  acc : Nat
  rz : Bool
  prodRnd : Bool
  order : Nat
  chunk : Nat
  num : Nat
deriving DecidableEq, Repr

def ceilDiv (a b : Nat) : Nat := (a + b - 1) / b

/-- R290: the roundings d. -/
def HostModel.d (h : HostModel) (k : Nat) : Nat :=
  if h.acc = 0 then 0
  else
    b2n h.prodRnd +
      (match h.order with
        | 0 => k - 1
        | 1 => if k ≤ 1 then 0 else Nat.log2 (k - 1) + 1
        | 2 => ceilDiv k h.chunk
        | _ => (h.chunk - 1) + (ceilDiv k h.chunk - 1))

/-- R289: 2^q. -/
def HostModel.twoQ (h : HostModel) : Nat :=
  let p := match h.acc with | 1 => 24 | 2 => 8 | 3 => 11 | _ => 53
  2 ^ (if h.rz then p - 1 else p)

/-- R289: η. -/
def HostModel.eta (h : HostModel) : Nat :=
  match h.acc with
  | 1 => if h.ftz then 2 ^ 450 else if h.rz then 2 ^ 427 else 2 ^ 426
  | 2 => if h.ftz then 2 ^ 450 else if h.rz then 2 ^ 443 else 2 ^ 442
  | 3 => if h.ftz then 2 ^ 562 else if h.rz then 2 ^ 552 else 2 ^ 551
  | _ => 0

/-- R289: the overflow threshold. -/
def HostModel.tAcc (h : HostModel) : Option Nat :=
  match h.acc with
  | 1 => some ((2 ^ 25 - 1) * 2 ^ 679)
  | 2 => some ((2 ^ 9 - 1) * 2 ^ 695)
  | 3 => some (65520 * 2 ^ 576)
  | _ => none

/-- R292: M and ½ulp(M). -/
def outMax (code : Nat) : Nat :=
  match code with
  | 1 => (2 ^ 24 - 1) * 2 ^ 680
  | 2 => (2 ^ 8 - 1) * 2 ^ 696
  | 3 => 65504 * 2 ^ 576
  | 4 => 448 * 2 ^ 576
  | _ => 57344 * 2 ^ 576

def outHalf (code : Nat) : Nat :=
  match code with
  | 1 => 2 ^ 679
  | 2 => 2 ^ 695
  | 3 => 16 * 2 ^ 576
  | 4 => 16 * 2 ^ 576
  | _ => 4096 * 2 ^ 576

/-- R292: ½ulp(0). -/
def half0 (code : Nat) (ftz : Bool) : Nat :=
  match code, ftz with
  | 1, false => 2 ^ 426
  | 1, true => 2 ^ 449
  | 2, false => 2 ^ 442
  | 2, true => 2 ^ 449
  | 3, false => 2 ^ 551
  | 3, true => 2 ^ 561
  | 4, false => 2 ^ 566
  | 4, true => 2 ^ 569
  | _, false => 2 ^ 559
  | _, true => 2 ^ 561

/-- The exponent of the spacing at magnitude `v`, in units of 2⁻⁵⁷⁶ (R292). -/
def ulpExp (code v : Nat) : Nat :=
  let f := fpFmt code
  max (Nat.log2 v) (577 - f.bias) - f.mb

/-- R292: ½ulp(h). -/
def halfUlp (code : Nat) (ftz : Bool) (h : Int) : Nat :=
  if h = 0 then half0 code ftz else 2 ^ (ulpExp code h.natAbs - 1)

/-- `n / m` rounded to nearest, ties to even. -/
def rne (n m : Nat) : Nat :=
  let q := n / m
  let r := 2 * (n % m)
  if r < m then q else if m < r then q + 1 else q + q % 2

/-- The NaN a checker value is written as (R294). -/
def outNan (code : Nat) : Nat := 2 ^ (fmtBits code - 1) - 1

/-- Bits of signed M, and of signed infinity, in the output format. -/
def outMaxBits (code : Nat) (neg : Bool) : Nat :=
  let f := fpFmt code
  let m := if code = 4 then 0x7E else (2 ^ f.eb - 1) * 2 ^ f.mb - 1
  m + (if neg then 2 ^ (f.eb + f.mb) else 0)

def outInfBits (code : Nat) (neg : Bool) : Nat :=
  let f := fpFmt code
  (2 ^ f.eb - 1) * 2 ^ f.mb + (if neg then 2 ^ (f.eb + f.mb) else 0)

/-- R293: a value beyond the range, or an infinity, converts. -/
def overBits (h : HostModel) (neg : Bool) : Nat :=
  if h.sat then outMaxBits h.outFmt neg
  else if h.outFmt = 4 then outNan 4
  else outInfBits h.outFmt neg

/-- R294: S rounded to the output format; −0 is written +0. -/
def roundOut (h : HostModel) (s : Int) : Nat :=
  let f := fpFmt h.outFmt
  let neg := decide (s < 0)
  let u := ulpExp h.outFmt s.natAbs
  let n := rne s.natAbs (2 ^ u)
  if outMax h.outFmt < n * 2 ^ u then overBits h neg
  else if n = 0 then 0
  else
    let sgn := if neg then 2 ^ (f.eb + f.mb) else 0
    let e := u + f.mb + f.bias - 576
    if n < 2 ^ f.mb then (if h.ftz then 0 else n + sgn)
    else if n = 2 ^ (f.mb + 1) then (e + 1) * 2 ^ f.mb + sgn
    else e * 2 ^ f.mb + (n - 2 ^ f.mb) + sgn

/-- R298: the value INT32 output requires. -/
def intOut (h : HostModel) (s : Int) : Int :=
  let v := asr s 576
  if h.intSat then max (-(2 ^ 31)) (min (2 ^ 31 - 1) v) else toSigned 32 (ofSigned 32 v)

/-- R294: the checker value. -/
def checkerValue (h : HostModel) (c : Acc) : Nat :=
  if h.outFmt = 0xB then ofSigned 32 (intOut h c.s)
  else
    match c.special with
    | some .nan => outNan h.outFmt
    | some (.inf n) => overBits h n
    | _ => roundOut h c.s

/-- A judgement: the outcome code of R298 and the excess of R299. -/
structure Judged where
  out    : Nat
  excess : Int := 0
deriving DecidableEq, Repr

/-- R299. -/
def excessOf (l r : Int) : Int :=
  if r ≤ 0 then 127
  else max (-128) (min 127 ((Nat.log2 l.natAbs : Int) - (Nat.log2 r.natAbs : Int)))

/-- R297: the host value matches an expected special value. -/
def matchesSpecial (h : HostModel) (e x : Elem) (w : Nat) : Bool :=
  match e with
  | .inf n => if h.sat then w == outMaxBits h.outFmt n else if h.outFmt == 4 then x == .nan else x == .inf n
  | _ => x == .nan

/-- The host value's element, in units of 2⁻⁵⁷⁶. -/
def hostElem (h : HostModel) (w : Nat) : Elem :=
  match elemOf h.outFmt w false with
  | .fin v => .fin (v * 2 ^ 427)
  | e => e

/-- The judgement of a finite expected value in a floating-point format (R295, R296, R298). -/
def judgeFinite (h : HostModel) (d : Nat) (c : Acc) (x : Elem) : Judged :=
  let X : Int := if h.acc = 0 then 1 else (h.twoQ : Int) - d
  let bd : Int := if h.acc = 0 then 0 else (d : Int) * c.a + X * ((d : Int) * h.eta)
  let M : Int := outMax h.outFmt
  let hf : Int := outHalf h.outFmt
  let big : Bool := match h.tAcc with | some t => decide (t ≤ c.a) | none => false
  let may := fun (sg : Int) => if h.outFmt = 4 then decide (X * (M + hf) < X * (sg * c.s) + bd) else decide (X * (M + hf) ≤ X * (sg * c.s) + bd)
  let other : Judged := if big then { out := 3 } else { out := 2 }
  match x with
  | .fin v =>
    if h.sat && decide (v.natAbs = outMax h.outFmt) then
      let sg : Int := if v < 0 then -1 else 1
      let l := (M - hf) * X
      let r := X * (sg * c.s) + bd
      if l ≤ r then { out := 0 }
      else if big then { out := 3 }
      else { out := 1, excess := excessOf l r }
    else
      let l := X * ((v - c.s).natAbs : Int)
      let r := bd + X * (halfUlp h.outFmt h.ftz v : Int)
      if l ≤ r then { out := 0 } else { out := 1, excess := excessOf l r }
  | .inf n => if !h.sat && may (if n then -1 else 1) then { out := 0 } else other
  | .nan => if !h.sat && h.outFmt == 4 && (may 1 || may (-1)) then { out := 0 } else other

/-- R298: the outcome of one element with host value `w`. -/
def judge (h : HostModel) (d : Nat) (c : Acc) (w : Nat) : Judged :=
  if h.outFmt = 0xB then
    let e := intOut h c.s
    let l := (toSigned 32 w - e)
    if l = 0 then { out := 0 } else { out := 1, excess := excessOf l 1 }
  else
    let x := hostElem h w
    match c.special with
    | some e => if matchesSpecial h e x w then { out := 0 } else { out := 2 }
    | none => if h.acc != 0 && decide (h.twoQ ≤ d) then { out := 3 } else judgeFinite h d c x

/-- Rank of an outcome for the worst element: special, exceed, unbounded, agree (R300). -/
def outRank (o : Nat) : Nat := match o with | 2 => 3 | 1 => 2 | 3 => 1 | _ => 0

/-- The running summary: counts by outcome code, and the worst element so far. -/
structure Worst where
  counts : List Nat := [0, 0, 0, 0]
  best   : Option (Nat × Nat × Judged × Nat × Nat) := none
deriving DecidableEq, Repr

/-- R300: one more element, taken in row order, so an equal one does not replace an earlier. -/
def Worst.add (s : Worst) (row col : Nat) (j : Judged) (chk host : Nat) : Worst :=
  let better := match s.best with
    | none => true
    | some (_, _, b, _, _) => decide (outRank b.out < outRank j.out) || (j.out == b.out && decide (b.excess < j.excess))
  { counts := modAt s.counts j.out (· + 1), best := if better then some (row, col, j, chk, host) else s.best }

/-- The host value as the summary writes it: −0 as +0. -/
def plusZero (code w : Nat) : Nat := if code ≠ 0xB ∧ w = 2 ^ (fmtBits code - 1) then 0 else w

/-- R300: the summary of a tile. -/
def tileSummary (h : HostModel) (k : Nat) (rows cols : List OpRow) (host : List (List Nat)) : List Byte :=
  let d := h.d k
  let s := (rows.zipIdx.zip host).foldl (fun s ((r, i), hs) =>
    (cols.zipIdx.zip hs).foldl (fun s ((c, j), w) =>
      let a := accOf r c
      s.add i j (judge h d a w) (checkerValue h a) (plusZero h.outFmt w)) s) ({} : Worst)
  let b := s.best.getD (0, 0, { out := 0 }, 0, 0)
  let ex := if b.2.2.1.out = 1 then ofSigned 8 b.2.2.1.excess else 0
  leBytes 2 (s.counts.getD 0 0) ++ leBytes 2 (s.counts.getD 1 0) ++ leBytes 2 (s.counts.getD 2 0) ++ leBytes 2 (s.counts.getD 3 0) ++
    leBytes 1 b.1 ++ leBytes 1 b.2.1 ++ leBytes 1 b.2.2.1.out ++ leBytes 1 ex ++ leBytes 4 b.2.2.2.1 ++ leBytes 4 b.2.2.2.2 ++
    leBytes 4 (min d (2 ^ 32 - 1)) ++ leBytes 1 h.num ++
    leBytes 1 (b2n (h.acc != 0 && decide (h.twoQ ≤ d)) + 2 * b2n h.ftz) ++ leBytes 6 0

/-! ### Rules of a host model (R280, R303) -/

def formOk (fmt : Nat) (scaled : Bool) : Bool :=
  if fmt = 1 ∨ fmt = 2 ∨ fmt = 3 then !scaled
  else if fmt = 6 ∨ fmt = 7 ∨ fmt = 8 then scaled
  else decide (4 ≤ fmt ∧ fmt ≤ 0xA)

/-- R303's rules 1–6, over a model's three registers; `mode` and `acc` out of range fail too (R302). -/
def hostModelOk (wi wo wa : Nat) : Bool :=
  let af := bits wi 0 4
  let bf := bits wi 8 4
  let asc := bit wi 4
  let bsc := bit wi 12
  let out := bits wo 0 4
  let acc := bits wa 0 3
  let order := bits wa 8 2
  let chunk := bits wa 16 10
  if af = 0 then wi % 2 ^ 13 == 0 && wo % 2 ^ 7 == 0 && wa == 0
  else
    decide (1 ≤ af ∧ af ≤ 0xA ∧ 1 ≤ bf ∧ bf ≤ 0xA) && formOk af asc && formOk bf bsc && decide (bits wo 4 2 ≤ 1) &&
    (decide (1 ≤ out ∧ out ≤ 5) || out == 0xB) && decide (acc ≤ 4) &&
    (if out = 0xB then (af == 9 || af == 0xA) && (bf == 9 || bf == 0xA) && !asc && !bsc && acc == 0 else !(bit wo 6)) &&
    (if 2 ≤ order then decide (1 ≤ chunk ∧ chunk ≤ 1024) else chunk == 0) &&
    (acc != 0 || (!(bit wa 3) && !(bit wa 4) && order == 0 && chunk == 0))

/-- Bits per element at the rate class of the wider operand (R282): 32, 16 or 8. -/
def rateClass (a b : Nat) : Nat :=
  if a = 1 ∨ b = 1 then 32 else if a = 2 ∨ b = 2 ∨ a = 3 ∨ b = 3 then 16 else 8

end Sys2Proof.Machine
end

