-- ==== Sys2Proof/Machine/RegNames.lean ====
section
/-! DEFINITION. The registers of the window by name: one `Fld` for every field of every register table of the
spec (chapters 00 to 17), with its byte offset (R10), lowest bit and width as those tables give them.
A register family `X_n` at `base + stride n` takes its indices as arguments. -/

namespace Sys2Proof.Machine

/-- A field of a register: the register's byte offset in the window, the lowest bit and the width. -/
structure Fld where
  off : Nat
  lo  : Nat
  w   : Nat
deriving DecidableEq, Repr

namespace Reg


/-! ### R5, 00_scope.md -/
def GL_VERSION : Nat := 0x00000
def GL_VERSION_major : Fld := { off := GL_VERSION, lo := 16, w := 16 }
def GL_VERSION_minor : Fld := { off := GL_VERSION, lo := 0, w := 16 }
def GL_ROLE : Nat := 0x00004
def GL_ROLE_role : Fld := { off := GL_ROLE, lo := 0, w := 1 }
def GL_DUTY : Nat := 0x00008
def GL_DUTY_duty : Fld := { off := GL_DUTY, lo := 0, w := 2 }
def GL_PLACE : Nat := 0x0000C
def GL_PLACE_valid : Fld := { off := GL_PLACE, lo := 31, w := 1 }
def GL_PLACE_cube : Fld := { off := GL_PLACE, lo := 17, w := 11 }
def GL_PLACE_ident : Fld := { off := GL_PLACE, lo := 0, w := 17 }
def GL_BUILD : Nat := 0x00010
def GL_BUILD_plov_fmt : Fld := { off := GL_BUILD, lo := 13, w := 1 }
def GL_BUILD_plov_qe : Fld := { off := GL_BUILD, lo := 12, w := 1 }
def GL_BUILD_link_taps : Fld := { off := GL_BUILD, lo := 5, w := 4 }
def GL_BUILD_mem_taps : Fld := { off := GL_BUILD, lo := 0, w := 5 }
def GL_SCRATCH : Nat := 0x00014
def GL_SCRATCH_scratch : Fld := { off := GL_SCRATCH, lo := 0, w := 32 }
def GL_JOB : Nat := 0x00018
def GL_JOB_job : Fld := { off := GL_JOB, lo := 0, w := 12 }

/-! ### R122, 03_clocks_power_reset.md -/
def PM_STATE : Nat := 0x01000
def PM_STATE_hold_work : Fld := { off := PM_STATE, lo := 12, w := 1 }
def PM_STATE_hold_ctrl : Fld := { off := PM_STATE, lo := 11, w := 1 }
def PM_STATE_hold_read : Fld := { off := PM_STATE, lo := 10, w := 1 }
def PM_STATE_hold_tap : Fld := { off := PM_STATE, lo := 9, w := 1 }
def PM_STATE_hold_reg : Fld := { off := PM_STATE, lo := 8, w := 1 }
def PM_STATE_ack : Fld := { off := PM_STATE, lo := 5, w := 1 }
def PM_STATE_req : Fld := { off := PM_STATE, lo := 4, w := 1 }
def PM_STATE_state : Fld := { off := PM_STATE, lo := 0, w := 3 }
def PM_CTRL : Nat := 0x01004
def PM_CTRL_stay_awake : Fld := { off := PM_CTRL, lo := 0, w := 1 }
def PM_IDLE_HOLD : Nat := 0x01008
def PM_IDLE_HOLD_cycles : Fld := { off := PM_IDLE_HOLD, lo := 0, w := 16 }
def PM_FAULT : Nat := 0x0100C
def PM_FAULT_pmbus : Fld := { off := PM_FAULT, lo := 7, w := 1 }
def PM_FAULT_vin_over : Fld := { off := PM_FAULT, lo := 6, w := 1 }
def PM_FAULT_vin_under : Fld := { off := PM_FAULT, lo := 5, w := 1 }
def PM_FAULT_sensor_crit : Fld := { off := PM_FAULT, lo := 4, w := 1 }
def PM_FAULT_sensor_range : Fld := { off := PM_FAULT, lo := 3, w := 1 }
def PM_FAULT_reset_order : Fld := { off := PM_FAULT, lo := 2, w := 1 }
def PM_FAULT_wake_late : Fld := { off := PM_FAULT, lo := 1, w := 1 }
def PM_FAULT_clock_loss : Fld := { off := PM_FAULT, lo := 0, w := 1 }
def PM_RESET_CAUSE : Nat := 0x01010
def PM_RESET_CAUSE_warm_key : Fld := { off := PM_RESET_CAUSE, lo := 2, w := 1 }
def PM_RESET_CAUSE_fast_pin : Fld := { off := PM_RESET_CAUSE, lo := 1, w := 1 }
def PM_RESET_CAUSE_power_on : Fld := { off := PM_RESET_CAUSE, lo := 0, w := 1 }
def PM_BOOT : Nat := 0x01014
def PM_BOOT_warm_count : Fld := { off := PM_BOOT, lo := 16, w := 16 }
def PM_BOOT_fail_code : Fld := { off := PM_BOOT, lo := 8, w := 8 }
def PM_BOOT_failed : Fld := { off := PM_BOOT, lo := 4, w := 1 }
def PM_BOOT_stage : Fld := { off := PM_BOOT, lo := 0, w := 4 }
def PM_WARM : Nat := 0x01018
def PM_WARM_key : Fld := { off := PM_WARM, lo := 0, w := 16 }
def PM_WAKES : Nat := 0x0101C
def PM_WAKES_count : Fld := { off := PM_WAKES, lo := 0, w := 32 }
def PM_WAKE_MAX : Nat := 0x01020
def PM_WAKE_MAX_cycles : Fld := { off := PM_WAKE_MAX, lo := 0, w := 16 }
def PM_THR : Nat := 0x01024
def PM_THR_src : Fld := { off := PM_THR, lo := 9, w := 3 }
def PM_THR_busy : Fld := { off := PM_THR, lo := 8, w := 1 }
def PM_THR_grant : Fld := { off := PM_THR, lo := 4, w := 3 }
def PM_THR_level : Fld := { off := PM_THR, lo := 0, w := 3 }
def PM_THR_FW : Nat := 0x01028
def PM_THR_FW_level : Fld := { off := PM_THR_FW, lo := 0, w := 3 }
def PM_THR_DIFF : Nat := 0x0102C
def PM_THR_DIFF_count : Fld := { off := PM_THR_DIFF, lo := 0, w := 32 }
def PM_VIN : Nat := 0x01030
def PM_VIN_valid : Fld := { off := PM_VIN, lo := 18, w := 1 }
def PM_VIN_state : Fld := { off := PM_VIN, lo := 16, w := 2 }
def PM_VIN_mv : Fld := { off := PM_VIN, lo := 0, w := 16 }
def PM_VIN_LIM : Nat := 0x01034
def PM_VIN_LIM_uv_crit : Fld := { off := PM_VIN_LIM, lo := 16, w := 16 }
def PM_VIN_LIM_uv_warn : Fld := { off := PM_VIN_LIM, lo := 0, w := 16 }
def PM_VIN_OV : Nat := 0x01038
def PM_VIN_OV_hyst : Fld := { off := PM_VIN_OV, lo := 16, w := 16 }
def PM_VIN_OV_ov_warn : Fld := { off := PM_VIN_OV, lo := 0, w := 16 }
def PM_PB_CFG : Nat := 0x0103C
def PM_PB_CFG_thr_uv_crit : Fld := { off := PM_PB_CFG, lo := 27, w := 3 }
def PM_PB_CFG_thr_uv_warn : Fld := { off := PM_PB_CFG, lo := 24, w := 3 }
def PM_PB_CFG_vin_en : Fld := { off := PM_PB_CFG, lo := 23, w := 1 }
def PM_PB_CFG_vin_addr : Fld := { off := PM_PB_CFG, lo := 16, w := 7 }
def PM_PB_CFG_poll_us : Fld := { off := PM_PB_CFG, lo := 0, w := 16 }
def PM_PB_CMD : Nat := 0x01040
def PM_PB_CMD_page : Fld := { off := PM_PB_CMD, lo := 24, w := 8 }
def PM_PB_CMD_page_en : Fld := { off := PM_PB_CMD, lo := 19, w := 1 }
def PM_PB_CMD_go : Fld := { off := PM_PB_CMD, lo := 18, w := 1 }
def PM_PB_CMD_word : Fld := { off := PM_PB_CMD, lo := 17, w := 1 }
def PM_PB_CMD_pec : Fld := { off := PM_PB_CMD, lo := 16, w := 1 }
def PM_PB_CMD_code : Fld := { off := PM_PB_CMD, lo := 8, w := 8 }
def PM_PB_CMD_addr : Fld := { off := PM_PB_CMD, lo := 0, w := 7 }
def PM_PB_RSP : Nat := 0x01044
def PM_PB_RSP_status : Fld := { off := PM_PB_RSP, lo := 24, w := 8 }
def PM_PB_RSP_done : Fld := { off := PM_PB_RSP, lo := 16, w := 1 }
def PM_PB_RSP_data : Fld := { off := PM_PB_RSP, lo := 0, w := 16 }
def PM_DROOP_k (k : Nat) : Nat := 0x01080 + 4 * k
def PM_DROOP_k_count (k : Nat) : Fld := { off := PM_DROOP_k k, lo := 0, w := 32 }
def PM_SN_VAL_n (n : Nat) : Nat := 0x01400 + 4 * n
def PM_SN_VAL_n_state (n : Nat) : Fld := { off := PM_SN_VAL_n n, lo := 16, w := 2 }
def PM_SN_VAL_n_value (n : Nat) : Fld := { off := PM_SN_VAL_n n, lo := 0, w := 16 }
def PM_SN_THR_n (n : Nat) : Nat := 0x01800 + 8 * n
def PM_SN_THR_n_crit (n : Nat) : Fld := { off := PM_SN_THR_n n, lo := 16, w := 16 }
def PM_SN_THR_n_warn (n : Nat) : Fld := { off := PM_SN_THR_n n, lo := 0, w := 16 }
def PM_SN_CFG_n (n : Nat) : Nat := 0x01804 + 8 * n
def PM_SN_CFG_n_hyst (n : Nat) : Fld := { off := PM_SN_CFG_n n, lo := 16, w := 8 }
def PM_SN_CFG_n_thr_crit (n : Nat) : Fld := { off := PM_SN_CFG_n n, lo := 8, w := 3 }
def PM_SN_CFG_n_thr_warn (n : Nat) : Fld := { off := PM_SN_CFG_n n, lo := 4, w := 3 }
def PM_SN_CFG_n_kind (n : Nat) : Fld := { off := PM_SN_CFG_n n, lo := 0, w := 3 }

/-! ### R159, 04_hoist.md -/
def HO_STATUS : Nat := 0x02000
def HO_STATUS_feed_free : Fld := { off := HO_STATUS, lo := 16, w := 9 }
def HO_STATUS_last : Fld := { off := HO_STATUS, lo := 8, w := 8 }
def HO_STATUS_copy_busy : Fld := { off := HO_STATUS, lo := 3, w := 1 }
def HO_STATUS_commit_busy : Fld := { off := HO_STATUS, lo := 2, w := 1 }
def HO_STATUS_load_busy : Fld := { off := HO_STATUS, lo := 1, w := 1 }
def HO_CTRL : Nat := 0x02004
def HO_CTRL_require_sig : Fld := { off := HO_CTRL, lo := 2, w := 1 }
def HO_CTRL_discard : Fld := { off := HO_CTRL, lo := 1, w := 1 }
def HO_WRITERS : Nat := 0x02008
def HO_WRITERS_internal : Fld := { off := HO_WRITERS, lo := 14, w := 2 }
def HO_WRITERS_allow : Fld := { off := HO_WRITERS, lo := 0, w := 14 }
def HO_LIVE_SEL : Nat := 0x0200C
def HO_LIVE_SEL_live : Fld := { off := HO_LIVE_SEL, lo := 0, w := 16 }
def HO_SRC_LO : Nat := 0x02010
def HO_SRC_LO_addr_lo : Fld := { off := HO_SRC_LO, lo := 6, w := 26 }
def HO_SRC_HI : Nat := 0x02014
def HO_SRC_HI_kind : Fld := { off := HO_SRC_HI, lo := 30, w := 2 }
def HO_SRC_HI_addr_hi : Fld := { off := HO_SRC_HI, lo := 0, w := 20 }
def HO_SRC_LEN : Nat := 0x02018
def HO_SRC_LEN_bytes : Fld := { off := HO_SRC_LEN, lo := 0, w := 32 }
def HO_LOAD : Nat := 0x0201C
def HO_LOAD_go : Fld := { off := HO_LOAD, lo := 0, w := 1 }
def HO_FEED : Nat := 0x02020
def HO_FEED_word : Fld := { off := HO_FEED, lo := 0, w := 32 }
def HO_COMMIT : Nat := 0x02024
def HO_COMMIT_go : Fld := { off := HO_COMMIT, lo := 16, w := 1 }
def HO_COMMIT_gen : Fld := { off := HO_COMMIT, lo := 0, w := 16 }
def HO_RESULT : Nat := 0x02028
def HO_RESULT_commit_code : Fld := { off := HO_RESULT, lo := 24, w := 8 }
def HO_RESULT_load_code : Fld := { off := HO_RESULT, lo := 16, w := 8 }
def HO_RESULT_commit_gen : Fld := { off := HO_RESULT, lo := 0, w := 16 }
def HO_LIVE : Nat := 0x0202C
def HO_LIVE_valid : Fld := { off := HO_LIVE, lo := 31, w := 1 }
def HO_LIVE_signed : Fld := { off := HO_LIVE, lo := 30, w := 1 }
def HO_LIVE_direct : Fld := { off := HO_LIVE, lo := 29, w := 1 }
def HO_LIVE_fmt_ver : Fld := { off := HO_LIVE, lo := 16, w := 8 }
def HO_LIVE_gen : Fld := { off := HO_LIVE, lo := 0, w := 16 }
def HO_SHADOW : Nat := 0x02030
def HO_SHADOW_dirty : Fld := { off := HO_SHADOW, lo := 31, w := 1 }
def HO_SHADOW_image : Fld := { off := HO_SHADOW, lo := 30, w := 1 }
def HO_SHADOW_taint : Fld := { off := HO_SHADOW, lo := 16, w := 8 }
def HO_SHADOW_image_gen : Fld := { off := HO_SHADOW, lo := 0, w := 16 }
def HO_FAIL : Nat := 0x02034
def HO_FAIL_code : Fld := { off := HO_FAIL, lo := 24, w := 8 }
def HO_FAIL_bundle : Fld := { off := HO_FAIL, lo := 0, w := 24 }
def HO_DRAIN_TO : Nat := 0x02038
def HO_DRAIN_TO_us : Fld := { off := HO_DRAIN_TO, lo := 0, w := 16 }
def HO_COMMITS : Nat := 0x0203C
def HO_COMMITS_failed : Fld := { off := HO_COMMITS, lo := 16, w := 16 }
def HO_COMMITS_ok : Fld := { off := HO_COMMITS, lo := 0, w := 16 }
def HO_REFUSALS : Nat := 0x02040
def HO_REFUSALS_live : Fld := { off := HO_REFUSALS, lo := 16, w := 16 }
def HO_REFUSALS_shadow : Fld := { off := HO_REFUSALS, lo := 0, w := 16 }
def HO_PENDING : Nat := 0x02044
def HO_PENDING_count : Fld := { off := HO_PENDING, lo := 0, w := 16 }
def HO_PEND_EPOCH : Nat := 0x02048
def HO_PEND_EPOCH_epoch : Fld := { off := HO_PEND_EPOCH, lo := 0, w := 32 }
def HO_FMT_N : Nat := 0x02050
def HO_FMT_N_count : Fld := { off := HO_FMT_N, lo := 0, w := 32 }
def HO_FMT_N1 : Nat := 0x02054
def HO_FMT_N1_count : Fld := { off := HO_FMT_N1, lo := 0, w := 32 }
def HO_FMT_PLOV : Nat := 0x02058
def HO_FMT_PLOV_count : Fld := { off := HO_FMT_PLOV, lo := 0, w := 32 }
def HO_FMT_REF : Nat := 0x0205C
def HO_FMT_REF_count : Fld := { off := HO_FMT_REF, lo := 0, w := 32 }
def HO_LANE_FMT_n (n : Nat) : Nat := 0x02080 + 4 * n
def HO_LANE_FMT_n_kind (n : Nat) : Fld := { off := HO_LANE_FMT_n n, lo := 8, w := 2 }
def HO_LANE_FMT_n_fmt_ver (n : Nat) : Fld := { off := HO_LANE_FMT_n n, lo := 0, w := 8 }
def HO_DIGEST_k (k : Nat) : Nat := 0x02100 + 4 * k
def HO_DIGEST_k_value (k : Nat) : Fld := { off := HO_DIGEST_k k, lo := 0, w := 32 }

/-! ### R198, 05_queues_interrupts.md -/
def QE_STATUS : Nat := 0x04000
def QE_STATUS_halted : Fld := { off := QE_STATUS, lo := 16, w := 16 }
def QE_STATUS_busy : Fld := { off := QE_STATUS, lo := 0, w := 16 }
def QE_PRED : Nat := 0x04004
def QE_PRED_bits : Fld := { off := QE_PRED, lo := 0, w := 16 }
def QE_PRED_SET : Nat := 0x04008
def QE_PRED_SET_bits : Fld := { off := QE_PRED_SET, lo := 0, w := 16 }
def QE_PRED_CLR : Nat := 0x0400C
def QE_PRED_CLR_bits : Fld := { off := QE_PRED_CLR, lo := 0, w := 16 }
def QE_FLAGS_LO : Nat := 0x04010
def QE_FLAGS_LO_flags : Fld := { off := QE_FLAGS_LO, lo := 0, w := 32 }
def QE_FLAGS_HI : Nat := 0x04014
def QE_FLAGS_HI_flags : Fld := { off := QE_FLAGS_HI, lo := 0, w := 32 }
def QE_FLAG_SET : Nat := 0x04018
def QE_FLAG_SET_flag : Fld := { off := QE_FLAG_SET, lo := 0, w := 6 }
def QE_FLAG_CLR : Nat := 0x0401C
def QE_FLAG_CLR_flag : Fld := { off := QE_FLAG_CLR, lo := 0, w := 6 }
def QE_CYCLE : Nat := 0x04020
def QE_CYCLE_valid : Fld := { off := QE_CYCLE, lo := 31, w := 1 }
def QE_CYCLE_flag : Fld := { off := QE_CYCLE, lo := 24, w := 6 }
def QE_CYCLE_closer : Fld := { off := QE_CYCLE, lo := 16, w := 4 }
def QE_CYCLE_members : Fld := { off := QE_CYCLE, lo := 0, w := 16 }
def QE_CYCLES : Nat := 0x04024
def QE_CYCLES_count : Fld := { off := QE_CYCLES, lo := 0, w := 32 }
def QE_WDOG : Nat := 0x04028
def QE_WDOG_us : Fld := { off := QE_WDOG, lo := 0, w := 24 }
def QE_WIN_SEL : Nat := 0x0402C
def QE_WIN_SEL_bank : Fld := { off := QE_WIN_SEL, lo := 0, w := 16 }
def QE_FLAG_CFG_f (f : Nat) : Nat := 0x04100 + 4 * f
def QE_FLAG_CFG_f_rank (f : Nat) : Fld := { off := QE_FLAG_CFG_f f, lo := 8, w := 6 }
def QE_FLAG_CFG_f_plov (f : Nat) : Fld := { off := QE_FLAG_CFG_f f, lo := 7, w := 1 }
def QE_FLAG_CFG_f_owner (f : Nat) : Fld := { off := QE_FLAG_CFG_f f, lo := 0, w := 5 }
def QE_Qn_CFG (q : Nat) : Nat := 0x04400 + 64 * q
def QE_Qn_CFG_cpl_ents (q : Nat) : Fld := { off := QE_Qn_CFG q, lo := 8, w := 9 }
def QE_Qn_CFG_cpl_dest (q : Nat) : Fld := { off := QE_Qn_CFG q, lo := 0, w := 2 }
def QE_Qn_BOUND (q : Nat) : Nat := 0x04404 + 64 * q
def QE_Qn_BOUND_us (q : Nat) : Fld := { off := QE_Qn_BOUND q, lo := 0, w := 24 }
def QE_Qn_PROG (q : Nat) : Nat := 0x04408 + 64 * q
def QE_Qn_PROG_mode (q : Nat) : Fld := { off := QE_Qn_PROG q, lo := 9, w := 1 }
def QE_Qn_PROG_loop (q : Nat) : Fld := { off := QE_Qn_PROG q, lo := 8, w := 1 }
def QE_Qn_PROG_count (q : Nat) : Fld := { off := QE_Qn_PROG q, lo := 0, w := 8 }
def QE_Qn_CPL_LO (q : Nat) : Nat := 0x0440C + 64 * q
def QE_Qn_CPL_LO_addr_lo (q : Nat) : Fld := { off := QE_Qn_CPL_LO q, lo := 6, w := 26 }
def QE_Qn_CPL_HI (q : Nat) : Nat := 0x04410 + 64 * q
def QE_Qn_CPL_HI_addr_hi (q : Nat) : Fld := { off := QE_Qn_CPL_HI q, lo := 0, w := 20 }
def QE_Qn_HEAD (q : Nat) : Nat := 0x04414 + 64 * q
def QE_Qn_HEAD_bank (q : Nat) : Fld := { off := QE_Qn_HEAD q, lo := 8, w := 1 }
def QE_Qn_HEAD_head (q : Nat) : Fld := { off := QE_Qn_HEAD q, lo := 0, w := 8 }
def QE_Qn_TAIL (q : Nat) : Nat := 0x04418 + 64 * q
def QE_Qn_TAIL_tail (q : Nat) : Fld := { off := QE_Qn_TAIL q, lo := 0, w := 8 }
def QE_Qn_SWAP (q : Nat) : Nat := 0x0441C + 64 * q
def QE_Qn_SWAP_go (q : Nat) : Fld := { off := QE_Qn_SWAP q, lo := 16, w := 1 }
def QE_Qn_SWAP_loop (q : Nat) : Fld := { off := QE_Qn_SWAP q, lo := 8, w := 1 }
def QE_Qn_SWAP_count (q : Nat) : Fld := { off := QE_Qn_SWAP q, lo := 0, w := 8 }
def QE_Qn_CTRL (q : Nat) : Nat := 0x04420 + 64 * q
def QE_Qn_CTRL_reset (q : Nat) : Fld := { off := QE_Qn_CTRL q, lo := 1, w := 1 }
def QE_Qn_CTRL_resume (q : Nat) : Fld := { off := QE_Qn_CTRL q, lo := 0, w := 1 }
def QE_Qn_STATE (q : Nat) : Nat := 0x04424 + 64 * q
def QE_Qn_STATE_last (q : Nat) : Fld := { off := QE_Qn_STATE q, lo := 24, w := 8 }
def QE_Qn_STATE_inflight (q : Nat) : Fld := { off := QE_Qn_STATE q, lo := 20, w := 4 }
def QE_Qn_STATE_swap_pend (q : Nat) : Fld := { off := QE_Qn_STATE q, lo := 17, w := 1 }
def QE_Qn_STATE_edge (q : Nat) : Fld := { off := QE_Qn_STATE q, lo := 16, w := 1 }
def QE_Qn_STATE_swap_code (q : Nat) : Fld := { off := QE_Qn_STATE q, lo := 8, w := 8 }
def QE_Qn_STATE_state (q : Nat) : Fld := { off := QE_Qn_STATE q, lo := 0, w := 2 }
def QE_Qn_FAULT (q : Nat) : Nat := 0x04428 + 64 * q
def QE_Qn_FAULT_status (q : Nat) : Fld := { off := QE_Qn_FAULT q, lo := 24, w := 8 }
def QE_Qn_FAULT_bank (q : Nat) : Fld := { off := QE_Qn_FAULT q, lo := 8, w := 1 }
def QE_Qn_FAULT_slot (q : Nat) : Fld := { off := QE_Qn_FAULT q, lo := 0, w := 8 }
def QE_Qn_CPL_WR (q : Nat) : Nat := 0x0442C + 64 * q
def QE_Qn_CPL_WR_count (q : Nat) : Fld := { off := QE_Qn_CPL_WR q, lo := 0, w := 32 }
def QE_Qn_CPL_RD (q : Nat) : Nat := 0x04430 + 64 * q
def QE_Qn_CPL_RD_count (q : Nat) : Fld := { off := QE_Qn_CPL_RD q, lo := 0, w := 32 }
def QE_Qn_LOST (q : Nat) : Nat := 0x04434 + 64 * q
def QE_Qn_LOST_count (q : Nat) : Fld := { off := QE_Qn_LOST q, lo := 0, w := 32 }
def QE_Qn_TALLY (q : Nat) : Nat := 0x04438 + 64 * q
def QE_Qn_TALLY_skipped (q : Nat) : Fld := { off := QE_Qn_TALLY q, lo := 16, w := 16 }
def QE_Qn_TALLY_faulted (q : Nat) : Fld := { off := QE_Qn_TALLY q, lo := 8, w := 8 }
def QE_Qn_TALLY_refused (q : Nat) : Fld := { off := QE_Qn_TALLY q, lo := 0, w := 8 }
def QE_Qn_RANKB (q : Nat) : Nat := 0x0443C + 64 * q
def QE_Qn_RANKB_count (q : Nat) : Fld := { off := QE_Qn_RANKB q, lo := 0, w := 32 }

/-! ### R199, 05_queues_interrupts.md -/
def IC_DOORBELL : Nat := 0x06000
def IC_DOORBELL_source : Fld := { off := IC_DOORBELL, lo := 0, w := 11 }
def IC_CLAIM_H : Nat := 0x06004
def IC_CLAIM_H_source : Fld := { off := IC_CLAIM_H, lo := 0, w := 11 }
def IC_CLAIM_S : Nat := 0x06008
def IC_CLAIM_S_source : Fld := { off := IC_CLAIM_S, lo := 0, w := 11 }
def IC_STATUS : Nat := 0x0600C
def IC_STATUS_host_line : Fld := { off := IC_STATUS, lo := 31, w := 1 }
def IC_STATUS_stew_line : Fld := { off := IC_STATUS, lo := 30, w := 1 }
def IC_STATUS_highest : Fld := { off := IC_STATUS, lo := 0, w := 11 }
def IC_INFO : Nat := 0x06010
def IC_INFO_sources : Fld := { off := IC_INFO, lo := 0, w := 11 }
def IC_DB_BAD : Nat := 0x06014
def IC_DB_BAD_count : Fld := { off := IC_DB_BAD, lo := 0, w := 32 }
def IC_COALESCED : Nat := 0x06018
def IC_COALESCED_count : Fld := { off := IC_COALESCED, lo := 0, w := 32 }
def IC_WAKES : Nat := 0x0601C
def IC_WAKES_count : Fld := { off := IC_WAKES, lo := 0, w := 32 }
def IC_WATCH_k (k : Nat) : Nat := 0x06080 + 4 * k
def IC_WATCH_k_en (k : Nat) : Fld := { off := IC_WATCH_k k, lo := 31, w := 1 }
def IC_WATCH_k_source (k : Nat) : Fld := { off := IC_WATCH_k k, lo := 0, w := 11 }
def IC_PEND_k (k : Nat) : Nat := 0x06100 + 4 * k
def IC_PEND_k_pend (k : Nat) : Fld := { off := IC_PEND_k k, lo := 0, w := 32 }
def IC_EN_H_k (k : Nat) : Nat := 0x06200 + 4 * k
def IC_EN_H_k_en (k : Nat) : Fld := { off := IC_EN_H_k k, lo := 0, w := 32 }
def IC_EN_S_k (k : Nat) : Nat := 0x06300 + 4 * k
def IC_EN_S_k_en (k : Nat) : Fld := { off := IC_EN_S_k k, lo := 0, w := 32 }
def IC_NOTE_LO_e (e : Nat) : Nat := 0x06400 + 16 * e
def IC_NOTE_LO_e_addr_lo (e : Nat) : Fld := { off := IC_NOTE_LO_e e, lo := 2, w := 30 }
def IC_NOTE_HI_e (e : Nat) : Nat := 0x06404 + 16 * e
def IC_NOTE_HI_e_en (e : Nat) : Fld := { off := IC_NOTE_HI_e e, lo := 31, w := 1 }
def IC_NOTE_HI_e_len8 (e : Nat) : Fld := { off := IC_NOTE_HI_e e, lo := 24, w := 1 }
def IC_NOTE_HI_e_addr_hi (e : Nat) : Fld := { off := IC_NOTE_HI_e e, lo := 0, w := 20 }
def IC_NOTE_DATA_e (e : Nat) : Nat := 0x06408 + 16 * e
def IC_NOTE_DATA_e_data (e : Nat) : Fld := { off := IC_NOTE_DATA_e e, lo := 0, w := 32 }
def IC_NOTE_SEQ_e (e : Nat) : Nat := 0x0640C + 16 * e
def IC_NOTE_SEQ_e_seq (e : Nat) : Fld := { off := IC_NOTE_SEQ_e e, lo := 0, w := 32 }

/-! ### R223, 06_fleet_time.md -/
def TB_RAW_LO : Nat := 0x08000
def TB_RAW_LO_value : Fld := { off := TB_RAW_LO, lo := 0, w := 32 }
def TB_RAW_HI : Nat := 0x08004
def TB_RAW_HI_value : Fld := { off := TB_RAW_HI, lo := 0, w := 32 }
def TB_NOW_LO : Nat := 0x08008
def TB_NOW_LO_value : Fld := { off := TB_NOW_LO, lo := 0, w := 32 }
def TB_NOW_HI : Nat := 0x0800C
def TB_NOW_HI_value : Fld := { off := TB_NOW_HI, lo := 0, w := 32 }
def TB_OFF_LO : Nat := 0x08010
def TB_OFF_LO_value : Fld := { off := TB_OFF_LO, lo := 0, w := 32 }
def TB_OFF_HI : Nat := 0x08014
def TB_OFF_HI_value : Fld := { off := TB_OFF_HI, lo := 0, w := 32 }
def TB_RATE : Nat := 0x08018
def TB_RATE_rate : Fld := { off := TB_RATE, lo := 0, w := 32 }
def TB_FREQ : Nat := 0x0801C
def TB_FREQ_freq : Fld := { off := TB_FREQ, lo := 0, w := 32 }
def TB_CTRL : Nat := 0x08020
def TB_CTRL_hold : Fld := { off := TB_CTRL, lo := 1, w := 1 }
def TB_CTRL_servo : Fld := { off := TB_CTRL, lo := 0, w := 1 }
def TB_ALIGN : Nat := 0x08024
def TB_ALIGN_fine : Fld := { off := TB_ALIGN, lo := 7, w := 1 }
def TB_ALIGN_parent_ok : Fld := { off := TB_ALIGN, lo := 6, w := 1 }
def TB_ALIGN_hops : Fld := { off := TB_ALIGN, lo := 2, w := 4 }
def TB_ALIGN_state : Fld := { off := TB_ALIGN, lo := 0, w := 2 }
def TB_LAST_OFS : Nat := 0x08028
def TB_LAST_OFS_ticks : Fld := { off := TB_LAST_OFS, lo := 0, w := 32 }
def TB_LAST_DLY : Nat := 0x0802C
def TB_LAST_DLY_ticks : Fld := { off := TB_LAST_DLY, lo := 0, w := 32 }
def TB_PARENT : Nat := 0x08030
def TB_PARENT_ptray : Fld := { off := TB_PARENT, lo := 16, w := 14 }
def TB_PARENT_port : Fld := { off := TB_PARENT, lo := 4, w := 2 }
def TB_PARENT_ext : Fld := { off := TB_PARENT, lo := 2, w := 1 }
def TB_PARENT_kind : Fld := { off := TB_PARENT, lo := 0, w := 2 }
def TB_SYNC_CFG : Nat := 0x08034
def TB_SYNC_CFG_miss : Fld := { off := TB_SYNC_CFG, lo := 28, w := 4 }
def TB_SYNC_CFG_ki_shift : Fld := { off := TB_SYNC_CFG, lo := 24, w := 4 }
def TB_SYNC_CFG_win : Fld := { off := TB_SYNC_CFG, lo := 16, w := 6 }
def TB_SYNC_CFG_period_us : Fld := { off := TB_SYNC_CFG, lo := 0, w := 16 }
def TB_LIMITS : Nat := 0x08038
def TB_LIMITS_step : Fld := { off := TB_LIMITS, lo := 16, w := 16 }
def TB_LIMITS_align : Fld := { off := TB_LIMITS, lo := 0, w := 16 }
def TB_LAT_LANE : Nat := 0x0803C
def TB_LAT_LANE_rx : Fld := { off := TB_LAT_LANE, lo := 16, w := 16 }
def TB_LAT_LANE_tx : Fld := { off := TB_LAT_LANE, lo := 0, w := 16 }
def TB_LAT_EN : Nat := 0x08040
def TB_LAT_EN_rx : Fld := { off := TB_LAT_EN, lo := 16, w := 16 }
def TB_LAT_EN_tx : Fld := { off := TB_LAT_EN, lo := 0, w := 16 }
def TB_TOD_SLO : Nat := 0x08044
def TB_TOD_SLO_sec_lo : Fld := { off := TB_TOD_SLO, lo := 0, w := 32 }
def TB_TOD_SHI : Nat := 0x08048
def TB_TOD_SHI_sec_hi : Fld := { off := TB_TOD_SHI, lo := 0, w := 16 }
def TB_TOD_NS : Nat := 0x0804C
def TB_TOD_NS_ns : Fld := { off := TB_TOD_NS, lo := 0, w := 30 }
def TB_PPS_LO : Nat := 0x08050
def TB_PPS_LO_value : Fld := { off := TB_PPS_LO, lo := 0, w := 32 }
def TB_PPS_HI : Nat := 0x08054
def TB_PPS_HI_value : Fld := { off := TB_PPS_HI, lo := 0, w := 32 }
def TB_PPS_CNT : Nat := 0x08058
def TB_PPS_CNT_no_tod : Fld := { off := TB_PPS_CNT, lo := 16, w := 16 }
def TB_PPS_CNT_steer : Fld := { off := TB_PPS_CNT, lo := 0, w := 16 }
def TB_EXCH : Nat := 0x0805C
def TB_EXCH_lost : Fld := { off := TB_EXCH, lo := 16, w := 16 }
def TB_EXCH_done : Fld := { off := TB_EXCH, lo := 0, w := 16 }
def TB_EVENTS : Nat := 0x08060
def TB_EVENTS_holdovers : Fld := { off := TB_EVENTS, lo := 16, w := 16 }
def TB_EVENTS_steps : Fld := { off := TB_EVENTS, lo := 0, w := 16 }
def TB_STRIKE_LO : Nat := 0x08064
def TB_STRIKE_LO_value : Fld := { off := TB_STRIKE_LO, lo := 0, w := 32 }
def TB_STRIKE_HI : Nat := 0x08068
def TB_STRIKE_HI_value : Fld := { off := TB_STRIKE_HI, lo := 0, w := 32 }
def TB_STRIKE_ID : Nat := 0x0806C
def TB_STRIKE_ID_fleet : Fld := { off := TB_STRIKE_ID, lo := 31, w := 1 }
def TB_STRIKE_ID_late : Fld := { off := TB_STRIKE_ID, lo := 30, w := 1 }
def TB_STRIKE_ID_issuer : Fld := { off := TB_STRIKE_ID, lo := 16, w := 14 }
def TB_STRIKE_ID_seq : Fld := { off := TB_STRIKE_ID, lo := 0, w := 16 }
def TB_STRIKE_PEND : Nat := 0x08070
def TB_STRIKE_PEND_count : Fld := { off := TB_STRIKE_PEND, lo := 0, w := 3 }
def TB_PLS_AT_LO_k (k : Nat) : Nat := 0x08100 + 32 * k
def TB_PLS_AT_LO_k_value (k : Nat) : Fld := { off := TB_PLS_AT_LO_k k, lo := 0, w := 32 }
def TB_PLS_AT_HI_k (k : Nat) : Nat := 0x08104 + 32 * k
def TB_PLS_AT_HI_k_value (k : Nat) : Fld := { off := TB_PLS_AT_HI_k k, lo := 0, w := 32 }
def TB_PLS_PER_LO_k (k : Nat) : Nat := 0x08108 + 32 * k
def TB_PLS_PER_LO_k_value (k : Nat) : Fld := { off := TB_PLS_PER_LO_k k, lo := 0, w := 32 }
def TB_PLS_PER_HI_k (k : Nat) : Nat := 0x0810C + 32 * k
def TB_PLS_PER_HI_k_value (k : Nat) : Fld := { off := TB_PLS_PER_HI_k k, lo := 0, w := 32 }
def TB_PLS_CTRL_k (k : Nat) : Nat := 0x08110 + 32 * k
def TB_PLS_CTRL_k_width (k : Nat) : Fld := { off := TB_PLS_CTRL_k k, lo := 16, w := 16 }
def TB_PLS_CTRL_k_fine (k : Nat) : Fld := { off := TB_PLS_CTRL_k k, lo := 2, w := 1 }
def TB_PLS_CTRL_k_irq (k : Nat) : Fld := { off := TB_PLS_CTRL_k k, lo := 1, w := 1 }
def TB_PLS_CTRL_k_en (k : Nat) : Fld := { off := TB_PLS_CTRL_k k, lo := 0, w := 1 }
def TB_PLS_FIRED_k (k : Nat) : Nat := 0x08114 + 32 * k
def TB_PLS_FIRED_k_skipped (k : Nat) : Fld := { off := TB_PLS_FIRED_k k, lo := 16, w := 16 }
def TB_PLS_FIRED_k_fired (k : Nat) : Fld := { off := TB_PLS_FIRED_k k, lo := 0, w := 16 }
def TB_PLS_NEXT_LO_k (k : Nat) : Nat := 0x08118 + 32 * k
def TB_PLS_NEXT_LO_k_value (k : Nat) : Fld := { off := TB_PLS_NEXT_LO_k k, lo := 0, w := 32 }
def TB_PLS_NEXT_HI_k (k : Nat) : Nat := 0x0811C + 32 * k
def TB_PLS_NEXT_HI_k_value (k : Nat) : Fld := { off := TB_PLS_NEXT_HI_k k, lo := 0, w := 32 }
def TB_CAP_LO_k (k : Nat) : Nat := 0x08200 + 16 * k
def TB_CAP_LO_k_value (k : Nat) : Fld := { off := TB_CAP_LO_k k, lo := 0, w := 32 }
def TB_CAP_HI_k (k : Nat) : Nat := 0x08204 + 16 * k
def TB_CAP_HI_k_value (k : Nat) : Fld := { off := TB_CAP_HI_k k, lo := 0, w := 32 }
def TB_CAP_CNT_k (k : Nat) : Nat := 0x08208 + 16 * k
def TB_CAP_CNT_k_over (k : Nat) : Fld := { off := TB_CAP_CNT_k k, lo := 16, w := 16 }
def TB_CAP_CNT_k_edges (k : Nat) : Fld := { off := TB_CAP_CNT_k k, lo := 0, w := 16 }
def TB_CAP_CTRL_k (k : Nat) : Nat := 0x0820C + 16 * k
def TB_CAP_CTRL_k_fine (k : Nat) : Fld := { off := TB_CAP_CTRL_k k, lo := 2, w := 1 }
def TB_CAP_CTRL_k_irq (k : Nat) : Fld := { off := TB_CAP_CTRL_k k, lo := 1, w := 1 }
def TB_CAP_CTRL_k_en (k : Nat) : Fld := { off := TB_CAP_CTRL_k k, lo := 0, w := 1 }

/-! ### R244, 07_counters_sampling.md -/
def CF_STATUS : Nat := 0x10000
def CF_STATUS_banks : Fld := { off := CF_STATUS, lo := 5, w := 3 }
def CF_STATUS_holding : Fld := { off := CF_STATUS, lo := 4, w := 1 }
def CF_CTRL : Nat := 0x10004
def CF_CTRL_hold_ev : Fld := { off := CF_CTRL, lo := 0, w := 1 }
def CF_BUF_PAGE : Nat := 0x10008
def CF_BUF_PAGE_page : Fld := { off := CF_BUF_PAGE, lo := 0, w := 3 }
def CF_RECORDS : Nat := 0x1000C
def CF_RECORDS_count : Fld := { off := CF_RECORDS, lo := 0, w := 32 }
def CF_GAP_LO : Nat := 0x10010
def CF_GAP_LO_value : Fld := { off := CF_GAP_LO, lo := 0, w := 32 }
def CF_GAP_HI : Nat := 0x10014
def CF_GAP_HI_value : Fld := { off := CF_GAP_HI, lo := 0, w := 32 }
def CF_SNAP_CFG : Nat := 0x10020
def CF_SNAP_CFG_en : Fld := { off := CF_SNAP_CFG, lo := 31, w := 1 }
def CF_SNAP_CFG_area : Fld := { off := CF_SNAP_CFG, lo := 0, w := 4 }
def CF_SNAP_TIME_LO : Nat := 0x10024
def CF_SNAP_TIME_LO_value : Fld := { off := CF_SNAP_TIME_LO, lo := 0, w := 32 }
def CF_SNAP_TIME_HI : Nat := 0x10028
def CF_SNAP_TIME_HI_value : Fld := { off := CF_SNAP_TIME_HI, lo := 0, w := 32 }
def CF_SNAP_OFF : Nat := 0x1002C
def CF_SNAP_OFF_valid : Fld := { off := CF_SNAP_OFF, lo := 31, w := 1 }
def CF_SNAP_OFF_offset : Fld := { off := CF_SNAP_OFF, lo := 0, w := 19 }
def CF_PLAN_CFG_p (p : Nat) : Nat := 0x12000 + 64 * p
def CF_PLAN_CFG_p_kind (p : Nat) : Fld := { off := CF_PLAN_CFG_p p, lo := 31, w := 1 }
def CF_PLAN_CFG_p_base (p : Nat) : Fld := { off := CF_PLAN_CFG_p p, lo := 20, w := 11 }
def CF_PLAN_CFG_p_len (p : Nat) : Fld := { off := CF_PLAN_CFG_p p, lo := 0, w := 9 }
def CF_PLAN_IVL_p (p : Nat) : Nat := 0x12004 + 64 * p
def CF_PLAN_IVL_p_us (p : Nat) : Fld := { off := CF_PLAN_IVL_p p, lo := 0, w := 32 }
def CF_PLAN_START_LO_p (p : Nat) : Nat := 0x12008 + 64 * p
def CF_PLAN_START_LO_p_value (p : Nat) : Fld := { off := CF_PLAN_START_LO_p p, lo := 0, w := 32 }
def CF_PLAN_START_HI_p (p : Nat) : Nat := 0x1200C + 64 * p
def CF_PLAN_START_HI_p_value (p : Nat) : Fld := { off := CF_PLAN_START_HI_p p, lo := 0, w := 32 }
def CF_AREA_p (p : Nat) : Nat := 0x12010 + 64 * p
def CF_AREA_p_mode (p : Nat) : Fld := { off := CF_AREA_p p, lo := 31, w := 1 }
def CF_AREA_p_size (p : Nat) : Fld := { off := CF_AREA_p p, lo := 16, w := 15 }
def CF_AREA_p_base (p : Nat) : Fld := { off := CF_AREA_p p, lo := 0, w := 14 }
def CF_AREA_WR_p (p : Nat) : Nat := 0x12014 + 64 * p
def CF_AREA_WR_p_bytes (p : Nat) : Fld := { off := CF_AREA_WR_p p, lo := 0, w := 32 }
def CF_AREA_RD_p (p : Nat) : Nat := 0x12018 + 64 * p
def CF_AREA_RD_p_bytes (p : Nat) : Fld := { off := CF_AREA_RD_p p, lo := 0, w := 32 }
def CF_AREA_DROP_p (p : Nat) : Nat := 0x1201C + 64 * p
def CF_AREA_DROP_p_refused (p : Nat) : Fld := { off := CF_AREA_DROP_p p, lo := 16, w := 16 }
def CF_AREA_DROP_p_dropped (p : Nat) : Fld := { off := CF_AREA_DROP_p p, lo := 0, w := 16 }
def CF_PLAN_NEXT_LO_p (p : Nat) : Nat := 0x12020 + 64 * p
def CF_PLAN_NEXT_LO_p_value (p : Nat) : Fld := { off := CF_PLAN_NEXT_LO_p p, lo := 0, w := 32 }
def CF_PLAN_NEXT_HI_p (p : Nat) : Nat := 0x12024 + 64 * p
def CF_PLAN_NEXT_HI_p_value (p : Nat) : Fld := { off := CF_PLAN_NEXT_HI_p p, lo := 0, w := 32 }
def CF_PLAN_TALLY_p (p : Nat) : Nat := 0x12028 + 64 * p
def CF_PLAN_TALLY_p_missed (p : Nat) : Fld := { off := CF_PLAN_TALLY_p p, lo := 16, w := 16 }
def CF_PLAN_TALLY_p_fired (p : Nat) : Fld := { off := CF_PLAN_TALLY_p p, lo := 0, w := 16 }
def CF_HQ_CFG_h (h : Nat) : Nat := 0x13000 + 16 * h
def CF_HQ_CFG_h_en (h : Nat) : Fld := { off := CF_HQ_CFG_h h, lo := 31, w := 1 }
def CF_HQ_CFG_h_deq (h : Nat) : Fld := { off := CF_HQ_CFG_h h, lo := 16, w := 10 }
def CF_HQ_CFG_h_enq (h : Nat) : Fld := { off := CF_HQ_CFG_h h, lo := 0, w := 10 }
def CF_HQ_DEPTH_h (h : Nat) : Nat := 0x13004 + 16 * h
def CF_HQ_DEPTH_h_depth (h : Nat) : Fld := { off := CF_HQ_DEPTH_h h, lo := 0, w := 32 }
def CF_HQ_MAX_h (h : Nat) : Nat := 0x13008 + 16 * h
def CF_HQ_MAX_h_max (h : Nat) : Fld := { off := CF_HQ_MAX_h h, lo := 0, w := 32 }
def CF_HQ_DELAY_h (h : Nat) : Nat := 0x1300C + 16 * h
def CF_HQ_DELAY_h_ticks (h : Nat) : Fld := { off := CF_HQ_DELAY_h h, lo := 0, w := 32 }
def CF_XB_k (k : Nat) : Nat := 0x14000 + 4 * k
def CF_XB_k_en (k : Nat) : Fld := { off := CF_XB_k k, lo := 31, w := 1 }
def CF_XB_k_edge (k : Nat) : Fld := { off := CF_XB_k k, lo := 30, w := 1 }
def CF_XB_k_sat (k : Nat) : Fld := { off := CF_XB_k k, lo := 29, w := 1 }
def CF_XB_k_input (k : Nat) : Fld := { off := CF_XB_k k, lo := 0, w := 10 }
def CF_BTX_b (b : Nat) : Nat := 0x15000 + 4 * b
def CF_BTX_b_en (b : Nat) : Fld := { off := CF_BTX_b b, lo := 31, w := 1 }
def CF_BTX_b_sat (b : Nat) : Fld := { off := CF_BTX_b b, lo := 29, w := 1 }
def CF_BTX_b_input (b : Nat) : Fld := { off := CF_BTX_b b, lo := 0, w := 7 }
def CF_LIST_i (i : Nat) : Nat := 0x16000 + 4 * i
def CF_LIST_i_index (i : Nat) : Fld := { off := CF_LIST_i i, lo := 0, w := 11 }
def CF_EV_LO_k (k : Nat) : Nat := 0x18000 + 8 * k
def CF_EV_LO_k_value_lo (k : Nat) : Fld := { off := CF_EV_LO_k k, lo := 0, w := 32 }
def CF_EV_HI_k (k : Nat) : Nat := 0x18004 + 8 * k
def CF_EV_HI_k_gap (k : Nat) : Fld := { off := CF_EV_HI_k k, lo := 18, w := 1 }
def CF_EV_HI_k_sat (k : Nat) : Fld := { off := CF_EV_HI_k k, lo := 17, w := 1 }
def CF_EV_HI_k_wrap (k : Nat) : Fld := { off := CF_EV_HI_k k, lo := 16, w := 1 }
def CF_EV_HI_k_value_hi (k : Nat) : Fld := { off := CF_EV_HI_k k, lo := 0, w := 16 }
def CF_BT_LO_b (b : Nat) : Nat := 0x1A000 + 8 * b
def CF_BT_LO_b_value_lo (b : Nat) : Fld := { off := CF_BT_LO_b b, lo := 0, w := 32 }
def CF_BT_HI_b (b : Nat) : Nat := 0x1A004 + 8 * b
def CF_BT_HI_b_gap (b : Nat) : Fld := { off := CF_BT_HI_b b, lo := 18, w := 1 }
def CF_BT_HI_b_sat (b : Nat) : Fld := { off := CF_BT_HI_b b, lo := 17, w := 1 }
def CF_BT_HI_b_wrap (b : Nat) : Fld := { off := CF_BT_HI_b b, lo := 16, w := 1 }
def CF_BT_HI_b_value_hi (b : Nat) : Fld := { off := CF_BT_HI_b b, lo := 0, w := 16 }

/-! ### R276, 08_check_taps.md -/
def CK_STATUS : Nat := 0x20000
def CK_STATUS_rcp_inc : Fld := { off := CK_STATUS, lo := 31, w := 1 }
def CK_STATUS_trk_used : Fld := { off := CK_STATUS, lo := 0, w := 12 }
def CK_TRK_AGE : Nat := 0x20004
def CK_TRK_AGE_us : Fld := { off := CK_TRK_AGE, lo := 0, w := 16 }
def CK_RCP_AGE : Nat := 0x20008
def CK_RCP_AGE_ms : Fld := { off := CK_RCP_AGE, lo := 0, w := 16 }
def CK_TRK_PEAK : Nat := 0x2000C
def CK_TRK_PEAK_peak : Fld := { off := CK_TRK_PEAK, lo := 0, w := 12 }
def CK_FAULTS : Nat := 0x20010
def CK_FAULTS_link : Fld := { off := CK_FAULTS, lo := 16, w := 16 }
def CK_FAULTS_mem : Fld := { off := CK_FAULTS, lo := 0, w := 16 }
def CK_MISROUTES : Nat := 0x20014
def CK_MISROUTES_count : Fld := { off := CK_MISROUTES, lo := 0, w := 32 }
def CK_SUPP : Nat := 0x20018
def CK_SUPP_count : Fld := { off := CK_SUPP, lo := 0, w := 32 }
def CK_RCP_STAT : Nat := 0x2001C
def CK_RCP_STAT_evicted : Fld := { off := CK_RCP_STAT, lo := 16, w := 16 }
def CK_RCP_STAT_used : Fld := { off := CK_RCP_STAT, lo := 0, w := 12 }
def CK_RCP_INC_LO : Nat := 0x20020
def CK_RCP_INC_LO_value : Fld := { off := CK_RCP_INC_LO, lo := 0, w := 32 }
def CK_RCP_INC_HI : Nat := 0x20024
def CK_RCP_INC_HI_value : Fld := { off := CK_RCP_INC_HI, lo := 0, w := 32 }
def CK_LAST_SRC : Nat := 0x20028
def CK_LAST_SRC_code : Fld := { off := CK_LAST_SRC, lo := 24, w := 8 }
def CK_LAST_SRC_region : Fld := { off := CK_LAST_SRC, lo := 16, w := 8 }
def CK_LAST_SRC_src : Fld := { off := CK_LAST_SRC, lo := 8, w := 8 }
def CK_LAST_SRC_index_hi : Fld := { off := CK_LAST_SRC, lo := 0, w := 8 }
def CK_LAST_IDX : Nat := 0x2002C
def CK_LAST_IDX_value : Fld := { off := CK_LAST_IDX, lo := 0, w := 32 }
def CK_LAST_NAME_LO : Nat := 0x20030
def CK_LAST_NAME_LO_value : Fld := { off := CK_LAST_NAME_LO, lo := 0, w := 32 }
def CK_LAST_NAME_HI : Nat := 0x20034
def CK_LAST_NAME_HI_value : Fld := { off := CK_LAST_NAME_HI, lo := 0, w := 32 }
def CK_LAST_STEP : Nat := 0x20038
def CK_LAST_STEP_value : Fld := { off := CK_LAST_STEP, lo := 0, w := 32 }
def CK_LAST_WANT : Nat := 0x2003C
def CK_LAST_WANT_value : Fld := { off := CK_LAST_WANT, lo := 0, w := 32 }
def CK_LAST_GOT : Nat := 0x20040
def CK_LAST_GOT_value : Fld := { off := CK_LAST_GOT, lo := 0, w := 32 }
def CK_SNAP_CHK_LO : Nat := 0x20048
def CK_SNAP_CHK_LO_value : Fld := { off := CK_SNAP_CHK_LO, lo := 0, w := 32 }
def CK_SNAP_CHK_HI : Nat := 0x2004C
def CK_SNAP_CHK_HI_value : Fld := { off := CK_SNAP_CHK_HI, lo := 0, w := 32 }
def CK_SNAP_UNC_LO : Nat := 0x20050
def CK_SNAP_UNC_LO_value : Fld := { off := CK_SNAP_UNC_LO, lo := 0, w := 32 }
def CK_SNAP_UNC_HI : Nat := 0x20054
def CK_SNAP_UNC_HI_value : Fld := { off := CK_SNAP_UNC_HI, lo := 0, w := 32 }
def CK_SNAP_TRK : Nat := 0x20058
def CK_SNAP_TRK_trk : Fld := { off := CK_SNAP_TRK, lo := 0, w := 12 }
def CK_UNC_c (c : Nat) : Nat := 0x20080 + 4 * c
def CK_UNC_c_count (c : Nat) : Fld := { off := CK_UNC_c c, lo := 0, w := 32 }
def CK_MT_CFG_m (m : Nat) : Nat := 0x21000 + 64 * m
def CK_MT_CFG_m_en (m : Nat) : Fld := { off := CK_MT_CFG_m m, lo := 0, w := 1 }
def CK_MT_EVT_m (m : Nat) : Nat := 0x21004 + 64 * m
def CK_MT_EVT_m_err (m : Nat) : Fld := { off := CK_MT_EVT_m m, lo := 16, w := 16 }
def CK_MT_EVT_m_drops (m : Nat) : Fld := { off := CK_MT_EVT_m m, lo := 0, w := 16 }
def CK_MT_CHK_LO_m (m : Nat) : Nat := 0x21008 + 64 * m
def CK_MT_CHK_LO_m_value (m : Nat) : Fld := { off := CK_MT_CHK_LO_m m, lo := 0, w := 32 }
def CK_MT_CHK_HI_m (m : Nat) : Nat := 0x2100C + 64 * m
def CK_MT_CHK_HI_m_value (m : Nat) : Fld := { off := CK_MT_CHK_HI_m m, lo := 0, w := 32 }
def CK_MT_UNC_LO_m (m : Nat) : Nat := 0x21010 + 64 * m
def CK_MT_UNC_LO_m_value (m : Nat) : Fld := { off := CK_MT_UNC_LO_m m, lo := 0, w := 32 }
def CK_MT_UNC_HI_m (m : Nat) : Nat := 0x21014 + 64 * m
def CK_MT_UNC_HI_m_value (m : Nat) : Fld := { off := CK_MT_UNC_HI_m m, lo := 0, w := 32 }
def CK_MT_EXM_LO_m (m : Nat) : Nat := 0x21018 + 64 * m
def CK_MT_EXM_LO_m_value (m : Nat) : Fld := { off := CK_MT_EXM_LO_m m, lo := 0, w := 32 }
def CK_MT_EXM_HI_m (m : Nat) : Nat := 0x2101C + 64 * m
def CK_MT_EXM_HI_m_value (m : Nat) : Fld := { off := CK_MT_EXM_HI_m m, lo := 0, w := 32 }
def CK_MT_OUT_LO_m (m : Nat) : Nat := 0x21020 + 64 * m
def CK_MT_OUT_LO_m_value (m : Nat) : Fld := { off := CK_MT_OUT_LO_m m, lo := 0, w := 32 }
def CK_MT_OUT_HI_m (m : Nat) : Nat := 0x21024 + 64 * m
def CK_MT_OUT_HI_m_value (m : Nat) : Fld := { off := CK_MT_OUT_HI_m m, lo := 0, w := 32 }
def CK_LT_CFG_l (l : Nat) : Nat := 0x22000 + 64 * l
def CK_LT_CFG_l_tail (l : Nat) : Fld := { off := CK_LT_CFG_l l, lo := 16, w := 8 }
def CK_LT_CFG_l_hdr (l : Nat) : Fld := { off := CK_LT_CFG_l l, lo := 8, w := 8 }
def CK_LT_CFG_l_rcp (l : Nat) : Fld := { off := CK_LT_CFG_l l, lo := 3, w := 1 }
def CK_LT_CFG_l_ingr (l : Nat) : Fld := { off := CK_LT_CFG_l l, lo := 2, w := 1 }
def CK_LT_CFG_l_egr (l : Nat) : Fld := { off := CK_LT_CFG_l l, lo := 1, w := 1 }
def CK_LT_CFG_l_en (l : Nat) : Fld := { off := CK_LT_CFG_l l, lo := 0, w := 1 }
def CK_LT_SEL_l (l : Nat) : Nat := 0x22004 + 64 * l
def CK_LT_SEL_l_val (l : Nat) : Fld := { off := CK_LT_SEL_l l, lo := 24, w := 8 }
def CK_LT_SEL_l_mask (l : Nat) : Fld := { off := CK_LT_SEL_l l, lo := 16, w := 8 }
def CK_LT_SEL_l_off (l : Nat) : Fld := { off := CK_LT_SEL_l l, lo := 0, w := 16 }
def CK_LT_EVT_l (l : Nat) : Nat := 0x22008 + 64 * l
def CK_LT_EVT_l_lost (l : Nat) : Fld := { off := CK_LT_EVT_l l, lo := 16, w := 16 }
def CK_LT_EVT_l_desync (l : Nat) : Fld := { off := CK_LT_EVT_l l, lo := 0, w := 16 }
def CK_LT_STATE_l (l : Nat) : Nat := 0x2200C + 64 * l
def CK_LT_STATE_l_egr_sync (l : Nat) : Fld := { off := CK_LT_STATE_l l, lo := 1, w := 1 }
def CK_LT_STATE_l_ingr_sync (l : Nat) : Fld := { off := CK_LT_STATE_l l, lo := 0, w := 1 }
def CK_LT_CHK_LO_l (l : Nat) : Nat := 0x22010 + 64 * l
def CK_LT_CHK_LO_l_value (l : Nat) : Fld := { off := CK_LT_CHK_LO_l l, lo := 0, w := 32 }
def CK_LT_CHK_HI_l (l : Nat) : Nat := 0x22014 + 64 * l
def CK_LT_CHK_HI_l_value (l : Nat) : Fld := { off := CK_LT_CHK_HI_l l, lo := 0, w := 32 }
def CK_LT_UNC_LO_l (l : Nat) : Nat := 0x22018 + 64 * l
def CK_LT_UNC_LO_l_value (l : Nat) : Fld := { off := CK_LT_UNC_LO_l l, lo := 0, w := 32 }
def CK_LT_UNC_HI_l (l : Nat) : Nat := 0x2201C + 64 * l
def CK_LT_UNC_HI_l_value (l : Nat) : Fld := { off := CK_LT_UNC_HI_l l, lo := 0, w := 32 }
def CK_LT_OUT_LO_l (l : Nat) : Nat := 0x22020 + 64 * l
def CK_LT_OUT_LO_l_value (l : Nat) : Fld := { off := CK_LT_OUT_LO_l l, lo := 0, w := 32 }
def CK_LT_OUT_HI_l (l : Nat) : Nat := 0x22024 + 64 * l
def CK_LT_OUT_HI_l_value (l : Nat) : Fld := { off := CK_LT_OUT_HI_l l, lo := 0, w := 32 }
def CK_RG_BASE_LO_r (r : Nat) : Nat := 0x24000 + 32 * r
def CK_RG_BASE_LO_r_addr_lo (r : Nat) : Fld := { off := CK_RG_BASE_LO_r r, lo := 8, w := 24 }
def CK_RG_BASE_HI_r (r : Nat) : Nat := 0x24004 + 32 * r
def CK_RG_BASE_HI_r_addr_hi (r : Nat) : Fld := { off := CK_RG_BASE_HI_r r, lo := 0, w := 20 }
def CK_RG_SIZE_r (r : Nat) : Nat := 0x24008 + 32 * r
def CK_RG_SIZE_r_granules (r : Nat) : Fld := { off := CK_RG_SIZE_r r, lo := 0, w := 32 }
def CK_RG_CFG_r (r : Nat) : Nat := 0x2400C + 32 * r
def CK_RG_CFG_r_pair (r : Nat) : Fld := { off := CK_RG_CFG_r r, lo := 8, w := 6 }
def CK_RG_CFG_r_ilv (r : Nat) : Fld := { off := CK_RG_CFG_r r, lo := 6, w := 2 }
def CK_RG_CFG_r_idx_chk (r : Nat) : Fld := { off := CK_RG_CFG_r r, lo := 4, w := 1 }
def CK_RG_CFG_r_wr (r : Nat) : Fld := { off := CK_RG_CFG_r r, lo := 3, w := 1 }
def CK_RG_CFG_r_rd (r : Nat) : Fld := { off := CK_RG_CFG_r r, lo := 2, w := 1 }
def CK_RG_CFG_r_layout (r : Nat) : Fld := { off := CK_RG_CFG_r r, lo := 0, w := 2 }
def CK_RG_IDX_LO_r (r : Nat) : Nat := 0x24010 + 32 * r
def CK_RG_IDX_LO_r_idx_lo (r : Nat) : Fld := { off := CK_RG_IDX_LO_r r, lo := 0, w := 32 }
def CK_RG_IDX_HI_r (r : Nat) : Nat := 0x24014 + 32 * r
def CK_RG_IDX_HI_r_idx_hi (r : Nat) : Fld := { off := CK_RG_IDX_HI_r r, lo := 0, w := 8 }
def CK_ILV_CFG_s (s : Nat) : Nat := 0x26000 + 64 * s
def CK_ILV_CFG_s_present (s : Nat) : Fld := { off := CK_ILV_CFG_s s, lo := 16, w := 16 }
def CK_ILV_CFG_s_chans (s : Nat) : Fld := { off := CK_ILV_CFG_s s, lo := 0, w := 5 }
def CK_ILV_MAP_LO_s (s : Nat) : Nat := 0x26004 + 64 * s
def CK_ILV_MAP_LO_s_tap (s : Nat) : Fld := { off := CK_ILV_MAP_LO_s s, lo := 0, w := 32 }
def CK_ILV_MAP_HI_s (s : Nat) : Nat := 0x26008 + 64 * s
def CK_ILV_MAP_HI_s_tap (s : Nat) : Fld := { off := CK_ILV_MAP_HI_s s, lo := 0, w := 32 }
def CK_ILV_MASK_LO_s_j (s : Nat) (j : Nat) : Nat := 0x26010 + 64 * s + 8 * j
def CK_ILV_MASK_LO_s_j_mask_lo (s : Nat) (j : Nat) : Fld := { off := CK_ILV_MASK_LO_s_j s j, lo := 8, w := 24 }
def CK_ILV_MASK_HI_s_j (s : Nat) (j : Nat) : Nat := 0x26014 + 64 * s + 8 * j
def CK_ILV_MASK_HI_s_j_mask_hi (s : Nat) (j : Nat) : Fld := { off := CK_ILV_MASK_HI_s_j s j, lo := 0, w := 20 }

/-! ### R302, 09_spot_check_arithmetic.md -/
def XC_HM_IN_n (n : Nat) : Nat := 0x30800 + 16 * n
def XC_HM_IN_n_b_scale (n : Nat) : Fld := { off := XC_HM_IN_n n, lo := 12, w := 1 }
def XC_HM_IN_n_b_fmt (n : Nat) : Fld := { off := XC_HM_IN_n n, lo := 8, w := 4 }
def XC_HM_IN_n_ftz (n : Nat) : Fld := { off := XC_HM_IN_n n, lo := 5, w := 1 }
def XC_HM_IN_n_a_scale (n : Nat) : Fld := { off := XC_HM_IN_n n, lo := 4, w := 1 }
def XC_HM_IN_n_a_fmt (n : Nat) : Fld := { off := XC_HM_IN_n n, lo := 0, w := 4 }
def XC_HM_OUT_n (n : Nat) : Nat := 0x30804 + 16 * n
def XC_HM_OUT_n_int_sat (n : Nat) : Fld := { off := XC_HM_OUT_n n, lo := 6, w := 1 }
def XC_HM_OUT_n_mode (n : Nat) : Fld := { off := XC_HM_OUT_n n, lo := 4, w := 2 }
def XC_HM_OUT_n_out_fmt (n : Nat) : Fld := { off := XC_HM_OUT_n n, lo := 0, w := 4 }
def XC_HM_ACC_n (n : Nat) : Nat := 0x30808 + 16 * n
def XC_HM_ACC_n_chunk (n : Nat) : Fld := { off := XC_HM_ACC_n n, lo := 16, w := 10 }
def XC_HM_ACC_n_order (n : Nat) : Fld := { off := XC_HM_ACC_n n, lo := 8, w := 2 }
def XC_HM_ACC_n_prod_rnd (n : Nat) : Fld := { off := XC_HM_ACC_n n, lo := 4, w := 1 }
def XC_HM_ACC_n_rz (n : Nat) : Fld := { off := XC_HM_ACC_n n, lo := 3, w := 1 }
def XC_HM_ACC_n_acc (n : Nat) : Fld := { off := XC_HM_ACC_n n, lo := 0, w := 3 }

/-! ### R332, 10_spot_check_verdicts.md -/
def XC_STATUS : Nat := 0x30000
def XC_STATUS_arb_stage : Fld := { off := XC_STATUS, lo := 4, w := 2 }
def XC_STATUS_arb_wait : Fld := { off := XC_STATUS, lo := 2, w := 2 }
def XC_STATUS_busy_b : Fld := { off := XC_STATUS, lo := 1, w := 1 }
def XC_STATUS_busy_a : Fld := { off := XC_STATUS, lo := 0, w := 1 }
def XC_POLICY : Nat := 0x30004
def XC_POLICY_vr_all : Fld := { off := XC_POLICY, lo := 1, w := 1 }
def XC_POLICY_taint_inc : Fld := { off := XC_POLICY, lo := 0, w := 1 }
def XC_BOUND : Nat := 0x30008
def XC_BOUND_ms : Fld := { off := XC_BOUND, lo := 0, w := 16 }
def XC_SAMP_CFG : Nat := 0x3000C
def XC_SAMP_CFG_sensor : Fld := { off := XC_SAMP_CFG, lo := 24, w := 8 }
def XC_SAMP_CFG_t_shift : Fld := { off := XC_SAMP_CFG, lo := 20, w := 4 }
def XC_SAMP_CFG_l_shift : Fld := { off := XC_SAMP_CFG, lo := 16, w := 4 }
def XC_SAMP_CFG_hq : Fld := { off := XC_SAMP_CFG, lo := 8, w := 6 }
def XC_SAMP_CFG_en : Fld := { off := XC_SAMP_CFG, lo := 0, w := 1 }
def XC_SAMP_TBASE : Nat := 0x30010
def XC_SAMP_TBASE_t_base : Fld := { off := XC_SAMP_TBASE, lo := 0, w := 16 }
def XC_SAMP_BASE : Nat := 0x30014
def XC_SAMP_BASE_base : Fld := { off := XC_SAMP_BASE, lo := 0, w := 32 }
def XC_SAMP_SEED : Nat := 0x30018
def XC_SAMP_SEED_seed : Fld := { off := XC_SAMP_SEED, lo := 0, w := 32 }
def XC_VERDICTS : Nat := 0x3001C
def XC_VERDICTS_host : Fld := { off := XC_VERDICTS, lo := 24, w := 8 }
def XC_VERDICTS_checker : Fld := { off := XC_VERDICTS, lo := 16, w := 8 }
def XC_VERDICTS_data : Fld := { off := XC_VERDICTS, lo := 8, w := 8 }
def XC_VERDICTS_inconc : Fld := { off := XC_VERDICTS, lo := 0, w := 8 }
def XC_KAT : Nat := 0x30020
def XC_KAT_runs : Fld := { off := XC_KAT, lo := 16, w := 16 }
def XC_KAT_fails : Fld := { off := XC_KAT, lo := 0, w := 16 }
def XC_YJ : Nat := 0x30024
def XC_YJ_repeats : Fld := { off := XC_YJ, lo := 16, w := 16 }
def XC_YJ_local : Fld := { off := XC_YJ, lo := 2, w := 1 }
def XC_YJ_state : Fld := { off := XC_YJ, lo := 0, w := 2 }
def XC_YJ_CTRL : Nat := 0x30028
def XC_YJ_CTRL_drained : Fld := { off := XC_YJ_CTRL, lo := 0, w := 1 }
def XC_YJ_CFG : Nat := 0x3002C
def XC_YJ_CFG_drain_ms : Fld := { off := XC_YJ_CFG, lo := 0, w := 16 }
def XC_TAINT_CFG : Nat := 0x30030
def XC_TAINT_CFG_wide : Fld := { off := XC_TAINT_CFG, lo := 16, w := 1 }
def XC_TAINT_CFG_hold_ms : Fld := { off := XC_TAINT_CFG, lo := 0, w := 16 }
def XC_TAINTS : Nat := 0x30034
def XC_TAINTS_evicted : Fld := { off := XC_TAINTS, lo := 24, w := 8 }
def XC_TAINTS_merged : Fld := { off := XC_TAINTS, lo := 16, w := 8 }
def XC_TAINTS_received : Fld := { off := XC_TAINTS, lo := 8, w := 8 }
def XC_TAINTS_origin : Fld := { off := XC_TAINTS, lo := 0, w := 8 }
def XC_TAINT_MISS : Nat := 0x30038
def XC_TAINT_MISS_late : Fld := { off := XC_TAINT_MISS, lo := 16, w := 16 }
def XC_TAINT_MISS_refused : Fld := { off := XC_TAINT_MISS, lo := 0, w := 16 }
def XC_SNAP_OPS_LO : Nat := 0x30040
def XC_SNAP_OPS_LO_value : Fld := { off := XC_SNAP_OPS_LO, lo := 0, w := 32 }
def XC_SNAP_OPS_HI : Nat := 0x30044
def XC_SNAP_OPS_HI_value : Fld := { off := XC_SNAP_OPS_HI, lo := 0, w := 32 }
def XC_SNAP_TILES : Nat := 0x30048
def XC_SNAP_TILES_count : Fld := { off := XC_SNAP_TILES, lo := 0, w := 32 }
def XC_L_OPS_LO_L (L : Nat) : Nat := 0x30100 + 64 * L
def XC_L_OPS_LO_L_value (L : Nat) : Fld := { off := XC_L_OPS_LO_L L, lo := 0, w := 32 }
def XC_L_OPS_HI_L (L : Nat) : Nat := 0x30104 + 64 * L
def XC_L_OPS_HI_L_value (L : Nat) : Fld := { off := XC_L_OPS_HI_L L, lo := 0, w := 32 }
def XC_L_BUSY_LO_L (L : Nat) : Nat := 0x30108 + 64 * L
def XC_L_BUSY_LO_L_value (L : Nat) : Fld := { off := XC_L_BUSY_LO_L L, lo := 0, w := 32 }
def XC_L_BUSY_HI_L (L : Nat) : Nat := 0x3010C + 64 * L
def XC_L_BUSY_HI_L_value (L : Nat) : Fld := { off := XC_L_BUSY_HI_L L, lo := 0, w := 32 }
def XC_L_STALL_LO_L (L : Nat) : Nat := 0x30110 + 64 * L
def XC_L_STALL_LO_L_value (L : Nat) : Fld := { off := XC_L_STALL_LO_L L, lo := 0, w := 32 }
def XC_L_STALL_HI_L (L : Nat) : Nat := 0x30114 + 64 * L
def XC_L_STALL_HI_L_value (L : Nat) : Fld := { off := XC_L_STALL_HI_L L, lo := 0, w := 32 }
def XC_L_BYTES_LO_L (L : Nat) : Nat := 0x30118 + 64 * L
def XC_L_BYTES_LO_L_value (L : Nat) : Fld := { off := XC_L_BYTES_LO_L L, lo := 0, w := 32 }
def XC_L_BYTES_HI_L (L : Nat) : Nat := 0x3011C + 64 * L
def XC_L_BYTES_HI_L_value (L : Nat) : Fld := { off := XC_L_BYTES_HI_L L, lo := 0, w := 32 }
def XC_L_TILES_L (L : Nat) : Nat := 0x30120 + 64 * L
def XC_L_TILES_L_count (L : Nat) : Fld := { off := XC_L_TILES_L L, lo := 0, w := 32 }
def XC_VR_LO : Nat := 0x30200
def XC_VR_LO_addr_lo : Fld := { off := XC_VR_LO, lo := 6, w := 26 }
def XC_VR_HI : Nat := 0x30204
def XC_VR_HI_ents : Fld := { off := XC_VR_HI, lo := 20, w := 9 }
def XC_VR_HI_addr_hi : Fld := { off := XC_VR_HI, lo := 0, w := 20 }
def XC_VR_WR : Nat := 0x30208
def XC_VR_WR_count : Fld := { off := XC_VR_WR, lo := 0, w := 32 }
def XC_VR_RD : Nat := 0x3020C
def XC_VR_RD_count : Fld := { off := XC_VR_RD, lo := 0, w := 32 }
def XC_VR_LOST : Nat := 0x30210
def XC_VR_LOST_count : Fld := { off := XC_VR_LOST, lo := 0, w := 32 }
def XC_TR_LO : Nat := 0x30220
def XC_TR_LO_addr_lo : Fld := { off := XC_TR_LO, lo := 6, w := 26 }
def XC_TR_HI : Nat := 0x30224
def XC_TR_HI_ents : Fld := { off := XC_TR_HI, lo := 20, w := 9 }
def XC_TR_HI_addr_hi : Fld := { off := XC_TR_HI, lo := 0, w := 20 }
def XC_TR_WR : Nat := 0x30228
def XC_TR_WR_count : Fld := { off := XC_TR_WR, lo := 0, w := 32 }
def XC_TR_RD : Nat := 0x3022C
def XC_TR_RD_count : Fld := { off := XC_TR_RD, lo := 0, w := 32 }
def XC_TR_LOST : Nat := 0x30230
def XC_TR_LOST_count : Fld := { off := XC_TR_LOST, lo := 0, w := 32 }
def XC_TT_STEP_e (e : Nat) : Nat := 0x30300 + 8 * e
def XC_TT_STEP_e_step (e : Nat) : Fld := { off := XC_TT_STEP_e e, lo := 0, w := 32 }
def XC_TT_STATE_e (e : Nat) : Nat := 0x30304 + 8 * e
def XC_TT_STATE_e_valid (e : Nat) : Fld := { off := XC_TT_STATE_e e, lo := 31, w := 1 }
def XC_TT_STATE_e_incomplete (e : Nat) : Fld := { off := XC_TT_STATE_e e, lo := 30, w := 1 }
def XC_TT_STATE_e_sent (e : Nat) : Fld := { off := XC_TT_STATE_e e, lo := 0, w := 12 }
def XC_W_k (k : Nat) : Nat := 0x30C00 + 4 * k
def XC_W_k_w (k : Nat) : Fld := { off := XC_W_k k, lo := 0, w := 16 }
def XC_BIN_k (k : Nat) : Nat := 0x30E00 + 4 * k
def XC_BIN_k_offered (k : Nat) : Fld := { off := XC_BIN_k k, lo := 16, w := 16 }
def XC_BIN_k_accepted (k : Nat) : Fld := { off := XC_BIN_k k, lo := 0, w := 16 }

/-! ### R362, 11_scoring_engine.md -/
def SC_STATUS : Nat := 0x40000
def SC_STATUS_slots : Fld := { off := SC_STATUS, lo := 16, w := 16 }
def SC_STATUS_cmds : Fld := { off := SC_STATUS, lo := 0, w := 3 }
def SC_BOUND : Nat := 0x40004
def SC_BOUND_us : Fld := { off := SC_BOUND, lo := 0, w := 16 }
def SC_FS_CFG : Nat := 0x40008
def SC_FS_CFG_bank : Fld := { off := SC_FS_CFG, lo := 0, w := 1 }
def SC_PT_CFG : Nat := 0x4000C
def SC_PT_CFG_bank : Fld := { off := SC_PT_CFG, lo := 0, w := 1 }
def SC_WIN_SEL : Nat := 0x40010
def SC_WIN_SEL_table : Fld := { off := SC_WIN_SEL, lo := 16, w := 2 }
def SC_WIN_SEL_page : Fld := { off := SC_WIN_SEL, lo := 0, w := 8 }
def SC_ERRS : Nat := 0x40014
def SC_ERRS_xsrc : Fld := { off := SC_ERRS, lo := 16, w := 16 }
def SC_ERRS_depth : Fld := { off := SC_ERRS, lo := 8, w := 8 }
def SC_ERRS_bad : Fld := { off := SC_ERRS, lo := 0, w := 8 }
def SC_VECS_LO : Nat := 0x40018
def SC_VECS_LO_value : Fld := { off := SC_VECS_LO, lo := 0, w := 32 }
def SC_VECS_HI : Nat := 0x4001C
def SC_VECS_HI_value : Fld := { off := SC_VECS_HI, lo := 0, w := 32 }
def SC_VISITS_LO : Nat := 0x40020
def SC_VISITS_LO_value : Fld := { off := SC_VISITS_LO, lo := 0, w := 32 }
def SC_VISITS_HI : Nat := 0x40024
def SC_VISITS_HI_value : Fld := { off := SC_VISITS_HI, lo := 0, w := 32 }
def SC_DFLT_LO : Nat := 0x40028
def SC_DFLT_LO_value : Fld := { off := SC_DFLT_LO, lo := 0, w := 32 }
def SC_DFLT_HI : Nat := 0x4002C
def SC_DFLT_HI_value : Fld := { off := SC_DFLT_HI, lo := 0, w := 32 }
def SC_SNAP_VECS_LO : Nat := 0x40030
def SC_SNAP_VECS_LO_value : Fld := { off := SC_SNAP_VECS_LO, lo := 0, w := 32 }
def SC_SNAP_VECS_HI : Nat := 0x40034
def SC_SNAP_VECS_HI_value : Fld := { off := SC_SNAP_VECS_HI, lo := 0, w := 32 }
def SC_SNAP_VISITS_LO : Nat := 0x40038
def SC_SNAP_VISITS_LO_value : Fld := { off := SC_SNAP_VISITS_LO, lo := 0, w := 32 }
def SC_SNAP_VISITS_HI : Nat := 0x4003C
def SC_SNAP_VISITS_HI_value : Fld := { off := SC_SNAP_VISITS_HI, lo := 0, w := 32 }
def SC_LAST_FAULT : Nat := 0x40040
def SC_LAST_FAULT_code : Fld := { off := SC_LAST_FAULT, lo := 24, w := 8 }
def SC_LAST_FAULT_model : Fld := { off := SC_LAST_FAULT, lo := 16, w := 3 }
def SC_LAST_FAULT_vidx : Fld := { off := SC_LAST_FAULT, lo := 0, w := 16 }
def SC_LAST_NODE : Nat := 0x40044
def SC_LAST_NODE_tree : Fld := { off := SC_LAST_NODE, lo := 18, w := 13 }
def SC_LAST_NODE_entry : Fld := { off := SC_LAST_NODE, lo := 0, w := 18 }
def SC_MD_BASE_m (m : Nat) : Nat := 0x40100 + 32 * m
def SC_MD_BASE_m_base (m : Nat) : Fld := { off := SC_MD_BASE_m m, lo := 0, w := 18 }
def SC_MD_SPAN_m (m : Nat) : Nat := 0x40104 + 32 * m
def SC_MD_SPAN_m_depth_max (m : Nat) : Fld := { off := SC_MD_SPAN_m m, lo := 24, w := 6 }
def SC_MD_SPAN_m_span (m : Nat) : Fld := { off := SC_MD_SPAN_m m, lo := 0, w := 19 }
def SC_MD_CFG_m (m : Nat) : Nat := 0x40108 + 32 * m
def SC_MD_CFG_m_prob_en (m : Nat) : Fld := { off := SC_MD_CFG_m m, lo := 31, w := 1 }
def SC_MD_CFG_m_vec_slots (m : Nat) : Fld := { off := SC_MD_CFG_m m, lo := 16, w := 11 }
def SC_MD_CFG_m_ntrees (m : Nat) : Fld := { off := SC_MD_CFG_m m, lo := 0, w := 14 }
def SC_MD_PROB_m (m : Nat) : Nat := 0x4010C + 32 * m
def SC_MD_PROB_m_p_shift (m : Nat) : Fld := { off := SC_MD_PROB_m m, lo := 0, w := 6 }
def SC_MD_PBASE_LO_m (m : Nat) : Nat := 0x40110 + 32 * m
def SC_MD_PBASE_LO_m_value (m : Nat) : Fld := { off := SC_MD_PBASE_LO_m m, lo := 0, w := 32 }
def SC_MD_PBASE_HI_m (m : Nat) : Nat := 0x40114 + 32 * m
def SC_MD_PBASE_HI_m_value (m : Nat) : Fld := { off := SC_MD_PBASE_HI_m m, lo := 0, w := 32 }
def SC_MD_STAT_m (m : Nat) : Nat := 0x40118 + 32 * m
def SC_MD_STAT_m_faults (m : Nat) : Fld := { off := SC_MD_STAT_m m, lo := 16, w := 16 }
def SC_MD_STAT_m_cmds (m : Nat) : Fld := { off := SC_MD_STAT_m m, lo := 0, w := 16 }

/-! ### R400, 12_halyard.md -/
def HL_STATUS : Nat := 0x50000
def HL_STATUS_lanes : Fld := { off := HL_STATUS, lo := 16, w := 16 }
def HL_STATUS_ports : Fld := { off := HL_STATUS, lo := 12, w := 4 }
def HL_ASSOC : Nat := 0x50004
def HL_ASSOC_open : Fld := { off := HL_ASSOC, lo := 0, w := 13 }
def HL_ADM_A : Nat := 0x50008
def HL_ADM_A_burst : Fld := { off := HL_ADM_A, lo := 16, w := 16 }
def HL_ADM_A_rate : Fld := { off := HL_ADM_A, lo := 0, w := 16 }
def HL_ADM_B : Nat := 0x5000C
def HL_ADM_B_burst : Fld := { off := HL_ADM_B, lo := 16, w := 16 }
def HL_ADM_B_rate : Fld := { off := HL_ADM_B, lo := 0, w := 16 }
def HL_ADM_SUM : Nat := 0x50010
def HL_ADM_SUM_us : Fld := { off := HL_ADM_SUM, lo := 0, w := 16 }
def HL_LANE_MAP : Nat := 0x50014
def HL_LANE_MAP_lane_c : Fld := { off := HL_LANE_MAP, lo := 2, w := 1 }
def HL_LANE_MAP_lane_b : Fld := { off := HL_LANE_MAP, lo := 1, w := 1 }
def HL_LANE_MAP_lane_a : Fld := { off := HL_LANE_MAP, lo := 0, w := 1 }
def HL_TIMERS : Nat := 0x50018
def HL_TIMERS_retrain_ms : Fld := { off := HL_TIMERS, lo := 24, w := 8 }
def HL_TIMERS_rto_en : Fld := { off := HL_TIMERS, lo := 16, w := 8 }
def HL_TIMERS_ack_us : Fld := { off := HL_TIMERS, lo := 8, w := 8 }
def HL_TIMERS_rto_ln : Fld := { off := HL_TIMERS, lo := 0, w := 8 }
def HL_MAC_PFX : Nat := 0x5001C
def HL_MAC_PFX_pfx : Fld := { off := HL_MAC_PFX, lo := 0, w := 32 }
def HL_PCP : Nat := 0x50020
def HL_PCP_rx_map : Fld := { off := HL_PCP, lo := 16, w := 16 }
def HL_PCP_tx_c : Fld := { off := HL_PCP, lo := 8, w := 3 }
def HL_PCP_tx_b : Fld := { off := HL_PCP, lo := 4, w := 3 }
def HL_PCP_tx_a : Fld := { off := HL_PCP, lo := 0, w := 3 }
def HL_ROOT : Nat := 0x50024
def HL_ROOT_valid : Fld := { off := HL_ROOT, lo := 31, w := 1 }
def HL_ROOT_tray : Fld := { off := HL_ROOT, lo := 0, w := 14 }
def HL_DISCARD : Nat := 0x50028
def HL_DISCARD_crc : Fld := { off := HL_DISCARD, lo := 24, w := 8 }
def HL_DISCARD_type : Fld := { off := HL_DISCARD, lo := 16, w := 8 }
def HL_DISCARD_ctl : Fld := { off := HL_DISCARD, lo := 8, w := 8 }
def HL_DISCARD_stray : Fld := { off := HL_DISCARD, lo := 0, w := 8 }
def HL_GAPS : Nat := 0x5002C
def HL_GAPS_count : Fld := { off := HL_GAPS, lo := 0, w := 32 }
def HL_DUPS : Nat := 0x50030
def HL_DUPS_count : Fld := { off := HL_DUPS, lo := 0, w := 32 }
def HL_LATE : Nat := 0x50034
def HL_LATE_b : Fld := { off := HL_LATE, lo := 16, w := 16 }
def HL_LATE_a : Fld := { off := HL_LATE, lo := 0, w := 16 }
def HL_REFUSED_c (c : Nat) : Nat := 0x50040 + 4 * c
def HL_REFUSED_c_count (c : Nat) : Fld := { off := HL_REFUSED_c c, lo := 0, w := 32 }
def HL_CRED_c (c : Nat) : Nat := 0x50050 + 4 * c
def HL_CRED_c_blocks (c : Nat) : Fld := { off := HL_CRED_c c, lo := 0, w := 16 }
def HL_TX_LO : Nat := 0x50060
def HL_TX_LO_value : Fld := { off := HL_TX_LO, lo := 0, w := 32 }
def HL_TX_HI : Nat := 0x50064
def HL_TX_HI_value : Fld := { off := HL_TX_HI, lo := 0, w := 32 }
def HL_RX_LO : Nat := 0x50068
def HL_RX_LO_value : Fld := { off := HL_RX_LO, lo := 0, w := 32 }
def HL_RX_HI : Nat := 0x5006C
def HL_RX_HI_value : Fld := { off := HL_RX_HI, lo := 0, w := 32 }
def HL_SNAP_TX_LO : Nat := 0x50070
def HL_SNAP_TX_LO_value : Fld := { off := HL_SNAP_TX_LO, lo := 0, w := 32 }
def HL_SNAP_TX_HI : Nat := 0x50074
def HL_SNAP_TX_HI_value : Fld := { off := HL_SNAP_TX_HI, lo := 0, w := 32 }
def HL_SNAP_RX_LO : Nat := 0x50078
def HL_SNAP_RX_LO_value : Fld := { off := HL_SNAP_RX_LO, lo := 0, w := 32 }
def HL_SNAP_RX_HI : Nat := 0x5007C
def HL_SNAP_RX_HI_value : Fld := { off := HL_SNAP_RX_HI, lo := 0, w := 32 }
def HL_LN_STATE_n (n : Nat) : Nat := 0x50100 + 16 * n
def HL_LN_STATE_n_held (n : Nat) : Fld := { off := HL_LN_STATE_n n, lo := 16, w := 16 }
def HL_LN_STATE_n_ident_bad (n : Nat) : Fld := { off := HL_LN_STATE_n n, lo := 8, w := 8 }
def HL_LN_STATE_n_plov (n : Nat) : Fld := { off := HL_LN_STATE_n n, lo := 2, w := 1 }
def HL_LN_STATE_n_state (n : Nat) : Fld := { off := HL_LN_STATE_n n, lo := 0, w := 2 }
def HL_LN_CW_n (n : Nat) : Nat := 0x50104 + 16 * n
def HL_LN_CW_n_corr (n : Nat) : Fld := { off := HL_LN_CW_n n, lo := 16, w := 16 }
def HL_LN_CW_n_unc (n : Nat) : Fld := { off := HL_LN_CW_n n, lo := 0, w := 16 }
def HL_LN_RPL_n (n : Nat) : Nat := 0x50108 + 16 * n
def HL_LN_RPL_n_replays (n : Nat) : Fld := { off := HL_LN_RPL_n n, lo := 16, w := 16 }
def HL_LN_RPL_n_esc (n : Nat) : Fld := { off := HL_LN_RPL_n n, lo := 0, w := 16 }
def HL_LN_BLK_n (n : Nat) : Nat := 0x5010C + 16 * n
def HL_LN_BLK_n_count (n : Nat) : Fld := { off := HL_LN_BLK_n n, lo := 0, w := 32 }
def HL_EP_CFG_p (p : Nat) : Nat := 0x50200 + 32 * p
def HL_EP_CFG_p_en (p : Nat) : Fld := { off := HL_EP_CFG_p p, lo := 31, w := 1 }
def HL_EP_CFG_p_vid (p : Nat) : Fld := { off := HL_EP_CFG_p p, lo := 0, w := 12 }
def HL_EP_STATE_p (p : Nat) : Nat := 0x50204 + 32 * p
def HL_EP_STATE_p_service (p : Nat) : Fld := { off := HL_EP_STATE_p p, lo := 1, w := 1 }
def HL_EP_STATE_p_link (p : Nat) : Fld := { off := HL_EP_STATE_p p, lo := 0, w := 1 }
def HL_EP_TXF_p (p : Nat) : Nat := 0x50208 + 32 * p
def HL_EP_TXF_p_count (p : Nat) : Fld := { off := HL_EP_TXF_p p, lo := 0, w := 32 }
def HL_EP_RXF_p (p : Nat) : Nat := 0x5020C + 32 * p
def HL_EP_RXF_p_count (p : Nat) : Fld := { off := HL_EP_RXF_p p, lo := 0, w := 32 }
def HL_EP_RTX_p (p : Nat) : Nat := 0x50210 + 32 * p
def HL_EP_RTX_p_count (p : Nat) : Fld := { off := HL_EP_RTX_p p, lo := 0, w := 32 }
def HL_EP_DISC_p (p : Nat) : Nat := 0x50214 + 32 * p
def HL_EP_DISC_p_count (p : Nat) : Fld := { off := HL_EP_DISC_p p, lo := 0, w := 32 }
def HL_POL_CFG_p_c (p : Nat) (c : Nat) : Nat := 0x50300 + 128 * p + 32 * c
def HL_POL_CFG_p_c_mode (p : Nat) (c : Nat) : Fld := { off := HL_POL_CFG_p_c p c, lo := 30, w := 2 }
def HL_POL_CFG_p_c_cir (p : Nat) (c : Nat) : Fld := { off := HL_POL_CFG_p_c p c, lo := 0, w := 16 }
def HL_POL_PIR_p_c (p : Nat) (c : Nat) : Nat := 0x50304 + 128 * p + 32 * c
def HL_POL_PIR_p_c_pir (p : Nat) (c : Nat) : Fld := { off := HL_POL_PIR_p_c p c, lo := 0, w := 16 }
def HL_POL_CBS_p_c (p : Nat) (c : Nat) : Nat := 0x50308 + 128 * p + 32 * c
def HL_POL_CBS_p_c_bytes (p : Nat) (c : Nat) : Fld := { off := HL_POL_CBS_p_c p c, lo := 0, w := 24 }
def HL_POL_EBS_p_c (p : Nat) (c : Nat) : Nat := 0x5030C + 128 * p + 32 * c
def HL_POL_EBS_p_c_bytes (p : Nat) (c : Nat) : Fld := { off := HL_POL_EBS_p_c p c, lo := 0, w := 24 }
def HL_POL_CNT_p_c (p : Nat) (c : Nat) : Nat := 0x50310 + 128 * p + 32 * c
def HL_POL_CNT_p_c_yellow (p : Nat) (c : Nat) : Fld := { off := HL_POL_CNT_p_c p c, lo := 16, w := 16 }
def HL_POL_CNT_p_c_red (p : Nat) (c : Nat) : Fld := { off := HL_POL_CNT_p_c p c, lo := 0, w := 16 }
def HL_SHP_RATE_c (c : Nat) : Nat := 0x50600 + 8 * c
def HL_SHP_RATE_c_en (c : Nat) : Fld := { off := HL_SHP_RATE_c c, lo := 31, w := 1 }
def HL_SHP_RATE_c_rate (c : Nat) : Fld := { off := HL_SHP_RATE_c c, lo := 0, w := 16 }
def HL_SHP_BURST_c (c : Nat) : Nat := 0x50604 + 8 * c
def HL_SHP_BURST_c_bytes (c : Nat) : Fld := { off := HL_SHP_BURST_c c, lo := 0, w := 24 }
def HL_Q_DEPTH_q (q : Nat) : Nat := 0x50800 + 16 * q
def HL_Q_DEPTH_q_depth (q : Nat) : Fld := { off := HL_Q_DEPTH_q q, lo := 0, w := 16 }
def HL_Q_MAX_q (q : Nat) : Nat := 0x50804 + 16 * q
def HL_Q_MAX_q_count (q : Nat) : Fld := { off := HL_Q_MAX_q q, lo := 0, w := 32 }
def HL_Q_DELAY_q (q : Nat) : Nat := 0x50808 + 16 * q
def HL_Q_DELAY_q_ticks (q : Nat) : Fld := { off := HL_Q_DELAY_q q, lo := 0, w := 32 }
def HL_Q_DMAX_q (q : Nat) : Nat := 0x5080C + 16 * q
def HL_Q_DMAX_q_count (q : Nat) : Fld := { off := HL_Q_DMAX_q q, lo := 0, w := 32 }
def HL_CDIR_i (i : Nat) : Nat := 0x54000 + 4 * i
def HL_CDIR_i_valid_hi (i : Nat) : Fld := { off := HL_CDIR_i i, lo := 31, w := 1 }
def HL_CDIR_i_tray_hi (i : Nat) : Fld := { off := HL_CDIR_i i, lo := 16, w := 14 }
def HL_CDIR_i_valid_lo (i : Nat) : Fld := { off := HL_CDIR_i i, lo := 15, w := 1 }
def HL_CDIR_i_tray_lo (i : Nat) : Fld := { off := HL_CDIR_i i, lo := 0, w := 14 }
def HL_ASSOC_e (e : Nat) : Nat := 0x58000 + 4 * e
def HL_ASSOC_e_prev (e : Nat) : Fld := { off := HL_ASSOC_e e, lo := 18, w := 1 }
def HL_ASSOC_e_port (e : Nat) : Fld := { off := HL_ASSOC_e e, lo := 16, w := 2 }
def HL_ASSOC_e_state (e : Nat) : Fld := { off := HL_ASSOC_e e, lo := 14, w := 2 }
def HL_ASSOC_e_peer (e : Nat) : Fld := { off := HL_ASSOC_e e, lo := 0, w := 14 }
def HL_TYPE_t (t : Nat) : Nat := 0x5C000 + 4 * t
def HL_TYPE_t_valid (t : Nat) : Fld := { off := HL_TYPE_t t, lo := 31, w := 1 }
def HL_TYPE_t_class (t : Nat) : Fld := { off := HL_TYPE_t t, lo := 29, w := 2 }
def HL_TYPE_t_sink (t : Nat) : Fld := { off := HL_TYPE_t t, lo := 27, w := 2 }
def HL_TYPE_t_stew (t : Nat) : Fld := { off := HL_TYPE_t t, lo := 26, w := 1 }
def HL_TYPE_t_func (t : Nat) : Fld := { off := HL_TYPE_t t, lo := 16, w := 5 }

/-! ### R428, 13_reduction_jobs.md -/
def RD_STATUS : Nat := 0x60000
def RD_STATUS_fold : Fld := { off := RD_STATUS, lo := 31, w := 1 }
def RD_STATUS_mh : Fld := { off := RD_STATUS, lo := 24, w := 7 }
def RD_STATUS_cb : Fld := { off := RD_STATUS, lo := 16, w := 6 }
def RD_STATUS_ts : Fld := { off := RD_STATUS, lo := 0, w := 2 }
def RD_TS_EXCL : Nat := 0x60004
def RD_TS_EXCL_mask : Fld := { off := RD_TS_EXCL, lo := 0, w := 8 }
def RD_EXCL_A : Nat := 0x60008
def RD_EXCL_A_late : Fld := { off := RD_EXCL_A, lo := 16, w := 16 }
def RD_EXCL_A_stale : Fld := { off := RD_EXCL_A, lo := 0, w := 16 }
def RD_EXCL_B : Nat := 0x6000C
def RD_EXCL_B_dup : Fld := { off := RD_EXCL_B, lo := 24, w := 8 }
def RD_EXCL_B_incomp : Fld := { off := RD_EXCL_B, lo := 16, w := 8 }
def RD_EXCL_B_bad : Fld := { off := RD_EXCL_B, lo := 8, w := 8 }
def RD_EXCL_B_early : Fld := { off := RD_EXCL_B, lo := 0, w := 8 }
def RD_ORPHANS : Nat := 0x60010
def RD_ORPHANS_count : Fld := { off := RD_ORPHANS, lo := 0, w := 32 }
def RD_REFUSED : Nat := 0x60014
def RD_REFUSED_count : Fld := { off := RD_REFUSED, lo := 0, w := 32 }
def RD_MISS : Nat := 0x60018
def RD_MISS_count : Fld := { off := RD_MISS, lo := 0, w := 32 }
def RD_PUB : Nat := 0x6001C
def RD_PUB_count : Fld := { off := RD_PUB, lo := 0, w := 32 }
def RD_IN_LO : Nat := 0x60020
def RD_IN_LO_value : Fld := { off := RD_IN_LO, lo := 0, w := 32 }
def RD_IN_HI : Nat := 0x60024
def RD_IN_HI_value : Fld := { off := RD_IN_HI, lo := 0, w := 32 }
def RD_SNAP_IN_LO : Nat := 0x60028
def RD_SNAP_IN_LO_value : Fld := { off := RD_SNAP_IN_LO, lo := 0, w := 32 }
def RD_SNAP_IN_HI : Nat := 0x6002C
def RD_SNAP_IN_HI_value : Fld := { off := RD_SNAP_IN_HI, lo := 0, w := 32 }
def RD_SNAP_PUB : Nat := 0x60030
def RD_SNAP_PUB_count : Fld := { off := RD_SNAP_PUB, lo := 0, w := 32 }
def RD_CTRL : Nat := 0x6003C
def RD_CTRL_mast_en : Fld := { off := RD_CTRL, lo := 1, w := 1 }
def RD_CTRL_cube_en : Fld := { off := RD_CTRL, lo := 0, w := 1 }
def RD_STATE_AREA : Nat := 0x60040
def RD_STATE_AREA_size : Fld := { off := RD_STATE_AREA, lo := 16, w := 16 }
def RD_STATE_AREA_base : Fld := { off := RD_STATE_AREA, lo := 0, w := 16 }
def RD_RING_AREA : Nat := 0x60044
def RD_RING_AREA_size : Fld := { off := RD_RING_AREA, lo := 16, w := 16 }
def RD_RING_AREA_base : Fld := { off := RD_RING_AREA, lo := 0, w := 16 }
def RD_RING_WR : Nat := 0x60048
def RD_RING_WR_bytes : Fld := { off := RD_RING_WR, lo := 0, w := 32 }
def RD_RING_RD : Nat := 0x6004C
def RD_RING_RD_bytes : Fld := { off := RD_RING_RD, lo := 0, w := 32 }
def RD_RING_LOST : Nat := 0x60050
def RD_RING_LOST_count : Fld := { off := RD_RING_LOST, lo := 0, w := 32 }
def RD_RTAG_i (i : Nat) : Nat := 0x60100 + 8 * i
def RD_RTAG_i_valid (i : Nat) : Fld := { off := RD_RTAG_i i, lo := 31, w := 1 }
def RD_RTAG_i_tag (i : Nat) : Fld := { off := RD_RTAG_i i, lo := 0, w := 12 }
def RD_RTAG_T_i (i : Nat) : Nat := 0x60104 + 8 * i
def RD_RTAG_T_i_until (i : Nat) : Fld := { off := RD_RTAG_T_i i, lo := 0, w := 32 }
def RD_E_JOB (B : Nat) : Nat := B + 0x0
def RD_E_JOB_valid (B : Nat) : Fld := { off := RD_E_JOB B, lo := 31, w := 1 }
def RD_E_JOB_tag (B : Nat) : Fld := { off := RD_E_JOB B, lo := 0, w := 12 }
def RD_E_T0_LO (B : Nat) : Nat := B + 0x4
def RD_E_T0_LO_value (B : Nat) : Fld := { off := RD_E_T0_LO B, lo := 0, w := 32 }
def RD_E_T0_HI (B : Nat) : Nat := B + 0x8
def RD_E_T0_HI_value (B : Nat) : Fld := { off := RD_E_T0_HI B, lo := 0, w := 32 }
def RD_E_LEN (B : Nat) : Nat := B + 0xC
def RD_E_LEN_ticks (B : Nat) : Fld := { off := RD_E_LEN B, lo := 0, w := 32 }
def RD_E_DL0 (B : Nat) : Nat := B + 0x10
def RD_E_DL0_cube_us (B : Nat) : Fld := { off := RD_E_DL0 B, lo := 16, w := 16 }
def RD_E_DL0_tray_us (B : Nat) : Fld := { off := RD_E_DL0 B, lo := 0, w := 16 }
def RD_E_DL1 (B : Nat) : Nat := B + 0x14
def RD_E_DL1_mast_us (B : Nat) : Fld := { off := RD_E_DL1 B, lo := 0, w := 24 }
def RD_E_ROOT (B : Nat) : Nat := B + 0x18
def RD_E_ROOT_tray (B : Nat) : Fld := { off := RD_E_ROOT B, lo := 0, w := 14 }
def RD_E_FROM (B : Nat) : Nat := B + 0x1C
def RD_E_FROM_epoch (B : Nat) : Fld := { off := RD_E_FROM B, lo := 0, w := 32 }
def RD_E_EXP (B : Nat) : Nat := B + 0x20
def RD_E_EXP_exp (B : Nat) : Fld := { off := RD_E_EXP B, lo := 0, w := 18 }
def RD_E_NRNG (B : Nat) : Nat := B + 0x24
def RD_E_NRNG_nrng (B : Nat) : Fld := { off := RD_E_NRNG B, lo := 0, w := 4 }
def RD_E_STATE (B : Nat) : Nat := B + 0x28
def RD_E_STATE_state (B : Nat) : Fld := { off := RD_E_STATE B, lo := 30, w := 2 }
def RD_E_STATE_pend (B : Nat) : Fld := { off := RD_E_STATE B, lo := 29, w := 1 }
def RD_E_STATE_stamp (B : Nat) : Fld := { off := RD_E_STATE B, lo := 0, w := 16 }
def RD_E_EPOCH (B : Nat) : Nat := B + 0x2C
def RD_E_EPOCH_epoch (B : Nat) : Fld := { off := RD_E_EPOCH B, lo := 0, w := 32 }
def RD_E_OPEN (B : Nat) : Nat := B + 0x30
def RD_E_OPEN_open (B : Nat) : Fld := { off := RD_E_OPEN B, lo := 0, w := 7 }
def RD_E_RGA_r (B : Nat) (r : Nat) : Nat := B + 0x40 + 16 * r
def RD_E_RGA_r_fan (B : Nat) (r : Nat) : Fld := { off := RD_E_RGA_r B r, lo := 31, w := 1 }
def RD_E_RGA_r_dir (B : Nat) (r : Nat) : Fld := { off := RD_E_RGA_r B r, lo := 30, w := 1 }
def RD_E_RGA_r_k (B : Nat) (r : Nat) : Fld := { off := RD_E_RGA_r B r, lo := 25, w := 5 }
def RD_E_RGA_r_op (B : Nat) (r : Nat) : Fld := { off := RD_E_RGA_r B r, lo := 22, w := 3 }
def RD_E_RGA_r_count (B : Nat) (r : Nat) : Fld := { off := RD_E_RGA_r B r, lo := 11, w := 11 }
def RD_E_RGA_r_first (B : Nat) (r : Nat) : Fld := { off := RD_E_RGA_r B r, lo := 0, w := 10 }
def RD_E_RGB_r (B : Nat) (r : Nat) : Nat := B + 0x44 + 16 * r
def RD_E_RGB_r_shift (B : Nat) (r : Nat) : Fld := { off := RD_E_RGB_r B r, lo := 0, w := 6 }
def RD_E_RGL_LO_r (B : Nat) (r : Nat) : Nat := B + 0x48 + 16 * r
def RD_E_RGL_LO_r_value (B : Nat) (r : Nat) : Fld := { off := RD_E_RGL_LO_r B r, lo := 0, w := 32 }
def RD_E_RGL_HI_r (B : Nat) (r : Nat) : Nat := B + 0x4C + 16 * r
def RD_E_RGL_HI_r_value (B : Nat) (r : Nat) : Fld := { off := RD_E_RGL_HI_r B r, lo := 0, w := 32 }
def RD_MH_CUBES_m_w (m : Nat) (w : Nat) : Nat := 0x67000 + 256 * m + 4 * w
def RD_MH_CUBES_m_w_cubes (m : Nat) (w : Nat) : Fld := { off := RD_MH_CUBES_m_w m w, lo := 0, w := 32 }

/-! ### R454, 14_fleet_analytics.md -/
def FA_STATUS : Nat := 0xF0000
def FA_STATUS_unbound : Fld := { off := FA_STATUS, lo := 16, w := 16 }
def FA_STATUS_stray : Fld := { off := FA_STATUS, lo := 8, w := 8 }
def FA_STATUS_levels : Fld := { off := FA_STATUS, lo := 0, w := 3 }
def FA_CFG : Nat := 0xF0004
def FA_CFG_pace_ep : Fld := { off := FA_CFG, lo := 16, w := 8 }
def FA_CFG_min_n : Fld := { off := FA_CFG, lo := 8, w := 8 }
def FA_CFG_en : Fld := { off := FA_CFG, lo := 0, w := 3 }
def FA_SER_A : Nat := 0xF0008
def FA_SER_A_temp : Fld := { off := FA_SER_A, lo := 24, w := 8 }
def FA_SER_A_err : Fld := { off := FA_SER_A, lo := 16, w := 8 }
def FA_SER_A_score : Fld := { off := FA_SER_A, lo := 8, w := 8 }
def FA_SER_A_pace : Fld := { off := FA_SER_A, lo := 0, w := 8 }
def FA_SER_B : Nat := 0xF000C
def FA_SER_B_load : Fld := { off := FA_SER_B, lo := 0, w := 8 }
def FA_SER_C : Nat := 0xF0010
def FA_SER_C_cpace : Fld := { off := FA_SER_C, lo := 16, w := 10 }
def FA_SER_C_cand : Fld := { off := FA_SER_C, lo := 0, w := 10 }
def FA_SER_D : Nat := 0xF0014
def FA_SER_D_med : Fld := { off := FA_SER_D, lo := 16, w := 10 }
def FA_SER_D_cdrift : Fld := { off := FA_SER_D, lo := 0, w := 10 }
def FA_XBIN : Nat := 0xF0018
def FA_XBIN_ratio : Fld := { off := FA_XBIN, lo := 24, w := 8 }
def FA_XBIN_l_shift : Fld := { off := FA_XBIN, lo := 20, w := 4 }
def FA_XBIN_t_shift : Fld := { off := FA_XBIN, lo := 16, w := 4 }
def FA_XBIN_t_base : Fld := { off := FA_XBIN, lo := 0, w := 16 }
def FA_XMIN : Nat := 0xF001C
def FA_XMIN_boost : Fld := { off := FA_XMIN, lo := 16, w := 16 }
def FA_XMIN_min_exp : Fld := { off := FA_XMIN, lo := 0, w := 16 }
def FA_DRIFT : Nat := 0xF0020
def FA_DRIFT_as : Fld := { off := FA_DRIFT, lo := 8, w := 5 }
def FA_DRIFT_af : Fld := { off := FA_DRIFT, lo := 0, w := 5 }
def FA_CAND_LO : Nat := 0xF0024
def FA_CAND_LO_value : Fld := { off := FA_CAND_LO, lo := 0, w := 32 }
def FA_CAND_HI : Nat := 0xF0028
def FA_CAND_HI_value : Fld := { off := FA_CAND_HI, lo := 0, w := 32 }
def FA_DTHR : Nat := 0xF002C
def FA_DTHR_thr : Fld := { off := FA_DTHR, lo := 0, w := 32 }
def FA_JACK_LO : Nat := 0xF0030
def FA_JACK_LO_value : Fld := { off := FA_JACK_LO, lo := 0, w := 32 }
def FA_JACK_HI : Nat := 0xF0034
def FA_JACK_HI_value : Fld := { off := FA_JACK_HI, lo := 0, w := 32 }
def FA_MH : Nat := 0xF0038
def FA_MH_vbase : Fld := { off := FA_MH, lo := 16, w := 16 }
def FA_MH_jack_n : Fld := { off := FA_MH, lo := 8, w := 8 }
def FA_MH_model : Fld := { off := FA_MH, lo := 0, w := 3 }
def FA_QB_CUBE : Nat := 0xF003C
def FA_QB_CUBE_burst : Fld := { off := FA_QB_CUBE, lo := 24, w := 8 }
def FA_QB_CUBE_refill_s : Fld := { off := FA_QB_CUBE, lo := 0, w := 24 }
def FA_QB_FLEET : Nat := 0xF0040
def FA_QB_FLEET_burst : Fld := { off := FA_QB_FLEET, lo := 0, w := 16 }
def FA_QB_ADD : Nat := 0xF0044
def FA_QB_ADD_spares : Fld := { off := FA_QB_ADD, lo := 0, w := 16 }
def FA_QB_TOKENS : Nat := 0xF0048
def FA_QB_TOKENS_tokens : Fld := { off := FA_QB_TOKENS, lo := 0, w := 16 }
def FA_CONF : Nat := 0xF004C
def FA_CONF_cf_ms : Fld := { off := FA_CONF, lo := 16, w := 16 }
def FA_CONF_cf_n : Fld := { off := FA_CONF, lo := 0, w := 8 }
def FA_ADM : Nat := 0xF0050
def FA_ADM_lead_us : Fld := { off := FA_ADM, lo := 0, w := 24 }
def FA_SAT : Nat := 0xF0054
def FA_SAT_win_ms : Fld := { off := FA_SAT, lo := 24, w := 8 }
def FA_SAT_lane_pct : Fld := { off := FA_SAT, lo := 16, w := 8 }
def FA_SAT_sat_us : Fld := { off := FA_SAT, lo := 0, w := 16 }
def FA_SAT_STATE : Nat := 0xF0058
def FA_SAT_STATE_levels : Fld := { off := FA_SAT_STATE, lo := 16, w := 4 }
def FA_SAT_STATE_sat_n : Fld := { off := FA_SAT_STATE, lo := 0, w := 16 }
def FA_STATE_AREA : Nat := 0xF005C
def FA_STATE_AREA_size : Fld := { off := FA_STATE_AREA, lo := 16, w := 16 }
def FA_STATE_AREA_base : Fld := { off := FA_STATE_AREA, lo := 0, w := 16 }
def FA_PACE : Nat := 0xF0060
def FA_PACE_published : Fld := { off := FA_PACE, lo := 16, w := 16 }
def FA_PACE_thin : Fld := { off := FA_PACE, lo := 0, w := 16 }
def FA_JACKS : Nat := 0xF0064
def FA_JACKS_score : Fld := { off := FA_JACKS, lo := 24, w := 8 }
def FA_JACKS_confirmed : Fld := { off := FA_JACKS, lo := 16, w := 8 }
def FA_JACKS_refused : Fld := { off := FA_JACKS, lo := 8, w := 8 }
def FA_JACKS_battery_fail : Fld := { off := FA_JACKS, lo := 0, w := 8 }
def FA_HOT : Nat := 0xF0068
def FA_HOT_count : Fld := { off := FA_HOT, lo := 0, w := 32 }
def FA_SAT_N : Nat := 0xF006C
def FA_SAT_N_sat_n : Fld := { off := FA_SAT_N, lo := 0, w := 16 }
def FA_DIE_s (s : Nat) : Nat := 0xF0100 + 16 * s
def FA_DIE_s_hot (s : Nat) : Fld := { off := FA_DIE_s s, lo := 24, w := 8 }
def FA_DIE_s_state (s : Nat) : Fld := { off := FA_DIE_s s, lo := 0, w := 3 }
def FA_DIE_CTRL_s (s : Nat) : Nat := 0xF0104 + 16 * s
def FA_DIE_CTRL_s_repaired (s : Nat) : Fld := { off := FA_DIE_CTRL_s s, lo := 0, w := 1 }
def FA_DIE_ADM_LO_s (s : Nat) : Nat := 0xF0108 + 16 * s
def FA_DIE_ADM_LO_s_value (s : Nat) : Fld := { off := FA_DIE_ADM_LO_s s, lo := 0, w := 32 }
def FA_DIE_ADM_HI_s (s : Nat) : Nat := 0xF010C + 16 * s
def FA_DIE_ADM_HI_s_value (s : Nat) : Fld := { off := FA_DIE_ADM_HI_s s, lo := 0, w := 32 }
def FA_QB_TOK_c (c : Nat) : Nat := 0xF1000 + 4 * c
def FA_QB_TOK_c_tokens (c : Nat) : Fld := { off := FA_QB_TOK_c c, lo := 24, w := 8 }
def FA_QB_TOK_c_run (c : Nat) : Fld := { off := FA_QB_TOK_c c, lo := 16, w := 8 }
def FA_CELL_ERR_s_k (s : Nat) (k : Nat) : Nat := 0xF4000 + 1024 * s + 8 * k
def FA_CELL_ERR_s_k_value (s : Nat) (k : Nat) : Fld := { off := FA_CELL_ERR_s_k s k, lo := 0, w := 32 }
def FA_CELL_EXP_s_k (s : Nat) (k : Nat) : Nat := 0xF4004 + 1024 * s + 8 * k
def FA_CELL_EXP_s_k_value (s : Nat) (k : Nat) : Fld := { off := FA_CELL_EXP_s_k s k, lo := 0, w := 32 }
def FA_CD_P_d (d : Nat) : Nat := 0xF6000 + 16 * d
def FA_CD_P_d_value (d : Nat) : Fld := { off := FA_CD_P_d d, lo := 0, w := 32 }
def FA_CD_DP_d (d : Nat) : Nat := 0xF6004 + 16 * d
def FA_CD_DP_d_value (d : Nat) : Fld := { off := FA_CD_DP_d d, lo := 0, w := 32 }
def FA_CD_DS_d (d : Nat) : Nat := 0xF6008 + 16 * d
def FA_CD_DS_d_value (d : Nat) : Fld := { off := FA_CD_DS_d d, lo := 0, w := 32 }
def FA_TRK_c (c : Nat) : Nat := 0xF8000 + 4 * c
def FA_TRK_c_die (c : Nat) : Fld := { off := FA_TRK_c c, lo := 0, w := 17 }

/-! ### R481, 15_trace_dumps_compression.md -/
def TR_STATUS : Nat := 0x70000
def TR_STATUS_fifo : Fld := { off := TR_STATUS, lo := 24, w := 8 }
def TR_STATUS_state : Fld := { off := TR_STATUS, lo := 0, w := 2 }
def TR_CFG : Nat := 0x70004
def TR_CFG_pre : Fld := { off := TR_CFG, lo := 8, w := 5 }
def TR_CFG_stall : Fld := { off := TR_CFG, lo := 2, w := 1 }
def TR_CFG_stew_en : Fld := { off := TR_CFG, lo := 1, w := 1 }
def TR_CFG_host_en : Fld := { off := TR_CFG, lo := 0, w := 1 }
def TR_CTRL : Nat := 0x70008
def TR_CTRL_off : Fld := { off := TR_CTRL, lo := 2, w := 1 }
def TR_CTRL_trig : Fld := { off := TR_CTRL, lo := 1, w := 1 }
def TR_CTRL_arm : Fld := { off := TR_CTRL, lo := 0, w := 1 }
def TR_WR : Nat := 0x7000C
def TR_WR_index : Fld := { off := TR_WR, lo := 0, w := 32 }
def TR_TRIG : Nat := 0x70010
def TR_TRIG_index : Fld := { off := TR_TRIG, lo := 0, w := 32 }
def TR_FIRST : Nat := 0x70014
def TR_FIRST_index : Fld := { off := TR_FIRST, lo := 0, w := 32 }
def TR_TRIG_T_LO : Nat := 0x70018
def TR_TRIG_T_LO_value : Fld := { off := TR_TRIG_T_LO, lo := 0, w := 32 }
def TR_TRIG_T_HI : Nat := 0x7001C
def TR_TRIG_T_HI_value : Fld := { off := TR_TRIG_T_HI, lo := 0, w := 32 }
def TR_LOST : Nat := 0x70020
def TR_LOST_count : Fld := { off := TR_LOST, lo := 0, w := 32 }
def TR_EXCL : Nat := 0x70024
def TR_EXCL_count : Fld := { off := TR_EXCL, lo := 0, w := 32 }
def TR_FROZEN : Nat := 0x70028
def TR_FROZEN_count : Fld := { off := TR_FROZEN, lo := 0, w := 32 }
def TR_STALLS : Nat := 0x7002C
def TR_STALLS_count : Fld := { off := TR_STALLS, lo := 0, w := 32 }
def TR_WIN_SEL : Nat := 0x70030
def TR_WIN_SEL_page : Fld := { off := TR_WIN_SEL, lo := 0, w := 8 }
def TR_CMP_LO_k (k : Nat) : Nat := 0x70100 + 32 * k
def TR_CMP_LO_k_value (k : Nat) : Fld := { off := TR_CMP_LO_k k, lo := 0, w := 32 }
def TR_CMP_HI_k (k : Nat) : Nat := 0x70104 + 32 * k
def TR_CMP_HI_k_value_hi (k : Nat) : Fld := { off := TR_CMP_HI_k k, lo := 0, w := 20 }
def TR_CMP_MSK_LO_k (k : Nat) : Nat := 0x70108 + 32 * k
def TR_CMP_MSK_LO_k_value (k : Nat) : Fld := { off := TR_CMP_MSK_LO_k k, lo := 0, w := 32 }
def TR_CMP_MSK_HI_k (k : Nat) : Nat := 0x7010C + 32 * k
def TR_CMP_MSK_HI_k_value_hi (k : Nat) : Fld := { off := TR_CMP_MSK_HI_k k, lo := 0, w := 20 }
def TR_CMP_CFG_k (k : Nat) : Nat := 0x70110 + 32 * k
def TR_CMP_CFG_k_stew (k : Nat) : Fld := { off := TR_CMP_CFG_k k, lo := 6, w := 1 }
def TR_CMP_CFG_k_host (k : Nat) : Fld := { off := TR_CMP_CFG_k k, lo := 5, w := 1 }
def TR_CMP_CFG_k_st (k : Nat) : Fld := { off := TR_CMP_CFG_k k, lo := 4, w := 1 }
def TR_CMP_CFG_k_ld (k : Nat) : Fld := { off := TR_CMP_CFG_k k, lo := 3, w := 1 }
def TR_CMP_CFG_k_trig (k : Nat) : Fld := { off := TR_CMP_CFG_k k, lo := 2, w := 1 }
def TR_CMP_CFG_k_incl (k : Nat) : Fld := { off := TR_CMP_CFG_k k, lo := 1, w := 1 }
def TR_CMP_CFG_k_en (k : Nat) : Fld := { off := TR_CMP_CFG_k k, lo := 0, w := 1 }
def TR_RNG_LO_LO_j (j : Nat) : Nat := 0x70200 + 32 * j
def TR_RNG_LO_LO_j_value (j : Nat) : Fld := { off := TR_RNG_LO_LO_j j, lo := 0, w := 32 }
def TR_RNG_LO_HI_j (j : Nat) : Nat := 0x70204 + 32 * j
def TR_RNG_LO_HI_j_value_hi (j : Nat) : Fld := { off := TR_RNG_LO_HI_j j, lo := 0, w := 20 }
def TR_RNG_HI_LO_j (j : Nat) : Nat := 0x70208 + 32 * j
def TR_RNG_HI_LO_j_value (j : Nat) : Fld := { off := TR_RNG_HI_LO_j j, lo := 0, w := 32 }
def TR_RNG_HI_HI_j (j : Nat) : Nat := 0x7020C + 32 * j
def TR_RNG_HI_HI_j_value_hi (j : Nat) : Fld := { off := TR_RNG_HI_HI_j j, lo := 0, w := 20 }
def TR_RNG_CFG_j (j : Nat) : Nat := 0x70210 + 32 * j
def TR_RNG_CFG_j_stew (j : Nat) : Fld := { off := TR_RNG_CFG_j j, lo := 6, w := 1 }
def TR_RNG_CFG_j_host (j : Nat) : Fld := { off := TR_RNG_CFG_j j, lo := 5, w := 1 }
def TR_RNG_CFG_j_st (j : Nat) : Fld := { off := TR_RNG_CFG_j j, lo := 4, w := 1 }
def TR_RNG_CFG_j_ld (j : Nat) : Fld := { off := TR_RNG_CFG_j j, lo := 3, w := 1 }
def TR_RNG_CFG_j_trig (j : Nat) : Fld := { off := TR_RNG_CFG_j j, lo := 2, w := 1 }
def TR_RNG_CFG_j_incl (j : Nat) : Fld := { off := TR_RNG_CFG_j j, lo := 1, w := 1 }
def TR_RNG_CFG_j_en (j : Nat) : Fld := { off := TR_RNG_CFG_j j, lo := 0, w := 1 }

/-! ### R482, 15_trace_dumps_compression.md -/
def DC_STATUS : Nat := 0x80000
def DC_STATUS_hang : Fld := { off := DC_STATUS, lo := 31, w := 1 }
def DC_STATUS_dumps : Fld := { off := DC_STATUS, lo := 8, w := 3 }
def DC_STATUS_dec : Fld := { off := DC_STATUS, lo := 4, w := 4 }
def DC_STATUS_busy : Fld := { off := DC_STATUS, lo := 0, w := 4 }
def DC_CFG : Nat := 0x80004
def DC_CFG_comp : Fld := { off := DC_CFG, lo := 16, w := 1 }
def DC_CFG_reset_segs : Fld := { off := DC_CFG, lo := 0, w := 16 }
def DC_BOUND : Nat := 0x80008
def DC_BOUND_ms : Fld := { off := DC_BOUND, lo := 0, w := 16 }
def DC_HANG : Nat := 0x8000C
def DC_HANG_halt : Fld := { off := DC_HANG, lo := 31, w := 1 }
def DC_HANG_trace : Fld := { off := DC_HANG, lo := 30, w := 1 }
def DC_HANG_sbuf : Fld := { off := DC_HANG, lo := 29, w := 1 }
def DC_HANG_regs : Fld := { off := DC_HANG, lo := 28, w := 1 }
def DC_HANG_n : Fld := { off := DC_HANG, lo := 0, w := 6 }
def DC_HANG_GO : Nat := 0x80010
def DC_HANG_GO_key : Fld := { off := DC_HANG_GO, lo := 0, w := 16 }
def DC_DUMPS : Nat := 0x80014
def DC_DUMPS_partial : Fld := { off := DC_DUMPS, lo := 16, w := 16 }
def DC_DUMPS_ended : Fld := { off := DC_DUMPS, lo := 0, w := 16 }
def DC_VFAIL : Nat := 0x80018
def DC_VFAIL_count : Fld := { off := DC_VFAIL, lo := 0, w := 32 }
def DC_NEXT_ID : Nat := 0x8001C
def DC_NEXT_ID_dumpid : Fld := { off := DC_NEXT_ID, lo := 0, w := 16 }
def DC_RAW_LO : Nat := 0x80020
def DC_RAW_LO_value : Fld := { off := DC_RAW_LO, lo := 0, w := 32 }
def DC_RAW_HI : Nat := 0x80024
def DC_RAW_HI_value : Fld := { off := DC_RAW_HI, lo := 0, w := 32 }
def DC_CODED_LO : Nat := 0x80028
def DC_CODED_LO_value : Fld := { off := DC_CODED_LO, lo := 0, w := 32 }
def DC_CODED_HI : Nat := 0x8002C
def DC_CODED_HI_value : Fld := { off := DC_CODED_HI, lo := 0, w := 32 }
def DC_SEGS_LO : Nat := 0x80030
def DC_SEGS_LO_value : Fld := { off := DC_SEGS_LO, lo := 0, w := 32 }
def DC_SEGS_HI : Nat := 0x80034
def DC_SEGS_HI_value : Fld := { off := DC_SEGS_HI, lo := 0, w := 32 }
def DC_RX_CFG : Nat := 0x80040
def DC_RX_CFG_idle_ms : Fld := { off := DC_RX_CFG, lo := 16, w := 16 }
def DC_RX_CFG_ctx : Fld := { off := DC_RX_CFG, lo := 0, w := 11 }
def DC_RX_AREA : Nat := 0x80044
def DC_RX_AREA_size : Fld := { off := DC_RX_AREA, lo := 16, w := 16 }
def DC_RX_AREA_base : Fld := { off := DC_RX_AREA, lo := 0, w := 16 }
def DC_CTX_AREA : Nat := 0x80048
def DC_CTX_AREA_size : Fld := { off := DC_CTX_AREA, lo := 16, w := 16 }
def DC_CTX_AREA_base : Fld := { off := DC_CTX_AREA, lo := 0, w := 16 }
def DC_RX_WR : Nat := 0x8004C
def DC_RX_WR_bytes : Fld := { off := DC_RX_WR, lo := 0, w := 32 }
def DC_RX_RD : Nat := 0x80050
def DC_RX_RD_bytes : Fld := { off := DC_RX_RD, lo := 0, w := 32 }
def DC_RX_LOST : Nat := 0x80054
def DC_RX_LOST_count : Fld := { off := DC_RX_LOST, lo := 0, w := 32 }
def DC_RX_ERR : Nat := 0x80058
def DC_RX_ERR_decode : Fld := { off := DC_RX_ERR, lo := 24, w := 8 }
def DC_RX_ERR_broken : Fld := { off := DC_RX_ERR, lo := 16, w := 8 }
def DC_RX_ERR_nocontext : Fld := { off := DC_RX_ERR, lo := 8, w := 8 }
def DC_RX_ERR_dup : Fld := { off := DC_RX_ERR, lo := 0, w := 8 }
def DC_RX_CTX : Nat := 0x8005C
def DC_RX_CTX_used : Fld := { off := DC_RX_CTX, lo := 0, w := 11 }
def DC_FS_PAGE : Nat := 0x80060
def DC_FS_PAGE_page : Fld := { off := DC_FS_PAGE, lo := 0, w := 20 }
def DC_ENG_CTRL_k (k : Nat) : Nat := 0x80100 + 32 * k
def DC_ENG_CTRL_k_done_bad (k : Nat) : Fld := { off := DC_ENG_CTRL_k k, lo := 3, w := 1 }
def DC_ENG_CTRL_k_reset (k : Nat) : Fld := { off := DC_ENG_CTRL_k k, lo := 2, w := 1 }
def DC_ENG_CTRL_k_restore (k : Nat) : Fld := { off := DC_ENG_CTRL_k k, lo := 1, w := 1 }
def DC_ENG_CTRL_k_save (k : Nat) : Fld := { off := DC_ENG_CTRL_k k, lo := 0, w := 1 }
def DC_ENG_LO_k (k : Nat) : Nat := 0x80104 + 32 * k
def DC_ENG_LO_k_addr_lo (k : Nat) : Fld := { off := DC_ENG_LO_k k, lo := 6, w := 26 }
def DC_ENG_HI_k (k : Nat) : Nat := 0x80108 + 32 * k
def DC_ENG_HI_k_kind (k : Nat) : Fld := { off := DC_ENG_HI_k k, lo := 30, w := 2 }
def DC_ENG_HI_k_addr_hi (k : Nat) : Fld := { off := DC_ENG_HI_k k, lo := 0, w := 20 }
def DC_ENG_SEG_k (k : Nat) : Nat := 0x8010C + 32 * k
def DC_ENG_SEG_k_segno (k : Nat) : Fld := { off := DC_ENG_SEG_k k, lo := 0, w := 32 }
def DC_DL_NAME_LO_e (e : Nat) : Nat := 0x81000 + 32 * e
def DC_DL_NAME_LO_e_value (e : Nat) : Fld := { off := DC_DL_NAME_LO_e e, lo := 0, w := 32 }
def DC_DL_NAME_HI_e (e : Nat) : Nat := 0x81004 + 32 * e
def DC_DL_NAME_HI_e_value (e : Nat) : Fld := { off := DC_DL_NAME_HI_e e, lo := 0, w := 32 }
def DC_DL_BASE_LO_e (e : Nat) : Nat := 0x81008 + 32 * e
def DC_DL_BASE_LO_e_addr_lo (e : Nat) : Fld := { off := DC_DL_BASE_LO_e e, lo := 6, w := 26 }
def DC_DL_BASE_HI_e (e : Nat) : Nat := 0x8100C + 32 * e
def DC_DL_BASE_HI_e_addr_hi (e : Nat) : Fld := { off := DC_DL_BASE_HI_e e, lo := 0, w := 20 }
def DC_DL_TBASE_LO_e (e : Nat) : Nat := 0x81010 + 32 * e
def DC_DL_TBASE_LO_e_addr_lo (e : Nat) : Fld := { off := DC_DL_TBASE_LO_e e, lo := 6, w := 26 }
def DC_DL_TBASE_HI_e (e : Nat) : Nat := 0x81014 + 32 * e
def DC_DL_TBASE_HI_e_addr_hi (e : Nat) : Fld := { off := DC_DL_TBASE_HI_e e, lo := 0, w := 20 }
def DC_DL_IDX_e (e : Nat) : Nat := 0x81018 + 32 * e
def DC_DL_IDX_e_value (e : Nat) : Fld := { off := DC_DL_IDX_e e, lo := 0, w := 32 }
def DC_DL_CFG_e (e : Nat) : Nat := 0x8101C + 32 * e
def DC_DL_CFG_e_count (e : Nat) : Fld := { off := DC_DL_CFG_e e, lo := 12, w := 20 }
def DC_DL_CFG_e_layout (e : Nat) : Fld := { off := DC_DL_CFG_e e, lo := 8, w := 2 }
def DC_DL_CFG_e_idx_hi (e : Nat) : Fld := { off := DC_DL_CFG_e e, lo := 0, w := 8 }
def DC_HL_LO_h (h : Nat) : Nat := 0x82000 + 16 * h
def DC_HL_LO_h_addr_lo (h : Nat) : Fld := { off := DC_HL_LO_h h, lo := 6, w := 26 }
def DC_HL_HI_h (h : Nat) : Nat := 0x82004 + 16 * h
def DC_HL_HI_h_addr_hi (h : Nat) : Fld := { off := DC_HL_HI_h h, lo := 0, w := 20 }
def DC_HL_LEN_h (h : Nat) : Nat := 0x82008 + 16 * h
def DC_HL_LEN_h_len (h : Nat) : Fld := { off := DC_HL_LEN_h h, lo := 0, w := 32 }

/-! ### R508, 16_event_recorder_errors.md -/
def EV_STATUS : Nat := 0x90000
def EV_STATUS_frozen : Fld := { off := EV_STATUS, lo := 31, w := 1 }
def EV_STATUS_wrapped : Fld := { off := EV_STATUS, lo := 30, w := 1 }
def EV_STATUS_nv_clear : Fld := { off := EV_STATUS, lo := 29, w := 1 }
def EV_STATUS_life_v : Fld := { off := EV_STATUS, lo := 28, w := 1 }
def EV_STATUS_fifo : Fld := { off := EV_STATUS, lo := 16, w := 7 }
def EV_STATUS_bad_sect : Fld := { off := EV_STATUS, lo := 0, w := 16 }
def EV_CTRL : Nat := 0x90004
def EV_CTRL_freeze : Fld := { off := EV_CTRL, lo := 0, w := 1 }
def EV_CLEAR : Nat := 0x90008
def EV_CLEAR_key : Fld := { off := EV_CLEAR, lo := 0, w := 16 }
def EV_WR : Nat := 0x9000C
def EV_WR_count : Fld := { off := EV_WR, lo := 0, w := 32 }
def EV_NEXT : Nat := 0x90010
def EV_NEXT_slot : Fld := { off := EV_NEXT, lo := 0, w := 16 }
def EV_FRZ_TO : Nat := 0x90014
def EV_FRZ_TO_ms : Fld := { off := EV_FRZ_TO, lo := 0, w := 16 }
def EV_MIRROR : Nat := 0x90018
def EV_MIRROR_classes : Fld := { off := EV_MIRROR, lo := 0, w := 8 }
def EV_SCRUB : Nat := 0x9001C
def EV_SCRUB_max_s : Fld := { off := EV_SCRUB, lo := 16, w := 16 }
def EV_SCRUB_cycles : Fld := { off := EV_SCRUB, lo := 0, w := 16 }
def EV_PASSES : Nat := 0x90020
def EV_PASSES_count : Fld := { off := EV_PASSES, lo := 0, w := 32 }
def EV_CORR : Nat := 0x90024
def EV_CORR_count : Fld := { off := EV_CORR, lo := 0, w := 32 }
def EV_UNC : Nat := 0x90028
def EV_UNC_count : Fld := { off := EV_UNC, lo := 0, w := 32 }
def EV_MIR_HELD : Nat := 0x9002C
def EV_MIR_HELD_count : Fld := { off := EV_MIR_HELD, lo := 0, w := 32 }
def EV_OVF_c (c : Nat) : Nat := 0x90030 + 4 * c
def EV_OVF_c_count (c : Nat) : Fld := { off := EV_OVF_c c, lo := 0, w := 32 }
def EV_FRZ_c (c : Nat) : Nat := 0x90050 + 4 * c
def EV_FRZ_c_count (c : Nat) : Fld := { off := EV_FRZ_c c, lo := 0, w := 32 }
def EV_OPSEC : Nat := 0x90070
def EV_OPSEC_value : Fld := { off := EV_OPSEC, lo := 0, w := 32 }
def EV_PCC : Nat := 0x90074
def EV_PCC_pcc : Fld := { off := EV_PCC, lo := 0, w := 24 }
def EV_LIFE_OPS : Nat := 0x90078
def EV_LIFE_OPS_base : Fld := { off := EV_LIFE_OPS, lo := 0, w := 32 }
def EV_LIFE_PCC : Nat := 0x9007C
def EV_LIFE_PCC_base : Fld := { off := EV_LIFE_PCC, lo := 0, w := 24 }
def EV_LIFE_CFG : Nat := 0x90080
def EV_LIFE_CFG_save_s : Fld := { off := EV_LIFE_CFG, lo := 0, w := 16 }
def EV_NV_AREA : Nat := 0x90084
def EV_NV_AREA_en : Fld := { off := EV_NV_AREA, lo := 31, w := 1 }
def EV_NV_AREA_sector : Fld := { off := EV_NV_AREA, lo := 0, w := 12 }
def EV_NV_LAG : Nat := 0x90088
def EV_NV_LAG_records : Fld := { off := EV_NV_LAG, lo := 0, w := 17 }
def EV_LOG_AREA : Nat := 0x9008C
def EV_LOG_AREA_size : Fld := { off := EV_LOG_AREA, lo := 16, w := 16 }
def EV_LOG_AREA_base : Fld := { off := EV_LOG_AREA, lo := 0, w := 16 }
def EV_MIR_AREA : Nat := 0x90090
def EV_MIR_AREA_size : Fld := { off := EV_MIR_AREA, lo := 16, w := 16 }
def EV_MIR_AREA_base : Fld := { off := EV_MIR_AREA, lo := 0, w := 16 }
def EV_FR_AREA : Nat := 0x90094
def EV_FR_AREA_size : Fld := { off := EV_FR_AREA, lo := 16, w := 16 }
def EV_FR_AREA_base : Fld := { off := EV_FR_AREA, lo := 0, w := 16 }
def EV_FR_WR : Nat := 0x90098
def EV_FR_WR_count : Fld := { off := EV_FR_WR, lo := 0, w := 32 }
def EV_FR_RD : Nat := 0x9009C
def EV_FR_RD_count : Fld := { off := EV_FR_RD, lo := 0, w := 32 }
def EV_FR_LOST : Nat := 0x900A0
def EV_FR_LOST_count : Fld := { off := EV_FR_LOST, lo := 0, w := 32 }
def EV_WIN_SEL : Nat := 0x900A4
def EV_WIN_SEL_src : Fld := { off := EV_WIN_SEL, lo := 16, w := 4 }
def EV_WIN_SEL_page : Fld := { off := EV_WIN_SEL, lo := 0, w := 8 }
def EV_STORE : Nat := 0x900A8
def EV_STORE_flash : Fld := { off := EV_STORE, lo := 16, w := 4 }
def EV_STORE_store : Fld := { off := EV_STORE, lo := 0, w := 3 }
def EV_DLM_u (u : Nat) : Nat := 0x90100 + 4 * u
def EV_DLM_u_count (u : Nat) : Fld := { off := EV_DLM_u u, lo := 0, w := 32 }
def EV_MIR_WR_s (s : Nat) : Nat := 0x90200 + 16 * s
def EV_MIR_WR_s_value (s : Nat) : Fld := { off := EV_MIR_WR_s s, lo := 0, w := 32 }
def EV_MIR_NEXT_s (s : Nat) : Nat := 0x90204 + 16 * s
def EV_MIR_NEXT_s_slot (s : Nat) : Fld := { off := EV_MIR_NEXT_s s, lo := 0, w := 16 }
def EV_MIR_HELD_s (s : Nat) : Nat := 0x90208 + 16 * s
def EV_MIR_HELD_s_count (s : Nat) : Fld := { off := EV_MIR_HELD_s s, lo := 0, w := 32 }

/-! ### R534, 17_steward.md -/
def ST_STATUS : Nat := 0xA0000
def ST_STATUS_in_rom : Fld := { off := ST_STATUS, lo := 31, w := 1 }
def ST_STATUS_wfi : Fld := { off := ST_STATUS, lo := 30, w := 1 }
def ST_STATUS_im_poison : Fld := { off := ST_STATUS, lo := 29, w := 1 }
def ST_STATUS_dm_poison : Fld := { off := ST_STATUS, lo := 28, w := 1 }
def ST_STATUS_slots : Fld := { off := ST_STATUS, lo := 8, w := 4 }
def ST_STATUS_bank : Fld := { off := ST_STATUS, lo := 0, w := 1 }
def ST_FW_VER : Nat := 0xA0004
def ST_FW_VER_ver : Fld := { off := ST_FW_VER, lo := 0, w := 32 }
def ST_FW_SEC : Nat := 0xA0008
def ST_FW_SEC_floor : Fld := { off := ST_FW_SEC, lo := 16, w := 16 }
def ST_FW_SEC_sec_ver : Fld := { off := ST_FW_SEC, lo := 0, w := 16 }
def ST_BOOT : Nat := 0xA000C
def ST_BOOT_code_a : Fld := { off := ST_BOOT, lo := 24, w := 8 }
def ST_BOOT_code_b : Fld := { off := ST_BOOT, lo := 16, w := 8 }
def ST_BOOT_slot : Fld := { off := ST_BOOT, lo := 8, w := 1 }
def ST_BOOT_valid : Fld := { off := ST_BOOT, lo := 0, w := 1 }
def ST_BOOT_CFG : Nat := 0xA0010
def ST_BOOT_CFG_force : Fld := { off := ST_BOOT_CFG, lo := 2, w := 1 }
def ST_BOOT_CFG_prefer : Fld := { off := ST_BOOT_CFG, lo := 1, w := 1 }
def ST_BOOT_CFG_go : Fld := { off := ST_BOOT_CFG, lo := 0, w := 1 }
def ST_SEC_FLOOR : Nat := 0xA0014
def ST_SEC_FLOOR_koff : Fld := { off := ST_SEC_FLOOR, lo := 16, w := 4 }
def ST_SEC_FLOOR_floor : Fld := { off := ST_SEC_FLOOR, lo := 0, w := 16 }
def ST_BOOT_A_LO : Nat := 0xA0018
def ST_BOOT_A_LO_addr_lo : Fld := { off := ST_BOOT_A_LO, lo := 6, w := 26 }
def ST_BOOT_A_HI : Nat := 0xA001C
def ST_BOOT_A_HI_addr_hi : Fld := { off := ST_BOOT_A_HI, lo := 0, w := 20 }
def ST_BOOT_B_LO : Nat := 0xA0020
def ST_BOOT_B_LO_addr_lo : Fld := { off := ST_BOOT_B_LO, lo := 6, w := 26 }
def ST_BOOT_B_HI : Nat := 0xA0024
def ST_BOOT_B_HI_addr_hi : Fld := { off := ST_BOOT_B_HI, lo := 0, w := 20 }
def ST_IM_STAT : Nat := 0xA0028
def ST_IM_STAT_busy : Fld := { off := ST_IM_STAT, lo := 31, w := 1 }
def ST_IM_STAT_ok : Fld := { off := ST_IM_STAT, lo := 30, w := 1 }
def ST_IM_STAT_signed : Fld := { off := ST_IM_STAT, lo := 29, w := 1 }
def ST_IM_STAT_code : Fld := { off := ST_IM_STAT, lo := 16, w := 8 }
def ST_IM_STAT_sec_ver : Fld := { off := ST_IM_STAT, lo := 0, w := 16 }
def ST_IM_VER : Nat := 0xA002C
def ST_IM_VER_ver : Fld := { off := ST_IM_VER, lo := 0, w := 32 }
def ST_IM_LOAD : Nat := 0xA0030
def ST_IM_LOAD_go : Fld := { off := ST_IM_LOAD, lo := 31, w := 1 }
def ST_IM_LOAD_kind : Fld := { off := ST_IM_LOAD, lo := 29, w := 2 }
def ST_IM_LOAD_bank : Fld := { off := ST_IM_LOAD, lo := 28, w := 1 }
def ST_IM_LOAD_slot : Fld := { off := ST_IM_LOAD, lo := 27, w := 1 }
def ST_IM_LOAD_nosig : Fld := { off := ST_IM_LOAD, lo := 26, w := 1 }
def ST_IM_SRC_LO : Nat := 0xA0034
def ST_IM_SRC_LO_addr_lo : Fld := { off := ST_IM_SRC_LO, lo := 0, w := 32 }
def ST_IM_SRC_HI : Nat := 0xA0038
def ST_IM_SRC_HI_addr_hi : Fld := { off := ST_IM_SRC_HI, lo := 0, w := 20 }
def ST_IM_LEN : Nat := 0xA003C
def ST_IM_LEN_bytes : Fld := { off := ST_IM_LEN, lo := 0, w := 32 }
def ST_IM_SWAP : Nat := 0xA0040
def ST_IM_SWAP_key : Fld := { off := ST_IM_SWAP, lo := 0, w := 16 }
def ST_ACC : Nat := 0xA0044
def ST_ACC_refused : Fld := { off := ST_ACC, lo := 31, w := 1 }
def ST_ACC_offset : Fld := { off := ST_ACC, lo := 0, w := 20 }
def ST_WDOG : Nat := 0xA0048
def ST_WDOG_restart : Fld := { off := ST_WDOG, lo := 31, w := 1 }
def ST_WDOG_ms : Fld := { off := ST_WDOG, lo := 0, w := 16 }
def ST_WDOG_KICK : Nat := 0xA004C
def ST_WDOG_KICK_any : Fld := { off := ST_WDOG_KICK, lo := 0, w := 32 }
def ST_TMR_CTRL : Nat := 0xA0050
def ST_TMR_CTRL_en : Fld := { off := ST_TMR_CTRL, lo := 0, w := 1 }
def ST_TMR_LO : Nat := 0xA0054
def ST_TMR_LO_value : Fld := { off := ST_TMR_LO, lo := 0, w := 32 }
def ST_TMR_HI : Nat := 0xA0058
def ST_TMR_HI_value : Fld := { off := ST_TMR_HI, lo := 0, w := 32 }
def ST_RX_BASE : Nat := 0xA005C
def ST_RX_BASE_ents : Fld := { off := ST_RX_BASE, lo := 16, w := 11 }
def ST_RX_BASE_base : Fld := { off := ST_RX_BASE, lo := 0, w := 13 }
def ST_RX_WR : Nat := 0xA0060
def ST_RX_WR_count : Fld := { off := ST_RX_WR, lo := 0, w := 32 }
def ST_RX_RD : Nat := 0xA0064
def ST_RX_RD_count : Fld := { off := ST_RX_RD, lo := 0, w := 32 }
def ST_RX_LOST : Nat := 0xA0068
def ST_RX_LOST_count : Fld := { off := ST_RX_LOST, lo := 0, w := 32 }
def ST_EV_ARG : Nat := 0xA006C
def ST_EV_ARG_arg : Fld := { off := ST_EV_ARG, lo := 0, w := 32 }
def ST_EV_PUT : Nat := 0xA0070
def ST_EV_PUT_inst : Fld := { off := ST_EV_PUT, lo := 8, w := 8 }
def ST_EV_PUT_code : Fld := { off := ST_EV_PUT, lo := 0, w := 8 }
def ST_FL_CMD : Nat := 0xA0074
def ST_FL_CMD_go : Fld := { off := ST_FL_CMD, lo := 31, w := 1 }
def ST_FL_CMD_op : Fld := { off := ST_FL_CMD, lo := 30, w := 1 }
def ST_FL_CMD_status : Fld := { off := ST_FL_CMD, lo := 16, w := 8 }
def ST_FL_CMD_sector : Fld := { off := ST_FL_CMD, lo := 4, w := 10 }
def ST_FL_CMD_page : Fld := { off := ST_FL_CMD, lo := 0, w := 4 }
def ST_FL_SRC : Nat := 0xA0078
def ST_FL_SRC_offset : Fld := { off := ST_FL_SRC, lo := 8, w := 12 }
def ST_FAULTS : Nat := 0xA007C
def ST_FAULTS_wdog : Fld := { off := ST_FAULTS, lo := 16, w := 16 }
def ST_FAULTS_poison : Fld := { off := ST_FAULTS, lo := 0, w := 16 }
def ST_FL_CFG : Nat := 0xA0080
def ST_FL_CFG_div : Fld := { off := ST_FL_CFG, lo := 0, w := 1 }
def ST_DIGEST_k (k : Nat) : Nat := 0xA0100 + 4 * k
def ST_DIGEST_k_bytes (k : Nat) : Fld := { off := ST_DIGEST_k k, lo := 0, w := 32 }

end Reg
end Sys2Proof.Machine
end

