-- ==== Sys2Proof/Machine/RegMap.lean ====
section
/-! DEFINITION. The register map: every register of the window with the access codes of its fields (R14), the role it is
present in (R2, R11), and the hoist section that carries it (R129), from the register tables of the spec's chapters.
Registers of one family share a row: `base + s1*i + s2*j` for `i < c1`, `j < c2`. -/

namespace Sys2Proof.Machine

/-- One row of a register table. The masks name the bits of each access code of R14; a bit in no mask is reserved
or read only. -/
structure RegDef where
  base : Nat
  s1   : Nat := 0
  c1   : Nat := 1
  s2   : Nat := 0
  c2   : Nat := 1
  rw   : Nat := 0
  sh   : Nat := 0
  w1c  : Nat := 0
  w1s  : Nat := 0
  wo   : Nat := 0
  rc   : Nat := 0
  /-- 0 both roles, 1 die role only, 2 tray role only (R2, R11). -/
  role : Nat := 0
  /-- The hoist section that carries the register's SH fields; 0 none. -/
  sec  : Nat := 0
  /-- Every SH field of the register is free (R140). -/
  free : Bool := false
deriving DecidableEq, Repr

namespace RegMap

/-- R5, 00_scope.md. -/
def gl0 : List RegDef := [
  { base := 0x00000 }, -- GL_VERSION
  { base := 0x00004 }, -- GL_ROLE
  { base := 0x00008, sec := 0x01 }, -- GL_DUTY
  { base := 0x0000C, sec := 0x01 }, -- GL_PLACE
  { base := 0x00010 }, -- GL_BUILD
  { base := 0x00014, rw := 0xFFFFFFFF }, -- GL_SCRATCH
  { base := 0x00018, sh := 0xFFF, sec := 0x01 } -- GL_JOB
]

def gl : List RegDef := gl0

/-- R122, 03_clocks_power_reset.md. -/
def pm0 : List RegDef := [
  { base := 0x01000 }, -- PM_STATE
  { base := 0x01004, rw := 0x1 }, -- PM_CTRL
  { base := 0x01008, rw := 0xFFFF }, -- PM_IDLE_HOLD
  { base := 0x0100C, w1c := 0xFF }, -- PM_FAULT
  { base := 0x01010 }, -- PM_RESET_CAUSE
  { base := 0x01014, rw := 0xF }, -- PM_BOOT
  { base := 0x01018, wo := 0xFFFF }, -- PM_WARM
  { base := 0x0101C, rc := 0xFFFFFFFF }, -- PM_WAKES
  { base := 0x01020, rc := 0xFFFF }, -- PM_WAKE_MAX
  { base := 0x01024 }, -- PM_THR
  { base := 0x01028, rw := 0x7 }, -- PM_THR_FW
  { base := 0x0102C, rc := 0xFFFFFFFF }, -- PM_THR_DIFF
  { base := 0x01030, role := 2 }, -- PM_VIN
  { base := 0x01034, sh := 0xFFFFFFFF, role := 2, sec := 0x02 }, -- PM_VIN_LIM
  { base := 0x01038, sh := 0xFFFFFFFF, role := 2, sec := 0x02 }, -- PM_VIN_OV
  { base := 0x0103C, sh := 0x3FFFFFFF, role := 2, sec := 0x02, free := true }, -- PM_PB_CFG
  { base := 0x01040, rw := 0xFF0BFF7F, w1s := 0x40000, role := 2 }, -- PM_PB_CMD
  { base := 0x01044, role := 2 }, -- PM_PB_RSP
  { base := 0x01080, s1 := 4, c1 := 16, rc := 0xFFFFFFFF }, -- PM_DROOP_k
  { base := 0x01400, s1 := 4, c1 := 256 }, -- PM_SN_VAL_n
  { base := 0x01800, s1 := 8, c1 := 256, sh := 0xFFFFFFFF, sec := 0x02 }, -- PM_SN_THR_n
  { base := 0x01804, s1 := 8, c1 := 256, sh := 0xFF0777, sec := 0x02 } -- PM_SN_CFG_n
]

def pm : List RegDef := pm0

/-- R159, 04_hoist.md. -/
def ho0 : List RegDef := [
  { base := 0x02000 }, -- HO_STATUS
  { base := 0x02004, rw := 0x4, w1s := 0x2 }, -- HO_CTRL
  { base := 0x02008, rw := 0x3FFF }, -- HO_WRITERS
  { base := 0x0200C, rw := 0xFFFF }, -- HO_LIVE_SEL
  { base := 0x02010, rw := 0xFFFFFFC0 }, -- HO_SRC_LO
  { base := 0x02014, rw := 0xC00FFFFF }, -- HO_SRC_HI
  { base := 0x02018, rw := 0xFFFFFFFF }, -- HO_SRC_LEN
  { base := 0x0201C, w1s := 0x1 }, -- HO_LOAD
  { base := 0x02020, wo := 0xFFFFFFFF }, -- HO_FEED
  { base := 0x02024, rw := 0xFFFF, w1s := 0x10000 }, -- HO_COMMIT
  { base := 0x02028 }, -- HO_RESULT
  { base := 0x0202C }, -- HO_LIVE
  { base := 0x02030 }, -- HO_SHADOW
  { base := 0x02034 }, -- HO_FAIL
  { base := 0x02038, rw := 0xFFFF }, -- HO_DRAIN_TO
  { base := 0x0203C, rc := 0xFFFFFFFF }, -- HO_COMMITS
  { base := 0x02040, rc := 0xFFFFFFFF }, -- HO_REFUSALS
  { base := 0x02044 }, -- HO_PENDING
  { base := 0x02048 }, -- HO_PEND_EPOCH
  { base := 0x02050, rc := 0xFFFFFFFF, role := 2 }, -- HO_FMT_N
  { base := 0x02054, rc := 0xFFFFFFFF, role := 2 }, -- HO_FMT_N1
  { base := 0x02058, rc := 0xFFFFFFFF, role := 2 }, -- HO_FMT_PLOV
  { base := 0x0205C, rc := 0xFFFFFFFF, role := 2 }, -- HO_FMT_REF
  { base := 0x02080, s1 := 4, c1 := 16, role := 2 }, -- HO_LANE_FMT_n
  { base := 0x02100, s1 := 4, c1 := 12 } -- HO_DIGEST_k
]

def ho : List RegDef := ho0

/-- R198, 05_queues_interrupts.md. -/
def qe0 : List RegDef := [
  { base := 0x04000 }, -- QE_STATUS
  { base := 0x04004 }, -- QE_PRED
  { base := 0x04008, wo := 0xFFFF }, -- QE_PRED_SET
  { base := 0x0400C, wo := 0xFFFF }, -- QE_PRED_CLR
  { base := 0x04010 }, -- QE_FLAGS_LO
  { base := 0x04014 }, -- QE_FLAGS_HI
  { base := 0x04018, wo := 0x3F }, -- QE_FLAG_SET
  { base := 0x0401C, wo := 0x3F }, -- QE_FLAG_CLR
  { base := 0x04020 }, -- QE_CYCLE
  { base := 0x04024, rc := 0xFFFFFFFF }, -- QE_CYCLES
  { base := 0x04028, sh := 0xFFFFFF, sec := 0x0E }, -- QE_WDOG
  { base := 0x0402C, rw := 0xFFFF }, -- QE_WIN_SEL
  { base := 0x04100, s1 := 4, c1 := 64, sh := 0x3F9F, sec := 0x0E }, -- QE_FLAG_CFG_f
  { base := 0x04400, s1 := 64, c1 := 16, sh := 0x1FF03, sec := 0x0E, free := true }, -- QE_Qn_CFG
  { base := 0x04404, s1 := 64, c1 := 16, sh := 0xFFFFFF, sec := 0x0E, free := true }, -- QE_Qn_BOUND
  { base := 0x04408, s1 := 64, c1 := 16, sh := 0x3FF, sec := 0x0E }, -- QE_Qn_PROG
  { base := 0x0440C, s1 := 64, c1 := 16, sh := 0xFFFFFFC0, sec := 0x0E, free := true }, -- QE_Qn_CPL_LO
  { base := 0x04410, s1 := 64, c1 := 16, sh := 0xFFFFF, sec := 0x0E, free := true }, -- QE_Qn_CPL_HI
  { base := 0x04414, s1 := 64, c1 := 16 }, -- QE_Qn_HEAD
  { base := 0x04418, s1 := 64, c1 := 16, rw := 0xFF }, -- QE_Qn_TAIL
  { base := 0x0441C, s1 := 64, c1 := 16, rw := 0x1FF, w1s := 0x10000 }, -- QE_Qn_SWAP
  { base := 0x04420, s1 := 64, c1 := 16, wo := 0x3 }, -- QE_Qn_CTRL
  { base := 0x04424, s1 := 64, c1 := 16 }, -- QE_Qn_STATE
  { base := 0x04428, s1 := 64, c1 := 16 }, -- QE_Qn_FAULT
  { base := 0x0442C, s1 := 64, c1 := 16 }, -- QE_Qn_CPL_WR
  { base := 0x04430, s1 := 64, c1 := 16, rw := 0xFFFFFFFF }, -- QE_Qn_CPL_RD
  { base := 0x04434, s1 := 64, c1 := 16, rc := 0xFFFFFFFF }, -- QE_Qn_LOST
  { base := 0x04438, s1 := 64, c1 := 16, rc := 0xFFFFFFFF }, -- QE_Qn_TALLY
  { base := 0x0443C, s1 := 64, c1 := 16, rc := 0xFFFFFFFF } -- QE_Qn_RANKB
]

def qe : List RegDef := qe0

/-- R199, 05_queues_interrupts.md. -/
def ic0 : List RegDef := [
  { base := 0x06000, wo := 0x7FF }, -- IC_DOORBELL
  { base := 0x06004, rc := 0x7FF }, -- IC_CLAIM_H
  { base := 0x06008, rc := 0x7FF }, -- IC_CLAIM_S
  { base := 0x0600C }, -- IC_STATUS
  { base := 0x06010 }, -- IC_INFO
  { base := 0x06014, rc := 0xFFFFFFFF }, -- IC_DB_BAD
  { base := 0x06018, rc := 0xFFFFFFFF }, -- IC_COALESCED
  { base := 0x0601C, rc := 0xFFFFFFFF }, -- IC_WAKES
  { base := 0x06080, s1 := 4, c1 := 32, rw := 0x800007FF }, -- IC_WATCH_k
  { base := 0x06100, s1 := 4, c1 := 32, w1c := 0xFFFFFFFF }, -- IC_PEND_k
  { base := 0x06200, s1 := 4, c1 := 32, sh := 0xFFFFFFFF, sec := 0x0F, free := true }, -- IC_EN_H_k
  { base := 0x06300, s1 := 4, c1 := 32, sh := 0xFFFFFFFF, sec := 0x0F, free := true }, -- IC_EN_S_k
  { base := 0x06400, s1 := 16, c1 := 32, sh := 0xFFFFFFFC, sec := 0x0F, free := true }, -- IC_NOTE_LO_e
  { base := 0x06404, s1 := 16, c1 := 32, sh := 0x810FFFFF, sec := 0x0F, free := true }, -- IC_NOTE_HI_e
  { base := 0x06408, s1 := 16, c1 := 32, sh := 0xFFFFFFFF, sec := 0x0F, free := true }, -- IC_NOTE_DATA_e
  { base := 0x0640C, s1 := 16, c1 := 32 } -- IC_NOTE_SEQ_e
]

def ic : List RegDef := ic0

/-- R223, 06_fleet_time.md. -/
def tb0 : List RegDef := [
  { base := 0x08000 }, -- TB_RAW_LO
  { base := 0x08004 }, -- TB_RAW_HI
  { base := 0x08008 }, -- TB_NOW_LO
  { base := 0x0800C }, -- TB_NOW_HI
  { base := 0x08010, rw := 0xFFFFFFFF }, -- TB_OFF_LO
  { base := 0x08014, rw := 0xFFFFFFFF }, -- TB_OFF_HI
  { base := 0x08018, rw := 0xFFFFFFFF }, -- TB_RATE
  { base := 0x0801C }, -- TB_FREQ
  { base := 0x08020, rw := 0x3 }, -- TB_CTRL
  { base := 0x08024 }, -- TB_ALIGN
  { base := 0x08028 }, -- TB_LAST_OFS
  { base := 0x0802C }, -- TB_LAST_DLY
  { base := 0x08030, sh := 0x3FFF0037, sec := 0x03 }, -- TB_PARENT
  { base := 0x08034, sh := 0xFF3FFFFF, sec := 0x03 }, -- TB_SYNC_CFG
  { base := 0x08038, sh := 0xFFFFFFFF, sec := 0x03 }, -- TB_LIMITS
  { base := 0x0803C, sh := 0xFFFFFFFF, sec := 0x03 }, -- TB_LAT_LANE
  { base := 0x08040, sh := 0xFFFFFFFF, role := 2, sec := 0x03 }, -- TB_LAT_EN
  { base := 0x08044, rw := 0xFFFFFFFF, role := 2 }, -- TB_TOD_SLO
  { base := 0x08048, rw := 0xFFFF, role := 2 }, -- TB_TOD_SHI
  { base := 0x0804C, rw := 0x3FFFFFFF, role := 2 }, -- TB_TOD_NS
  { base := 0x08050, role := 2 }, -- TB_PPS_LO
  { base := 0x08054, role := 2 }, -- TB_PPS_HI
  { base := 0x08058, rc := 0xFFFFFFFF, role := 2 }, -- TB_PPS_CNT
  { base := 0x0805C, rc := 0xFFFFFFFF }, -- TB_EXCH
  { base := 0x08060, rc := 0xFFFFFFFF }, -- TB_EVENTS
  { base := 0x08064 }, -- TB_STRIKE_LO
  { base := 0x08068 }, -- TB_STRIKE_HI
  { base := 0x0806C }, -- TB_STRIKE_ID
  { base := 0x08070 }, -- TB_STRIKE_PEND
  { base := 0x08100, s1 := 32, c1 := 4, sh := 0xFFFFFFFF, sec := 0x03, free := true }, -- TB_PLS_AT_LO_k
  { base := 0x08104, s1 := 32, c1 := 4, sh := 0xFFFFFFFF, sec := 0x03, free := true }, -- TB_PLS_AT_HI_k
  { base := 0x08108, s1 := 32, c1 := 4, sh := 0xFFFFFFFF, sec := 0x03, free := true }, -- TB_PLS_PER_LO_k
  { base := 0x0810C, s1 := 32, c1 := 4, sh := 0xFFFFFFFF, sec := 0x03, free := true }, -- TB_PLS_PER_HI_k
  { base := 0x08110, s1 := 32, c1 := 4, sh := 0xFFFF0007, sec := 0x03, free := true }, -- TB_PLS_CTRL_k
  { base := 0x08114, s1 := 32, c1 := 4, rc := 0xFFFFFFFF }, -- TB_PLS_FIRED_k
  { base := 0x08118, s1 := 32, c1 := 4 }, -- TB_PLS_NEXT_LO_k
  { base := 0x0811C, s1 := 32, c1 := 4 }, -- TB_PLS_NEXT_HI_k
  { base := 0x08200, s1 := 16, c1 := 4 }, -- TB_CAP_LO_k
  { base := 0x08204, s1 := 16, c1 := 4 }, -- TB_CAP_HI_k
  { base := 0x08208, s1 := 16, c1 := 4, rc := 0xFFFFFFFF } -- TB_CAP_CNT_k
]

/-- R223, 06_fleet_time.md. -/
def tb1 : List RegDef := [
  { base := 0x0820C, s1 := 16, c1 := 4, rw := 0x3 } -- TB_CAP_CTRL_k
]

def tb : List RegDef := tb0 ++ tb1

/-- R244, 07_counters_sampling.md. -/
def cf0 : List RegDef := [
  { base := 0x10000 }, -- CF_STATUS
  { base := 0x10004, sh := 0x1, sec := 0x04, free := true }, -- CF_CTRL
  { base := 0x10008, rw := 0x7 }, -- CF_BUF_PAGE
  { base := 0x1000C, rc := 0xFFFFFFFF }, -- CF_RECORDS
  { base := 0x10010 }, -- CF_GAP_LO
  { base := 0x10014 }, -- CF_GAP_HI
  { base := 0x10020, sh := 0x8000000F, sec := 0x05 }, -- CF_SNAP_CFG
  { base := 0x10024 }, -- CF_SNAP_TIME_LO
  { base := 0x10028 }, -- CF_SNAP_TIME_HI
  { base := 0x1002C }, -- CF_SNAP_OFF
  { base := 0x12000, s1 := 64, c1 := 16, sh := 0xFFF001FF, sec := 0x05 }, -- CF_PLAN_CFG_p
  { base := 0x12004, s1 := 64, c1 := 16, sh := 0xFFFFFFFF, sec := 0x05 }, -- CF_PLAN_IVL_p
  { base := 0x12008, s1 := 64, c1 := 16, sh := 0xFFFFFFFF, sec := 0x05 }, -- CF_PLAN_START_LO_p
  { base := 0x1200C, s1 := 64, c1 := 16, sh := 0xFFFFFFFF, sec := 0x05 }, -- CF_PLAN_START_HI_p
  { base := 0x12010, s1 := 64, c1 := 16, sh := 0xFFFF3FFF, sec := 0x05 }, -- CF_AREA_p
  { base := 0x12014, s1 := 64, c1 := 16 }, -- CF_AREA_WR_p
  { base := 0x12018, s1 := 64, c1 := 16, rw := 0xFFFFFFFF }, -- CF_AREA_RD_p
  { base := 0x1201C, s1 := 64, c1 := 16, rc := 0xFFFFFFFF }, -- CF_AREA_DROP_p
  { base := 0x12020, s1 := 64, c1 := 16 }, -- CF_PLAN_NEXT_LO_p
  { base := 0x12024, s1 := 64, c1 := 16 }, -- CF_PLAN_NEXT_HI_p
  { base := 0x12028, s1 := 64, c1 := 16, rc := 0xFFFFFFFF }, -- CF_PLAN_TALLY_p
  { base := 0x13000, s1 := 16, c1 := 64, sh := 0x83FF03FF, sec := 0x05 }, -- CF_HQ_CFG_h
  { base := 0x13004, s1 := 16, c1 := 64 }, -- CF_HQ_DEPTH_h
  { base := 0x13008, s1 := 16, c1 := 64 }, -- CF_HQ_MAX_h
  { base := 0x1300C, s1 := 16, c1 := 64 }, -- CF_HQ_DELAY_h
  { base := 0x14000, s1 := 4, c1 := 1024, sh := 0xE00003FF, sec := 0x04 }, -- CF_XB_k
  { base := 0x15000, s1 := 4, c1 := 128, sh := 0xA000007F, sec := 0x04 }, -- CF_BTX_b
  { base := 0x16000, s1 := 4, c1 := 2048, sh := 0x7FF, sec := 0x05 }, -- CF_LIST_i
  { base := 0x18000, s1 := 8, c1 := 1024 }, -- CF_EV_LO_k
  { base := 0x18004, s1 := 8, c1 := 1024 }, -- CF_EV_HI_k
  { base := 0x1A000, s1 := 8, c1 := 128 }, -- CF_BT_LO_b
  { base := 0x1A004, s1 := 8, c1 := 128 } -- CF_BT_HI_b
]

def cf : List RegDef := cf0

/-- R276, 08_check_taps.md. -/
def ck0 : List RegDef := [
  { base := 0x20000, role := 1 }, -- CK_STATUS
  { base := 0x20004, sh := 0xFFFF, role := 1, sec := 0x06, free := true }, -- CK_TRK_AGE
  { base := 0x20008, sh := 0xFFFF, role := 1, sec := 0x06, free := true }, -- CK_RCP_AGE
  { base := 0x2000C, rc := 0xFFF, role := 1 }, -- CK_TRK_PEAK
  { base := 0x20010, rc := 0xFFFFFFFF, role := 1 }, -- CK_FAULTS
  { base := 0x20014, rc := 0xFFFFFFFF, role := 1 }, -- CK_MISROUTES
  { base := 0x20018, rc := 0xFFFFFFFF, role := 1 }, -- CK_SUPP
  { base := 0x2001C, rc := 0xFFFF0000, role := 1 }, -- CK_RCP_STAT
  { base := 0x20020, role := 1 }, -- CK_RCP_INC_LO
  { base := 0x20024, role := 1 }, -- CK_RCP_INC_HI
  { base := 0x20028, role := 1 }, -- CK_LAST_SRC
  { base := 0x2002C, role := 1 }, -- CK_LAST_IDX
  { base := 0x20030, role := 1 }, -- CK_LAST_NAME_LO
  { base := 0x20034, role := 1 }, -- CK_LAST_NAME_HI
  { base := 0x20038, role := 1 }, -- CK_LAST_STEP
  { base := 0x2003C, role := 1 }, -- CK_LAST_WANT
  { base := 0x20040, role := 1 }, -- CK_LAST_GOT
  { base := 0x20048, role := 1 }, -- CK_SNAP_CHK_LO
  { base := 0x2004C, role := 1 }, -- CK_SNAP_CHK_HI
  { base := 0x20050, role := 1 }, -- CK_SNAP_UNC_LO
  { base := 0x20054, role := 1 }, -- CK_SNAP_UNC_HI
  { base := 0x20058, role := 1 }, -- CK_SNAP_TRK
  { base := 0x20080, s1 := 4, c1 := 11, rc := 0xFFFFFFFF, role := 1 }, -- CK_UNC_c
  { base := 0x21000, s1 := 64, c1 := 16, sh := 0x1, role := 1, sec := 0x06 }, -- CK_MT_CFG_m
  { base := 0x21004, s1 := 64, c1 := 16, rc := 0xFFFFFFFF, role := 1 }, -- CK_MT_EVT_m
  { base := 0x21008, s1 := 64, c1 := 16, role := 1 }, -- CK_MT_CHK_LO_m
  { base := 0x2100C, s1 := 64, c1 := 16, role := 1 }, -- CK_MT_CHK_HI_m
  { base := 0x21010, s1 := 64, c1 := 16, role := 1 }, -- CK_MT_UNC_LO_m
  { base := 0x21014, s1 := 64, c1 := 16, role := 1 }, -- CK_MT_UNC_HI_m
  { base := 0x21018, s1 := 64, c1 := 16, role := 1 }, -- CK_MT_EXM_LO_m
  { base := 0x2101C, s1 := 64, c1 := 16, role := 1 }, -- CK_MT_EXM_HI_m
  { base := 0x21020, s1 := 64, c1 := 16, role := 1 }, -- CK_MT_OUT_LO_m
  { base := 0x21024, s1 := 64, c1 := 16, role := 1 }, -- CK_MT_OUT_HI_m
  { base := 0x22000, s1 := 64, c1 := 8, sh := 0xFFFF0F, role := 1, sec := 0x06 }, -- CK_LT_CFG_l
  { base := 0x22004, s1 := 64, c1 := 8, sh := 0xFFFFFFFF, role := 1, sec := 0x06 }, -- CK_LT_SEL_l
  { base := 0x22008, s1 := 64, c1 := 8, rc := 0xFFFFFFFF, role := 1 }, -- CK_LT_EVT_l
  { base := 0x2200C, s1 := 64, c1 := 8, role := 1 }, -- CK_LT_STATE_l
  { base := 0x22010, s1 := 64, c1 := 8, role := 1 }, -- CK_LT_CHK_LO_l
  { base := 0x22014, s1 := 64, c1 := 8, role := 1 }, -- CK_LT_CHK_HI_l
  { base := 0x22018, s1 := 64, c1 := 8, role := 1 } -- CK_LT_UNC_LO_l
]

/-- R276, 08_check_taps.md. -/
def ck1 : List RegDef := [
  { base := 0x2201C, s1 := 64, c1 := 8, role := 1 }, -- CK_LT_UNC_HI_l
  { base := 0x22020, s1 := 64, c1 := 8, role := 1 }, -- CK_LT_OUT_LO_l
  { base := 0x22024, s1 := 64, c1 := 8, role := 1 }, -- CK_LT_OUT_HI_l
  { base := 0x24000, s1 := 32, c1 := 64, sh := 0xFFFFFF00, role := 1, sec := 0x06 }, -- CK_RG_BASE_LO_r
  { base := 0x24004, s1 := 32, c1 := 64, sh := 0xFFFFF, role := 1, sec := 0x06 }, -- CK_RG_BASE_HI_r
  { base := 0x24008, s1 := 32, c1 := 64, sh := 0xFFFFFFFF, role := 1, sec := 0x06 }, -- CK_RG_SIZE_r
  { base := 0x2400C, s1 := 32, c1 := 64, sh := 0x3FDF, role := 1, sec := 0x06 }, -- CK_RG_CFG_r
  { base := 0x24010, s1 := 32, c1 := 64, sh := 0xFFFFFFFF, role := 1, sec := 0x06 }, -- CK_RG_IDX_LO_r
  { base := 0x24014, s1 := 32, c1 := 64, sh := 0xFF, role := 1, sec := 0x06 }, -- CK_RG_IDX_HI_r
  { base := 0x26000, s1 := 64, c1 := 4, sh := 0xFFFF001F, role := 1, sec := 0x06 }, -- CK_ILV_CFG_s
  { base := 0x26004, s1 := 64, c1 := 4, sh := 0xFFFFFFFF, role := 1, sec := 0x06 }, -- CK_ILV_MAP_LO_s
  { base := 0x26008, s1 := 64, c1 := 4, sh := 0xFFFFFFFF, role := 1, sec := 0x06 }, -- CK_ILV_MAP_HI_s
  { base := 0x26010, s1 := 64, c1 := 4, s2 := 8, c2 := 4, sh := 0xFFFFFF00, role := 1, sec := 0x06 }, -- CK_ILV_MASK_LO_s_j
  { base := 0x26014, s1 := 64, c1 := 4, s2 := 8, c2 := 4, sh := 0xFFFFF, role := 1, sec := 0x06 } -- CK_ILV_MASK_HI_s_j
]

def ck : List RegDef := ck0 ++ ck1

/-- R302, 09_spot_check_arithmetic.md. -/
def xh0 : List RegDef := [
  { base := 0x30800, s1 := 16, c1 := 16, sh := 0x1F3F, role := 1, sec := 0x07 }, -- XC_HM_IN_n
  { base := 0x30804, s1 := 16, c1 := 16, sh := 0x7F, role := 1, sec := 0x07 }, -- XC_HM_OUT_n
  { base := 0x30808, s1 := 16, c1 := 16, sh := 0x3FF031F, role := 1, sec := 0x07 } -- XC_HM_ACC_n
]

def xh : List RegDef := xh0

/-- R332, 10_spot_check_verdicts.md. -/
def xc0 : List RegDef := [
  { base := 0x30000, role := 1 }, -- XC_STATUS
  { base := 0x30004, sh := 0x3, role := 1, sec := 0x07 }, -- XC_POLICY
  { base := 0x30008, sh := 0xFFFF, role := 1, sec := 0x07, free := true }, -- XC_BOUND
  { base := 0x3000C, sh := 0xFFFF3F01, role := 1, sec := 0x07, free := true }, -- XC_SAMP_CFG
  { base := 0x30010, sh := 0xFFFF, role := 1, sec := 0x07, free := true }, -- XC_SAMP_TBASE
  { base := 0x30014, sh := 0xFFFFFFFF, role := 1, sec := 0x07, free := true }, -- XC_SAMP_BASE
  { base := 0x30018, sh := 0xFFFFFFFF, role := 1, sec := 0x07, free := true }, -- XC_SAMP_SEED
  { base := 0x3001C, rc := 0xFFFFFFFF, role := 1 }, -- XC_VERDICTS
  { base := 0x30020, rc := 0xFFFFFFFF, role := 1 }, -- XC_KAT
  { base := 0x30024, role := 1 }, -- XC_YJ
  { base := 0x30028, wo := 0x1, role := 1 }, -- XC_YJ_CTRL
  { base := 0x3002C, sh := 0xFFFF, role := 1, sec := 0x07, free := true }, -- XC_YJ_CFG
  { base := 0x30030, sh := 0x1FFFF, role := 1, sec := 0x07, free := true }, -- XC_TAINT_CFG
  { base := 0x30034, rc := 0xFFFFFFFF, role := 1 }, -- XC_TAINTS
  { base := 0x30038, rc := 0xFFFFFFFF, role := 1 }, -- XC_TAINT_MISS
  { base := 0x30040, role := 1 }, -- XC_SNAP_OPS_LO
  { base := 0x30044, role := 1 }, -- XC_SNAP_OPS_HI
  { base := 0x30048, role := 1 }, -- XC_SNAP_TILES
  { base := 0x30100, s1 := 64, c1 := 2, role := 1 }, -- XC_L_OPS_LO_L
  { base := 0x30104, s1 := 64, c1 := 2, role := 1 }, -- XC_L_OPS_HI_L
  { base := 0x30108, s1 := 64, c1 := 2, role := 1 }, -- XC_L_BUSY_LO_L
  { base := 0x3010C, s1 := 64, c1 := 2, role := 1 }, -- XC_L_BUSY_HI_L
  { base := 0x30110, s1 := 64, c1 := 2, role := 1 }, -- XC_L_STALL_LO_L
  { base := 0x30114, s1 := 64, c1 := 2, role := 1 }, -- XC_L_STALL_HI_L
  { base := 0x30118, s1 := 64, c1 := 2, role := 1 }, -- XC_L_BYTES_LO_L
  { base := 0x3011C, s1 := 64, c1 := 2, role := 1 }, -- XC_L_BYTES_HI_L
  { base := 0x30120, s1 := 64, c1 := 2, rc := 0xFFFFFFFF, role := 1 }, -- XC_L_TILES_L
  { base := 0x30200, sh := 0xFFFFFFC0, role := 1, sec := 0x07, free := true }, -- XC_VR_LO
  { base := 0x30204, sh := 0x1FFFFFFF, role := 1, sec := 0x07, free := true }, -- XC_VR_HI
  { base := 0x30208, role := 1 }, -- XC_VR_WR
  { base := 0x3020C, rw := 0xFFFFFFFF, role := 1 }, -- XC_VR_RD
  { base := 0x30210, rc := 0xFFFFFFFF, role := 1 }, -- XC_VR_LOST
  { base := 0x30220, sh := 0xFFFFFFC0, role := 1, sec := 0x07, free := true }, -- XC_TR_LO
  { base := 0x30224, sh := 0x1FFFFFFF, role := 1, sec := 0x07, free := true }, -- XC_TR_HI
  { base := 0x30228, role := 1 }, -- XC_TR_WR
  { base := 0x3022C, rw := 0xFFFFFFFF, role := 1 }, -- XC_TR_RD
  { base := 0x30230, rc := 0xFFFFFFFF, role := 1 }, -- XC_TR_LOST
  { base := 0x30300, s1 := 8, c1 := 16, role := 1 }, -- XC_TT_STEP_e
  { base := 0x30304, s1 := 8, c1 := 16, role := 1 }, -- XC_TT_STATE_e
  { base := 0x30C00, s1 := 4, c1 := 128, sh := 0xFFFF, role := 1, sec := 0x07, free := true } -- XC_W_k
]

/-- R332, 10_spot_check_verdicts.md. -/
def xc1 : List RegDef := [
  { base := 0x30E00, s1 := 4, c1 := 128, rc := 0xFFFFFFFF, role := 1 } -- XC_BIN_k
]

def xc : List RegDef := xc0 ++ xc1

/-- R362, 11_scoring_engine.md. -/
def sc0 : List RegDef := [
  { base := 0x40000 }, -- SC_STATUS
  { base := 0x40004, sh := 0xFFFF, sec := 0x09, free := true }, -- SC_BOUND
  { base := 0x40008, sh := 0x1, sec := 0x08 }, -- SC_FS_CFG
  { base := 0x4000C, sh := 0x1, sec := 0x0A }, -- SC_PT_CFG
  { base := 0x40010, rw := 0x300FF }, -- SC_WIN_SEL
  { base := 0x40014, rc := 0xFFFFFFFF }, -- SC_ERRS
  { base := 0x40018 }, -- SC_VECS_LO
  { base := 0x4001C }, -- SC_VECS_HI
  { base := 0x40020 }, -- SC_VISITS_LO
  { base := 0x40024 }, -- SC_VISITS_HI
  { base := 0x40028 }, -- SC_DFLT_LO
  { base := 0x4002C }, -- SC_DFLT_HI
  { base := 0x40030 }, -- SC_SNAP_VECS_LO
  { base := 0x40034 }, -- SC_SNAP_VECS_HI
  { base := 0x40038 }, -- SC_SNAP_VISITS_LO
  { base := 0x4003C }, -- SC_SNAP_VISITS_HI
  { base := 0x40040 }, -- SC_LAST_FAULT
  { base := 0x40044 }, -- SC_LAST_NODE
  { base := 0x40100, s1 := 32, c1 := 8, sh := 0x3FFFF, sec := 0x09 }, -- SC_MD_BASE_m
  { base := 0x40104, s1 := 32, c1 := 8, sh := 0x3F07FFFF, sec := 0x09 }, -- SC_MD_SPAN_m
  { base := 0x40108, s1 := 32, c1 := 8, sh := 0x87FF3FFF, sec := 0x09 }, -- SC_MD_CFG_m
  { base := 0x4010C, s1 := 32, c1 := 8, sh := 0x3F, sec := 0x0A }, -- SC_MD_PROB_m
  { base := 0x40110, s1 := 32, c1 := 8, sh := 0xFFFFFFFF, sec := 0x0A }, -- SC_MD_PBASE_LO_m
  { base := 0x40114, s1 := 32, c1 := 8, sh := 0xFFFFFFFF, sec := 0x0A }, -- SC_MD_PBASE_HI_m
  { base := 0x40118, s1 := 32, c1 := 8, rc := 0xFFFFFFFF } -- SC_MD_STAT_m
]

def sc : List RegDef := sc0

/-- R400, 12_halyard.md. -/
def hl0 : List RegDef := [
  { base := 0x50000 }, -- HL_STATUS
  { base := 0x50004, role := 2 }, -- HL_ASSOC
  { base := 0x50008, sh := 0xFFFFFFFF, sec := 0x0B, free := true }, -- HL_ADM_A
  { base := 0x5000C, sh := 0xFFFFFFFF, sec := 0x0B, free := true }, -- HL_ADM_B
  { base := 0x50010, sh := 0xFFFF, sec := 0x0B, free := true }, -- HL_ADM_SUM
  { base := 0x50014, sh := 0x7, sec := 0x0B, free := true }, -- HL_LANE_MAP
  { base := 0x50018, sh := 0xFFFFFFFF, sec := 0x0B, free := true }, -- HL_TIMERS
  { base := 0x5001C, sh := 0xFFFFFFFF, role := 2, sec := 0x0B }, -- HL_MAC_PFX
  { base := 0x50020, sh := 0xFFFF0777, role := 2, sec := 0x0B }, -- HL_PCP
  { base := 0x50024, sh := 0x80003FFF, role := 2, sec := 0x0B }, -- HL_ROOT
  { base := 0x50028, rc := 0xFFFFFFFF }, -- HL_DISCARD
  { base := 0x5002C, rc := 0xFFFFFFFF, role := 2 }, -- HL_GAPS
  { base := 0x50030, rc := 0xFFFFFFFF }, -- HL_DUPS
  { base := 0x50034, rc := 0xFFFFFFFF }, -- HL_LATE
  { base := 0x50040, s1 := 4, c1 := 3, rc := 0xFFFFFFFF }, -- HL_REFUSED_c
  { base := 0x50050, s1 := 4, c1 := 3, sh := 0xFFFF, sec := 0x0B, free := true }, -- HL_CRED_c
  { base := 0x50060 }, -- HL_TX_LO
  { base := 0x50064 }, -- HL_TX_HI
  { base := 0x50068 }, -- HL_RX_LO
  { base := 0x5006C }, -- HL_RX_HI
  { base := 0x50070 }, -- HL_SNAP_TX_LO
  { base := 0x50074 }, -- HL_SNAP_TX_HI
  { base := 0x50078 }, -- HL_SNAP_RX_LO
  { base := 0x5007C }, -- HL_SNAP_RX_HI
  { base := 0x50100, s1 := 16, c1 := 16 }, -- HL_LN_STATE_n
  { base := 0x50104, s1 := 16, c1 := 16, rc := 0xFFFFFFFF }, -- HL_LN_CW_n
  { base := 0x50108, s1 := 16, c1 := 16, rc := 0xFFFFFFFF }, -- HL_LN_RPL_n
  { base := 0x5010C, s1 := 16, c1 := 16, rc := 0xFFFFFFFF }, -- HL_LN_BLK_n
  { base := 0x50200, s1 := 32, c1 := 4, sh := 0x80000FFF, role := 2, sec := 0x0B }, -- HL_EP_CFG_p
  { base := 0x50204, s1 := 32, c1 := 4, role := 2 }, -- HL_EP_STATE_p
  { base := 0x50208, s1 := 32, c1 := 4, rc := 0xFFFFFFFF, role := 2 }, -- HL_EP_TXF_p
  { base := 0x5020C, s1 := 32, c1 := 4, rc := 0xFFFFFFFF, role := 2 }, -- HL_EP_RXF_p
  { base := 0x50210, s1 := 32, c1 := 4, rc := 0xFFFFFFFF, role := 2 }, -- HL_EP_RTX_p
  { base := 0x50214, s1 := 32, c1 := 4, rc := 0xFFFFFFFF, role := 2 }, -- HL_EP_DISC_p
  { base := 0x50300, s1 := 128, c1 := 4, s2 := 32, c2 := 3, sh := 0xC000FFFF, role := 2, sec := 0x0B, free := true }, -- HL_POL_CFG_p_c
  { base := 0x50304, s1 := 128, c1 := 4, s2 := 32, c2 := 3, sh := 0xFFFF, role := 2, sec := 0x0B, free := true }, -- HL_POL_PIR_p_c
  { base := 0x50308, s1 := 128, c1 := 4, s2 := 32, c2 := 3, sh := 0xFFFFFF, role := 2, sec := 0x0B, free := true }, -- HL_POL_CBS_p_c
  { base := 0x5030C, s1 := 128, c1 := 4, s2 := 32, c2 := 3, sh := 0xFFFFFF, role := 2, sec := 0x0B, free := true }, -- HL_POL_EBS_p_c
  { base := 0x50310, s1 := 128, c1 := 4, s2 := 32, c2 := 3, rc := 0xFFFFFFFF, role := 2 }, -- HL_POL_CNT_p_c
  { base := 0x50600, s1 := 8, c1 := 3, sh := 0x8000FFFF, sec := 0x0B, free := true } -- HL_SHP_RATE_c
]

/-- R400, 12_halyard.md. -/
def hl1 : List RegDef := [
  { base := 0x50604, s1 := 8, c1 := 3, sh := 0xFFFFFF, sec := 0x0B, free := true }, -- HL_SHP_BURST_c
  { base := 0x50800, s1 := 16, c1 := 60 }, -- HL_Q_DEPTH_q
  { base := 0x50804, s1 := 16, c1 := 60, rc := 0xFFFFFFFF }, -- HL_Q_MAX_q
  { base := 0x50808, s1 := 16, c1 := 60 }, -- HL_Q_DELAY_q
  { base := 0x5080C, s1 := 16, c1 := 60, rc := 0xFFFFFFFF }, -- HL_Q_DMAX_q
  { base := 0x54000, s1 := 4, c1 := 1024, sh := 0xBFFFBFFF, role := 2, sec := 0x0B }, -- HL_CDIR_i
  { base := 0x58000, s1 := 4, c1 := 4096, role := 2 }, -- HL_ASSOC_e
  { base := 0x5C000, s1 := 4, c1 := 4096, sh := 0xFC1F0000, sec := 0x13 } -- HL_TYPE_t
]

def hl : List RegDef := hl0 ++ hl1

/-- R428, 13_reduction_jobs.md. -/
def rd0 : List RegDef := [
  { base := 0x60000, role := 2 }, -- RD_STATUS
  { base := 0x60004, rw := 0xFF, role := 2 }, -- RD_TS_EXCL
  { base := 0x60008, rc := 0xFFFFFFFF, role := 2 }, -- RD_EXCL_A
  { base := 0x6000C, rc := 0xFFFFFFFF, role := 2 }, -- RD_EXCL_B
  { base := 0x60010, rc := 0xFFFFFFFF, role := 2 }, -- RD_ORPHANS
  { base := 0x60014, rc := 0xFFFFFFFF, role := 2 }, -- RD_REFUSED
  { base := 0x60018, rc := 0xFFFFFFFF, role := 2 }, -- RD_MISS
  { base := 0x6001C, rc := 0xFFFFFFFF, role := 2 }, -- RD_PUB
  { base := 0x60020, role := 2 }, -- RD_IN_LO
  { base := 0x60024, role := 2 }, -- RD_IN_HI
  { base := 0x60028, role := 2 }, -- RD_SNAP_IN_LO
  { base := 0x6002C, role := 2 }, -- RD_SNAP_IN_HI
  { base := 0x60030, role := 2 }, -- RD_SNAP_PUB
  { base := 0x6003C, sh := 0x3, role := 2, sec := 0x14 }, -- RD_CTRL
  { base := 0x60040, sh := 0xFFFFFFFF, role := 2, sec := 0x14 }, -- RD_STATE_AREA
  { base := 0x60044, sh := 0xFFFFFFFF, role := 2, sec := 0x14 }, -- RD_RING_AREA
  { base := 0x60048, role := 2 }, -- RD_RING_WR
  { base := 0x6004C, rw := 0xFFFFFFFF, role := 2 }, -- RD_RING_RD
  { base := 0x60050, rc := 0xFFFFFFFF, role := 2 }, -- RD_RING_LOST
  { base := 0x60100, s1 := 8, c1 := 128, role := 2 }, -- RD_RTAG_i
  { base := 0x60104, s1 := 8, c1 := 128, role := 2 }, -- RD_RTAG_T_i
  { base := 0x60800, s1 := 256, c1 := 2, sh := 0x80000FFF, role := 2, sec := 0x0C }, -- RD_TS_t_JOB
  { base := 0x61000, s1 := 256, c1 := 32, sh := 0x80000FFF, role := 2, sec := 0x0C }, -- RD_CB_c_JOB
  { base := 0x63000, s1 := 256, c1 := 64, sh := 0x80000FFF, role := 2, sec := 0x0C }, -- RD_MH_m_JOB
  { base := 0x60804, s1 := 256, c1 := 2, sh := 0xFFFFFFFF, role := 2, sec := 0x0C }, -- RD_TS_t_T0_LO
  { base := 0x61004, s1 := 256, c1 := 32, sh := 0xFFFFFFFF, role := 2, sec := 0x0C }, -- RD_CB_c_T0_LO
  { base := 0x63004, s1 := 256, c1 := 64, sh := 0xFFFFFFFF, role := 2, sec := 0x0C }, -- RD_MH_m_T0_LO
  { base := 0x60808, s1 := 256, c1 := 2, sh := 0xFFFFFFFF, role := 2, sec := 0x0C }, -- RD_TS_t_T0_HI
  { base := 0x61008, s1 := 256, c1 := 32, sh := 0xFFFFFFFF, role := 2, sec := 0x0C }, -- RD_CB_c_T0_HI
  { base := 0x63008, s1 := 256, c1 := 64, sh := 0xFFFFFFFF, role := 2, sec := 0x0C }, -- RD_MH_m_T0_HI
  { base := 0x6080C, s1 := 256, c1 := 2, sh := 0xFFFFFFFF, role := 2, sec := 0x0C }, -- RD_TS_t_LEN
  { base := 0x6100C, s1 := 256, c1 := 32, sh := 0xFFFFFFFF, role := 2, sec := 0x0C }, -- RD_CB_c_LEN
  { base := 0x6300C, s1 := 256, c1 := 64, sh := 0xFFFFFFFF, role := 2, sec := 0x0C }, -- RD_MH_m_LEN
  { base := 0x60810, s1 := 256, c1 := 2, sh := 0xFFFFFFFF, role := 2, sec := 0x0C }, -- RD_TS_t_DL0
  { base := 0x61010, s1 := 256, c1 := 32, sh := 0xFFFFFFFF, role := 2, sec := 0x0C }, -- RD_CB_c_DL0
  { base := 0x63010, s1 := 256, c1 := 64, sh := 0xFFFFFFFF, role := 2, sec := 0x0C }, -- RD_MH_m_DL0
  { base := 0x60814, s1 := 256, c1 := 2, sh := 0xFFFFFF, role := 2, sec := 0x0C }, -- RD_TS_t_DL1
  { base := 0x61014, s1 := 256, c1 := 32, sh := 0xFFFFFF, role := 2, sec := 0x0C }, -- RD_CB_c_DL1
  { base := 0x63014, s1 := 256, c1 := 64, sh := 0xFFFFFF, role := 2, sec := 0x0C }, -- RD_MH_m_DL1
  { base := 0x60818, s1 := 256, c1 := 2, sh := 0x3FFF, role := 2, sec := 0x0C }, -- RD_TS_t_ROOT
  { base := 0x61018, s1 := 256, c1 := 32, sh := 0x3FFF, role := 2, sec := 0x0C }, -- RD_CB_c_ROOT
  { base := 0x63018, s1 := 256, c1 := 64, sh := 0x3FFF, role := 2, sec := 0x0C }, -- RD_MH_m_ROOT
  { base := 0x6081C, s1 := 256, c1 := 2, sh := 0xFFFFFFFF, role := 2, sec := 0x0C }, -- RD_TS_t_FROM
  { base := 0x6101C, s1 := 256, c1 := 32, sh := 0xFFFFFFFF, role := 2, sec := 0x0C }, -- RD_CB_c_FROM
  { base := 0x6301C, s1 := 256, c1 := 64, sh := 0xFFFFFFFF, role := 2, sec := 0x0C }, -- RD_MH_m_FROM
  { base := 0x60820, s1 := 256, c1 := 2, sh := 0x3FFFF, role := 2, sec := 0x0C }, -- RD_TS_t_EXP
  { base := 0x61020, s1 := 256, c1 := 32, sh := 0x3FFFF, role := 2, sec := 0x0C }, -- RD_CB_c_EXP
  { base := 0x63020, s1 := 256, c1 := 64, sh := 0x3FFFF, role := 2, sec := 0x0C }, -- RD_MH_m_EXP
  { base := 0x60824, s1 := 256, c1 := 2, sh := 0xF, role := 2, sec := 0x0C }, -- RD_TS_t_NRNG
  { base := 0x61024, s1 := 256, c1 := 32, sh := 0xF, role := 2, sec := 0x0C }, -- RD_CB_c_NRNG
  { base := 0x63024, s1 := 256, c1 := 64, sh := 0xF, role := 2, sec := 0x0C }, -- RD_MH_m_NRNG
  { base := 0x60828, s1 := 256, c1 := 2, role := 2 }, -- RD_TS_t_STATE
  { base := 0x61028, s1 := 256, c1 := 32, role := 2 }, -- RD_CB_c_STATE
  { base := 0x63028, s1 := 256, c1 := 64, role := 2 }, -- RD_MH_m_STATE
  { base := 0x6082C, s1 := 256, c1 := 2, role := 2 }, -- RD_TS_t_EPOCH
  { base := 0x6102C, s1 := 256, c1 := 32, role := 2 }, -- RD_CB_c_EPOCH
  { base := 0x6302C, s1 := 256, c1 := 64, role := 2 }, -- RD_MH_m_EPOCH
  { base := 0x60830, s1 := 256, c1 := 2, role := 2 }, -- RD_TS_t_OPEN
  { base := 0x61030, s1 := 256, c1 := 32, role := 2 }, -- RD_CB_c_OPEN
  { base := 0x63030, s1 := 256, c1 := 64, role := 2 }, -- RD_MH_m_OPEN
  { base := 0x60840, s1 := 256, c1 := 2, s2 := 16, c2 := 8, sh := 0xFFFFFBFF, role := 2, sec := 0x0C }, -- RD_TS_t_RGA_r
  { base := 0x61040, s1 := 256, c1 := 32, s2 := 16, c2 := 8, sh := 0xFFFFFBFF, role := 2, sec := 0x0C }, -- RD_CB_c_RGA_r
  { base := 0x63040, s1 := 256, c1 := 64, s2 := 16, c2 := 8, sh := 0xFFFFFBFF, role := 2, sec := 0x0C }, -- RD_MH_m_RGA_r
  { base := 0x60844, s1 := 256, c1 := 2, s2 := 16, c2 := 8, sh := 0x3F, role := 2, sec := 0x0C }, -- RD_TS_t_RGB_r
  { base := 0x61044, s1 := 256, c1 := 32, s2 := 16, c2 := 8, sh := 0x3F, role := 2, sec := 0x0C }, -- RD_CB_c_RGB_r
  { base := 0x63044, s1 := 256, c1 := 64, s2 := 16, c2 := 8, sh := 0x3F, role := 2, sec := 0x0C }, -- RD_MH_m_RGB_r
  { base := 0x60848, s1 := 256, c1 := 2, s2 := 16, c2 := 8, sh := 0xFFFFFFFF, role := 2, sec := 0x0C }, -- RD_TS_t_RGL_LO_r
  { base := 0x61048, s1 := 256, c1 := 32, s2 := 16, c2 := 8, sh := 0xFFFFFFFF, role := 2, sec := 0x0C }, -- RD_CB_c_RGL_LO_r
  { base := 0x63048, s1 := 256, c1 := 64, s2 := 16, c2 := 8, sh := 0xFFFFFFFF, role := 2, sec := 0x0C }, -- RD_MH_m_RGL_LO_r
  { base := 0x6084C, s1 := 256, c1 := 2, s2 := 16, c2 := 8, sh := 0xFFFFFFFF, role := 2, sec := 0x0C }, -- RD_TS_t_RGL_HI_r
  { base := 0x6104C, s1 := 256, c1 := 32, s2 := 16, c2 := 8, sh := 0xFFFFFFFF, role := 2, sec := 0x0C }, -- RD_CB_c_RGL_HI_r
  { base := 0x6304C, s1 := 256, c1 := 64, s2 := 16, c2 := 8, sh := 0xFFFFFFFF, role := 2, sec := 0x0C }, -- RD_MH_m_RGL_HI_r
  { base := 0x67000, s1 := 256, c1 := 64, s2 := 4, c2 := 64, sh := 0xFFFFFFFF, role := 2, sec := 0x0C } -- RD_MH_CUBES_m_w
]

def rd : List RegDef := rd0

/-- R454, 14_fleet_analytics.md. -/
def fa0 : List RegDef := [
  { base := 0xF0000, rc := 0xFFFFFF00, role := 2 }, -- FA_STATUS
  { base := 0xF0004, sh := 0xFFFF07, role := 2, sec := 0x0D }, -- FA_CFG
  { base := 0xF0008, sh := 0xFFFFFFFF, role := 2, sec := 0x0D }, -- FA_SER_A
  { base := 0xF000C, sh := 0xFF, role := 2, sec := 0x0D }, -- FA_SER_B
  { base := 0xF0010, sh := 0x3FF03FF, role := 2, sec := 0x0D }, -- FA_SER_C
  { base := 0xF0014, sh := 0x3FF03FF, role := 2, sec := 0x0D }, -- FA_SER_D
  { base := 0xF0018, sh := 0xFFFFFFFF, role := 2, sec := 0x0D }, -- FA_XBIN
  { base := 0xF001C, sh := 0xFFFFFFFF, role := 2, sec := 0x0D }, -- FA_XMIN
  { base := 0xF0020, sh := 0x1F1F, role := 2, sec := 0x0D }, -- FA_DRIFT
  { base := 0xF0024, sh := 0xFFFFFFFF, role := 2, sec := 0x0D }, -- FA_CAND_LO
  { base := 0xF0028, sh := 0xFFFFFFFF, role := 2, sec := 0x0D }, -- FA_CAND_HI
  { base := 0xF002C, sh := 0xFFFFFFFF, role := 2, sec := 0x0D }, -- FA_DTHR
  { base := 0xF0030, sh := 0xFFFFFFFF, role := 2, sec := 0x0D }, -- FA_JACK_LO
  { base := 0xF0034, sh := 0xFFFFFFFF, role := 2, sec := 0x0D }, -- FA_JACK_HI
  { base := 0xF0038, sh := 0xFFFFFF07, role := 2, sec := 0x0D }, -- FA_MH
  { base := 0xF003C, sh := 0xFFFFFFFF, role := 2, sec := 0x0D }, -- FA_QB_CUBE
  { base := 0xF0040, sh := 0xFFFF, role := 2, sec := 0x0D }, -- FA_QB_FLEET
  { base := 0xF0044, wo := 0xFFFF, role := 2 }, -- FA_QB_ADD
  { base := 0xF0048, role := 2 }, -- FA_QB_TOKENS
  { base := 0xF004C, sh := 0xFFFF00FF, role := 2, sec := 0x0D, free := true }, -- FA_CONF
  { base := 0xF0050, sh := 0xFFFFFF, role := 2, sec := 0x0D, free := true }, -- FA_ADM
  { base := 0xF0054, sh := 0xFFFFFFFF, role := 2, sec := 0x0D, free := true }, -- FA_SAT
  { base := 0xF0058, role := 2 }, -- FA_SAT_STATE
  { base := 0xF005C, sh := 0xFFFFFFFF, role := 2, sec := 0x0D }, -- FA_STATE_AREA
  { base := 0xF0060, rc := 0xFFFFFFFF, role := 2 }, -- FA_PACE
  { base := 0xF0064, rc := 0xFFFFFFFF, role := 2 }, -- FA_JACKS
  { base := 0xF0068, rc := 0xFFFFFFFF, role := 2 }, -- FA_HOT
  { base := 0xF006C, sh := 0xFFFF, role := 2, sec := 0x0D, free := true }, -- FA_SAT_N
  { base := 0xF0100, s1 := 16, c1 := 8, role := 2 }, -- FA_DIE_s
  { base := 0xF0104, s1 := 16, c1 := 8, rw := 0x1, role := 2 }, -- FA_DIE_CTRL_s
  { base := 0xF0108, s1 := 16, c1 := 8, role := 2 }, -- FA_DIE_ADM_LO_s
  { base := 0xF010C, s1 := 16, c1 := 8, role := 2 }, -- FA_DIE_ADM_HI_s
  { base := 0xF1000, s1 := 4, c1 := 2048, role := 2 }, -- FA_QB_TOK_c
  { base := 0xF4000, s1 := 1024, c1 := 8, s2 := 8, c2 := 128, role := 2 }, -- FA_CELL_ERR_s_k
  { base := 0xF4004, s1 := 1024, c1 := 8, s2 := 8, c2 := 128, role := 2 }, -- FA_CELL_EXP_s_k
  { base := 0xF6000, s1 := 16, c1 := 64, role := 2 }, -- FA_CD_P_d
  { base := 0xF6004, s1 := 16, c1 := 64, role := 2 }, -- FA_CD_DP_d
  { base := 0xF6008, s1 := 16, c1 := 64, role := 2 }, -- FA_CD_DS_d
  { base := 0xF8000, s1 := 4, c1 := 2048, role := 2 } -- FA_TRK_c
]

def fa : List RegDef := fa0

/-- R481, 15_trace_dumps_compression.md. -/
def tr0 : List RegDef := [
  { base := 0x70000 }, -- TR_STATUS
  { base := 0x70004, sh := 0x1F07, sec := 0x10, free := true }, -- TR_CFG
  { base := 0x70008, wo := 0x7 }, -- TR_CTRL
  { base := 0x7000C }, -- TR_WR
  { base := 0x70010 }, -- TR_TRIG
  { base := 0x70014 }, -- TR_FIRST
  { base := 0x70018 }, -- TR_TRIG_T_LO
  { base := 0x7001C }, -- TR_TRIG_T_HI
  { base := 0x70020, rc := 0xFFFFFFFF }, -- TR_LOST
  { base := 0x70024, rc := 0xFFFFFFFF }, -- TR_EXCL
  { base := 0x70028, rc := 0xFFFFFFFF }, -- TR_FROZEN
  { base := 0x7002C, rc := 0xFFFFFFFF }, -- TR_STALLS
  { base := 0x70030, rw := 0xFF }, -- TR_WIN_SEL
  { base := 0x70100, s1 := 32, c1 := 8, sh := 0xFFFFFFFF, sec := 0x10, free := true }, -- TR_CMP_LO_k
  { base := 0x70104, s1 := 32, c1 := 8, sh := 0xFFFFF, sec := 0x10, free := true }, -- TR_CMP_HI_k
  { base := 0x70108, s1 := 32, c1 := 8, sh := 0xFFFFFFFF, sec := 0x10, free := true }, -- TR_CMP_MSK_LO_k
  { base := 0x7010C, s1 := 32, c1 := 8, sh := 0xFFFFF, sec := 0x10, free := true }, -- TR_CMP_MSK_HI_k
  { base := 0x70110, s1 := 32, c1 := 8, sh := 0x7F, sec := 0x10, free := true }, -- TR_CMP_CFG_k
  { base := 0x70200, s1 := 32, c1 := 4, sh := 0xFFFFFFFF, sec := 0x10, free := true }, -- TR_RNG_LO_LO_j
  { base := 0x70204, s1 := 32, c1 := 4, sh := 0xFFFFF, sec := 0x10, free := true }, -- TR_RNG_LO_HI_j
  { base := 0x70208, s1 := 32, c1 := 4, sh := 0xFFFFFFFF, sec := 0x10, free := true }, -- TR_RNG_HI_LO_j
  { base := 0x7020C, s1 := 32, c1 := 4, sh := 0xFFFFF, sec := 0x10, free := true }, -- TR_RNG_HI_HI_j
  { base := 0x70210, s1 := 32, c1 := 4, sh := 0x7F, sec := 0x10, free := true } -- TR_RNG_CFG_j
]

def tr : List RegDef := tr0

/-- R482, 15_trace_dumps_compression.md. -/
def dc0 : List RegDef := [
  { base := 0x80000 }, -- DC_STATUS
  { base := 0x80004, sh := 0x1FFFF, sec := 0x11, free := true }, -- DC_CFG
  { base := 0x80008, sh := 0xFFFF, sec := 0x11, free := true }, -- DC_BOUND
  { base := 0x8000C, sh := 0xF000003F, sec := 0x11, free := true }, -- DC_HANG
  { base := 0x80010, wo := 0xFFFF }, -- DC_HANG_GO
  { base := 0x80014, rc := 0xFFFFFFFF }, -- DC_DUMPS
  { base := 0x80018, rc := 0xFFFFFFFF }, -- DC_VFAIL
  { base := 0x8001C }, -- DC_NEXT_ID
  { base := 0x80020 }, -- DC_RAW_LO
  { base := 0x80024 }, -- DC_RAW_HI
  { base := 0x80028 }, -- DC_CODED_LO
  { base := 0x8002C }, -- DC_CODED_HI
  { base := 0x80030 }, -- DC_SEGS_LO
  { base := 0x80034 }, -- DC_SEGS_HI
  { base := 0x80040, sh := 0xFFFF07FF, role := 2, sec := 0x11 }, -- DC_RX_CFG
  { base := 0x80044, sh := 0xFFFFFFFF, role := 2, sec := 0x11 }, -- DC_RX_AREA
  { base := 0x80048, sh := 0xFFFFFFFF, role := 2, sec := 0x11 }, -- DC_CTX_AREA
  { base := 0x8004C, role := 2 }, -- DC_RX_WR
  { base := 0x80050, rw := 0xFFFFFFFF, role := 2 }, -- DC_RX_RD
  { base := 0x80054, rc := 0xFFFFFFFF, role := 2 }, -- DC_RX_LOST
  { base := 0x80058, rc := 0xFFFFFFFF, role := 2 }, -- DC_RX_ERR
  { base := 0x8005C, role := 2 }, -- DC_RX_CTX
  { base := 0x80060, rw := 0xFFFFF, role := 2 }, -- DC_FS_PAGE
  { base := 0x80100, s1 := 32, c1 := 4, w1s := 0x7 }, -- DC_ENG_CTRL_k
  { base := 0x80104, s1 := 32, c1 := 4, rw := 0xFFFFFFC0 }, -- DC_ENG_LO_k
  { base := 0x80108, s1 := 32, c1 := 4, rw := 0xC00FFFFF }, -- DC_ENG_HI_k
  { base := 0x8010C, s1 := 32, c1 := 4 }, -- DC_ENG_SEG_k
  { base := 0x81000, s1 := 32, c1 := 64, sh := 0xFFFFFFFF, sec := 0x11, free := true }, -- DC_DL_NAME_LO_e
  { base := 0x81004, s1 := 32, c1 := 64, sh := 0xFFFFFFFF, sec := 0x11, free := true }, -- DC_DL_NAME_HI_e
  { base := 0x81008, s1 := 32, c1 := 64, sh := 0xFFFFFFC0, sec := 0x11, free := true }, -- DC_DL_BASE_LO_e
  { base := 0x8100C, s1 := 32, c1 := 64, sh := 0xFFFFF, sec := 0x11, free := true }, -- DC_DL_BASE_HI_e
  { base := 0x81010, s1 := 32, c1 := 64, sh := 0xFFFFFFC0, sec := 0x11, free := true }, -- DC_DL_TBASE_LO_e
  { base := 0x81014, s1 := 32, c1 := 64, sh := 0xFFFFF, sec := 0x11, free := true }, -- DC_DL_TBASE_HI_e
  { base := 0x81018, s1 := 32, c1 := 64, sh := 0xFFFFFFFF, sec := 0x11, free := true }, -- DC_DL_IDX_e
  { base := 0x8101C, s1 := 32, c1 := 64, sh := 0xFFFFF3FF, sec := 0x11, free := true }, -- DC_DL_CFG_e
  { base := 0x82000, s1 := 16, c1 := 32, sh := 0xFFFFFFC0, sec := 0x11, free := true }, -- DC_HL_LO_h
  { base := 0x82004, s1 := 16, c1 := 32, sh := 0xFFFFF, sec := 0x11, free := true }, -- DC_HL_HI_h
  { base := 0x82008, s1 := 16, c1 := 32, sh := 0xFFFFFFFF, sec := 0x11, free := true } -- DC_HL_LEN_h
]

def dc : List RegDef := dc0

/-- R508, 16_event_recorder_errors.md. -/
def ev0 : List RegDef := [
  { base := 0x90000 }, -- EV_STATUS
  { base := 0x90004, rw := 0x1 }, -- EV_CTRL
  { base := 0x90008, wo := 0xFFFF }, -- EV_CLEAR
  { base := 0x9000C }, -- EV_WR
  { base := 0x90010 }, -- EV_NEXT
  { base := 0x90014, sh := 0xFFFF, sec := 0x12, free := true }, -- EV_FRZ_TO
  { base := 0x90018, sh := 0xFF, sec := 0x12, free := true }, -- EV_MIRROR
  { base := 0x9001C, sh := 0xFFFFFFFF, sec := 0x12, free := true }, -- EV_SCRUB
  { base := 0x90020, rc := 0xFFFFFFFF }, -- EV_PASSES
  { base := 0x90024, rc := 0xFFFFFFFF }, -- EV_CORR
  { base := 0x90028, rc := 0xFFFFFFFF }, -- EV_UNC
  { base := 0x9002C, rc := 0xFFFFFFFF }, -- EV_MIR_HELD
  { base := 0x90030, s1 := 4, c1 := 8, rc := 0xFFFFFFFF }, -- EV_OVF_c
  { base := 0x90050, s1 := 4, c1 := 8, rc := 0xFFFFFFFF }, -- EV_FRZ_c
  { base := 0x90070 }, -- EV_OPSEC
  { base := 0x90074 }, -- EV_PCC
  { base := 0x90078, rw := 0xFFFFFFFF, role := 1 }, -- EV_LIFE_OPS
  { base := 0x9007C, rw := 0xFFFFFF, role := 1 }, -- EV_LIFE_PCC
  { base := 0x90080, sh := 0xFFFF, role := 2, sec := 0x12, free := true }, -- EV_LIFE_CFG
  { base := 0x90084, sh := 0x80000FFF, role := 2, sec := 0x14 }, -- EV_NV_AREA
  { base := 0x90088, role := 2 }, -- EV_NV_LAG
  { base := 0x9008C, sh := 0xFFFFFFFF, role := 2, sec := 0x14 }, -- EV_LOG_AREA
  { base := 0x90090, sh := 0xFFFFFFFF, role := 2, sec := 0x14 }, -- EV_MIR_AREA
  { base := 0x90094, sh := 0xFFFFFFFF, role := 2, sec := 0x14 }, -- EV_FR_AREA
  { base := 0x90098, role := 2 }, -- EV_FR_WR
  { base := 0x9009C, rw := 0xFFFFFFFF, role := 2 }, -- EV_FR_RD
  { base := 0x900A0, rc := 0xFFFFFFFF, role := 2 }, -- EV_FR_LOST
  { base := 0x900A4, rw := 0xF00FF }, -- EV_WIN_SEL
  { base := 0x900A8, sh := 0xF0007, role := 2, sec := 0x14 }, -- EV_STORE
  { base := 0x90100, s1 := 4, c1 := 15, rc := 0xFFFFFFFF }, -- EV_DLM_u
  { base := 0x90200, s1 := 16, c1 := 8, role := 2 }, -- EV_MIR_WR_s
  { base := 0x90204, s1 := 16, c1 := 8, role := 2 }, -- EV_MIR_NEXT_s
  { base := 0x90208, s1 := 16, c1 := 8, rc := 0xFFFFFFFF, role := 2 } -- EV_MIR_HELD_s
]

def ev : List RegDef := ev0

/-- R534, 17_steward.md. -/
def st0 : List RegDef := [
  { base := 0xA0000 }, -- ST_STATUS
  { base := 0xA0004 }, -- ST_FW_VER
  { base := 0xA0008 }, -- ST_FW_SEC
  { base := 0xA000C }, -- ST_BOOT
  { base := 0xA0010, rw := 0x7 }, -- ST_BOOT_CFG
  { base := 0xA0014, rw := 0xFFFFF }, -- ST_SEC_FLOOR
  { base := 0xA0018, rw := 0xFFFFFFC0, role := 1 }, -- ST_BOOT_A_LO
  { base := 0xA001C, rw := 0xFFFFF, role := 1 }, -- ST_BOOT_A_HI
  { base := 0xA0020, rw := 0xFFFFFFC0, role := 1 }, -- ST_BOOT_B_LO
  { base := 0xA0024, rw := 0xFFFFF, role := 1 }, -- ST_BOOT_B_HI
  { base := 0xA0028 }, -- ST_IM_STAT
  { base := 0xA002C }, -- ST_IM_VER
  { base := 0xA0030, rw := 0x7C000000, w1s := 0x80000000 }, -- ST_IM_LOAD
  { base := 0xA0034, rw := 0xFFFFFFFF }, -- ST_IM_SRC_LO
  { base := 0xA0038, rw := 0xFFFFF }, -- ST_IM_SRC_HI
  { base := 0xA003C, rw := 0xFFFFFFFF }, -- ST_IM_LEN
  { base := 0xA0040, wo := 0xFFFF }, -- ST_IM_SWAP
  { base := 0xA0044, w1c := 0x80000000 }, -- ST_ACC
  { base := 0xA0048, rw := 0x8000FFFF }, -- ST_WDOG
  { base := 0xA004C, wo := 0xFFFFFFFF }, -- ST_WDOG_KICK
  { base := 0xA0050, rw := 0x1 }, -- ST_TMR_CTRL
  { base := 0xA0054, rw := 0xFFFFFFFF }, -- ST_TMR_LO
  { base := 0xA0058, rw := 0xFFFFFFFF }, -- ST_TMR_HI
  { base := 0xA005C, rw := 0x7FF1FFF }, -- ST_RX_BASE
  { base := 0xA0060 }, -- ST_RX_WR
  { base := 0xA0064, rw := 0xFFFFFFFF }, -- ST_RX_RD
  { base := 0xA0068, rc := 0xFFFFFFFF }, -- ST_RX_LOST
  { base := 0xA006C, rw := 0xFFFFFFFF }, -- ST_EV_ARG
  { base := 0xA0070, wo := 0xFFFF }, -- ST_EV_PUT
  { base := 0xA0074, rw := 0x40003FFF, w1s := 0x80000000, role := 2 }, -- ST_FL_CMD
  { base := 0xA0078, rw := 0xFFF00, role := 2 }, -- ST_FL_SRC
  { base := 0xA007C, rc := 0xFFFFFFFF }, -- ST_FAULTS
  { base := 0xA0080, sh := 0x1, role := 2, sec := 0x14, free := true }, -- ST_FL_CFG
  { base := 0xA0100, s1 := 4, c1 := 12 } -- ST_DIGEST_k
]

def st : List RegDef := st0

end RegMap

/-- The register tables that cover a byte offset (R10). -/
def regPage (off : Nat) : List RegDef :=
  if off < 0x01000 then RegMap.gl
  else if off < 0x02000 then RegMap.pm
  else if off < 0x03000 then RegMap.ho
  else if off < 0x04000 then []
  else if off < 0x05000 then RegMap.qe
  else if off < 0x06000 then []
  else if off < 0x07000 then RegMap.ic
  else if off < 0x08000 then []
  else if off < 0x09000 then RegMap.tb
  else if off < 0x10000 then []
  else if off < 0x20000 then RegMap.cf
  else if off < 0x30000 then RegMap.ck
  else if off < 0x40000 then RegMap.xc ++ RegMap.xh
  else if off < 0x50000 then RegMap.sc
  else if off < 0x60000 then RegMap.hl
  else if off < 0x70000 then RegMap.rd
  else if off < 0x80000 then RegMap.tr
  else if off < 0x90000 then RegMap.dc
  else if off < 0xA0000 then RegMap.ev
  else if off < 0xB0000 then RegMap.st
  else if off < 0xF0000 then []
  else RegMap.fa

/-- The row names the register at `off`. -/
def RegDef.covers (d : RegDef) (off : Nat) : Bool :=
  let x := off - d.base
  let i := if d.s1 = 0 then 0 else x / d.s1
  let y := x - d.s1 * i
  let j := if d.s2 = 0 then 0 else y / d.s2
  decide (d.base ≤ off) && decide (i < d.c1) && decide (j < d.c2) && decide (y = d.s2 * j)

/-- The row of the register at `off`, if the window lists one there. -/
def findReg (off : Nat) : Option RegDef := (regPage off).find? (·.covers off)

/-- The reset value of the register at `off`, from the Reset columns (R5, R122, R159, R198, R199, R223, R244, R276,
R302, R332, R362, R400, R428, R454, R481, R482, R508, R534): 0 unless listed. Values fixed by the role or the build
(`GL_ROLE`, `GL_BUILD`, `IC_INFO`) are computed at the read. -/
def resetOf (off : Nat) : Nat :=
  if off < 0x08000 then
    if off = 0x00000 then 0x30002
    else if off = 0x01008 then 0x3E8
    else if off = 0x01010 then 0x1
    else if off = 0x01034 then 0x9470A410
    else if off = 0x01038 then 0x1F4EA60
    else if off = 0x0103C then 0x3E8
    else if 0x01400 ≤ off ∧ off < 0x01800 ∧ (off - 0x01400) % 4 = 0 then 0x30000
    else if off = 0x02000 then 0x1000000
    else if off = 0x02004 then 0x4
    else if off = 0x02008 then 0xC000
    else if off = 0x02038 then 0x3E8
    else if off = 0x04028 then 0x3E8
    else if 0x04100 ≤ off ∧ off < 0x04200 ∧ (off - 0x04100) % 4 = 0 then 0x1F
    else if 0x04404 ≤ off ∧ off < 0x04804 ∧ (off - 0x04404) % 64 = 0 then 0x3E8
    else if off = 0x06300 then 0xFFFFFFFE
    else if off = 0x06304 then 0xFFFFFFFF
    else 0
  else if off < 0x20000 then
    if off = 0x08020 then 0x1
    else if off = 0x08034 then 0x441003E8
    else if off = 0x08038 then 0x6400004
    else if 0x14000 ≤ off ∧ off < 0x15000 ∧ (off - 0x14000) % 4 = 0 then 0x80000000 + (off - 0x14000) / 4
    else if 0x15000 ≤ off ∧ off < 0x15200 ∧ (off - 0x15000) % 4 = 0 then 0x80000000 + (off - 0x15000) / 4
    else 0
  else if off < 0x60000 then
    if off = 0x20004 then 0xA
    else if off = 0x20008 then 0x7D0
    else if off = 0x30008 then 0x64
    else if off = 0x3002C then 0x3E8
    else if off = 0x30030 then 0x12710
    else if 0x30C00 ≤ off ∧ off < 0x30E00 ∧ (off - 0x30C00) % 4 = 0 then 0x100
    else if off = 0x40004 then 0x3E8
    else if off = 0x50008 then 0x10003E8
    else if off = 0x5000C then 0x4002710
    else if off = 0x50010 then 0x64
    else if off = 0x50014 then 0x4
    else if off = 0x50018 then 0xA0F0214
    else if off = 0x5001C then 0x2
    else if off = 0x50020 then 0xCDFB0146
    else if off = 0x50050 then 0x40
    else if 0x50054 ≤ off ∧ off < 0x5005C ∧ (off - 0x50054) % 4 = 0 then 0x100
    else 0
  else
    if 0x6080C ≤ off ∧ off < 0x60A0C ∧ (off - 0x6080C) % 256 = 0 then 0xF42400
    else if 0x60810 ≤ off ∧ off < 0x60A10 ∧ (off - 0x60810) % 256 = 0 then 0x32000C8
    else if 0x60814 ≤ off ∧ off < 0x60A14 ∧ (off - 0x60814) % 256 = 0 then 0x1518
    else if 0x6100C ≤ off ∧ off < 0x6300C ∧ (off - 0x6100C) % 256 = 0 then 0xF42400
    else if 0x61010 ≤ off ∧ off < 0x63010 ∧ (off - 0x61010) % 256 = 0 then 0x32000C8
    else if 0x61014 ≤ off ∧ off < 0x63014 ∧ (off - 0x61014) % 256 = 0 then 0x1518
    else if 0x6300C ≤ off ∧ off < 0x6700C ∧ (off - 0x6300C) % 256 = 0 then 0xF42400
    else if 0x63010 ≤ off ∧ off < 0x67010 ∧ (off - 0x63010) % 256 = 0 then 0x32000C8
    else if 0x63014 ≤ off ∧ off < 0x67014 ∧ (off - 0x63014) % 256 = 0 then 0x1518
    else if off = 0x70004 then 0x800
    else if off = 0x80004 then 0x10100
    else if off = 0x80008 then 0x7D0
    else if off = 0x8000C then 0x50000000
    else if off = 0x80040 then 0x3E80000
    else if off = 0x90014 then 0xA
    else if off = 0x90018 then 0x7B
    else if off = 0x9001C then 0x3C0400
    else if off = 0x90074 then 0x1
    else if off = 0x90080 then 0xE10
    else if off = 0xA0000 then 0x40000000
    else if off = 0xF0004 then 0x13000
    else if off = 0xF0018 then 0x2000000
    else if off = 0xF001C then 0x4000010
    else if off = 0xF0020 then 0x803
    else if off = 0xF0028 then 0x1
    else if off = 0xF002C then 0x100
    else if off = 0xF0034 then 0x1
    else if off = 0xF0038 then 0x300
    else if off = 0xF003C then 0x1015180
    else if off = 0xF004C then 0x3E80000
    else if off = 0xF0050 then 0x2710
    else if off = 0xF0054 then 0x1F4
    else if off = 0xF006C then 0x4
    else 0

end Sys2Proof.Machine
end

