-- ==== Sys2Proof/Machine/Sparse.lean ====
section
/-! DEFINITION. Sparse memories in canonical form: keys strictly rising, no entry equal to what an unlisted key reads
as. Register files and byte memories are both of this kind, so equal contents are equal data. -/

namespace Sys2Proof.Machine

/-- A sparse map from addresses to values. -/
abbrev Sparse (α : Type) := List (Nat × α)

/-- What key `k` reads as: its entry, or `d k` when unlisted. -/
def Sparse.get {α : Type} (d : Nat → α) : Sparse α → Nat → α
  | [], k => d k
  | (j, v) :: m, k => if j = k then v else Sparse.get d m k

/-- Remove key `k`. -/
def Sparse.erase {α : Type} : Sparse α → Nat → Sparse α
  | [], _ => []
  | (j, v) :: m, k => if j = k then Sparse.erase m k else (j, v) :: Sparse.erase m k

/-- Insert or replace key `k`, keeping the keys rising. -/
def Sparse.insert {α : Type} : Sparse α → Nat → α → Sparse α
  | [], k, v => [(k, v)]
  | (j, w) :: m, k, v =>
    if k < j then (k, v) :: (j, w) :: m
    else if k = j then (k, v) :: m
    else (j, w) :: Sparse.insert m k v

/-- Write `v` at `k`; writing the value an unlisted key reads as removes the entry. -/
def Sparse.set {α : Type} [DecidableEq α] (d : Nat → α) (m : Sparse α) (k : Nat) (v : α) : Sparse α :=
  if v = d k then Sparse.erase m k else Sparse.insert m k v

/-- Keys strictly rising, each above `b` (with `none`, no lower bound). -/
def Sparse.rising {α : Type} : Option Nat → Sparse α → Bool
  | _, [] => true
  | b, (k, _) :: m => (match b with | none => true | some j => decide (j < k)) && Sparse.rising (some k) m

/-- The canonical form. -/
def Sparse.wf {α : Type} [DecidableEq α] (d : Nat → α) (m : Sparse α) : Bool :=
  Sparse.rising none m && m.all (fun e => decide (e.2 ≠ d e.1))

/-- A byte memory whose unlisted bytes read 0: every SRAM is written with zero codewords at start-up (R116 step 6). -/
abbrev Mem := Sparse Byte

def Mem.default (_ : Nat) : Byte := 0

def Mem.read (m : Mem) (a : Nat) : Byte := Sparse.get Mem.default m a

def Mem.write (m : Mem) (a : Nat) (b : Byte) : Mem := Sparse.set Mem.default m a b

/-- The canonical form of a byte memory. -/
def Memory.wf (m : Mem) : Bool := Sparse.wf Mem.default m

/-- `n` bytes from address `a` up. -/
def Mem.bytes (m : Mem) (a n : Nat) : List Byte := (List.range n).map (fun i => m.read (a + i))

/-- Write a byte string at `a` upward. -/
def Mem.put (m : Mem) (a : Nat) : List Byte → Mem
  | [] => m
  | b :: bs => Mem.put (m.write a b) (a + 1) bs

/-- Little-endian value of the `n` bytes at `a`. -/
def Mem.nat (m : Mem) (a n : Nat) : Nat := leNat (m.bytes a n)

/-- Drop every entry from `a` up to `a + n`: the range reads as zero afterwards. -/
def Mem.zero (m : Mem) (a n : Nat) : Mem := m.filter (fun e => decide (e.1 < a) || decide (a + n ≤ e.1))

end Sys2Proof.Machine
end

