-- ==== Sys2Proof/Machine/State.lean ====
section
/-! DEFINITION. The state of the block as plain data: the register file and, beside it, every FIFO, table, timer and
mode that the chapters give the block and that no register holds. `State.reset` is the machine after the always-on
reset has been released (R99, R100, R116 steps 3 and 4). -/

namespace Sys2Proof.Machine

/-- Reasons the block stops with a fault. The block itself never stops: a fault of the spec is a completion code
(R45, R46) in the next state. -/
inductive Fault where
  /-- Raised by no meaning: kept so that the outcome type has a fault. Safe. -/
  | none_
deriving DecidableEq, Repr

/-- Reasons a command has no meaning. -/
inductive Refusal where
  /-- Raised by `exec`'s arm for a command whose meaning is not written. Safe: nothing can be proved of it. -/
  | notModelled (mnemonic : String)
  /-- Raised by a meaning whose operands no port can carry (a lane block that is not 72 bytes, R369). Safe. -/
  | illFormed
deriving DecidableEq, Repr

/-! ### Register accesses (chapters 00, 02) -/

/-- A register access: by whom (R60), which way, where and with what value. -/
structure Access where
  /-- Requester number: 0–13 register port, 14 steward, 15 debug access (R60). -/
  req   : Nat
  /-- The access came on the register port (a port access with `rp_src` 14 or 15 is refused, R60). -/
  port  : Bool
  write : Bool
  off   : Nat
  val   : Nat
deriving DecidableEq, Repr

/-- A response: `rp_rdata` and `rp_resp` (R58), kept for the requester it answers. -/
structure Rsp where
  req     : Nat
  data    : Nat
  refused : Bool
deriving DecidableEq, Repr

/-- The read and write holding registers of one requester (R12, R13): the pair's low-word offset and the high word. -/
structure Holding where
  rd : Option (Nat × Nat) := none
  wr : Option (Nat × Nat) := none
deriving DecidableEq, Repr

/-- Debug access (R89, R90). -/
structure Debug where
  /-- The 54-bit debug data register. -/
  dr      : Nat := 0
  lastOff : Nat := 0
  rdata   : Nat := 0
  /-- Status of the last access: 0 done, 1 busy, 2 refused, 3 not authorised. -/
  status  : Nat := 0
  /-- The result of the access in progress is discarded (R90, debug reset). -/
  discard : Bool := false
  tdo     : Bool := false
deriving DecidableEq, Repr

/-! ### Power, clocks and resets (chapter 03) -/

/-- The power states of R99. -/
inductive PState where
  | off | aonReset | fastReset | sleep | waking | active | stopping
deriving DecidableEq, Repr

/-- The throttle handshake of R85 and the demand rules of R115. -/
structure Throttle where
  /-- Level on `pw_thr_level`. -/
  level   : Nat := 0
  req     : Bool := false
  /-- Between steps 1 and 4. -/
  busy    : Bool := false
  /-- AON cycle of step 1. -/
  since   : Nat := 0
  lateRec : Bool := false
  /-- The newest level asked for while a request is under way. -/
  newest  : Option Nat := none
  grant   : Nat := 0
  tog     : Bool := false
  /-- AON cycle from which the demand has stayed below the level requested. -/
  lowSince : Option Nat := none
deriving DecidableEq, Repr

/-- What a PMBus transaction reads for. -/
inductive PbKind where
  | vin | fw | alert
deriving DecidableEq, Repr

/-- The PMBus master (R84, R112, R114). -/
structure Pmbus where
  cur      : Option PbKind := none
  tries    : Nat := 0
  vinDue   : Bool := false
  fwDue    : Bool := false
  alertDue : Bool := false
  /-- Command code of the transaction on the bus and the device it goes to. -/
  code     : Nat := 0
  addr     : Nat := 0
  /-- AON cycle of the next READ_VIN poll. -/
  pollAt   : Nat := 0
  /-- The last byte read from the Alert Response Address. -/
  alertRsp : Nat := 0
  /-- Firmware's command waits for the PAGE that is sent before it (R122). -/
  paging   : Bool := false
deriving DecidableEq, Repr

/-- The power controller of the block (R95–R108). -/
structure Power where
  st       : PState := .fastReset
  /-- The request (its output rises in cycle `reqAt`), and the acknowledge as seen (R95). -/
  req      : Bool := false
  ack      : Bool := false
  /-- Reset inputs asserted: `aon_rst_n`, `fast_rst_n`; internal group F of R119. -/
  aonRst   : Bool := false
  fastRst  : Bool := true
  intF     : Bool := false
  intFAt   : Nat := 0
  /-- Lane and port resets asserted, one bit each (R105). -/
  laneRst  : Nat := 0xFFFF
  portRst  : Nat := 0xF
  /-- AON cycle of the last assertion of `fast_rst_n`; RESET_ORDER of that assertion already judged (R107). -/
  fastAt   : Nat := 0
  orderChk : Bool := true
  /-- AON cycle in which the request rises, 16 cycles after the release of `aon_rst_n` and one after a need (R100), or in
  which it last fell. -/
  reqAt    : Nat := 0
  /-- A need for the fast clock stands, and the AON cycle in which it arose (R96, R98). -/
  need     : Bool := false
  needAt   : Nat := 0
  /-- AON cycle from which the fast domain has been idle (R98). -/
  idleFrom : Nat := 0
  /-- The register-access holder runs to this AON cycle (R62). -/
  regHold  : Nat := 0
  /-- Faults that are recorded once the fast domain runs (R97, R101). -/
  lossDue  : Bool := false
  lateDue  : Bool := false
  /-- Start-up of R116 under way after the fast-domain reset: the SRAM initialisation and the ROM boot are to come. -/
  sramInit : Bool := false
  /-- The warm reset that runs came from `PM_WARM` (R119). -/
  warmKey  : Bool := false
  /-- The request that stands began a wake which a reset abandoned: no WAKE_LATE is recorded for it (R120). -/
  quiet    : Bool := false
  /-- An AON cycle and the fast cycles that have passed since its edge: the place of the fast domain's copy of fleet time
  within the AON cycle (R202). -/
  fast     : Nat × Nat := (0, 0)
deriving DecidableEq, Repr

/-! ### Hoist (chapter 04) -/

/-- The loader (R134, R137). -/
structure Loader where
  busy   : Bool := false
  kind   : Nat := 0
  addr   : Nat := 0
  len    : Nat := 0
  /-- Image bytes taken so far, in order. -/
  got    : List Byte := []
  /-- Lines of the image answered ahead of their turn, by line number. -/
  lines  : Sparse (List Byte) := []
  /-- Words in the 256-word feed buffer, oldest first. -/
  feed   : List Nat := []
  /-- AON cycle of the last word fed, for the 10 ms of R137. -/
  lastAt : Nat := 0
  /-- The header checks have passed; the directory has been read; sections applied so far. -/
  hdr    : Bool := false
  dir    : Bool := false
  done   : Nat := 0
  /-- The load is decided: its code, the other codes that applied, and whether it taints the shadow (R135). -/
  fate   : Option (Nat × List Nat × Bool) := none
deriving DecidableEq, Repr

/-- A pending copy of an epoch-switched bundle (R149): the registers of the entry at base `B`. -/
structure PendCopy where
  base  : Nat
  stamp : Nat
  from_ : Nat
  words : Sparse Nat
deriving DecidableEq, Repr

/-- The hoist: loader, shadow attributes, commit and live attributes. -/
structure Hoist where
  ld        : Loader := {}
  /-- Attributes of the image loaded since the last commit: signed, `fmt_ver`, `flags` (R127, R136). -/
  imgSigned : Bool := false
  imgFmt    : Nat := 0
  imgFlags  : Nat := 0
  /-- `flags` of the live image: [0] accept_prev, [1] accept_plov. -/
  flags     : Nat := 0
  /-- A commit's phase: 0 none, 1 drain, 2 copy-back (R142). -/
  phase     : Nat := 0
  gen       : Nat := 0
  /-- AON cycle in which the drain began (R143). -/
  drainAt   : Nat := 0
  /-- Sections with a changed field, one bit each (R142), and whether bundle 0x0E_0000 is among the changes (R166). -/
  changed   : Nat := 0
  flagCfgChanged : Bool := false
  /-- Queues whose banks the commit under way swaps, one bit each (R166). -/
  swapQ    : Nat := 0
  /-- Direct writes stand in the shadow (R146). -/
  direct    : Bool := false
  /-- The N−1 pennant type table (R153): its version and its entries. -/
  prevTypes : Option (Nat × Sparse Word) := none
  /-- Pending copies (R149) and live stamps of epoch-switched entries, by entry base (R150). -/
  pend      : List PendCopy := []
  stamps    : Sparse Nat := []
  /-- Queues with entries placed and not yet committed, one bit each (R162). -/
  placedQ   : Nat := 0
  /-- No commit has succeeded since the last fast-domain reset (R495, R509). -/
  first     : Bool := true
deriving DecidableEq, Repr

/-! ### Queue engine and interrupt controller (chapter 05) -/

/-- How a command's work ended (R174, R176, R505): its code, `late`, result words, and the `arg` of its fault record;
`silent` when the owning chapter has already recorded the fault. -/
structure Done where
  code   : Nat
  late   : Bool := false
  res    : List Nat := []
  arg    : Nat := 0
  silent : Bool := false
  /-- Retired by the Plovbaez watchdog: the bound missed is the queue's (R186, R505). -/
  byWatchdog : Bool := false
deriving DecidableEq, Repr

/-- A command in flight or waiting (R170, R173). -/
structure Flight where
  bank  : Nat
  slot  : Nat
  seq   : Nat
  cmd   : List Byte
  /-- Fleet time of issue and generation live at issue (R145). -/
  at_   : Nat
  gen   : Nat
  /-- Work held by a commit's drain, to start under the new generation (R142, R157). -/
  held  : Bool := false
  /-- The bins of a CHECK held by a drain, fixed at its issue (R308). -/
  bins  : Option (Nat × Nat) := none
  /-- The command's work has ended so; its completion is due (R176). -/
  done  : Option Done := none
deriving DecidableEq, Repr

/-- One queue. -/
structure Queue where
  head    : Nat := 0
  tail    : Nat := 0
  bank    : Nat := 0
  loop    : Bool := false
  /-- Programme length of the active bank in loop mode (R164). -/
  count   : Nat := 0
  /-- A command of the current loop pass has issued (R165). -/
  passed  : Bool := false
  halted  : Bool := false
  flights : List Flight := []
  seq     : Nat := 0
  swap    : Option (Nat × Bool) := none
  /-- A commit's swap of banks awaits its boundary (R166). -/
  hoistSwap : Bool := false
  swapCode : Nat := 0
  last    : Nat := 0
  /-- Running rank of Plovbaez mode; none = clear (R185). -/
  rank    : Option Nat := none
  /-- Fleet time the watchdog counts from (R186). -/
  wdFrom  : Nat := 0
  /-- A record was dropped since the last written one (R174). -/
  lost    : Bool := false
  /-- The walk from this queue's wait has returned to it: CYCLE is due (R181). -/
  cycleDue : Bool := false
deriving DecidableEq, Repr

/-- A write of the host notice master (R71). -/
structure HnWrite where
  addr : Nat
  data : List Byte
deriving DecidableEq, Repr

/-! ### Fleet time (chapter 06) -/

/-- An exchange with the parent in progress (R207). -/
structure Exchange where
  id   : Nat
  t1   : Option Nat
  t2   : Option Nat := none
  t3   : Option Nat := none
  t4   : Option Nat := none
  since : Nat
deriving DecidableEq, Repr

/-- A pending strike (R219). -/
structure Strike where
  at_     : Nat
  units   : Nat
  seq     : Nat
  issuer  : Nat
  fleet   : Bool
  /-- Queues whose SNAPSHOTs complete at the latch: queue, issue sequence and the refusal code of their pennants. -/
  waiters : List (Nat × Nat × Nat)
  /-- Sequence and issuer of the fleet-wide strikes that have merged into this latch (R219). -/
  merged  : List (Nat × Nat) := []
  /-- It latches in the cycle of issue, whatever `at` holds (R217). -/
  scope0  : Bool := false
deriving DecidableEq, Repr

/-- One pulse output (R214): its next due time, and the fleet time until which it is high. -/
structure Pulse where
  next : Option Nat := none
  high : Option Nat := none
deriving DecidableEq, Repr

/-- The time base. -/
structure TimeBase where
  exch     : Option Exchange := none
  exchId   : Nat := 0
  /-- AON cycle at which the next exchange is due. -/
  exchAt   : Nat := 0
  /-- (rtt, θ, delay) of the exchanges of the current window, oldest first (R209). -/
  window   : List (Int × Int × Int) := []
  phase    : Int := 0
  stepped  : Bool := false
  /-- Consecutive updates in bound in ACQUIRE (R212). -/
  inBound  : Nat := 0
  /-- AON cycle of the last update, for the `miss` windows. -/
  updAt    : Nat := 0
  parentOk : Bool := false
  todArmed : Bool := false
  pulses   : List Pulse := [{}, {}, {}, {}]
  /-- Captures not read since they were stamped, one bit each (R205). -/
  capUnread : Nat := 0
  strikes  : List Strike := []
  strikeSeq : Nat := 0
  /-- Fleet-wide strikes latched: `at`, sequence and issuer; a further copy of one is not latched again (R217). -/
  struck   : List (Nat × Nat × Nat) := []
  /-- The lap, fleet time [59:52], last seen (R220). -/
  lap      : Nat := 0
  /-- AON cycle of the last stamp of each capture input (R221). -/
  capCyc   : List (Option Nat) := [none, none, none, none]
deriving DecidableEq, Repr

/-! ### Counters and sampling (chapter 07) -/

/-- A host-queue monitor (R231). -/
structure Monitor where
  depth   : Nat := 0
  max     : Nat := 0
  delay   : Nat := 0
  delaySat : Bool := false
  markers : Nat := 0
  under   : Bool := false
  enq     : Nat := 0
  deq     : Nat := 0
  /-- The open marker: fleet time and target enqueue count. -/
  marker  : Option (Nat × Nat) := none
deriving DecidableEq, Repr

/-- A record in a latch bank, waiting to empty into its area (R236, R239). -/
structure Bank where
  area  : Nat
  /-- 0 counters, 1 host queues, 2 snapshot. -/
  kind  : Nat
  /-- The fast cycle of the latch. -/
  id    : Nat × Nat
  /-- The plan that latched it, or the SAMPLE's queue and issue sequence. -/
  plan  : Option Nat := none
  cmd   : Option (Nat × Nat) := none
  /-- Header flags but `boundary`, and bytes 3–7. -/
  flags : Nat
  queue : Nat := 0
  first : Nat
  count : Nat
  time  : Nat
  gen   : Nat
  tag   : Nat := 0
  /-- The finishing SAMPLE of R234: queue and issue sequence. -/
  bq    : Option (Nat × Nat) := none
  /-- Counter entries: index, 64-bit word. -/
  ents  : List (Nat × Nat)
  /-- Host-queue entries. -/
  hqs   : List Byte := []
  /-- Completion of the SAMPLE: word 2 of R235, the code, and a miss's `arg`. -/
  word2 : Nat := 0
  code  : Nat := 0
  arg   : Nat := 0
deriving DecidableEq, Repr

/-- A reset of counters at a SAMPLE (R233, R234): its fast cycle, queue and issue sequence, and each reset counter's
entry as it stood before the reset. -/
structure ResetMark where
  id   : Nat × Nat
  q    : Nat
  seq  : Nat
  pre  : List (Nat × Nat)
deriving DecidableEq, Repr

/-- The counter fabric and the sampler. -/
structure Counters where
  /-- Event counters' 48-bit values, and their sticky flags, one bit per counter. -/
  ev      : Sparse Nat := []
  evWrap  : Nat := 0
  evSat   : Nat := 0
  evGap   : Nat := 0
  /-- Event inputs in the previous fast cycle (R225). -/
  prev    : Nat := 0
  bt      : Sparse Nat := []
  btWrap  : Nat := 0
  btSat   : Nat := 0
  mons    : Sparse Monitor := []
  /-- Due times of plan triggers held across a commit's drain (R157, R232). -/
  held    : List (List Nat) := List.replicate 16 []
  banks   : List Bank := []
  /-- SAMPLEs waiting for a latch bank: queue and issue sequence (R236). -/
  waiting : List (Nat × Nat) := []
  /-- Snapshots waiting for a latch bank (R236, R241). -/
  snapWait : Nat := 0
  /-- Records written to each area (R239 `seq`). -/
  areaSeq : List Nat := List.replicate 16 0
  /-- Records present in each area, oldest first: byte count at the start and length (R238). -/
  recs    : List (List (Nat × Nat)) := List.replicate 16 []
  /-- Fast cycles counted within the fabric, the cycle a SAMPLE last issued in, and the last reset (R233, R234). -/
  fcyc    : Nat := 0
  issued  : Option (Nat × Nat) := none
  mark    : Option ResetMark := none
  /-- Bunting values of the last AON cycles with their `wrap` and `sat`, newest first, and the cycle they stood until: what
  the fast domain's mirror may show (R230). -/
  btHist  : List (Nat × Sparse Nat × Nat × Nat) := []
  /-- The AON cycle whose bunting the mirror shows, and the fast cycle of its last use. -/
  mirAt   : Nat := 0
  mirId   : Option (Nat × Nat) := none
  /-- The fast cycle in which overwrite mode last advanced RD of each area (R238). -/
  rdAdv   : List (Option (Nat × Nat)) := List.replicate 16 none
  sbuf    : Mem := []
  /-- Lost codewords of the sample buffer, until a store to them (R502). -/
  sbufBad : List Nat := []
deriving DecidableEq, Repr
/-! ### Halyard (chapter 12) -/

/-- Where a pennant in a queue came from: this instance, a lane, or the association with a tray (R384, R389). -/
inductive Src where
  | own
  | lane (n : Nat)
  | assoc (peer : Nat)
  /-- A further copy of a fanned pennant, which holds no place of its own. -/
  | copy
deriving DecidableEq, Repr

/-- A pennant in an egress queue: its 64 bytes, the format version it is in, its origin, and the fleet time at which
it entered the queue (R392). `via` is the lane, or 16 + port, it came by (R519). -/
structure QEntry where
  pen  : List Byte
  ver  : Nat
  src  : Src
  at_  : Nat
  via  : Nat := 0
deriving DecidableEq, Repr

/-- A pennant block in a lane's replay buffer (R372), and the AON cycle in which it was last sent. -/
structure Unacked where
  bseq : Nat
  ent  : QEntry
  at_  : Nat
deriving DecidableEq, Repr

/-- One halyard lane (R370–R374, R389). Lists of three are by class A, B, C. -/
structure Lane where
  state    : Nat := 0
  lock     : Bool := false
  aligned  : Bool := false
  /-- Consecutive valid IDLE or ANNOUNCE blocks, for the 16 of R370. -/
  good     : Nat := 0
  /-- The word phase, 0–8, in which TRAIN looks for blocks (R370). -/
  phase    : Nat := 0
  /-- Since the lane last entered TRAIN: a valid ANNOUNCE has been received; the last one agreed and carried `heard`. -/
  heard    : Bool := false
  peerHeard : Bool := false
  identBad : Nat := 0
  /-- The peer's announced version and kind. -/
  ver      : Nat := 0
  plov     : Bool := false
  /-- AON cycle at which the next ANNOUNCE is due. -/
  annAt    : Nat := 0
  txSeq    : Nat := 0
  unacked  : List Unacked := []
  /-- Replays of the current oldest block (R373). -/
  tries    : Nat := 0
  /-- A REPLAY block naming this sequence is due; the blocks still to be sent again; a timeout started the replay. -/
  rplDue   : Option Nat := none
  rpl      : List Unacked := []
  rplTimeout : Bool := false
  /-- The next `bseq` to accept, and the implicit `bseq` of the next block to arrive. -/
  rxSeq    : Nat := 0
  rxIn     : Nat := 0
  /-- Discarding pennant blocks until REPLAY (R372). -/
  discard  : Bool := false
  /-- Control blocks due to be sent, oldest first. -/
  control  : List (List Byte) := []
  sinceLink : Nat := 0
  limits   : List Nat := [0, 0, 0]
  sent     : List Nat := [0, 0, 0]
  /-- Limits granted to the peer, and the pool places set aside for it at entry to IN_SERVICE. -/
  grant    : List Nat := [0, 0, 0]
  init     : List Nat := [0, 0, 0]
  queues   : List (List QEntry) := [[], [], []]
  /-- AON cycle in which the lane entered OUT. -/
  outAt    : Nat := 0
deriving DecidableEq, Repr

/-- A sent frame not yet acknowledged (R380), and the AON cycle in which it was last sent. -/
structure TxFrame where
  fseq : Nat
  cls  : Nat
  ver  : Nat
  ents : List QEntry
  at_  : Nat
deriving DecidableEq, Repr

/-- An association with another tray (R379, R380). -/
structure Assoc where
  peer    : Nat
  state   : Nat := 1
  /-- Since it last began to open: an ANNOUNCE has been received; one with `heard` has been sent, and received. -/
  heard   : Bool := false
  sentAnn : Bool := false
  peerHeard : Bool := false
  /-- AON cycle at which the next ANNOUNCE is due. -/
  annAt   : Nat := 0
  prev    : Bool := false
  txSeq   : Nat := 0
  unacked : List TxFrame := []
  tries   : Nat := 0
  /-- Frames to send again. -/
  retx    : List TxFrame := []
  rxSeq   : Nat := 0
  /-- An acknowledgement or a credit is owed since this AON cycle; a 0-block frame is due; it carries `nak`. -/
  ackAt   : Option Nat := none
  ackDue  : Bool := false
  nak     : Bool := false
  control : List (List Byte) := []
  limits  : List Nat := [0, 0, 0]
  sent    : List Nat := [0, 0, 0]
  grant   : List Nat := [0, 0, 0]
  init    : List Nat := [0, 0, 0]
  queues  : List (List QEntry) := [[], [], []]
deriving DecidableEq, Repr

/-- A token bucket: tokens in units of 1/100,000 token and the AON cycle up to which they are counted. -/
structure Bucket where
  tok : Nat
  at_ : Nat
deriving DecidableEq, Repr

/-- Refusals since the last admitted summary (R387). -/
structure Refusals where
  counts    : List Nat := [0, 0, 0]
  units     : Nat := 0
  firstAt   : Nat := 0
  lastAt    : Nat := 0
  intervals : Nat := 0
  /-- A refusal fell in the current interval. -/
  thisIvl   : Bool := false
deriving DecidableEq, Repr

/-- A pennant handed to this instance itself, waiting to be consumed (R384): its bytes, where it came from, the word of
its type as it stood on arrival, its fleet time of arrival, and the lane, or 16 + port, of R519. -/
structure Local where
  pen : List Byte
  src : Src
  typ : Nat
  at_ : Nat
  via : Nat := 0
deriving DecidableEq, Repr

/-- What the instance has sent at a block or frame boundary: the egress (lanes 0–15, ports 16–19) and the bytes. -/
structure Sent where
  egress : Nat
  bytes  : List Byte
deriving DecidableEq, Repr

/-- What a lane or port brings while the fast clock is stopped: held at the crossing until the fast domain runs (R22,
R108). `at_` is the always-on fleet time of its arrival, which stamps a SYNC block (R207). -/
inductive Arrival where
  | block (lane : Nat) (bytes : List Byte) (at_ : Nat)
  | frame (port : Nat) (bytes : List Byte) (fcsErr : Bool) (at_ : Nat)
  | lock (lane : Nat) (level : Bool)
  | link (port : Nat) (up : Bool)
deriving DecidableEq, Repr

/-- The halyard. -/
structure Halyard where
  lanes   : List Lane := List.replicate 16 {}
  assocs  : List Assoc := []
  linkUp  : Nat := 0
  bucketA : Bucket := { tok := 256 * 100000, at_ := 0 }
  bucketB : Bucket := { tok := 1024 * 100000, at_ := 0 }
  seqs    : List Nat := [0, 0, 0]
  refs    : Refusals := {}
  /-- Last `seq` accepted from each die and class, slot × 3 + class (R376). -/
  lastSeq : Sparse Nat := []
  /-- (`ident`, `level`, `class`, `seq`) of the last 64 pennants a die accepted, newest first (R376). -/
  recent  : List (Nat × Nat × Nat × Nat) := []
  /-- Policer buckets, (committed, excess) in bytes × 100 with the AON cycle, by port × 3 + class (R393). -/
  police  : Sparse (Nat × Nat × Nat) := []
  /-- Shaper buckets by egress × 3 + class: bytes × 100 and the AON cycle (R390). -/
  shape   : Sparse (Nat × Nat) := []
  /-- AON cycles at which lateness was last recorded, class A and B (R396). -/
  lateRec : List (Option Nat) := [none, none]
  /-- Class C source buffer: bytes in use (R386). -/
  srcC    : Nat := 0
  locals  : List Local := []
  /-- Pennants of the tray's dies that fleet analytics observes (R448), with the function of their type. -/
  seen    : List (Nat × List Byte) := []
  /-- Highest delay of a class C Ethernet queue in the current window, in ticks, and the block slots of each pair of
  die-facing lanes: class C, all (R450). -/
  satDelay : Nat := 0
  slots   : Sparse (Nat × Nat) := []
  out     : List Sent := []
  /-- Arrivals that wait for the fast clock, oldest first. -/
  arrived : List Arrival := []
deriving DecidableEq, Repr

/-! ### Event recorder (chapter 16) -/

/-- An event record before it is laid out as the 32 bytes of R485. -/
structure EvRec where
  code  : Nat
  cls   : Nat
  unit  : Nat
  inst  : Nat := 0
  arg   : Nat := 0
  time  : Nat := 0
  opsec : Nat := 0
  pcc   : Nat := 0
  flags : Nat := 0
  seq   : Nat := 0
deriving DecidableEq, Repr

/-- The event recorder. -/
structure Recorder where
  /-- The intake and the always-on holding FIFO, oldest first (R490), and the boot holding area (R495). -/
  intake  : List EvRec := []
  holding : List EvRec := []
  boot    : List EvRec := []
  /-- Records since the last clear, as a count that does not wrap (R488). -/
  count   : Nat := 0
  /-- The die's log memory. -/
  log     : Mem := []
  /-- Records dropped since the last overflow marker and the mask of their classes (R490). -/
  ovfN    : Nat := 0
  ovfMask : Nat := 0
  /-- The freeze in force: the AON cycle it began, and the records kept out (R497). -/
  frzAt   : Option Nat := none
  frzN    : Nat := 0
  /-- `held` of the next admitted fault report (R492). -/
  held    : Nat := 0
  /-- Class 0 records since the fast domain started, to be offered at JOINED (R493), oldest first, at most 64. -/
  reoffer : List EvRec := []
  /-- Corrections in the current second, by memory (R499), and the second they belong to. -/
  corr    : Sparse Nat := []
  corrSec : Nat := 0
  /-- Records waiting for their flash page and the AON cycle of the first (R495). -/
  nvPage  : List EvRec := []
  nvAt    : Nat := 0
  /-- Flash operations the recorder has due, in order: address, bytes (none for an erase) and purpose: 1 log, 2 life
  block, 3 erase after a clear. -/
  nvQueue : List (Nat × List Byte × Nat) := []
  nvRetry : Bool := false
  /-- Sectors of the log area skipped (R495). -/
  nvBad   : List Nat := []
  /-- Scrubber position: memory of R502 and codeword; fleet time of the last completed pass; late recorded (R500, R501). -/
  scrubMem : Nat := 0
  scrubPos : Nat := 0
  /-- AON cycle of the last scrub step. -/
  scrubAt  : Nat := 0
  passAt  : Nat := 0
  scrubLate : Bool := false
  /-- Sections whose live configuration is bad, and ring slots whose codeword was lost (R502). -/
  cfgBad  : Nat := 0
  ringBad : List Nat := []
  /-- The working copy has been rebuilt from flash (R495). -/
  rebuilt : Bool := false
  /-- The die's life base, written once each (R487). -/
  lifeOps : Option Nat := none
  lifePcc : Option Nat := none
  lifeV   : Bool := false
  /-- AON cycle of the last OPSEC advance and of the last life save. -/
  opsAt   : Nat := 0
  saveAt  : Nat := 0
  /-- Next free place in the life block: entry index 0–255 over the two sectors (R487). -/
  lifeAt  : Nat := 0
deriving DecidableEq, Repr

/-! ### Reduction (chapter 13) -/

/-- A part held for a contribution (R410): the entry's base, the epoch, the contributor's number at the entry's level
and its 64 bytes. -/
structure Part where
  base   : Nat
  epoch  : Nat
  who    : Nat
  pen    : List Byte
  /-- Fleet time at which it was taken, and its place in the state area. -/
  at_    : Nat
  slot   : Nat
  /-- The fleet store returned an error for it. -/
  err    : Bool := false
deriving DecidableEq, Repr

/-- Content of a job entry in force from an epoch on: its registers by offset from the base, and its stamp. -/
structure Content where
  from_ : Nat
  stamp : Nat
  words : Sparse Word
deriving DecidableEq, Repr

/-- A job entry (R416). -/
structure Entry where
  base  : Nat
  state : Nat
  /-- Contents in force, newest first; older ones serve epochs still open. -/
  cont  : List Content
  /-- Retirement reached F. -/
  retireAt : Option Nat := none
  /-- Next epoch to fold, in epoch order. -/
  next  : Nat
  /-- `RD_TS_EXCL` as it stood at the end of each epoch not yet folded (R414). -/
  excl  : List (Nat × Nat) := []
  /-- The fold of `next` has begun and waits for its reads, or for a publication still running. -/
  folding : Bool := false
deriving DecidableEq, Repr

/-- A result formed at the root and waiting to be published (R413, R415): its parts, D₃ and the cubes accepted. -/
structure Result where
  base   : Nat
  tag    : Nat
  stamp  : Nat
  epoch  : Nat
  series : Nat
  parts  : List (List Byte)
  due    : Nat
  /-- Ticks after D₃ within which it is to be published (R413). -/
  bound  : Nat
  cubes  : List Nat
  fan    : Bool
  /-- Still unpublished at the next D₃ (R426). -/
  past   : Bool := false
deriving DecidableEq, Repr

/-- The accepted contributions of a fold, for fleet analytics (R433): by series, each contributor and its parts. -/
structure FaDue where
  level : Nat
  tag   : Nat
  epoch : Nat
  stamp : Nat
  /-- The entry is bound (R434). -/
  ok    : Bool
  cubes : List Nat
  got   : List (Nat × List (Nat × List (List Byte)))
  /-- D_L of the epoch, and the ticks after it within which the analytics decides (R430). -/
  at_   : Nat
  bound : Nat
deriving DecidableEq, Repr

/-- The reducers. -/
structure Reduction where
  entries : List Entry := []
  parts   : List Part := []
  /-- (base, epoch, contributor, series) whose exclusion has been counted and the cause field it counts under. -/
  excl    : List (Nat × Nat × Nat × Nat × Nat × Nat) := []
  results : List Result := []
  /-- Folds that fleet analytics has still to take. -/
  due     : List FaDue := []
  /-- Retired tags by place: the tag and the fleet time from which it may be installed (R418). -/
  retired : Sparse (Nat × Nat) := []
  /-- Parts written to the state area so far. -/
  slot    : Nat := 0
  /-- AON cycle of the last RD_ORPHAN record (R419). -/
  orphanAt : Option Nat := none
  /-- The entry freed last and the AON cycle in which it freed (R426). -/
  freed   : Option (Nat × Nat) := none
deriving DecidableEq, Repr

/-! ### Fleet analytics (chapter 14) -/

/-- What fleet analytics holds beside its registers. -/
structure Analytics where
  /-- Hot cells of each slot, one bit each (R436). -/
  hot     : List Nat := List.replicate 8 0
  /-- Fast and slow averages by 2 × die + input, 0 pace and 1 score (R442). -/
  avg     : Sparse (Int × Int) := []
  /-- Fleet times of check faults within the window, by slot, newest first (R446). -/
  conf    : List (List Nat) := List.replicate 8 []
  /-- AON cycle in which a jack was last seen for each die (R452). -/
  jackSeen : List (Option Nat) := List.replicate 8 none
  /-- Reports of the current window by level, and the windows judged last (R450, R451). -/
  tally   : List Nat := [0, 0, 0, 0]
  satWin  : Nat := 0
  levelWin : Nat := 0
  /-- By cube, the refill period that last gave its bucket a token (R445). -/
  refilled : Sparse Nat := []
  /-- Lines of the state area still to be reloaded after a warm reset (R432). -/
  reload  : Nat := 0
  /-- The pace mailbox of a die: forms 0 and 1 (R441). -/
  mail    : List Byte := List.replicate 128 0
deriving DecidableEq, Repr

/-! ### Check taps (chapter 08) -/

/-- A frame tracker (R256): one traversal of a frame in one direction, over the memory taps and the read-master tap. -/
structure Tracker where
  region  : Nat
  frame   : Nat
  wr      : Bool
  /-- Readers of the read-master tap that brought sectors: 1 and 2 the checker's lanes, 3 a dump. -/
  readers : List Nat := []
  /-- Sectors held, by position 0–129. -/
  secs    : Sparse (List Byte) := []
  /-- Bytes carried by each memory tap. -/
  bytes   : List (Nat × Nat) := []
  /-- AON cycle of the first sector, fleet time of the last beat, and the tap of the last sector. -/
  firstAt : Nat
  lastAt  : Nat := 0
  tap     : Nat := 0
  /-- The tap and the AON cycle of the first granule with `mt_err`; the fault has been reported (R269). -/
  err     : Option (Nat × Nat) := none
  told    : Bool := false
deriving DecidableEq, Repr

/-- One direction of a link tap (R264, R265). -/
structure LinkDir where
  /-- Bytes of the link frame being received; a frame is open; it comes after a drop (R276, `lost`). -/
  cur   : List Byte := []
  opened : Bool := false
  bad   : Bool := false
  /-- Bytes of the frame before the first gap in it, and the peer of its first beat. -/
  gap   : Option Nat := none
  far   : Nat := 0
  sync  : Bool := false
  /-- Bytes of the candidate tensor block frame, and the peer of the last tensor-traffic link frame. -/
  buf   : List Byte := []
  peer  : Option Nat := none
deriving DecidableEq, Repr

/-- An entry of the recipient table (R267, R277). -/
structure Recipient where
  valid  : Bool := false
  step   : Nat := 0
  peer   : Nat := 0
  unattr : Bool := false
  tap    : Nat := 0
  time   : Nat := 0
deriving DecidableEq, Repr

/-- An entry of the taint table (R325): its step, the targets sent, and the AON cycle of its last detection. -/
structure TaintEntry where
  step  : Nat
  sent  : List Nat
  inc   : Bool
  last  : Nat
deriving DecidableEq, Repr

/-- The check taps and step taint. -/
structure Taps where
  trackers : List Tracker := []
  /-- Link directions: egress of tap l at 2l, ingress at 2l + 1. -/
  links    : List LinkDir := List.replicate 16 {}
  rcp      : Sparse Recipient := []
  /-- AON cycle of each tap's last CK_MISROUTE report (R254). -/
  misAt    : List (Option Nat) := List.replicate 16 none
  /-- Check-fault pennants refused since the last admitted one (R270). -/
  supp     : Nat := 0
  /-- A stop of the fast clock with taps enabled awaits its drops (R68). -/
  stopped  : Bool := false
  taint    : List (Option TaintEntry) := List.replicate 16 none
  tseq     : Nat := 0
  /-- AON cycle of the entry to JACKED; XC_DRAIN_LATE has been reported (R328). -/
  jackAt   : Nat := 0
  drainLate : Bool := false
deriving DecidableEq, Repr

/-! ### The spot checker (chapters 09, 10) -/

/-- A CHECK at its lane (R312, R313). -/
structure CheckJob where
  q       : Nat
  seq     : Nat
  desc    : Nat
  count   : Nat
  idx     : Nat := 0
  step    : Nat
  /-- The host model live when the CHECK started (R288). -/
  model   : HostModel
  tb      : Nat
  lb      : Nat
  /-- The CHECK has completed at its bound (R314). -/
  ended   : Bool := false
  offered : Nat := 0
  checked : Nat := 0
  bad     : Nat := 0
  first   : Option (Nat × Nat) := none
  ops     : Nat := 0
  codes   : List Nat := []
deriving DecidableEq, Repr

/-- A lane's reading of a tile (R310): the descriptor, the lines and frames asked for, and what came. -/
structure TileRead where
  again   : Bool
  desc    : Option (List Byte) := none
  left    : Nat := 1
  lines   : Sparse (List Byte) := []
  /-- Frames of the plan: region, frame, whether it holds operand bytes. -/
  frames  : List (Nat × Nat × Bool) := []
  /-- Frames decided OK and frames decided with a fault. -/
  good    : List (Nat × Nat) := []
  wrong   : Bool := false
  unread  : Bool := false
  /-- Some byte lies in unframed space; some operand byte does. -/
  raw     : Bool := false
  opRaw   : Bool := false
  startAt : Nat
  lastAt  : Nat
deriving DecidableEq, Repr

/-- The outcome of one reading and computation of a tile. -/
structure TileRes where
  sum     : List Byte
  dig     : Option Nat
  changed : Bool
  unver   : Bool
  unread  : Bool
  /-- AON cycle of the summary. -/
  at_     : Nat := 0
deriving DecidableEq, Repr

/-- A checker lane. -/
structure CheckLane where
  job   : Option CheckJob := none
  jobs  : List CheckJob := []
  /-- The tile under way: its index in the CHECK and its descriptor. -/
  tile  : Option (Nat × List Byte) := none
  read  : Option TileRead := none
  /-- The primary result of a tile that waits for arbitration. -/
  prim  : Option TileRes := none
deriving DecidableEq, Repr

/-- The arbitration under way (R315): the primary lane, the stage of `XC_STATUS`, whether the recompute has started, its
result, and the AON cycle in which the known answer began. -/
structure Arb where
  lane    : Nat
  stage   : Nat := 1
  started : Bool := false
  res     : Option TileRes := none
  kaAt    : Nat := 0
deriving DecidableEq, Repr

/-- The spot checker. -/
structure Checker where
  lanes : List CheckLane := [{}, {}]
  arb   : Option Arb := none
  /-- Primary lanes of the arbitrations waiting, in order. -/
  arbQ  : List Nat := []
deriving DecidableEq, Repr

/-! ### Scoring (chapter 11) -/

/-- A SCORE in service or waiting for it (R348, R354). -/
structure ScoreJob where
  q      : Nat
  seq    : Nat
  model  : Nat
  count  : Nat
  src    : Nat
  dst    : Nat
  next   : Nat := 0
  good   : Nat := 0
  faults : Nat := 0
  first  : Option Nat := none
  visits : Nat := 0
  dflt   : Nat := 0
  codes  : List Nat := []
deriving DecidableEq, Repr

/-- The scoring engine: SCOREs in order of issue, and its tables as byte memories (R344, R343, R352). -/
structure Scoring where
  jobs  : List ScoreJob := []
  nodes : Mem := []
  front : Mem := []
  prob  : Mem := []
  /-- Lost codewords of the node table, and of the front-stage and probability tables, until they are placed again
  (R502). -/
  nodeBad : List Nat := []
  tabBad  : List Nat := []
deriving DecidableEq, Repr

/-! ### Trace and dumps (chapter 15) -/

/-- A trace record or marker (R458). -/
structure TraceRec where
  kind  : Nat
  flags : Nat := 0
  size  : Nat := 0
  hit   : Nat := 15
  time  : Nat
  addr  : Nat := 0
  data  : Nat := 0
deriving DecidableEq, Repr

/-- The trace unit (R459–R464). -/
structure TraceUnit where
  /-- 0 OFF, 1 ARMED, 2 TRIGGERED, 3 FROZEN. -/
  state   : Nat := 0
  /-- Records and markers waiting for the buffer, oldest first; the AON cycle up to which it has drained. -/
  fifo    : List TraceRec := []
  drainAt : Nat := 0
  /-- In the fast cycle under way: the host, the steward has presented a record; a record has been written. -/
  hostIn  : Bool := true
  stewIn  : Bool := true
  wrote   : Bool := true
  /-- A trigger's marker is in the FIFO. -/
  trigged : Bool := false
  /-- Records written since the last arm, as a count that does not wrap. -/
  count   : Nat := 0
  /-- Oldest index retained since the trigger, and the count at which the post quota is written (R461). -/
  first   : Option Nat := none
  stopAt  : Nat := 0
  /-- Records lost since the last record taken: number, time of the first and of the last (R462). -/
  lost    : Option (Nat × Nat × Nat) := none
  /-- `tp_stall` asserted for a full FIFO. -/
  stalled : Bool := false
  /-- Fleet time of the last fall of `tp_lp` while `tp_ready` was 0 (R73). -/
  lpFall  : Option Nat := none
  /-- AON cycle of the last rise of `tp_lp`. -/
  lpRise  : Option Nat := none
  /-- Low-power markers formed while the fast clock is stopped (R463). -/
  held    : List TraceRec := []
  buf     : Mem := []
deriving DecidableEq, Repr

/-- What a dump still has to send, in order: `n` segments of one kind from `pos` on (R465–R467). -/
structure DumpPart where
  skind : Nat
  /-- Host address, register offset, trace index or buffer offset of the first, and the step to the next. -/
  base  : Nat
  step  : Nat
  n     : Nat
  /-- Trace section: index past the last record; tensor: first expected block index. -/
  lim   : Nat := 0
  /-- Tensor: layout and trailer base. -/
  layout : Nat := 2
  tbase : Nat := 0
deriving DecidableEq, Repr

/-- A dump in service or waiting for an engine (R469). `q` is its queue and issue sequence; none for the key. -/
structure DumpJob where
  q       : Option (Nat × Nat)
  kind    : Nat
  /-- Engine, once it has one. -/
  engine  : Option Nat := none
  dumpid  : Nat := 0
  /-- Fleet time of issue, bound in ms, `DC_CFG` and the step, as they stood at its start (R145). -/
  at_     : Nat
  bound   : Nat
  cfg     : Nat
  step    : Nat := 0
  name    : Nat := 0
  halted  : Bool := false
  partial_ : Bool := false
  parts   : List DumpPart := []
  /-- Lines of the block under way still to be answered, those answered, and a read error among them. -/
  awaiting : Nat := 0
  lines   : Sparse (List Byte) := []
  ferr    : Bool := false
  /-- Segments sent, with data, gone, raw bytes, coded bytes, self-check failures. -/
  sent    : Nat := 0
  withData : Nat := 0
  gone    : Nat := 0
  raw     : Nat := 0
  coded   : Nat := 0
  vfails  : Nat := 0
deriving DecidableEq, Repr

/-- One compression engine: its dictionary from entry 257 on, as (prefix code, byte) (R472, R473). -/
structure Coder where
  dict   : List (Nat × Nat) := []
  /-- Segments since the last reset, and the next one must carry `reset`. -/
  since  : Nat := 0
  fresh  : Bool := true
  /-- A codeword of the engine's memory was lost: its next segment goes raw with `vfail` (R502). -/
  bad    : Bool := false
  /-- A save (false) or restore (true) under way, with the lines of the image still to come and those read (R475). -/
  image  : Option Bool := none
  awaiting : Nat := 0
  lines  : Sparse (List Byte) := []
  ferr   : Bool := false
  /-- The receiver context loaded in the engine (R476). -/
  ctx    : Option Nat := none
deriving DecidableEq, Repr

/-- A received segment whose chunks are complete, waiting to be decoded (R478). -/
structure RxSeg where
  slot   : Nat
  segno  : Nat
  flags  : Nat
  head   : List Byte
  body   : List Byte
  gap    : Bool
deriving DecidableEq, Repr

/-- A receiver context (R476, R477): its key (`ident`, `level`, `stream`), the last chunk accepted, the segment being
gathered, and the decoder's dictionary. -/
structure RxCtx where
  slot   : Nat
  key    : Nat × Nat × Nat
  segno  : Nat
  chunk  : Nat
  /-- The segment last accepted into has ended. -/
  ended  : Bool := false
  broken : Bool := false
  gap    : Bool := false
  flags  : Nat := 0
  head   : List Byte := []
  body   : List Byte := []
  dict   : List (Nat × Nat) := []
  at_    : Nat
deriving DecidableEq, Repr

/-- The dump engine and the receiver. -/
structure Dumping where
  jobs   : List DumpJob := []
  coders : List Coder := List.replicate 4 {}
  nextId : Nat := 0
  ctxs   : List RxCtx := []
  ready  : List RxSeg := []
deriving DecidableEq, Repr

/-! ### Steward (chapter 17) -/

/-- The hart (R510, R511): its registers and machine-mode CSRs. -/
structure Hart where
  pc       : Nat := 0
  /-- x0–x31; x0 reads 0. -/
  xs       : List Word := List.replicate 32 0
  /-- `mstatus.MIE` and `MPIE`. -/
  mie_     : Bool := false
  mpie     : Bool := false
  mie      : Nat := 0
  mtvec    : Nat := 0
  mscratch : Nat := 0
  mepc     : Nat := 0
  mcause   : Nat := 0
  mtval    : Nat := 0
  minstret : Nat := 0
  wfi      : Bool := true
  inRom    : Bool := false
deriving DecidableEq, Repr

/-- An open pennant staging slot (R516): bytes 0–1, job tag and the 44 payload bytes. -/
structure Staged where
  b01 : Nat
  job : Nat
  pay : List Byte
deriving DecidableEq, Repr

/-- An instruction bank (R523, R530): its code and what its image's header and check gave. -/
structure ImBank where
  code   : Mem := []
  ok     : Bool := false
  signed : Bool := false
  fw     : Nat := 0
  sec    : Nat := 0
  entry  : Nat := 0
  digest : List Byte := []
deriving DecidableEq, Repr

/-- An image load under way (R528, R530): the lines still awaited and those read, by line number; a failed read. -/
structure ImLoad where
  bank     : Nat
  kind     : Nat
  nosig    : Bool
  addr     : Nat
  len      : Nat
  slot     : Nat := 0
  awaiting : Nat := 0
  lines    : Sparse (List Byte) := []
  failed   : Option Nat := none
deriving DecidableEq, Repr

/-- ROM boot (R528). -/
structure RomBoot where
  /-- 0 not begun, 1 waiting for `go`, 2 reading a header, 3 reading an image, 4 ended. -/
  phase  : Nat := 0
  slot   : Nat := 0
  second : Bool := false
  code   : Nat := 0
deriving DecidableEq, Repr

/-- The steward. -/
structure Steward where
  hart   : Hart := {}
  slots  : List (Option Staged) := [none, none, none, none]
  /-- The high word latched by `tm.rd` (R516). -/
  tmHigh : Nat := 0
  bank   : Nat := 0
  banks  : List ImBank := [{}, {}]
  /-- An image runs: what `ST_FW_VER` and the digest show is the active bank's. -/
  runs   : Bool := false
  load   : Option ImLoad := none
  boot   : RomBoot := {}
  /-- Poisoned codewords (R515): (bank, 32-byte codeword) of the instruction memory, codewords of the data memory. -/
  imBad  : List (Nat × Nat) := []
  dmBad  : List Nat := []
  /-- AON cycles counted by the watchdog, and the cycle up to which it counted (R521). -/
  wdCount : Nat := 0
  wdAt    : Nat := 0
  /-- A swap has been accepted and waits for the instruction boundary (R531). -/
  swapDue : Bool := false
deriving DecidableEq, Repr

/-! ### Outstanding requests (R69, R70, R87) -/

/-- What a read or write outside the block is for: the engine that waits for it. -/
inductive Owner where
  | hoist
  | tile (lane : Nat)
  | dump (engine : Nat)
  | imgLoad
  | held (base : Nat)
  | store
  | fa
  | gone
deriving DecidableEq, Repr

/-- An outstanding request: its tag, the 64-byte line it names, whether it writes, and which line of its owner's work
it is; for an owner that is gone, 1 when a reset of the fast domain lost the request. -/
structure Req where
  tag   : Nat
  addr  : Nat
  write : Bool
  owner : Owner
  idx   : Nat
deriving DecidableEq, Repr

/-- A request waiting for a free tag. -/
structure Want where
  addr  : Nat
  write : Bool
  owner : Owner
  idx   : Nat
deriving DecidableEq, Repr

/-- One side of the block that issues requests: outstanding ones, and those without a tag yet, oldest first. -/
structure ReqPort where
  out  : List Req := []
  want : List Want := []
deriving DecidableEq, Repr

/-- The serial NOR flash as the block has left it (R88): bytes 0xFF where nothing has been programmed, and the operation
under way. -/
structure Flash where
  bytes : Sparse Byte := []
  /-- Erase (true) or program under way, its flash address and bytes, and for whom: 0 steward, 1 log, 2 life block,
  3 log erase after a clear, 4 nobody any more. -/
  op    : Option (Bool × Nat × List Byte × Nat) := none
  /-- AON cycle at which the operation began. -/
  since : Nat := 0
deriving DecidableEq, Repr

/-- A pennant offered to admission (R386): the function whose type carries it, or firmware's own type, and its parts. -/
structure Offer where
  func  : Nat
  /-- Bytes 0–1 as a SEND gives them: firmware's own choice of type, class, `addr` and `fan` (R366). -/
  b01   : Option Nat := none
  addr  : Bool := false
  fan   : Bool := false
  unit  : Nat
  level : Nat := 0
  job   : Nat := 0
  /-- Bytes 16–59. -/
  pay   : List Byte
  /-- The reserved budget of a refusal summary (R387). -/
  reserved : Bool := false
deriving DecidableEq, Repr

/-- Where a pennant goes next (R384). -/
inductive Dest where
  | here
  | pair (slot : Nat)
  | peer (tray : Nat)
deriving DecidableEq, Repr

/-! ### The machine -/

/-- The block. -/
structure State where
  /-- 0 die role, 1 tray role: the tie-off as sampled (R1). -/
  role     : Nat := 0
  /-- Tap ports instantiated, `GL_BUILD` (R8). -/
  memTaps  : Nat := 16
  linkTaps : Nat := 8
  /-- AON cycles since the release of `aon_rst_n`: the raw counter is 16 times this (R42, R200). -/
  cyc      : Nat := 0
  /-- `sec_auth`, and the level in force for records (R74). -/
  secAuth  : Bool := false
  /-- `tp_lp` as seen (R73). -/
  tpLp     : Bool := false
  /-- Registers, live copies; a register not listed reads its reset value. -/
  regs     : Sparse Word := []
  /-- Shadow copies of SH registers. -/
  shadow   : Sparse Word := []
  /-- Holding registers by requester number (R12, R13). -/
  holds    : Sparse Holding := []
  /-- The last response given to each requester. -/
  rsps     : Sparse Rsp := []
  /-- Accesses waiting for the fast clock, oldest first (R59). -/
  waiting  : List Access := []
  dbg      : Debug := {}
  pw       : Power := {}
  thr      : Throttle := {}
  pb       : Pmbus := {}
  ho       : Hoist := {}
  /-- Queue ring SRAM: 2 banks × 16 queues × 128 slots × 32 bytes, at 65,536·bank + 4,096·queue + 32·slot. -/
  rings    : Mem := []
  queues   : List Queue := List.replicate 16 {}
  /-- The queue that the engine last issued from (R170). -/
  lastQ    : Nat := 15
  notices  : List HnWrite := []
  tb       : TimeBase := {}
  cf       : Counters := {}
  ck       : Taps := {}
  xc       : Checker := {}
  sc       : Scoring := {}
  hl       : Halyard := {}
  ev       : Recorder := {}
  red      : Reduction := {}
  tr       : TraceUnit := {}
  dc       : Dumping := {}
  st       : Steward := {}
  fa       : Analytics := {}
  host     : ReqPort := {}
  fsp      : ReqPort := {}
  /-- The fleet store as the block has written it. -/
  fs       : Mem := []
  fl       : Flash := {}
  /-- Steward data memory. -/
  dmem     : Mem := []
  /-- Draws on the free values of Config so far. -/
  free     : Nat := 0
  /-- Commands waiting, first in, first out. -/
  pending  : List Instr := []
deriving DecidableEq, Repr

/-- What a register reads as while nothing has been written to it.
[DESIGN CHOICE, safe: log entry 1] -/
def resetWord (off : Nat) : Word := BitVec.ofNat 32 (resetOf off)

/-- The machine right after the release of `aon_rst_n`: FAST_RESET, fast domain in reset (R99, R116).
[DEDUCED, safe: log entry 6]
[DESIGN CHOICE, unsafe: log entry 7] -/
def State.reset : State :=
  { pw := { req := true, reqAt := 16 }
    ev := { holding := [{ code := 0x01, cls := 5, unit := 12, pcc := 1, flags := 6 }] } }

end Sys2Proof.Machine
end

