-- ==== Sys2Proof/Machine/Ops.lean ====
section
/-! DEFINITION. The named operations every meaning is built from: registers by field, fleet time, the fast clock's
needs, interrupt sources and host notices, and requests on the host read master and the fleet store port. -/

namespace Sys2Proof.Machine

/-! ### Registers -/

/-- The live word at byte offset `off`. -/
def State.rd (s : State) (off : Nat) : Nat := (Sparse.get resetWord s.regs off).toNat

/-- Set the live word at `off`. -/
def State.wr (s : State) (off v : Nat) : State :=
  { s with regs := Sparse.set resetWord s.regs off (BitVec.ofNat 32 v) }

/-- The live value of a field. -/
def State.get (s : State) (f : Fld) : Nat := bits (s.rd f.off) f.lo f.w

/-- Set the live value of a field. -/
def State.put (s : State) (f : Fld) (v : Nat) : State := s.wr f.off (putBits (s.rd f.off) f.lo f.w v)

/-- Add to a count that saturates at its field's maximum. -/
def State.bump (s : State) (f : Fld) (n : Nat) : State := s.put f (satAdd (2 ^ f.w - 1) (s.get f) n)

/-- Add to a count modulo 2³². -/
def State.incr (s : State) (off n : Nat) : State := s.wr off ((s.rd off + n) % 2 ^ 32)

/-- A 64-bit quantity in two registers, low word at `lo`. -/
def State.rd64 (s : State) (lo : Nat) : Nat := s.rd lo + 2 ^ 32 * s.rd (lo + 4)

def State.wr64 (s : State) (lo v : Nat) : State := (s.wr lo (v % 2 ^ 32)).wr (lo + 4) (v / 2 ^ 32 % 2 ^ 32)

def State.incr64 (s : State) (lo n : Nat) : State := s.wr64 lo ((s.rd64 lo + n) % 2 ^ 64)

/-- The shadow word at `off` (R123). -/
def State.srd (s : State) (off : Nat) : Nat := (Sparse.get resetWord s.shadow off).toNat

def State.swr (s : State) (off v : Nat) : State :=
  { s with shadow := Sparse.set resetWord s.shadow off (BitVec.ofNat 32 v) }

/-- Tray role (R1). -/
def State.tray (s : State) : Bool := s.role == 1

/-- Requester number of an access (R60).
[DEDUCED, safe: log entry 15] -/
def Who.num : Who → Nat
  | .port src => src.toNat
  | .steward => 14
  | .debug => 15

def Who.isPort : Who → Bool
  | .port _ => true
  | _ => false

/-! ### Fleet time (R200, R202) -/

/-- The raw counter: 16 ticks per AON cycle.
[DESIGN CHOICE, unsafe: log entry 4] -/
def State.raw (s : State) : Nat := 16 * s.cyc % 2 ^ 64

/-- Fleet time at a raw count: raw + raw·rate·2⁻⁴⁰ + offset, modulo 2⁶⁴. -/
def State.fleetAt (s : State) (raw : Nat) : Nat :=
  let rate := toSigned 32 (s.rd Reg.TB_RATE)
  ofSigned 64 ((raw : Int) + asr ((raw : Int) * rate) 40 + (s.rd64 Reg.TB_OFF_LO : Int))

/-- Fleet time as the always-on domain reads it (R202, R203). -/
def State.fleetAon (s : State) : Nat := s.fleetAt s.raw

/-- The power states in which the block answers: 0 to 4 (R99). -/
def State.aonUp (s : State) : Bool := s.pw.st != .off && s.pw.st != .aonReset

def State.active (s : State) : Bool := s.pw.st == .active

/-- Fast cycles since the edge of the AON cycle; 0 while the fast clock is stopped. -/
def State.sub (s : State) : Nat := if s.active && s.pw.fast.1 == s.cyc then s.pw.fast.2 else 0

/-- Fleet time now, in ticks: the fast domain's copy while its clock runs, a tick for each fast cycle, corrected in every
AON cycle; else the always-on value (R202). -/
def State.fleet (s : State) : Nat := (s.fleetAon + s.sub) % 2 ^ 64

/-- Lateness of now against fleet time `t`, in ticks, 0 when not past (R17). -/
def State.sinceFleet (s : State) (t : Nat) : Nat := if later 64 s.fleet t then subMod 64 s.fleet t else 0

/-- Fleet time has reached `t`.
[DESIGN CHOICE, unsafe: log entry 203] -/
def State.reached (s : State) (t : Nat) : Bool := !(later 64 t s.fleet)

/-- Let AON time pass up to cycle `c`, never back. -/
def State.passTo (s : State) (c : Nat) : State := if s.cyc < c then { s with cyc := c } else s

/-- The next edge of the always-on clock, for a fast domain that stands between two of them. -/
def State.aonEdge (s : State) : State := if s.sub = 0 then s else s.passTo (s.cyc + 1)

/-- AON cycles until the always-on fleet time reaches `t`, at the rate in force, counted up; 0 when `t` is reached. -/
def State.cyclesTo (s : State) (t : Nat) : Nat :=
  if s.reached t then 0
  else
    let d := subMod 64 t s.fleetAon
    let rate := toSigned 32 (s.rd Reg.TB_RATE)
    let den := (2 ^ 40 : Int) + rate
    let n := (((d : Int) * 2 ^ 40 + den - 1) / den).toNat
    let c := (n + 15) / 16
    if later 64 t (s.fleetAt (16 * (s.cyc + c) % 2 ^ 64)) then c + 1 else c

/-- Let time pass until the always-on fleet time reaches `t`: the first AON cycle at or after it. -/
def State.passToAon (s : State) (t : Nat) : State := s.passTo (s.cyc + s.cyclesTo t)

/-- Let time pass to the AON cycle before the one in which the always-on fleet time reaches `t`. -/
def State.passBefore (s : State) (t : Nat) : State := s.passTo (s.cyc + s.cyclesTo t - 1)

/-- Let time pass until fleet time reaches `t`, a deadline's own moment: while the fast clock runs, to the fast cycle in
which its copy does (R202). What falls due is work of the fast domain, so the idle time of R98 counts from it. -/
def State.passToFleet (s : State) (t : Nat) : State :=
  if s.reached t then s
  else if s.active then
    let u := s.passBefore t
    let d := subMod 64 t u.fleetAon
    let v := if d < 16 then { u with pw := { u.pw with fast := (u.cyc, d) } } else s.passToAon t
    { v with pw := { v.pw with idleFrom := v.cyc } }
  else s.passToAon t

def usTicks : Nat := 1600
def msTicks : Nat := 1600000
def usCycles : Nat := 100
def msCycles : Nat := 100000
def secCycles : Nat := 100000000

/-! ### Free values -/

/-- Draw a free value: the next of `Config.freeNat`, cut to `w` bits. -/
def State.drawn (s : State) (w : Nat) : Nat := Config.freeNat s.free % 2 ^ w

def State.draw (s : State) : State := { s with free := s.free + 1 }

/-! ### The fast clock (R96, R98, R100) -/

/-- A need for the fast clock: in SLEEP the request rises in the next cycle, in STOPPING it waits for the acknowledge to
fall, in ACTIVE it ends the idle time (R98, R100, R120). -/
def State.need (s : State) : State :=
  match s.pw.st with
  | .sleep => { s with pw := { s.pw with st := .waking, req := true, need := true, needAt := s.cyc, reqAt := s.cyc + 1 } }
  | .stopping => if s.pw.need then s else { s with pw := { s.pw with need := true, needAt := s.cyc } }
  | .active => { s with pw := { s.pw with idleFrom := s.cyc } }
  | _ => s

/-- A commit drains section `n`: new work of its subsystem is held (R142). -/
def State.drainHas (s : State) (n : Nat) : Bool := s.ho.phase == 1 && bit s.ho.changed n

/-! ### Interrupt sources (R190–R194) -/

/-- Sources in the role (R190). -/
def State.srcCount (s : State) : Nat := if s.tray then 1024 else 256

def State.srcPending (s : State) (n : Nat) : Bool := bit (s.rd (Reg.IC_PEND_k (n / 32))) (n % 32)

def State.enHost (s : State) (n : Nat) : Bool := bit (s.rd (Reg.IC_EN_H_k (n / 32))) (n % 32)

def State.enStew (s : State) (n : Nat) : Bool := bit (s.rd (Reg.IC_EN_S_k (n / 32))) (n % 32)

/-- A watcher entry names the source (R194). -/
def State.watched (s : State) (n : Nat) : Bool :=
  (upto 32).any fun k => s.get (Reg.IC_WATCH_k_en k) == 1 && s.get (Reg.IC_WATCH_k_source k) == n

/-- R194: a watched source that becomes pending while enabled for the steward is a need; it counts in `IC_WAKES` while
the state is SLEEP or STOPPING. -/
def State.watchWake (s : State) (n : Nat) : State :=
  if s.watched n && s.enStew n then
    let s := if s.pw.st == .sleep || s.pw.st == .stopping then s.bump Reg.IC_WAKES_count 1 else s
    s.need
  else s

/-- R191: a doorbell, from the block, the steward or a requester. `outside` is a requester other than 14 or 15.
[DEDUCED, safe: log entry 19] -/
def State.doorbell (s : State) (n : Nat) (outside : Bool) : State :=
  if n == 0 || decide (s.srcCount ≤ n) || (outside && decide (n < 64)) then s.bump Reg.IC_DB_BAD_count 1
  else if s.srcPending n then s.bump Reg.IC_COALESCED_count 1
  else
    let off := Reg.IC_PEND_k (n / 32)
    (s.wr off (s.rd off + 2 ^ (n % 32))).watchWake n

/-- Raise one of the block's own sources (R190). -/
def State.raise (s : State) (n : Nat) : State := s.doorbell n false

/-- Clear a pending bit. -/
def State.unpend (s : State) (n : Nat) : State :=
  let off := Reg.IC_PEND_k (n / 32)
  s.wr off (putBits (s.rd off) (n % 32) 1 0)

/-- The highest-numbered pending source that `en` admits; 0 when there is none. -/
def State.highest (s : State) (en : Nat → Bool) : Nat :=
  ((List.range s.srcCount).reverse.find? fun n => s.srcPending n && en n).getD 0

/-- R192: `ic_host_irq`. -/
def State.hostLine (s : State) : Bool := s.highest s.enHost != 0

/-- R192: the steward's request line. -/
def State.stewLine (s : State) : Bool := s.highest s.enStew != 0

/-! ### The host notice master (R71, R195) -/

/-- A posted write into host memory. -/
def State.hostWrite (s : State) (addr : Nat) (data : List Byte) : State :=
  { s with notices := s.notices ++ [{ addr := addr, data := data }] }

/-- R195: an enabled notice entry advances its sequence and writes its word, or the word and the sequence. -/
def State.notice (s : State) (e : Nat) : State :=
  if s.get (Reg.IC_NOTE_HI_e_en e) == 1 then
    let s := s.incr (Reg.IC_NOTE_SEQ_e e) 1
    let a := s.get (Reg.IC_NOTE_LO_e_addr_lo e) * 4 + s.get (Reg.IC_NOTE_HI_e_addr_hi e) * 2 ^ 32
    let d := leBytes 4 (s.rd (Reg.IC_NOTE_DATA_e e))
    if s.get (Reg.IC_NOTE_HI_e_len8 e) == 1 then
      s.hostWrite (a - a % 8) (d ++ leBytes 4 (s.rd (Reg.IC_NOTE_SEQ_e e)))
    else s.hostWrite a d
  else s

/-! ### Requests (R69, R70, R87) -/

/-- The lowest tag below `n` that is not outstanding.
[DESIGN CHOICE, safe: log entry 100] -/
def ReqPort.freeTag (p : ReqPort) (n : Nat) : Option Nat :=
  (upto n).find? fun t => !(p.out.any fun r => r.tag == t)

/-- Issue waiting requests while a tag is free, one for each unit of `fuel`. -/
def ReqPort.pump (tags : Nat) : Nat → ReqPort → ReqPort
  | 0, p => p
  | k + 1, p =>
    match p.want with
    | [] => p
    | w :: ws =>
      match p.freeTag tags with
      | none => p
      | some t => ReqPort.pump tags k
          { out := p.out ++ [{ tag := t, addr := w.addr, write := w.write, owner := w.owner, idx := w.idx }], want := ws }

/-- Ask for host lines: line addresses in order, numbered from `i`. -/
def State.hostRead (s : State) (o : Owner) (lines : List Nat) (i : Nat) : State :=
  let ws := lines.zipIdx.map fun (a, k) => { addr := a, write := false, owner := o, idx := i + k : Want }
  { s with host := ReqPort.pump 1024 ws.length { s.host with want := s.host.want ++ ws } }

/-- R87: no fleet-store access is issued while no store is declared; the declared size in bytes.
[DESIGN CHOICE, unsafe: log entry 101] -/
def State.storeBytes (s : State) : Nat :=
  let n := s.get Reg.EV_STORE_store
  if s.tray && decide (1 ≤ n) && decide (n ≤ 6) then 2 ^ (n - 1) * 2 ^ 30 else 0

/-- Ask for fleet-store lines. -/
def State.fsAccess (s : State) (o : Owner) (write : Bool) (lines : List Nat) (i : Nat) : State :=
  let ws := (lines.zipIdx.filter fun (a, _) => decide (a + 64 ≤ s.storeBytes)).map fun (a, k) =>
    { addr := a, write := write, owner := o, idx := i + k : Want }
  { s with fsp := ReqPort.pump 256 ws.length { s.fsp with want := s.fsp.want ++ ws } }

/-- Bytes `a` to `a + n - 1` of a memory touch codeword `k` of 32 bytes. -/
def touches (a n k : Nat) : Bool := n != 0 && decide (a / 32 ≤ k) && decide (k ≤ (a + n - 1) / 32)

/-- R502: they touch a codeword of the lost ones. -/
def lostIn (bad : List Nat) (a n : Nat) : Bool := bad.any (touches a n)

/-- The lost codewords that a store of `n` bytes at `a` leaves lost. -/
def stillLost (bad : List Nat) (a n : Nat) : List Nat := bad.filter fun k => !(touches a n k)

/-- Codeword `k` is lost.
[DEDUCED, unsafe: log entry 216] -/
def nowLost (bad : List Nat) (k : Nat) : List Nat := if bad.contains k then bad else bad ++ [k]

/-- Bytes into the sample buffer (R237). -/
def State.sbufPut (s : State) (a : Nat) (bs : List Byte) : State :=
  { s with cf := { s.cf with sbuf := s.cf.sbuf.put a bs, sbufBad := stillLost s.cf.sbufBad a bs.length } }

/-- The block writes into steward data memory (R514); a store to a poisoned codeword clears its poison (R515). -/
def State.dmWrite (s : State) (a : Nat) (bs : List Byte) : State :=
  { s with dmem := s.dmem.put a bs, st := { s.st with dmBad := stillLost s.st.dmBad a bs.length } }

/-- The 64-byte lines that hold `n` bytes from `a` up. -/
def linesOf (a n : Nat) : List Nat :=
  if n = 0 then [] else (List.range ((a % 64 + n + 63) / 64)).map fun k => a - a % 64 + 64 * k

/-- Write bytes into the fleet store (R87): within the declared store only. -/
def State.fsWrite (s : State) (o : Owner) (a : Nat) (bs : List Byte) : State :=
  if a + bs.length ≤ s.storeBytes then
    { s with fs := s.fs.put a bs }.fsAccess o true (linesOf a bs.length) 0
  else s

end Sys2Proof.Machine
end

