-- ==== Sys2Proof/Machine/Admission.lean ====
section
/-! DEFINITION. Forming, admitting, routing and queueing pennants: chapter 12's R365–R368, R375, R384, R386, R390, R392. -/

namespace Sys2Proof.Machine

/-! ### Completion codes (R45, and each chapter's own table) -/

namespace Code
def OK := 0x00
def SKIPPED := 0x01
def ZERO := 0x02
def REFUSED_BUDGET := 0x10
def REFUSED_FULL := 0x11
def HL_BAD_TYPE := 0x12
def HL_DOWN := 0x13
def HL_NO_ROUTE := 0x14
def HL_POLICED := 0x15
def RD_TAG_BUSY := 0x18
def RD_LATE := 0x19
def RD_DUP := 0x1A
def RD_INCOMPLETE := 0x1B
def RD_BAD := 0x1C
def RD_EPOCH := 0x1D
def RD_ORPHAN := 0x1E
def HOIST_MISMATCH := 0x20
def GEN_STALE := 0x21
def HOIST_FORMAT := 0x22
def HOIST_ROLE := 0x23
def HOIST_FW := 0x24
def HOIST_SIG := 0x25
def HOIST_LIVE := 0x26
def HOIST_BUSY := 0x27
def HOIST_DRAIN := 0x2A
def DEADLINE_MISS := 0x30
def CYCLE := 0x31
def QE_BAD_CMD := 0x32
def QE_NOT_OWNER := 0x33
def QE_ABORTED := 0x34
def DATA_FAULT := 0x40
def CHECK_MISMATCH := 0x41
def UNCORRECTABLE := 0x50
def EV_SCRUB_LATE := 0x51
def EV_NV_FAIL := 0x52
def EV_CFG_BAD := 0x53
def CLOCK_LOSS := 0xB0
def WAKE_LATE := 0xB1
def RESET_ORDER := 0xB2
def SENSOR_RANGE := 0xB3
def SENSOR_CRIT := 0xB4
def VIN_UNDER := 0xB5
def VIN_OVER := 0xB6
def BOOT_FAIL := 0xB7
def PORT_PROTOCOL := 0xB8
def PMBUS_FAIL := 0xB9
def PMBUS_PEC := 0xBA
def FLASH_TIMEOUT := 0xBB
def LINK_DOWN := 0xBC
end Code

/-- R47: the first code that applies: SKIPPED, ZERO, GEN_STALE, REFUSED_FULL, REFUSED_BUDGET, then the highest-numbered
of the execution's own; OK when there is none. -/
def firstCode (cs : List Nat) : Nat :=
  if Code.SKIPPED ∈ cs then Code.SKIPPED
  else if Code.ZERO ∈ cs then Code.ZERO
  else if Code.GEN_STALE ∈ cs then Code.GEN_STALE
  else if Code.REFUSED_FULL ∈ cs then Code.REFUSED_FULL
  else if Code.REFUSED_BUDGET ∈ cs then Code.REFUSED_BUDGET
  else cs.foldl max 0

/-! ### Place in the fleet (R7, R28) -/

def State.duty (s : State) : Nat := s.get Reg.GL_DUTY_duty

/-- R7: a generation is live. -/
def State.genLive (s : State) : Bool := s.get Reg.GL_PLACE_valid == 1

def State.ident (s : State) : Nat := s.get Reg.GL_PLACE_ident

/-- The tray this instance is, or the tray above this die. -/
def State.trayId (s : State) : Nat := if s.tray then s.ident % 2 ^ 14 else s.ident / 8

def State.ownCube (s : State) : Nat := s.trayId / 8

/-- R116: the start-up stage. -/
def State.stage (s : State) : Nat := s.get Reg.PM_BOOT_stage

/-- R536: the tag in the die's own pennants. -/
def State.jobTag (s : State) : Nat := if s.stage = 8 then s.get Reg.GL_JOB_job else 0

/-- R379: the instance named for a cube. -/
def State.cubeTray (s : State) (c : Nat) : Option Nat :=
  let i := c / 2
  if c % 2 = 0 then
    if s.get (Reg.HL_CDIR_i_valid_lo i) = 1 then some (s.get (Reg.HL_CDIR_i_tray_lo i)) else none
  else
    if s.get (Reg.HL_CDIR_i_valid_hi i) = 1 then some (s.get (Reg.HL_CDIR_i_tray_hi i)) else none

/-- The cube-table entries' bases (R428). -/
def cubeBases : List Nat := (upto 32).map fun c => 0x61000 + 256 * c
def trayBases : List Nat := [0x60800, 0x60900]
def mastBases : List Nat := (upto 64).map fun m => 0x63000 + 256 * m

def State.entry? (s : State) (base : Nat) : Option Entry := s.red.entries.find? fun e => e.base == base

/-- The content of an entry for epoch `e`: the newest in force from an epoch not later than `e` (R416). -/
def Entry.at (en : Entry) (e : Nat) : Option Content :=
  en.cont.find? fun c => !(later 32 c.from_ e)

/-- A word of an entry's content, by offset from its base; a masthead's bitmap words stand from 0x100 on. -/
def contentReset (o : Nat) : Word := if o < 0x100 then resetWord (0x60800 + o) else 0

def Content.word (c : Content) (o : Nat) : Nat := (Sparse.get contentReset c.words o).toNat

/-- The entry among `bases` that is LIVE or RETIRING with job tag `job`. -/
def State.entryOf (s : State) (bases : List Nat) (job : Nat) : Option Entry :=
  s.red.entries.find? fun e => bases.contains e.base && decide (2 ≤ e.state) &&
    (match e.cont with | [] => false | c :: _ => c.word 0 % 2 ^ 12 == job)

/-- R409: the root of a job at a duty-2 or duty-3 instance; tag 0x000 goes to `HL_ROOT` (R384). -/
def State.rootOf (s : State) (job : Nat) : Option Nat :=
  if job = 0 then
    if s.get Reg.HL_ROOT_valid = 1 then some (s.get Reg.HL_ROOT_tray) else none
  else
    match s.entryOf cubeBases job with
    | some e => (match e.cont with | [] => none | c :: _ => some (c.word 0x18 % 2 ^ 14))
    | none => none

/-! ### The pennant type table (R367) -/

def typeWord (w : Word) : Nat := w.toNat

/-- The type table of the live format version, or the kept N−1 table (R153). -/
def State.typeOf (s : State) (prev : Bool) (t : Nat) : Nat :=
  if prev then
    match s.ho.prevTypes with
    | some (_, m) => (Sparse.get (fun _ => 0) m (0x5C000 + 4 * t)).toNat
    | none => 0
  else s.rd (Reg.HL_TYPE_t t)

def typValid (w : Nat) : Bool := bit w 31
def typClass (w : Nat) : Nat := bits w 29 2
def typSink (w : Nat) : Nat := bits w 27 2
def typStew (w : Nat) : Bool := bit w 26
def typFunc (w : Nat) : Nat := bits w 16 5

/-- The type whose valid entry names a function of the block. -/
def State.typeFor (s : State) (func : Nat) : Option Nat :=
  (s.regs.filter fun e => decide (0x5C000 ≤ e.1) && decide (e.1 < 0x60000) && typValid e.2.toNat &&
    typFunc e.2.toNat == func).head?.map fun e => (e.1 - 0x5C000) / 4

/-- R367: the class of each function of the block. -/
def funcClass (func : Nat) : Nat :=
  if func = 11 ∨ func = 13 ∨ func = 14 then 1 else if func = 15 then 2 else 0

/-! ### Fields of a pennant (R365) -/

def penType (p : List Byte) : Nat := field p 0 2 % 2 ^ 12
def penClass (p : List Byte) : Nat := bits (field p 0 2) 12 2
def penAddr (p : List Byte) : Bool := bit (field p 0 2) 14
def penFan (p : List Byte) : Bool := bit (field p 0 2) 15
def penIdent (p : List Byte) : Nat := field p 2 3 % 2 ^ 17
/--
[DEDUCED, safe: log entry 118] -/
def penLevel (p : List Byte) : Nat := bits (field p 2 3) 17 2
def penUnit (p : List Byte) : Nat := bits (field p 2 3) 19 5
def penJob (p : List Byte) : Nat := field p 5 2 % 2 ^ 12
def penTime (p : List Byte) : Nat := field p 8 6
def penSeq (p : List Byte) : Nat := field p 14 2
/--
[DEDUCED, unsafe: log entry 71] -/
def penDest (p : List Byte) : Nat := field p 20 3 % 2 ^ 17
def penCrcOk (p : List Byte) : Bool := crc32c (p.take 60) == field p 60 4

/-- R365: a pennant's 64 bytes, with its admission time and sequence and its CRC over bytes 0–59. -/
def formPennant (b01 ident level unit job fleet seq : Nat) (pay : List Byte) : List Byte :=
  let h := leBytes 2 b01 ++ leBytes 3 (ident % 2 ^ 17 + 2 ^ 17 * level + 2 ^ 19 * unit) ++ leBytes 2 (job % 2 ^ 12) ++
    leBytes 1 (fleet / 2 ^ 52) ++ leBytes 6 (fleet / 16) ++ leBytes 2 seq ++ padTo 44 pay
  h ++ leBytes 4 (crc32c h)

/-! ### Lanes, associations and routes -/

def State.lane (s : State) (n : Nat) : Lane := s.hl.lanes.getD n {}

def State.setLane (s : State) (n : Nat) (f : Lane → Lane) : State :=
  { s with hl := { s.hl with lanes := modAt s.hl.lanes n f } }

/-- Lanes present in the role (R364). -/
def State.laneCount (s : State) : Nat := if s.tray then 16 else 2

def State.laneUp (s : State) (n : Nat) : Bool := (s.lane n).state == 2

/-- R375: the lane of the pair that a class uses: its own, or the other when that is not IN_SERVICE. -/
def State.laneFor (s : State) (pair cls : Nat) : Option Nat :=
  let m := bits (s.rd Reg.HL_LANE_MAP) cls 1
  if s.laneUp (2 * pair + m) then some (2 * pair + m)
  else if s.laneUp (2 * pair + (1 - m)) then some (2 * pair + (1 - m))
  else none

/-- Ports in service (R381). -/
def State.portsUp (s : State) : List Nat :=
  if s.tray then (upto 4).filter fun p => s.get (Reg.HL_EP_CFG_p_en p) == 1 && bit s.hl.linkUp p && !(bit s.pw.portRst p)
  else []

/-- R381: an association's port: the k-th in service, k the peer's tray ID modulo their number. -/
def State.portFor (s : State) (peer : Nat) : Option Nat :=
  match s.portsUp with
  | [] => none
  | ps => ps[peer % ps.length]?

def State.assoc? (s : State) (peer : Nat) : Option Assoc := s.hl.assocs.find? fun a => a.peer == peer

def State.setAssoc (s : State) (peer : Nat) (f : Assoc → Assoc) : State :=
  { s with hl := { s.hl with assocs := s.hl.assocs.map fun a => if a.peer == peer then f a else a } }

def State.peerUp (s : State) (peer : Nat) : Bool :=
  (match s.assoc? peer with | some a => a.state == 2 | none => false) && (s.portFor peer).isSome

/-- R384 rule 1: the cubes of a job's fan: those of its masthead entry. -/
def State.fanCubes (s : State) (job : Nat) : List Nat :=
  match s.entryOf mastBases job with
  | some e => (upto 2048).filter fun c =>
      bit (s.rd (Reg.RD_MH_CUBES_m_w ((e.base - 0x63000) / 256) (c / 32))) (c % 32)
  | none => []

/-- The eight dies of a tray, and the trays of the own cube. -/
def dieDests : List Dest := (upto 8).map .pair

/-- R384 rule 1, the cube's step: every tray of the cube, the own tray's dies in place of itself. -/
def State.cubeStep (s : State) : List Dest :=
  ((upto 8).filter fun t => s.ownCube * 8 + t != s.trayId).map (fun t => Dest.peer (s.ownCube * 8 + t)) ++ dieDests

/-- R384 rule 1, R217: where a fan pennant goes from here: the masthead's step for a job's own fan at duty 3, the
cube's step otherwise, the tray's step for one that comes from the own cube. -/
def State.fanDests (s : State) (job : Nat) (src : Src) : List Dest :=
  let fromCube : Bool := match src with | .assoc p => p / 8 == s.ownCube | _ => false
  if s.duty ≤ 1 then dieDests
  else
    match src with
    | .own =>
      if s.duty = 3 ∧ job ≠ 0 then
        ((s.fanCubes job).filter fun c => c != s.ownCube).filterMap (fun c => (s.cubeTray c).map Dest.peer) ++
          (if (s.fanCubes job).contains s.ownCube then s.cubeStep else [])
      else s.cubeStep
    | _ => if fromCube then dieDests else s.cubeStep

/-- R384 rules 3 and 5: upward. -/
def State.upDest (s : State) (job : Nat) : Option (List Dest) :=
  if s.duty = 1 then (s.cubeTray s.ownCube).map fun t => [.peer t]
  else if 2 ≤ s.duty then
    match s.rootOf job with
    | some t => if t = s.trayId then some [.here] else some [.peer t]
    | none => none
  else none

/-- R384: the next places of a pennant with destination `d`, sink level `sink`. `none` is no route. -/
def State.route (s : State) (fan addr : Bool) (d sink job : Nat) (src : Src) : Option (List Dest) :=
  if !s.tray then some [.pair 0]
  else if fan then some (s.fanDests job src)
  else if addr && d != 0x1FFFF then
    if d / 8 = s.trayId then some [.pair (d % 8)]
    else if 2 ≤ s.duty then
      if d / 64 = s.ownCube then some [.peer (d / 8)]
      else (s.cubeTray (d / 64)).map fun t => [.peer t]
    else if s.duty = 1 then (s.cubeTray s.ownCube).map fun t => [.peer t]
    else none
  else if addr then s.upDest job
  else if sink < 3 ∧ sink ≤ s.duty then some [.here]
  else if sink = 3 ∧ s.duty = 3 ∧ s.rootOf job = some s.trayId then some [.here]
  else s.upDest job

/-- R375, R380, R381: the destination takes no class A or B pennant now. -/
def State.destDown (s : State) (cls : Nat) : Dest → Bool
  | .here => false
  | .pair p => decide (cls < 2) && (s.laneFor p cls).isNone
  | .peer t => decide (cls < 2) && !(s.peerUp t)

/-! ### Egress queues (R390, R392) -/

/-- Depth of egress queue `q`: lane n class c is 3n + c, port p class c is 48 + 3p + c. -/
def State.queueDepth (s : State) (q : Nat) : Nat :=
  if q < 48 then (((s.lane (q / 3)).queues.getD (q % 3) []).length)
  else
    (s.hl.assocs.filter fun a => s.portFor a.peer == some ((q - 48) / 3)).foldl
      (fun n a => n + (a.queues.getD ((q - 48) % 3) []).length) 0

def State.noteDepth (s : State) (q : Nat) : State :=
  let f := Reg.HL_Q_MAX_q_count q
  s.put f (max (s.get f) (s.queueDepth q))

/-- Put an entry at the end of its class queue towards a destination. -/
def State.enqueue (s : State) (cls : Nat) (e : QEntry) : Dest → State
  | .here =>
    let w := s.typeOf (e.ver != s.get Reg.HO_LIVE_fmt_ver) (penType e.pen)
    { s with hl := { s.hl with locals := s.hl.locals ++ [{ pen := e.pen, src := e.src, typ := w, at_ := e.at_, via := e.via }] } }
  | .pair p =>
    let n := (s.laneFor p cls).getD (2 * p + bits (s.rd Reg.HL_LANE_MAP) cls 1)
    (s.setLane n fun l => { l with queues := modAt l.queues cls fun q => q ++ [e] }).noteDepth (3 * n + cls)
  | .peer t =>
    let s := s.setAssoc t fun a => { a with queues := modAt a.queues cls fun q => q ++ [e] }
    match s.portFor t with
    | some p => s.noteDepth (48 + 3 * p + cls)
    | none => s

/-- Queue an entry towards each of its destinations; one copy keeps its origin, and so its place in the pool. -/
def State.enqueueAll (s : State) (cls : Nat) (e : QEntry) : List Dest → State
  | [] => s
  | [d] => s.enqueue cls e d
  | d :: ds => (s.enqueue cls { e with src := .copy } d).enqueueAll cls e ds

/-- R389: a pennant of class `cls` has left the pool its origin names: the sender's limit rises by one block. -/
def State.leavePool (s : State) (src : Src) (cls : Nat) : State :=
  match src with
  | .lane n => s.setLane n fun l => { l with grant := modAt l.grant cls fun g => (g + 1) % 2 ^ 16 }
  | .assoc p => s.setAssoc p fun a => { a with grant := modAt a.grant cls fun g => (g + 1) % 2 ^ 16
                                               ackAt := match a.ackAt with | some c => some c | none => some s.cyc }
  | _ => s

/-! ### Admission (R386, R387) -/

/-- A bucket brought up to AON cycle `now`: `rate` tokens per ms, at most `burst`. -/
def Bucket.upTo (b : Bucket) (rate burst now : Nat) : Bucket :=
  { tok := min (burst * 100000) (b.tok + rate * (now - b.at_)), at_ := now }

def State.tickBuckets (s : State) : State :=
  { s with hl := { s.hl with
      bucketA := s.hl.bucketA.upTo (s.get Reg.HL_ADM_A_rate) (s.get Reg.HL_ADM_A_burst) s.cyc
      bucketB := s.hl.bucketB.upTo (s.get Reg.HL_ADM_B_rate) (s.get Reg.HL_ADM_B_burst) s.cyc } }

def State.hasToken (s : State) (cls : Nat) : Bool :=
  if cls = 0 then decide (100000 ≤ s.hl.bucketA.tok) else decide (100000 ≤ s.hl.bucketB.tok)

def State.spendToken (s : State) (cls : Nat) : State :=
  if cls = 0 then { s with hl := { s.hl with bucketA := { s.hl.bucketA with tok := s.hl.bucketA.tok - 100000 } } }
  else { s with hl := { s.hl with bucketB := { s.hl.bucketB with tok := s.hl.bucketB.tok - 100000 } } }

/-- Class C source buffer, bytes (R364). -/
def State.srcCap (s : State) : Nat := if s.tray then 262144 else 65536

/-- R386, R387: count a refusal of class `cls` from `unit`, in the register and, but for a summary, towards the next
summary.
[DEDUCED, unsafe: log entry 44] -/
def State.noteRefusal (s : State) (cls unit : Nat) (summary : Bool) : State :=
  let s := s.bump (Reg.HL_REFUSED_c_count cls) 1
  if summary then s
  else
    let r := s.hl.refs
    let none_ := r.counts.all (· == 0)
    { s with hl := { s.hl with refs := { r with
        counts := modAt r.counts cls fun n => satAdd (2 ^ 32 - 1) n 1
        units := if bit r.units unit then r.units else r.units + 2 ^ unit
        firstAt := if none_ then s.fleet else r.firstAt
        lastAt := s.fleet
        thisIvl := true } } }

/-- Bytes 0–1 of an offered pennant, and its sink level; `none` where no valid entry carries it (R367). -/
def State.offerType (s : State) (o : Offer) : Option (Nat × Nat) :=
  match o.b01 with
  | some b =>
    let w := s.typeOf false (b % 2 ^ 12)
    if typValid w && typClass w == bits b 12 2 then some (b, typSink w) else none
  | none =>
    match s.typeFor o.func with
    | some t => some (t + 2 ^ 12 * funcClass o.func + (if o.addr then 2 ^ 14 else 0) + (if o.fan then 2 ^ 15 else 0),
        typSink (s.typeOf false t))
    | none => none

/-- The class an offer is refused or admitted in. -/
def Offer.cls (o : Offer) : Nat :=
  match o.b01 with
  | some b => bits b 12 2
  | none => funcClass o.func

/-- Bytes 0–1's `addr` and `fan` bits of an offer. -/
def Offer.flags (o : Offer) : Bool × Bool :=
  match o.b01 with
  | some b => (bit b 14, bit b 15)
  | none => (o.addr, o.fan)

/-- The destinations of an offer, `none` without a route. -/
def State.offerRoute (s : State) (o : Offer) (sink : Nat) : Option (List Dest) :=
  s.route o.flags.2 o.flags.1 (field o.pay 4 3 % 2 ^ 17) sink o.job .own

/-- The tag an offer carries: 0x000 until stage 8 (R117), and the die's own for a fit (R536, R447); else the offer's. -/
def State.offerJob (s : State) (o : Offer) : Nat :=
  if s.stage ≠ 8 then 0 else if o.func = 9 ∧ s.tray = false then s.jobTag else o.job

/-- Pennants of classes A and B in the egress queues of a die's two lanes; class C waits in its source buffer (R364). -/
def State.egressUsed (s : State) : Nat := s.hl.lanes.foldl (fun n l => n + (l.queues.getD 0 []).length + (l.queues.getD 1 []).length) 0

/-- A die's egress queues hold 32 KiB, 512 pennants (R364); a tray's pennants stay in pools and buffers of other rows.
[DEDUCED, unsafe: log entry 204] -/
def State.egressFull (s : State) : Bool := !s.tray && decide (512 ≤ s.egressUsed)

/-- Destinations of an offer that take no pennant of its class now (R375, R380, R381). -/
def State.offerDown (s : State) (o : Offer) : List Dest :=
  match s.offerType o with
  | some (_, sink) => ((s.offerRoute o sink).getD []).filter (s.destDown o.cls)
  | none => []

/-- The destinations that an admitted offer is queued for: those that are not down. -/
def State.offerUp (s : State) (o : Offer) (sink : Nat) : List Dest :=
  ((s.offerRoute o sink).getD []).filter fun d => !(s.destDown o.cls d)

/-- Codes of an offer's type and route (R367, R375, R384): a fanned pennant is refused with HL_DOWN where every place it
goes to is down.
[DEDUCED, unsafe: log entry 205] -/
def State.routeCodes (s : State) (o : Offer) : List Nat :=
  match s.offerType o with
  | none => [Code.HL_BAD_TYPE]
  | some (_, sink) =>
    match s.offerRoute o sink with
    | none => [Code.HL_NO_ROUTE]
    | some ds => if !ds.isEmpty && (s.offerUp o sink).isEmpty then [Code.HL_DOWN] else []

/-- Codes of an offer's budget or room (R386, R364). -/
def State.budgetCodes (s : State) (o : Offer) : List Nat :=
  if o.cls = 2 then (if s.hl.srcC + 64 ≤ s.srcCap then [] else [Code.REFUSED_FULL])
  else (if s.egressFull then [Code.REFUSED_FULL] else []) ++ if o.reserved || s.hasToken o.cls then [] else [Code.REFUSED_BUDGET]

/-- Every code that refuses the offer (R47). -/
def State.offerCodes (s : State) (o : Offer) : List Nat := s.routeCodes o ++ s.budgetCodes o

/-- R446, R448: functions that the tray's analytics observes. -/
def faObserves (f : Nat) : Bool := [2, 3, 5, 6, 8].contains f

def State.noteSeen (s : State) (func : Nat) (pen : List Byte) : State :=
  if s.tray && faObserves func then { s with hl := { s.hl with seen := s.hl.seen ++ [(func, pen)] } } else s

/-- An admitted offer: its bytes are formed, its token spent, and it is queued towards each destination. -/
def State.admitted (s : State) (o : Offer) : State :=
  match s.offerType o with
  | none => s
  | some (b01, sink) =>
    let c := o.cls
    let pen := formPennant b01 s.ident o.level o.unit o.job s.fleet (s.hl.seqs.getD c 0) o.pay
    let s' := if c = 2 then { s with hl := { s.hl with srcC := s.hl.srcC + 64 } }
      else if o.reserved then s else s.spendToken c
    let s' := { s' with hl := { s'.hl with seqs := modAt s'.hl.seqs c fun n => (n + 1) % 2 ^ 16 } }
    let e : QEntry := { pen := pen, ver := s.get Reg.HO_LIVE_fmt_ver, src := .own, at_ := s.fleet }
    (s'.enqueueAll c e (s.offerUp o sink)).noteSeen (typFunc (s.typeOf false (b01 % 2 ^ 12))) pen

/-- Admission (R386): the code, and the state with the pennant queued or its refusal counted. -/
def State.offerRaw (s : State) (o : Offer) : Nat × State :=
  let s := s.tickBuckets
  let o := { o with job := s.offerJob o }
  match s.offerCodes o with
  | [] => (Code.OK, s.admitted o)
  | cs => (firstCode cs, s.noteRefusal o.cls o.unit o.reserved)

end Sys2Proof.Machine
end

