-- ==== Sys2Proof/Machine/Record.lean ====
section
/-! DEFINITION. Event records and fault reports: forming a record, the intake and the always-on holding FIFO, and the
fault report each mirrored record offers (R485–R493, R505), with the faults and refusals every other chapter records. -/

namespace Sys2Proof.Machine

/-! ### Units (R366) -/

namespace Unit_
def firmware := 0
def counters := 1
def taps := 2
def checker := 3
def scoring := 4
def halyard := 5
def reduction := 6
def analytics := 7
def time := 8
def trace := 9
def dumps := 10
def recorder := 11
def power := 12
def queues := 13
def hoist := 14
end Unit_

/-- `TB_ALIGN.state` is ALIGNED (R212). -/
def State.aligned (s : State) : Bool := s.get Reg.TB_ALIGN_state == 2

/-- Flags of byte 23 (R485). -/
def State.recFlags (s : State) (heldAon : Bool) : Nat :=
  b2n s.ev.lifeV + 2 * b2n (!s.aligned) + 4 * b2n heldAon

/-- A record formed now (R485). -/
def State.form (s : State) (cls code unit inst arg : Nat) (heldAon : Bool) : EvRec :=
  { code := code % 256, cls := cls, unit := unit, inst := inst % 256, arg := min arg (2 ^ 32 - 1), time := s.fleet,
    opsec := s.rd Reg.EV_OPSEC, pcc := s.get Reg.EV_PCC_pcc, flags := s.recFlags heldAon }

/-- The 32 bytes of a record (R485). -/
def EvRec.bytes (r : EvRec) : List Byte :=
  let h := leBytes 1 r.code ++ leBytes 1 r.cls ++ leBytes 1 r.unit ++ leBytes 1 r.inst ++ leBytes 4 r.arg ++
    leBytes 8 r.time ++ leBytes 4 r.opsec ++ leBytes 3 r.pcc ++ leBytes 1 r.flags ++ leBytes 4 r.seq
  h ++ leBytes 4 (crc32c h)

/-- First area N and circulating area M (R484), less the bad sectors' places (R495). -/
def State.logN (s : State) : Nat := if s.tray then 16384 else 4096
def State.logM (s : State) : Nat :=
  if s.tray then 49152 - 128 * (s.ev.nvBad.filter fun n => decide (128 ≤ n)).length else 12288

/-- R488: the slot of record `r`. -/
def slotOf (n m r : Nat) : Nat := if r < n then r else n + (r - n) % m

/-- The sequence the next record to enter will take (R485). -/
def State.nextSeq (s : State) : Nat := (s.ev.count + s.ev.intake.length) % 2 ^ 32

/-- R508: class bit `c` of `EV_MIRROR`; bit 0 always reads 1, bit 7 is taken as 0. -/
def State.mirrored (s : State) (c : Nat) : Bool := decide (c = 0) || (decide (c < 7) && bit (s.rd Reg.EV_MIRROR) c)

def State.addHeld (s : State) (n : Nat) : State :=
  { s with ev := { s.ev with held := satAdd (2 ^ 32 - 1) s.ev.held n } }

/-- The fault-report pennant of a record (R492). -/
def State.reportOffer (s : State) (r : EvRec) : Offer :=
  { func := 12, unit := Unit_.recorder, level := (if s.tray then s.duty else 0), job := 0,
    pay := r.bytes ++ leBytes 4 s.ev.held }

/-- R492: offer the report of a record; an admitted one clears `held`, and one of class 0 writes notice 23. -/
def State.offerReport (s : State) (r : EvRec) : State :=
  let p := s.offerRaw (s.reportOffer r)
  if p.1 = Code.OK then
    let t := { p.2 with ev := { p.2.ev with held := 0 } }
    if r.cls = 0 then t.notice 23 else t
  else (p.2.bump Reg.EV_MIR_HELD_count 1).addHeld 1

/-- R491–R493: the report of a record that has reached the intake; before JOINED one that is not written only counts. -/
def State.report (s : State) (r : EvRec) : State :=
  if !(s.mirrored r.cls) then s.addHeld 1
  else if s.stage ≠ 8 then
    if r.cls = 0 ∧ r.flags < 8 ∧ s.ev.reoffer.length < 64 then { s with ev := { s.ev with reoffer := s.ev.reoffer ++ [r] } }
    else s.addHeld 1
  else s.offerReport r

/-- R490: a record dropped at a full FIFO. -/
def State.dropRecord (s : State) (cls : Nat) : State :=
  let s := s.bump (Reg.EV_OVF_c_count cls) 1
  { s with ev := { s.ev with
      ovfN := satAdd (2 ^ 32 - 1) s.ev.ovfN 1
      ovfMask := if bit s.ev.ovfMask cls then s.ev.ovfMask else s.ev.ovfMask + 2 ^ cls } }.raise 45

def EvRec.unlogged (r : EvRec) : EvRec := { r with flags := r.flags + 8 }

/-- A record reaches the intake (R490, R491, R495, R497): in a tray before the rebuild it waits in the boot holding
area, in a freeze it is only counted, at a full intake it is dropped; its report follows in every case. -/
def State.enter1 (s : State) (r : EvRec) : State :=
  let s := if r.cls = 0 then s.raise 35 else s
  if s.tray && !s.ev.rebuilt then
    if s.ev.boot.length < 256 then { s with ev := { s.ev with boot := s.ev.boot ++ [r] } }.report r
    else (s.dropRecord r.cls).report r.unlogged
  else
    let r := { r with seq := s.nextSeq }
    if s.get Reg.EV_CTRL_freeze = 1 then
      let s := s.bump (Reg.EV_FRZ_c_count r.cls) 1
      { s with ev := { s.ev with frzN := satAdd (2 ^ 32 - 1) s.ev.frzN 1 } }.report r.unlogged
    else if s.ev.intake.length < 64 then
      { s with ev := { s.ev with intake := s.ev.intake ++ [r] } }.report r
    else (s.dropRecord r.cls).report r.unlogged

/-- R490: the overflow marker enters ahead of any other record once the intake has room. -/
def State.marker (s : State) : State :=
  if s.ev.ovfN = 0 ∨ 64 ≤ s.ev.intake.length ∨ (s.tray && !s.ev.rebuilt) = true then s
  else
    let r := s.form 5 0x07 Unit_.recorder s.ev.ovfMask s.ev.ovfN false
    { s with ev := { s.ev with ovfN := 0, ovfMask := 0 } }.enter1 r

/-- A record enters the intake behind any marker due. -/
def State.enterRec (s : State) (r : EvRec) : State := s.marker.enter1 r

/-- Write an event record for something of the fast domain.
[DESIGN CHOICE, unsafe: log entry 226] -/
def State.record (s : State) (cls code unit inst arg : Nat) : State := s.enterRec (s.form cls code unit inst arg false)

/-- R490: a record formed in the always-on domain; while the fast domain does not run it waits in the holding FIFO and
is a need for the fast clock. -/
def State.recordAon (s : State) (cls code unit inst arg : Nat) : State :=
  if s.active then s.record cls code unit inst arg
  else
    let r := s.form cls code unit inst arg true
    if s.ev.holding.length < 16 then { s with ev := { s.ev with holding := s.ev.holding ++ [r] } }.need
    else (s.dropRecord cls).addHeld 1

/-- Empty the always-on holding FIFO into the intake once the fast domain runs. -/
def State.unhold (s : State) : State :=
  s.ev.holding.foldl (fun t r => t.enterRec r) { s with ev := { s.ev with holding := [] } }

/-- A completion code of Fault kind that a chapter records (R486 class 0). -/
def State.fault (s : State) (code unit inst arg : Nat) : State := s.record 0 code unit inst arg

def State.faultAon (s : State) (code unit inst arg : Nat) : State := s.recordAon 0 code unit inst arg

/-- A completion code of Refusal kind that a chapter records (R486 class 1). -/
def State.refusal (s : State) (code unit inst arg : Nat) : State := s.record 1 code unit inst arg

/-- R505: a DEADLINE_MISS, `late` in ticks; counted for its unit. -/
def State.deadline (s : State) (unit inst late : Nat) : State :=
  (s.bump (Reg.EV_DLM_u_count unit) 1).fault Code.DEADLINE_MISS unit inst (late / 1600)

/-- A pennant of class `c` from `unit` is refused towards a place that is down (R375, R380). -/
def State.refuseDown (s : State) (c unit : Nat) : State :=
  (s.noteRefusal c unit false).refusal Code.HL_DOWN Unit_.halyard 0 0

/-- R386, R486: offer a pennant; a refusal is written as a REFUSAL record, but for a fault report's or a summary's. Of an
admitted fan pennant, the copies for places that are down are refused. -/
def State.offer (s : State) (o : Offer) : Nat × State :=
  let p := s.offerRaw o
  if p.1 = Code.OK then (p.1, (s.offerDown { o with job := s.offerJob o }).foldl (fun t _ => t.refuseDown o.cls o.unit) p.2)
  else if o.func = 12 ∨ o.reserved = true then p
  else (p.1, p.2.refusal p.1 Unit_.halyard 0 0)

/-- R375, R384: send on a pennant that this instance received; without a route or a lane it is discarded, counted and
recorded.
[DEDUCED, safe: log entry 93] -/
def State.forward (s : State) (e : QEntry) (sink : Nat) : State :=
  let c := penClass e.pen
  match s.route (penFan e.pen) (penAddr e.pen) (penDest e.pen) sink (penJob e.pen) e.src with
  | none => ((s.noteRefusal c Unit_.halyard false).refusal Code.HL_NO_ROUTE Unit_.halyard 0 0).leavePool e.src c
  | some ds =>
    let down := ds.filter (s.destDown c)
    let up := ds.filter fun d => !(s.destDown c d)
    let s := down.foldl (fun t _ => t.refuseDown c Unit_.halyard) s
    if up.isEmpty then s.leavePool e.src c else s.enqueueAll c e up

/-! ### Reset order (R107) -/

/-- The fault RESET_ORDER: a lane (`inst` its number) or port (16 + its number). -/
def State.resetOrder (s : State) (inst : Nat) : State :=
  (s.put Reg.PM_FAULT_reset_order 1).faultAon Code.RESET_ORDER Unit_.power inst 0

/-- A lane's (its number) or a port's (16 + its number) reset input is asserted. -/
def State.resetIn (s : State) (i : Nat) : Bool := if i < 16 then bit s.pw.laneRst i else bit s.pw.portRst (i - 16)

/-- The lane or port is present in the role (R53, R77). -/
def State.hasReset (s : State) (i : Nat) : Bool := s.tray || decide (i < 2)

/-- The lowest lane or port reset of the role that is not asserted. -/
def State.looseReset (s : State) : Option Nat :=
  (upto 20).find? fun i => s.hasReset i && !(s.resetIn i)

/-- 8 AON cycles after `fast_rst_n` was asserted, every lane and port reset must be asserted too.
[DEDUCED, safe: log entry 23] -/
def State.judgeOrder (s : State) : State :=
  if s.pw.fastRst && !s.pw.orderChk && decide (s.pw.fastAt + 8 ≤ s.cyc) then
    let s := { s with pw := { s.pw with orderChk := true } }
    match s.looseReset with
    | some i => s.resetOrder i
    | none => s
  else s

/-- A lane or port reset of the role that stood asserted is released while `fast_rst_n` is asserted. -/
def State.looseRelease (s : State) (inst : Nat) (asserted : Bool) : State :=
  let s := s.judgeOrder
  if !asserted && s.hasReset inst && s.resetIn inst && s.pw.fastRst && s.pw.st == .fastReset then s.resetOrder inst else s

end Sys2Proof.Machine
end

