-- ==== Sys2Proof/Machine/Queues.lean ====
section
/-! DEFINITION. The queue engine (R160–R188): rings and banks, issue, the waits and flags, completion, and the queue
registers' effects. A command's work marks its flight `done`; COMMAND_COMPLETION then completes it (R176). -/

namespace Sys2Proof.Machine

/-! ### Queues and flights -/

def State.queue (s : State) (q : Nat) : Queue := s.queues.getD q {}

def State.setQueue (s : State) (q : Nat) (f : Queue → Queue) : State := { s with queues := modAt s.queues q f }

/-- R163, R164: commands pending in the active bank. -/
def Queue.pend (u : Queue) : Nat := if u.loop then u.count else (u.tail + 256 - u.head) % 256

/-- The slot of the head. -/
def Queue.slot (u : Queue) : Nat := u.head % 128

/-- R165: the queue stands at its swap boundary. -/
def Queue.atBoundary (u : Queue) : Bool :=
  if u.loop then u.head == 0 && !u.passed else u.head == u.tail

/-- A slot of the active bank holds a pending command (R162). -/
def Queue.holdsSlot (u : Queue) (slot : Nat) : Bool :=
  if u.loop then decide (slot < u.count) else decide ((slot + 128 - u.slot) % 128 < u.pend)

def ringAddr (bank q slot : Nat) : Nat := 65536 * bank + 4096 * q + 32 * slot

/-! ### Commands (R167, R168) -/

def cmdOp (c : List Byte) : Nat := field c 0 1
def cmdPout (c : List Byte) : Nat := field c 1 1 % 16
def cmdPoutEn (c : List Byte) : Bool := bit (field c 1 1) 4
def cmdFence (c : List Byte) : Bool := bit (field c 1 1) 5
def cmdIrq (c : List Byte) : Bool := bit (field c 1 1) 6
def cmdNotice (c : List Byte) : Bool := bit (field c 1 1) 7
def cmdPred (c : List Byte) : Nat := field c 2 1 % 16
def cmdPredEn (c : List Byte) : Bool := bit (field c 2 1) 4
def cmdPredInv (c : List Byte) : Bool := bit (field c 2 1) 5

def isWait (c : List Byte) : Bool := cmdOp c == 0x07 || cmdOp c == 0x0A

/-- A wait that has issued and not ended. -/
def Flight.standing (f : Flight) : Bool := isWait f.cmd && f.done.isNone

/-- Bytes `i` to `j` − 1 are zero. -/
def zeroBytes (c : List Byte) (i j : Nat) : Bool := field c i (j - i) == 0

/-- R216: the units of a strike that are present in the role. -/
def State.unitMask (s : State) : Nat := if s.tray then 0x7F9 else 0x7DF

/-- R50, R168, R216: the command's length, count or size field is zero. -/
def State.zeroField (s : State) (c : List Byte) : Bool :=
  match cmdOp c with
  | 0x01 => field c 10 2 == 0
  | 0x02 => field c 12 4 < 2 ^ 11 && field c 12 4 &&& s.unitMask == 0
  | 0x03 => field c 10 2 == 0
  | 0x04 => field c 18 2 == 0
  | 0x05 => field c 20 4 == 0
  | 0x06 => field c 16 1 == 0
  | _ => false

/-- `at` lies more than 2⁴⁰ ticks ahead of fleet time (R169). -/
def State.farAhead (s : State) (t : Nat) : Bool := later 64 t s.fleet && decide (2 ^ 40 < subMod 64 t s.fleet)

/-- R169, R366: the operands are within their ranges and every must-be-0 bit is 0. -/
def State.goodCmd (s : State) (c : List Byte) : Bool :=
  field c 2 1 < 64 && field c 3 1 == 0 &&
  match cmdOp c with
  | 0x01 => field c 8 2 ≤ 1151 && field c 8 2 + field c 10 2 ≤ 1152 && field c 12 1 ≤ 15 && field c 13 1 ≤ 1 && zeroBytes c 14 32
  | 0x02 => field c 8 1 ≤ 2 && zeroBytes c 9 12 && field c 12 4 < 2 ^ 11 && zeroBytes c 24 32 &&
      (field c 8 1 == 0 || !(s.farAhead (field c 16 8))) && (field c 8 1 != 2 || (s.tray && 2 ≤ s.duty))
  | 0x03 => field c 8 1 ≤ 7 && field c 9 1 == 0 && zeroBytes c 20 32
  | 0x04 => !s.tray && field c 8 8 % 64 == 0 && field c 8 8 < 2 ^ 52 && field c 17 1 ≤ 1 && zeroBytes c 24 32
  | 0x05 => field c 24 1 ≤ 2 && zeroBytes c 25 32
  | 0x06 => field c 10 2 < 4096 && field c 16 1 ≤ 44 && field c 17 1 ≤ 1 && zeroBytes c 18 32 &&
      bits (field c 8 2) 12 2 != 3 && !(bit (field c 8 2) 14 && bit (field c 8 2) 15) && (s.tray || !(bit (field c 8 2) 15))
  | 0x07 => field c 8 1 ≤ 63 && field c 9 1 ≤ 1 && zeroBytes c 10 32
  | 0x08 => field c 8 1 ≤ 63 && zeroBytes c 9 32
  | 0x09 => field c 8 1 ≤ 63 && zeroBytes c 9 32
  | 0x0A => !(s.farAhead (field c 8 8)) && zeroBytes c 16 32
  | 0x0B => zeroBytes c 8 32
  | _ => false

/-- Hoist sections whose fields a command's work reads, one bit each: for the holding of R157 and the loss of R502. -/
def opSections (op : Nat) : Nat :=
  match op with
  | 0x01 => 2 ^ 4 + 2 ^ 5
  | 0x02 => 2 ^ 3
  | 0x03 => 2 ^ 8 + 2 ^ 9 + 2 ^ 10
  | 0x04 => 2 ^ 7
  | 0x05 => 2 ^ 0x11
  | 0x06 => 2 ^ 0x0B + 2 ^ 0x13
  | 0x07 => 2 ^ 0x0E
  | 0x08 => 2 ^ 0x0E
  | 0x09 => 2 ^ 0x0E
  | _ => 0

/-- Unit of R366 that a command's fault is recorded under.
[DEDUCED, unsafe: log entry 46] -/
def opUnit (op code : Nat) : Nat :=
  if code = Code.QE_BAD_CMD ∨ code = Code.QE_NOT_OWNER ∨ code = Code.QE_ABORTED ∨ code = Code.CYCLE then Unit_.queues
  else
    match op with
    | 0x01 => Unit_.counters
    | 0x02 => Unit_.time
    | 0x03 => Unit_.scoring
    | 0x04 => Unit_.checker
    | 0x05 => Unit_.dumps
    | 0x06 => Unit_.halyard
    | _ => Unit_.queues

/-! ### Kinds of completion code (R45, R46) -/

/-- Codes of Fault kind. In the ranges declared per code, each chapter's table says; 0xC0 up is taken as a fault (R49). -/
def isFault (code : Nat) : Bool :=
  decide (0x30 ≤ code) && !([0x60, 0x76, 0x80, 0x81, 0x90, 0x91, 0xA0, 0xA1, 0xA2].contains code)

/-- Codes of Refusal kind (R45, R46). -/
def isRefusal (code : Nat) : Bool := decide (0x10 ≤ code) && !(isFault code)

/-! ### Issue (R170, R171) -/

/-- The command at the head of queue `q` with its slot. -/
def State.headCmd (s : State) (q : Nat) : Option (Nat × List Byte) :=
  let u := s.queue q
  if u.pend = 0 then none else some (u.slot, s.rings.bytes (ringAddr u.bank q u.slot) 32)

/-- A commit's drain holds this command at issue (R166): it changes the flags' configuration, or the queue has reached
the boundary at which it swaps. -/
def State.issueHeld (s : State) (u : Queue) (c : List Byte) : Bool :=
  (s.ho.phase == 1 && s.ho.flagCfgChanged && (cmdOp c == 7 || cmdOp c == 8 || cmdOp c == 9)) ||
  (u.atBoundary && (u.hoistSwap || u.swap.isSome))

/-- The head command of a queue that is ready to issue. -/
def State.readyCmd (s : State) (q : Nat) : Option (Nat × List Byte) :=
  let u := s.queue q
  match s.headCmd q with
  | none => none
  | some (slot, c) =>
    let fenced := cmdFence c || cmdOp c == 8 || cmdOp c == 9 || cmdOp c == 0x0B
    if s.active && !u.halted && decide (u.flights.length < 8) && !(u.flights.any fun f => isWait f.cmd) &&
        (!fenced || u.flights.isEmpty) && !(s.issueHeld u c) then some (slot, c)
    else none

/-- No ready queue stands before `q` in the round that begins after the queue last issued from (R170).
[DESIGN CHOICE, safe: log entry 209] -/
def State.firstReady (s : State) (q : Nat) : Bool :=
  (upto ((q + 31 - s.lastQ % 16) % 16)).all fun i => (s.readyCmd ((s.lastQ + 1 + i) % 16)).isNone

/-- The head command, when the engine may issue it now. -/
def State.issuable (s : State) (q : Nat) : Option (Nat × List Byte) := if s.firstReady q then s.readyCmd q else none

/-- The head moves on: in loop mode back to slot 0 after the programme's last, with the running rank cleared (R164,
R185). -/
def Queue.advance (u : Queue) : Queue :=
  if u.loop then
    if u.head + 1 < u.count then { u with head := u.head + 1, passed := true }
    else { u with head := 0, passed := false, rank := none }
  else { u with head := (u.head + 1) % 256 }

/-- The flight that the head command of `q` becomes when it is taken now. -/
def State.newFlight (s : State) (q slot : Nat) (c : List Byte) (held : Bool) : Flight :=
  { bank := (s.queue q).bank, slot := slot, seq := (s.queue q).seq, cmd := c, at_ := s.fleet, gen := s.get Reg.HO_LIVE_gen, held := held }

/-- Take the head command into flight. -/
def State.takeHead (s : State) (q slot : Nat) (c : List Byte) (held : Bool) : State :=
  { s with lastQ := q }.setQueue q fun u =>
    let wd := if u.flights.isEmpty then s.fleet else u.wdFrom
    { u with flights := u.flights ++ [s.newFlight q slot c held], seq := (u.seq + 1) % 2 ^ 16, wdFrom := wd }.advance

/-- End the work of the flight with issue sequence `seq`. -/
def State.finish (s : State) (q seq : Nat) (d : Done) : State :=
  s.setQueue q fun u => { u with flights := u.flights.map fun f =>
    if f.seq == seq && f.done.isNone then { f with done := some d } else f }

def State.flight? (s : State) (q seq : Nat) : Option Flight := (s.queue q).flights.find? fun f => f.seq == seq

/-- R47, R50, R169, R171, R502: a code that ends the command at issue. -/
def State.precheck (s : State) (q slot : Nat) (c : List Byte) : Option Nat :=
  if s.ev.ringBad.contains (ringAddr (s.queue q).bank q slot / 32) then some Code.UNCORRECTABLE
  else if cmdPredEn c && (bit (s.rd Reg.QE_PRED) (cmdPred c) == cmdPredInv c) then some Code.SKIPPED
  else if s.zeroField c then some Code.ZERO
  else if s.ev.cfgBad &&& opSections (cmdOp c) ≠ 0 then some Code.UNCORRECTABLE
  else if s.goodCmd c then none
  else some Code.QE_BAD_CMD

/-- R157, R166: a command issued during a drain to a subsystem with a changed field is held until the swap; flag commands
are held at issue instead. -/
def State.drainHolds (s : State) (c : List Byte) : Bool :=
  s.ho.phase == 1 && decide (cmdOp c < 7) && decide (s.ho.changed &&& opSections (cmdOp c) ≠ 0)

/-- R177: the state code shown. -/
def State.queueState (s : State) (q : Nat) : Nat :=
  let u := s.queue q
  let fencing := match s.headCmd q with
    | some (_, c) => (cmdFence c || cmdOp c == 8 || cmdOp c == 9 || cmdOp c == 0x0B) && !u.flights.isEmpty
    | none => false
  if u.halted then 3
  else if u.flights.any Flight.standing || decide (8 ≤ u.flights.length) || fencing then 2
  else if u.pend = 0 then 0 else 1

/-- R185: a queue that is EMPTY has a clear running rank. -/
def State.clearRank (s : State) (q : Nat) : State :=
  if s.queueState q = 0 then s.setQueue q fun u => { u with rank := none } else s

/-- Issue the head command of `q` when it may and has opcode `op` (`none`: an opcode outside 0x01–0x0B), and start its
work with `run`. Of two codes of R47's execution the other is written as an event record. -/
def State.issue (s : State) (q : Nat) (op : Option Nat) (run : State → Nat → Flight → State)
    (hold : State → Nat → Flight → State := fun s _ _ => s) : State :=
  match s.issuable q with
  | none => s
  | some (slot, c) =>
    let here : Bool := match op with
      | some o => cmdOp c == o
      | none => cmdOp c == 0 || decide (0x0B < cmdOp c)
    if !here then s
    else
      let pre := s.precheck q slot c
      let held := pre.isNone && s.drainHolds c
      let f := s.newFlight q slot c held
      let s := s.takeHead q slot c held
      match pre with
      | some code =>
        let bad := code == Code.UNCORRECTABLE && !(s.ev.ringBad.contains (ringAddr f.bank q slot / 32)) && !(s.goodCmd c)
        ((if bad then s.fault Code.QE_BAD_CMD Unit_.queues q 0 else s).finish q f.seq { code := code }).clearRank q
      | none => (if held then hold s q f else run s q f).clearRank q

/-- UNKNOWN_OPCODE (R169). -/
def execUnknownOpcode (q : Fin 16) (s : State) : Host.Outcome State Fault Refusal :=
  .next (s.issue q.val none fun t q f => t.finish q f.seq { code := Code.QE_BAD_CMD })

/-! ### Flags (R179–R181, R184, R185) -/

def State.flag (s : State) (f : Nat) : Bool :=
  if f < 32 then bit (s.rd Reg.QE_FLAGS_LO) f else bit (s.rd Reg.QE_FLAGS_HI) (f - 32)

def State.setFlag (s : State) (f : Nat) (v : Bool) : State :=
  if f < 32 then s.wr Reg.QE_FLAGS_LO (putBits (s.rd Reg.QE_FLAGS_LO) f 1 (b2n v))
  else s.wr Reg.QE_FLAGS_HI (putBits (s.rd Reg.QE_FLAGS_HI) (f - 32) 1 (b2n v))

def State.plovQueue (s : State) (q : Nat) : Bool := s.get (Reg.QE_Qn_PROG_mode q) == 1

def State.ranked (s : State) (f : Nat) : Bool := s.get (Reg.QE_FLAG_CFG_f_plov f) == 1

/-- R179, R184: queue `q` may set or clear flag `f`. -/
def State.mayFlag (s : State) (q f : Nat) : Bool :=
  if s.plovQueue q then s.ranked f else !(s.ranked f) && s.get (Reg.QE_FLAG_CFG_f_owner f) == q

/-- The standing WAIT_FLAG of a queue. -/
def State.waitOf (s : State) (q : Nat) : Option Flight :=
  (s.queue q).flights.find? fun f => f.standing && cmdOp f.cmd == 7

/-- R180: the queue that `q`'s edge leads to. -/
def State.edge (s : State) (q : Nat) : Option Nat :=
  if s.plovQueue q then none
  else
    match s.waitOf q with
    | none => none
    | some f =>
      let fl := field f.cmd 8 1
      let o := s.get (Reg.QE_FLAG_CFG_f_owner fl)
      if s.flag fl == (field f.cmd 9 1 == 1) || s.ranked fl || decide (16 ≤ o) then none else some o

/-- The edge as walks follow it: a wait whose CYCLE is due closes no further cycle (R181). -/
def State.openEdge (s : State) (q : Nat) : Option Nat := if (s.queue q).cycleDue then none else s.edge q

/-- Follow edges from `p` for at most `n` steps; the queues met, when the walk returns to `q` (R181).
[DESIGN CHOICE, unsafe: log entry 47] -/
def State.walk (s : State) (q : Nat) : Nat → Nat → Option (List Nat)
  | 0, _ => none
  | n + 1, p =>
    match s.openEdge p with
    | none => none
    | some r => if r = q then some [p] else (State.walk s q n r).map fun l => p :: l

/-- R181: walk from the waits of `qs` in order; a walk that returns makes CYCLE due. The edge stands until the wait
completes (R180). -/
def State.walks (s : State) (qs : List Nat) : State :=
  qs.foldl (fun t q =>
    match t.walk q 16 q with
    | some _ => t.setQueue q fun u => { u with cycleDue := true }
    | none => t) s

/-- Every standing wait walks afresh (R181, removed edges). -/
def State.rewalk (s : State) : State :=
  (upto 16).foldl (fun t q => t.setQueue q fun u => { u with cycleDue := false }) s |>.walks (upto 16)

/-- The queue `q` and those its due walk met, when CYCLE is due for it. -/
def State.dueWalk (s : State) (q : Nat) : List Nat :=
  if (s.queue q).cycleDue then ((s.setQueue q fun u => { u with cycleDue := false }).walk q 16 q).getD [] else []

/-- R181 between `s` and `t`: where an edge on a walk not yet ended is gone, every standing wait walks afresh; otherwise
the added edges walk, in ascending queue order. -/
def State.edgesMoved (s t : State) : State :=
  let gone := (upto 16).filter fun p => (s.edge p).isSome && s.edge p != t.edge p
  if (upto 16).any fun q => (s.dueWalk q).any fun p => gone.contains p then t.rewalk
  else t.walks ((upto 16).filter fun p => (t.edge p).isSome && s.edge p != t.edge p)

/-- SET_FLAG and CLEAR_FLAG (R179, R184). -/
def State.runFlag (v : Bool) (s : State) (q : Nat) (f : Flight) : State :=
  let fl := field f.cmd 8 1
  if s.mayFlag q fl then (s.setFlag fl v).finish q f.seq { code := Code.OK }
  else s.finish q f.seq { code := Code.QE_NOT_OWNER }

def execSetFlag (q : Fin 16) (s : State) : Host.Outcome State Fault Refusal :=
  .next (s.issue q.val (some 0x08) (State.runFlag true))

def execClearFlag (q : Fin 16) (s : State) : Host.Outcome State Fault Refusal :=
  .next (s.issue q.val (some 0x09) (State.runFlag false))

/-- R185: the running rank after a wait on a ranked flag, and whether the wait is a breach. -/
def rankStep (cur : Option Nat) (rank : Nat) : Option Nat × Bool :=
  match cur with
  | none => (some rank, false)
  | some r => if r < rank then (some rank, false) else (some r, true)

/-- WAIT_FLAG (R180–R182, R185). -/
def State.runWaitFlag (s : State) (q : Nat) (f : Flight) : State :=
  let fl := field f.cmd 8 1
  let plov := s.plovQueue q
  let s :=
    if plov && s.ranked fl then
      let (r, breach) := rankStep (s.queue q).rank (s.get (Reg.QE_FLAG_CFG_f_rank fl))
      let s := s.setQueue q fun u => { u with rank := r }
      if breach then s.bump (Reg.QE_Qn_RANKB_count q) 1 else s
    else s
  if s.flag fl == (field f.cmd 9 1 == 1) then s.finish q f.seq { code := Code.OK }
  else if !plov && s.get (Reg.QE_Qn_BOUND_us q) == 0 then s.finish q f.seq { code := Code.DEADLINE_MISS }
  else s.walks [q]

def execWaitFlag (q : Fin 16) (s : State) : Host.Outcome State Fault Refusal :=
  .next (s.issue q.val (some 0x07) State.runWaitFlag)

/-- WAIT_FLAG_SATISFIED (R180). -/
def State.waitSatisfied (s : State) (q : Nat) : State :=
  match s.waitOf q with
  | some f =>
    if s.flag (field f.cmd 8 1) == (field f.cmd 9 1 == 1) then
      s.edgesMoved ((s.setQueue q fun u => { u with cycleDue := false }).finish q f.seq { code := Code.OK })
    else s
  | none => s

def execWaitFlagSatisfied (q : Fin 16) (s : State) : Host.Outcome State Fault Refusal :=
  .next (if s.active then s.waitSatisfied q.val else s)

/-- CYCLE_DETECTED (R181): the closing wait ends with CYCLE and `QE_CYCLE` shows the members. -/
def State.cycleFound (s : State) (q : Nat) : State :=
  let s' := s.setQueue q fun u => { u with cycleDue := false }
  match s.waitOf q, (s.queue q).cycleDue, s'.walk q 16 q with
  | some f, true, some ms =>
    let mask := ms.foldl (fun m p => m + 2 ^ p) 0
    let s := ((((s'.put Reg.QE_CYCLE_valid 1).put Reg.QE_CYCLE_flag (field f.cmd 8 1)).put Reg.QE_CYCLE_closer q).put
      Reg.QE_CYCLE_members mask).bump Reg.QE_CYCLES_count 1
    s.finish q f.seq { code := Code.CYCLE }
  | _, _, _ => s'

def execCycleDetected (q : Fin 16) (s : State) : Host.Outcome State Fault Refusal :=
  .next (if s.active && (s.queue q.val).cycleDue then s.cycleFound q.val else s)

/-- WAIT_FLAG_TIMEOUT (R182): a native wait reaches its bound; a flag that holds `want` then completes with OK (R188). -/
def State.waitTimeout (s : State) (q : Nat) : State :=
  match s.waitOf q with
  | none => s
  | some f =>
    if s.plovQueue q then s
    else
      let due := (f.at_ + s.get (Reg.QE_Qn_BOUND_us q) * usTicks) % 2 ^ 64
      let s := s.passToFleet due
      if s.flag (field f.cmd 8 1) == (field f.cmd 9 1 == 1) then s.waitSatisfied q
      else s.edgesMoved (s.finish q f.seq { code := Code.DEADLINE_MISS, arg := s.sinceFleet due / usTicks })

def execWaitFlagTimeout (q : Fin 16) (s : State) : Host.Outcome State Fault Refusal :=
  .next (if s.active then s.waitTimeout q.val else s)

/-! ### WAIT_TIME and FENCE (R183) -/

/-- WAIT_TIME at issue: a target already past completes with OK and its age in result words 2–3. -/
def State.runWaitTime (s : State) (q : Nat) (f : Flight) : State :=
  let t := field f.cmd 8 8
  if s.reached t then
    let age := subMod 64 s.fleet t
    s.finish q f.seq { code := Code.OK, res := [0, 0, age % 2 ^ 32, age / 2 ^ 32] }
  else s

def execWaitTime (q : Fin 16) (s : State) : Host.Outcome State Fault Refusal :=
  .next (s.issue q.val (some 0x0A) State.runWaitTime)

/-- R183: the code, `late` and result of a WAIT_TIME that ends `lat` ticks late. -/
def waitTimeDone (lat : Nat) : Done :=
  { code := if 16000 < lat then Code.DEADLINE_MISS else Code.OK, late := decide (1600 < lat),
    res := [lat % 2 ^ 32, lat / 2 ^ 32], arg := (lat - 16000) / 1600 }

/-- WAIT_TIME_REACHED. -/
def State.waitTimeReached (s : State) (q : Nat) : State :=
  match (s.queue q).flights.find? fun f => f.standing && cmdOp f.cmd == 0x0A with
  | none => s
  | some f =>
    let t := field f.cmd 8 8
    let s := s.passToFleet t
    let from_ := if later 64 t f.at_ then t else f.at_
    s.finish q f.seq (waitTimeDone (s.sinceFleet from_))

def execWaitTimeReached (q : Fin 16) (s : State) : Host.Outcome State Fault Refusal :=
  .next (if s.active then s.waitTimeReached q.val else s)

/-- FENCE: issues once every earlier command of its queue has completed, and is then complete; it clears the running
rank (R185). -/
def State.runFence (s : State) (q : Nat) (f : Flight) : State :=
  (s.setQueue q fun u => { u with rank := none }).finish q f.seq { code := Code.OK }

def execFence (q : Fin 16) (s : State) : Host.Outcome State Fault Refusal :=
  .next (s.issue q.val (some 0x0B) State.runFence)

/-! ### Completion (R172, R174–R177) -/

/-- Bytes of steward data memory (R19). -/
def State.dmemSize (s : State) : Nat := if s.tray then 1048576 else 262144

/-- The 64 bytes of a completion record (R174). -/
def State.cplRecord (s : State) (q : Nat) (f : Flight) (d : Done) (lost : Bool) : List Byte :=
  let b2 := q + 16 * f.bank + 32 * b2n d.late + 64 * b2n lost
  let h := leBytes 1 d.code ++ leBytes 1 (cmdOp f.cmd) ++ leBytes 1 b2 ++ leBytes 1 f.slot ++ leBytes 4 (field f.cmd 4 4) ++
    leBytes 8 s.fleet ++ leBytes 2 f.gen ++ leBytes 2 f.seq ++ leBytes 4 0 ++
    ((List.range 8).flatMap fun i => leBytes 4 (d.res.getD i 0)) ++ leBytes 4 0
  h ++ leBytes 4 (crc32c h)

/-- R175: place a record of `bs` bytes in a ring of `ents` entries at `dest` (1 steward data memory, 2 host memory);
`none` where the ring is off, `some none` where it has no room. -/
def State.ringPut (s : State) (dest ents addr wr rd : Nat) (bs : List Byte) : Option (Option State) :=
  if ents = 0 ∨ (dest ≠ 1 ∧ dest ≠ 2) then none
  else if dest = 1 ∧ s.dmemSize < addr % 2 ^ 32 + bs.length * ents then some none
  else if subMod 32 wr rd < ents then
    let a := addr + bs.length * (wr % ents)
    if dest = 1 then some (some (s.dmWrite (a % 2 ^ 32) bs))
    else some (some (s.hostWrite (a % 2 ^ 52) bs))
  else some none

/-- Write a queue's completion record. -/
def State.cplWrite (s : State) (q : Nat) (f : Flight) (d : Done) : State :=
  let addr := s.get (Reg.QE_Qn_CPL_LO_addr_lo q) * 64 + s.get (Reg.QE_Qn_CPL_HI_addr_hi q) * 2 ^ 32
  match s.ringPut (s.get (Reg.QE_Qn_CFG_cpl_dest q)) (min 256 (s.get (Reg.QE_Qn_CFG_cpl_ents q))) addr
      (s.rd (Reg.QE_Qn_CPL_WR q)) (s.rd (Reg.QE_Qn_CPL_RD q)) (s.cplRecord q f d (s.queue q).lost) with
  | none => s
  | some none => (s.bump (Reg.QE_Qn_LOST_count q) 1).setQueue q fun u => { u with lost := true }
  | some (some t) => (t.incr (Reg.QE_Qn_CPL_WR q) 1).setQueue q fun u => { u with lost := false }

/-- R172: the predicate bit written at completion. -/
def State.writePout (s : State) (c : List Byte) (code : Nat) : State :=
  if cmdPoutEn c && code != Code.SKIPPED && code != Code.ZERO then
    s.wr Reg.QE_PRED (putBits (s.rd Reg.QE_PRED) (cmdPout c) 1 (b2n (code == Code.OK)))
  else s

/-- R177, R190: a queue enters HALTED; one that is already there keeps what it recorded.
[DEDUCED, safe: log entry 51] -/
def State.haltQueue (s : State) (q slot bank code : Nat) : State :=
  if (s.queue q).halted then s
  else
    let s := (s.setQueue q fun u => { u with halted := true }).wr (Reg.QE_Qn_FAULT q) (code * 2 ^ 24 + bank * 2 ^ 8 + slot)
    s.record 3 0x06 Unit_.queues q 3

/-- The event record of a command that completed with a fault (R48, R505). -/
def State.cplRecordFault (s : State) (q : Nat) (f : Flight) (d : Done) : State :=
  let unit := if d.byWatchdog then Unit_.queues else opUnit (cmdOp f.cmd) d.code
  if d.code = Code.DEADLINE_MISS then (s.bump (Reg.EV_DLM_u_count unit) 1).fault d.code unit q d.arg
  else if isFault d.code && !d.silent then s.fault d.code unit q d.arg
  else s

/-- A command completes with `d`: its record, sources, notice, predicate, tally and, on a fault, the halt (R172, R176,
R177) and its event record (R48, R486): a refusal of the command's own, which for a SEND admission has written already. -/
def State.complete (s : State) (q : Nat) (f : Flight) (d : Done) : State :=
  let skipped := d.code == Code.SKIPPED
  let s := s.cplWrite q f d
  let s := if cmdIrq f.cmd && !skipped then s.raise (1 + q) else s
  let s := if isRefusal d.code && !d.silent && cmdOp f.cmd != 0x06 then s.refusal d.code (opUnit (cmdOp f.cmd) d.code) q 0 else s
  let s := if isFault d.code then ((s.cplRecordFault q f d).raise (17 + q)).haltQueue q f.slot f.bank d.code else s
  let s := if cmdNotice f.cmd && !skipped then s.notice q else s
  let s := s.writePout f.cmd d.code
  let s := if skipped then s.bump (Reg.QE_Qn_TALLY_skipped q) 1
    else if isFault d.code then s.bump (Reg.QE_Qn_TALLY_faulted q) 1 else s
  (s.setQueue q fun u => { u with last := d.code, wdFrom := s.fleet }).need

/-- COMMAND_COMPLETION. -/
def State.commandCompletion (s : State) (q slot : Nat) : State :=
  match (s.queue q).flights.find? fun f => f.slot == slot && f.done.isSome with
  | none => s
  | some f =>
    match f.done with
    | none => s
    | some d =>
      let s := s.setQueue q fun u => { u with flights := u.flights.filter fun g => g.seq != f.seq }
      (s.complete q f d).clearRank q

def execCommandCompletion (q : Fin 16) (slot : Fin 128) (s : State) : Host.Outcome State Fault Refusal :=
  .next (if s.active then s.commandCompletion q.val slot.val else s)

/-- PLOV_WATCHDOG (R186): every command of the queue in flight or waiting completes with DEADLINE_MISS.
[DEDUCED, safe: log entry 48] -/
def State.plovWatchdog (s : State) (q : Nat) : State :=
  let u := s.queue q
  let us := s.get Reg.QE_WDOG_us
  if s.plovQueue q && us != 0 && !u.flights.isEmpty then
    let due := (u.wdFrom + us * usTicks) % 2 ^ 64
    let s := s.passToFleet due
    let s := match s.waitOf q with
      | some f => if s.flag (field f.cmd 8 1) == (field f.cmd 9 1 == 1) then s.waitSatisfied q else s
      | none => s
    s.setQueue q fun u => { u with flights := u.flights.map fun f =>
      if f.done.isNone then
        { f with done := some { code := Code.DEADLINE_MISS, arg := s.sinceFleet due / usTicks, byWatchdog := true } }
      else f }
  else s

def execPlovWatchdog (q : Fin 16) (s : State) : Host.Outcome State Fault Refusal :=
  .next (if s.active then s.plovWatchdog q.val else s)

/-! ### Queue registers -/

/-- A write through the ring window (R161, R162): the bank `QE_WIN_SEL` shows. -/
def State.wRing (s : State) (off v : Nat) : Option State :=
  let q := off / 4096 % 16
  let slot := off / 32 % 128
  let u := s.queue q
  let bank := bits (s.rd Reg.QE_WIN_SEL) q 1
  let bad := if bank = u.bank then u.holdsSlot slot
    else u.swap.isSome || u.hoistSwap || bit s.ho.placedQ q
  if bad then none
  else
    let a := ringAddr bank q slot
    let s := { s with rings := s.rings.put (a + off % 32) (leBytes 4 v) }
    some { s with ev := { s.ev with ringBad := s.ev.ringBad.filter fun k => k != a / 32 } }

def State.rRing (s : State) (off : Nat) : Nat :=
  let q := off / 4096 % 16
  s.rings.nat (ringAddr (bits (s.rd Reg.QE_WIN_SEL) q 1) q (off / 32 % 128) + off % 32) 4

/-- A refused tail write (R163). -/
def State.refuseTail (s : State) (q : Nat) : State :=
  (s.bump (Reg.QE_Qn_TALLY_refused q) 1).refusal Code.REFUSED_FULL Unit_.queues q 0

/-- A write of `QE_Qn_TAIL` (R163): the state, and whether it is refused.
[DESIGN CHOICE, unsafe: log entry 201] -/
def State.wTail (s : State) (q v : Nat) : State × Bool :=
  let u := s.queue q
  let v := v % 256
  if u.loop || u.swap.isSome || u.hoistSwap || decide (128 < (v + 256 - u.head) % 256) then (s.refuseTail q, true)
  else (s.setQueue q fun u => { u with tail := v }, false)

/-- A write of `QE_Qn_SWAP` (R165).
[DESIGN CHOICE, unsafe: log entry 202] -/
def State.wSwap (s : State) (q v : Nat) : Option State :=
  let u := s.queue q
  let count := v % 256
  let s' := s.wr (Reg.QE_Qn_SWAP q) (v % 2 ^ 9)
  if !(bit v 16) then some s'
  else if u.swap.isSome ∨ u.hoistSwap = true ∨ 128 < count then none
  else if count = 0 then some (s'.setQueue q fun u => { u with swapCode := Code.ZERO })
  else some (s'.setQueue q fun u => { u with swap := some (count, bit v 8) })

/-- R165: the banks exchange roles. -/
def Queue.swapTo (u : Queue) (count : Nat) (loop : Bool) : Queue :=
  { u with bank := 1 - u.bank, head := 0, tail := if loop then 0 else count, loop := loop, count := count, passed := false,
           swap := none, hoistSwap := false, swapCode := Code.OK }

/-- QUEUE_BANK_SWAP: a requested swap at its boundary; a commit's swap that waited for it is pending from then (R166). -/
def State.bankSwap (s : State) (q : Nat) : State :=
  match (s.queue q).swap with
  | some (n, l) =>
    if (s.queue q).atBoundary then
      (s.setQueue q fun u => { (u.swapTo n l) with hoistSwap := s.ho.phase == 1 && bit s.ho.swapQ q }).clearRank q
    else s
  | none => s

def execQueueBankSwap (q : Fin 16) (s : State) : Host.Outcome State Fault Refusal :=
  .next (if s.active then s.bankSwap q.val else s)

/-- R178: a pending command retired without issuing takes the next sequence number. -/
def State.retirePending (q : Nat) : Nat → State → State
  | 0, s => s
  | n + 1, s =>
    match s.headCmd q with
    | none => s
    | some (slot, c) =>
      let seq := (s.queue q).seq
      State.retirePending q n ((s.takeHead q slot c false).finish q seq { code := Code.QE_ABORTED })

/-- Complete, in issue order, every flight of the queue whose work ended with QE_ABORTED. -/
def State.completeAborted (s : State) (q : Nat) : State :=
  let fs := (s.queue q).flights.filter fun f => match f.done with | some d => d.code == Code.QE_ABORTED | none => false
  let s := s.setQueue q fun u => { u with flights := u.flights.filter fun f => !(fs.any fun g => g.seq == f.seq) }
  fs.foldl (fun t f => t.complete q f { code := Code.QE_ABORTED }) s

/-- A write of `QE_Qn_CTRL.reset` (R178). -/
def State.queueReset (s : State) (q : Nat) : State :=
  let before := s
  let u := s.queue q
  let s := match u.flights.find? Flight.standing with
    | some f => s.finish q f.seq { code := Code.QE_ABORTED }
    | none => s
  let s := if u.loop then s.setQueue q fun u => { u with head := 0, passed := false }
    else { State.retirePending q u.pend s with lastQ := s.lastQ }
  let s := s.completeAborted q
  let s := if (s.queue q).halted then s else (s.haltQueue q ((s.queue q).head % 128) (s.queue q).bank Code.QE_ABORTED).raise (17 + q)
  let s := s.setQueue q fun u => { u with cycleDue := false }
  before.edgesMoved (s.put (Reg.QE_Qn_FAULT_status q) Code.QE_ABORTED)

def State.queueResume (s : State) (q : Nat) : State := (s.setQueue q fun u => { u with halted := false }).clearRank q

/-- A write of `QE_Qn_CTRL`: `reset` alone when both are written (R178). -/
def State.wQctrl (s : State) (q v : Nat) : State :=
  if bit v 1 then s.queueReset q else if bit v 0 then s.queueResume q else s

/-- Writes of `QE_PRED_SET` and `QE_PRED_CLR` (R172). -/
def State.wPredSet (s : State) (v : Nat) : State := s.wr Reg.QE_PRED (s.rd Reg.QE_PRED ||| v % 2 ^ 16)
def State.wPredClr (s : State) (v : Nat) : State := s.wr Reg.QE_PRED (s.rd Reg.QE_PRED &&& (2 ^ 16 - 1 - v % 2 ^ 16))

/-- Writes of `QE_FLAG_SET` and `QE_FLAG_CLR` (R179): refused unless the flag's owner is external. -/
def State.wFlagExt (s : State) (v : Nat) (on : Bool) : Option State :=
  let f := v % 64
  if s.get (Reg.QE_FLAG_CFG_f_owner f) = 16 then some (s.setFlag f on) else none

/-- `QE_Qn_STATE` (R198). -/
def State.queueStateWord (s : State) (q : Nat) : Nat :=
  let u := s.queue q
  u.last * 2 ^ 24 + min u.flights.length 8 * 2 ^ 20 + b2n (u.swap.isSome || u.hoistSwap) * 2 ^ 17 + b2n (s.edge q).isSome * 2 ^ 16 +
    u.swapCode * 2 ^ 8 + s.queueState q

/-- `QE_STATUS`. -/
def State.queueStatus (s : State) : Nat :=
  (upto 16).foldl (fun n q => n + (if s.queueState q = 3 then 2 ^ (16 + q) else 0) + (if s.queueState q = 0 then 0 else 2 ^ q)) 0

end Sys2Proof.Machine
end

