-- ==== Sys2Proof/Machine/TimeBase.lean ====
section
/-! DEFINITION. Fleet time (chapter 06): rate and offset, captures, the exchange with the parent and its updates, the
alignment states, the time of day, and the pulse outputs. -/

namespace Sys2Proof.Machine

/-! ### Rate and offset (R201, R204) -/

/-- R201: a new rate, with the offset adjusted so that fleet time is the same under both. -/
def State.setRate (s : State) (r : Int) : State :=
  let x : Int := s.raw
  let r0 := toSigned 32 (s.rd Reg.TB_RATE)
  let off := ofSigned 64 ((s.rd64 Reg.TB_OFF_LO : Int) + asr (x * r0) 40 - asr (x * r) 40)
  (s.wr64 Reg.TB_OFF_LO off).wr Reg.TB_RATE (ofSigned 32 r)

/-! ### Laps (R220) -/

/-- Fleet time [59:52]. -/
def State.lapNow (s : State) : Nat := s.fleet / 2 ^ 52 % 256

/-- A lap that differs from the one last seen: a masthead-duty instance records the change (R220).
[DESIGN CHOICE, safe: log entry 206] -/
def State.lapWatch (s : State) : State :=
  if s.lapNow = s.tb.lap then s
  else
    let t := { s with tb := { s.tb with lap := s.lapNow } }
    if s.tray && s.duty == 3 then t.recordAon 5 0x04 Unit_.time 0 s.lapNow else t

/-- LAP_CHANGE: fleet time [59:52] changes, by counting or by a step already taken. -/
def execLapChange (s : State) : Host.Outcome State Fault Refusal :=
  .next (if s.lapNow = s.tb.lap then (s.passToAon (((s.fleet / 2 ^ 52 + 1) * 2 ^ 52) % 2 ^ 64)).lapWatch else s.lapWatch)

/-- Step fleet time by `d` ticks. -/
def State.stepTime (s : State) (d : Int) : State :=
  (s.wr64 Reg.TB_OFF_LO (ofSigned 64 ((s.rd64 Reg.TB_OFF_LO : Int) + d))).lapWatch

def State.servo (s : State) : Bool := s.get Reg.TB_CTRL_servo == 1

/-- A write of `TB_RATE`: refused while the servo runs. -/
def State.wRate (s : State) (v : Nat) : Option State :=
  if s.servo then none else some (s.setRate (toSigned 32 v))

/-! ### Alignment (R210, R212) -/

def clampI (lo hi x : Int) : Int := max lo (min hi x)

/-- An alignment state is entered: its STATE record and, where R212 names it, source 37. -/
def State.alignTo (s : State) (st : Nat) (src : Bool) : State :=
  if s.get Reg.TB_ALIGN_state = st then s
  else
    let s := (s.put Reg.TB_ALIGN_state st).recordAon 3 0x04 Unit_.time 0 st
    if src then s.raise 37 else s

/-- R212: into HOLDOVER: the phase term is 0, f is kept. -/
def State.holdover (s : State) : State :=
  let st := s.get Reg.TB_ALIGN_state
  if st = 1 ∨ st = 2 then
    let s := { s with tb := { s.tb with phase := 0, inBound := 0 } }.setRate (toSigned 32 (s.rd Reg.TB_FREQ))
    ((s.bump Reg.TB_EVENTS_holdovers 1).faultAon 0x3A Unit_.time 0 0).alignTo 3 true
  else s

/-- R210: step fleet time by θ, the phase term 0.
[DEDUCED, safe: log entry 49] -/
def State.servoStep (s : State) (theta : Int) : State :=
  let s := { s with tb := { s.tb with phase := 0 } }.setRate (toSigned 32 (s.rd Reg.TB_FREQ))
  (s.stepTime theta).bump Reg.TB_EVENTS_steps 1

/-- R210: slew: the phase term removes θ over `T` ticks, and the frequency term gains its share. -/
def State.slew (s : State) (theta : Int) (T : Nat) : State :=
  let p := clampI (-(2 ^ 24)) (2 ^ 24) (divTrunc (theta * 2 ^ 40) T)
  let f := clampI (-(2 ^ 31)) (2 ^ 31 - 1) (toSigned 32 (s.rd Reg.TB_FREQ) + asr p (s.get Reg.TB_SYNC_CFG_ki_shift))
  ({ (s.wr Reg.TB_FREQ (ofSigned 32 f)) with tb := { s.tb with phase := p } }).setRate (clampI (-(2 ^ 31)) (2 ^ 31 - 1) (f + p))

/-- One update (R209–R212), which the servo runs (R223): `ok` when the parent reported ALIGNED or the instance is the root with `ext`. -/
def State.update (s : State) (theta delay : Int) (T : Nat) (ok : Bool) : State :=
  if s.get Reg.TB_CTRL_hold = 1 ∨ s.servo = false then s
  else
    let step := decide ((s.get Reg.TB_LIMITS_step : Int) < theta.natAbs)
    let inB := ok && decide ((theta.natAbs : Int) ≤ s.get Reg.TB_LIMITS_align)
    let st := s.get Reg.TB_ALIGN_state
    let first := !s.tb.stepped && decide (st ≤ 1)
    let s := (s.wr Reg.TB_LAST_OFS (ofSigned 32 (clampI (-(2 ^ 31)) (2 ^ 31 - 1) theta))).wr Reg.TB_LAST_DLY
      (min (2 ^ 32 - 1) delay.toNat)
    let s := if first || step then s.servoStep theta else s.slew theta T
    let n := if inB then s.tb.inBound + 1 else 0
    let s := { s with tb := { s.tb with stepped := true, updAt := s.cyc, inBound := n } }
    if st = 2 then
      if step then (s.faultAon 0x38 Unit_.time 0 0).alignTo 1 true
      else if inB then s
      else (s.faultAon 0x39 Unit_.time 0 0).alignTo 1 true
    else if st = 1 then (if 4 ≤ n then s.alignTo 2 true else s)
    else { s with tb := { s.tb with inBound := 0 } }.alignTo 1 false

/-- R209: the exchange with the smallest round trip, the earliest among equals. -/
def bestExchange : List (Int × Int × Int) → Option (Int × Int × Int)
  | [] => none
  | e :: es =>
    match bestExchange es with
    | none => some e
    | some b => if b.1 < e.1 then some b else some e

/-- R209: a complete exchange; after `win` of them, one update. -/
def State.exchangeDone (s : State) (t1 t2 t3 t4 : Nat) : State :=
  let d := fun a b : Nat => toSigned 64 (subMod 64 a b)
  let rtt := d t4 t1 - d t3 t2
  let delay := divTrunc rtt 2
  let theta := divTrunc (d t2 t1 + d t3 t4) 2
  let win := s.get Reg.TB_SYNC_CFG_win
  let w := s.tb.window ++ [(rtt, theta, delay)]
  let s := { (s.bump Reg.TB_EXCH_done 1) with tb := { s.tb with exch := none, window := w } }
  if win = 0 ∨ w.length < win then s
  else
    let s := { s with tb := { s.tb with window := [] } }
    match bestExchange w with
    | some (_, th, dl) => s.update th dl (s.get Reg.TB_SYNC_CFG_period_us * usTicks * win) (s.get Reg.TB_ALIGN_parent_ok == 1)
    | none => s

/-- The exchange in progress is lost (R207). -/
def State.exchangeLost (s : State) : State :=
  match s.tb.exch with
  | some _ => { (s.bump Reg.TB_EXCH_lost 1) with tb := { s.tb with exch := none } }
  | none => s

/-- A link control block (R371): class 3, a type, bytes 2–59, and its CRC. -/
def controlBlock (type : Nat) (body : List Byte) : List Byte :=
  let h := leBytes 2 (type + 3 * 2 ^ 12) ++ padTo 58 body
  h ++ leBytes 4 (crc32c h)

/-- R207: the lane of the exchange: 0, or 1 while lane 0 is out of service. -/
def State.syncLane (s : State) : Option Nat := if s.laneUp 0 then some 0 else if s.laneUp 1 then some 1 else none

/-- SYNC_EXCHANGE_START (R207): a request falls due towards the parent; over Ethernet it leaves on `TB_PARENT.port`. -/
def State.exchangeStart (s : State) : State :=
  let kind := s.get Reg.TB_PARENT_kind
  let per := s.get Reg.TB_SYNC_CFG_period_us
  if s.servo && per != 0 && (kind == 1 || kind == 2) then
    let s := (s.passTo s.tb.exchAt).exchangeLost
    let id := (s.tb.exchId + 1) % 2 ^ 16
    let s := { s with tb := { s.tb with exchId := id, exchAt := s.cyc + per * usCycles,
                                        exch := some { id := id, t1 := none, since := s.cyc } } }
    let blk := controlBlock 0x005 (leBytes 2 id)
    if kind = 1 then
      match s.syncLane with
      | some n => s.setLane n fun l => { l with control := l.control ++ [blk] }
      | none => s
    else s.setAssoc (s.get Reg.TB_PARENT_ptray) fun a => { a with control := a.control ++ [blk] }
  else s

def execSyncExchangeStart (s : State) : Host.Outcome State Fault Refusal :=
  .next (if s.active && !(s.drainHas 3) then s.exchangeStart else s)

/-- SYNC_EXCHANGE_LOST (R207). -/
def execSyncExchangeLost (s : State) : Host.Outcome State Fault Refusal :=
  match s.tb.exch with
  | some e => .next ((s.passTo (e.since + s.get Reg.TB_SYNC_CFG_period_us * usCycles)).exchangeLost)
  | none => .next s

/-- Length of an update window in µs: an exchange window, or one second at the root with `ext` (R211, R212). -/
def State.windowUs (s : State) : Nat :=
  if s.get Reg.TB_PARENT_kind = 3 then 1000000 else s.get Reg.TB_SYNC_CFG_period_us * s.get Reg.TB_SYNC_CFG_win

/-- A root that follows nothing (R211).
[DEDUCED, safe: log entry 52] -/
def State.freeRoot (s : State) : Bool := s.get Reg.TB_PARENT_kind == 3 && s.get Reg.TB_PARENT_ext == 0

/-- SYNC_MISS (R212). -/
def execSyncMiss (s : State) : Host.Outcome State Fault Refusal :=
  let st := s.get Reg.TB_ALIGN_state
  let miss := s.get Reg.TB_SYNC_CFG_miss
  .next (if (st == 1 || st == 2) && miss != 0 && s.windowUs != 0 && !s.freeRoot then
      (s.passTo (s.tb.updAt + miss * s.windowUs * usCycles)).holdover
    else s)

/-- A write of `TB_CTRL`; `hold` written 1 forces HOLDOVER. -/
def State.wTbCtrl (s : State) (v : Nat) : State :=
  let s := s.wr Reg.TB_CTRL (v % 4)
  if bit v 1 then s.holdover else s

/-- R212, R221: a commit that changes bundle 0x03_0000; the rows of R212 name no source for it. -/
def State.timeCommit (s : State) : State :=
  let s := s.exchangeLost
  let s := { s with tb := { s.tb with window := [], inBound := 0, updAt := s.cyc, exchAt := s.cyc } }
  let s := if s.get Reg.TB_PARENT_kind = 3 then s.put Reg.TB_ALIGN_hops 0 else s
  s.alignTo (if s.freeRoot then 2 else 1) false

/-! ### Exchange messages (R207, R371, R383) -/

def State.latTx (s : State) (lane : Bool) : Nat := if lane then s.get Reg.TB_LAT_LANE_tx else s.get Reg.TB_LAT_EN_tx
def State.latRx (s : State) (lane : Bool) : Nat := if lane then s.get Reg.TB_LAT_LANE_rx else s.get Reg.TB_LAT_EN_rx

/-- A SYNC block leaves: t1 of a request; for a response, t3, and the follow-up that carries it.
[DEDUCED, safe: log entry 53] -/
def State.syncLeaves (s : State) (lane : Bool) (blk : List Byte) : State × List (List Byte) :=
  let t := (s.fleet + s.latTx lane) % 2 ^ 64
  let id := field blk 2 2
  if penType blk = 0x005 then
    match s.tb.exch with
    | some e => (if e.id = id then { s with tb := { s.tb with exch := some { e with t1 := some t } } } else s, [])
    | none => (s, [])
  else if penType blk = 0x006 then (s, [controlBlock 0x007 (leBytes 2 id ++ leBytes 4 0 ++ leBytes 8 t)])
  else (s, [])

/-- A SYNC block arrives; the answer of a parent is returned. A child takes an answer while its servo runs exchanges
(R223). `now` is the fleet time of its arrival. -/
def State.syncArrives (s : State) (lane : Bool) (now : Nat) (blk : List Byte) : State × List (List Byte) :=
  let t := subMod 64 now (s.latRx lane)
  let id := field blk 2 2
  if penType blk = 0x005 then
    (s, [controlBlock 0x006 (leBytes 2 id ++ leBytes 1 (s.get Reg.TB_ALIGN_state) ++ leBytes 1 (s.get Reg.TB_ALIGN_hops) ++
      leBytes 2 0 ++ leBytes 8 t)])
  else
    match s.tb.exch with
    | none => (s, [])
    | some e =>
      if e.id ≠ id ∨ s.servo = false then (s, [])
      else if penType blk = 0x006 then
        let s := (s.put Reg.TB_ALIGN_parent_ok (b2n (field blk 4 1 == 2))).put Reg.TB_ALIGN_hops (min 15 (field blk 5 1 + 1))
        ({ s with tb := { s.tb with exch := some { e with t2 := some (field blk 8 8), t4 := some t } } }, [])
      else
        match e.t1, e.t2, e.t4 with
        | some t1, some t2, some t4 => (s.exchangeDone t1 t2 (field blk 8 8) t4, [])
        | _, _, _ => (s, [])

/-! ### Time of day and captures (R205, R211) -/

/-- Fleet time of an edge `tick` ticks into the AON cycle, at AON resolution while the fast clock is stopped (R75). -/
def State.edgeTime (s : State) (tick : Nat) : Nat := (s.fleetAon + if s.active then tick else 0) % 2 ^ 64

/-- A write of `TB_TOD_NS` arms the next edge; 10⁹ or more is refused. -/
def State.wTod (s : State) (v : Nat) : Option State :=
  if !s.tray then some s
  else if 1000000000 ≤ v % 2 ^ 30 then none
  else some { (s.wr Reg.TB_TOD_NS (v % 2 ^ 30)) with tb := { s.tb with todArmed := true } }

/-- R211: the armed time of day in ticks. -/
def State.todTicks (s : State) : Nat :=
  (s.get Reg.TB_TOD_SLO_sec_lo + 2 ^ 32 * s.get Reg.TB_TOD_SHI_sec_hi) * 1600000000 + s.get Reg.TB_TOD_NS_ns * 8 / 5

/-- PPS_EDGE: the reference is used at masthead duty only (R53, R75). -/
def State.ppsEdge (s : State) (tick : Nat) : State :=
  if !s.tray || s.duty != 3 then s
  else
    let t := s.edgeTime tick
    let s := s.wr64 Reg.TB_PPS_LO t
    if s.tb.todArmed then
      let s := { s with tb := { s.tb with todArmed := false } }
      if s.get Reg.TB_PARENT_kind = 3 ∧ s.get Reg.TB_PARENT_ext = 1 ∧ s.servo = true then
        (s.bump Reg.TB_PPS_CNT_steer 1).update (toSigned 64 (subMod 64 s.todTicks t)) 0 1600000000 true
      else s
    else s.bump Reg.TB_PPS_CNT_no_tod 1

def execPpsEdge (tick : BitVec 4) (s : State) : Host.Outcome State Fault Refusal := .next (if s.aonUp then s.ppsEdge tick.toNat else s)

/-- CAPTURE_EDGE (R205, R221). -/
def State.captureEdge (s : State) (k tick : Nat) : State :=
  if s.get (Reg.TB_CAP_CTRL_k_en k) = 0 then s
  else if !s.active && s.tb.capCyc.getD k none == some s.cyc then s.bump (Reg.TB_CAP_CNT_k_over k) 1
  else
    let s := if bit s.tb.capUnread k then s.bump (Reg.TB_CAP_CNT_k_over k) 1 else s
    let s := ((s.wr64 (Reg.TB_CAP_LO_k k) (s.edgeTime tick)).bump (Reg.TB_CAP_CNT_k_edges k) 1).put
      (Reg.TB_CAP_CTRL_k_fine k) (b2n s.active)
    let s := { s with tb := { s.tb with capUnread := putBits s.tb.capUnread k 1 1, capCyc := modAt s.tb.capCyc k fun _ => some s.cyc } }
    if s.get (Reg.TB_CAP_CTRL_k_irq k) = 1 then s.raise 37 else s

def execCaptureEdge (input : Fin 4) (tick : BitVec 4) (s : State) : Host.Outcome State Fault Refusal :=
  .next (if s.aonUp then s.captureEdge input.val tick.toNat else s)

/-- A read of `TB_CAP_LO_k` marks the stamp read. -/
def State.capRead (s : State) (k : Nat) : State :=
  { s with tb := { s.tb with capUnread := putBits s.tb.capUnread k 1 0 } }

/-! ### Pulses (R214, R215) -/

def State.pulse (s : State) (k : Nat) : Pulse := s.tb.pulses.getD k {}

def State.setPulse (s : State) (k : Nat) (f : Pulse → Pulse) : State :=
  { s with tb := { s.tb with pulses := modAt s.tb.pulses k f } }

/-- A period of 1–159 is taken as 160. -/
def State.pulsePer (s : State) (k : Nat) : Nat :=
  let p := s.rd64 (Reg.TB_PLS_PER_LO_k k)
  if p = 0 then 0 else max p 160

def State.pulseWidth (s : State) (k : Nat) : Nat :=
  let w := s.get (Reg.TB_PLS_CTRL_k_width k)
  let p := s.pulsePer k
  if p ≠ 0 ∧ p ≤ w then p - 16 else w

/-- R214: the next due time of an output set up now. -/
def State.pulseArm (s : State) (k : Nat) : State :=
  let a := s.rd64 (Reg.TB_PLS_AT_LO_k k)
  let p := s.pulsePer k
  let nxt :=
    if s.get (Reg.TB_PLS_CTRL_k_en k) = 0 ∨ s.get (Reg.TB_PLS_CTRL_k_width k) = 0 then none
    else if later 64 a s.fleet ∨ a = s.fleet then some a
    else if p = 0 then none
    else some ((a + (subMod 64 s.fleet a / p + 1) * p) % 2 ^ 64)
  s.setPulse k fun u => { u with next := nxt }

/-- Let time pass to a pulse's edge at `t`: a tick of the fast domain's copy with `fine` while the fast clock runs, else
the first AON cycle at or after it (R75, R214). -/
def State.passToEdge (s : State) (k t : Nat) : State :=
  if s.get (Reg.TB_PLS_CTRL_k_fine k) = 1 then s.passToFleet t else s.passToAon t

/-- PULSE_FIRE: the output reaches its due time; edges stepped past are skipped (R215). The fall is due `width` ticks
after the edge's own time, or after now for an edge that time has stepped past.
[DEDUCED, unsafe: log entry 207] -/
def State.pulseFire (s : State) (k : Nat) : State :=
  match (s.pulse k).next with
  | none => s
  | some t =>
    let rise := if s.reached t then s.fleet else t
    let s := s.passToEdge k t
    let p := s.pulsePer k
    let past := if p = 0 then 0 else s.sinceFleet t / p
    let nxt := if p = 0 then none else some ((t + (past + 1) * p) % 2 ^ 64)
    let s := s.setPulse k fun _ => { next := nxt, high := some ((rise + s.pulseWidth k) % 2 ^ 64) }
    let s := (s.bump (Reg.TB_PLS_FIRED_k_fired k) 1).bump (Reg.TB_PLS_FIRED_k_skipped k) past
    if s.get (Reg.TB_PLS_CTRL_k_irq k) = 1 then s.raise 37 else s

def execPulseFire (output : Fin 4) (s : State) : Host.Outcome State Fault Refusal := .next (s.pulseFire output.val)

/-- The `tb_pulse` outputs: each falls as it rises, on a tick with `fine` while the fast clock runs, else on the first AON
cycle at or after its time. -/
def State.pulseOut (s : State) (k : Nat) : Bool :=
  match (s.pulse k).high with
  | some t => later 64 t (if s.get (Reg.TB_PLS_CTRL_k_fine k) = 1 then s.fleet else s.fleetAon)
  | none => false

end Sys2Proof.Machine
end

