-- ==== Sys2Proof/Machine/Lanes.lean ====
section
/-! DEFINITION. Halyard lanes (R369–R376, R382, R389–R392): the block code, the lane protocol and its states, the choice
at an egress boundary, and what a received block hands on. -/

namespace Sys2Proof.Machine

/-! ### The steward's receive ring (R519) -/

/-- Deliver 64 bytes to the steward: `kind` 0 a pennant, 1 a Plovbaez 2 block; `via` the lane, or 16 + port. -/
def State.stewardRx (s : State) (bs : List Byte) (kind via at_ : Nat) : State :=
  let h := padTo 64 bs ++ leBytes 1 kind ++ leBytes 1 (via % 32) ++ leBytes 6 0 ++ leBytes 8 at_ ++ leBytes 44 0
  match s.ringPut 1 (min 1024 (s.get Reg.ST_RX_BASE_ents)) (128 * s.get Reg.ST_RX_BASE_base) (s.rd Reg.ST_RX_WR) (s.rd Reg.ST_RX_RD)
      (h ++ leBytes 4 (crc32c h)) with
  | some (some t) => (t.incr Reg.ST_RX_WR 1).raise 38
  | _ => s.bump Reg.ST_RX_LOST_count 1

/-! ### Blocks (R369, R371) -/

/-- The 72 bytes of a block that carries 64 data bytes. -/
def laneBlock (bs : List Byte) : List Byte := rsEncode ((padTo 64 bs).take 32) ++ rsEncode ((padTo 64 bs).drop 32)

def State.sendOut (s : State) (egress : Nat) (bs : List Byte) : State :=
  { s with hl := { s.hl with out := s.hl.out ++ [{ egress := egress, bytes := bs }] } }

/-- ANNOUNCE (R371). -/
def State.announceBlock (s : State) (heard : Bool) : List Byte :=
  controlBlock 0x004 (leBytes 1 (s.get Reg.HO_LIVE_fmt_ver) ++ leBytes 1 (4 * b2n heard + 8 * b2n s.tray) ++
    leBytes 4 (s.rd Reg.GL_VERSION) ++ leBytes 2 (s.get Reg.HO_LIVE_gen) ++ leBytes 3 s.ident)

/-- LINK (R371, R372, R389). -/
def State.linkBlock (s : State) (l : Lane) : List Byte :=
  controlBlock 0x001 (leBytes 2 l.rxSeq ++ leBytes 2 (l.grant.getD 0 0) ++ leBytes 2 (l.grant.getD 1 0) ++
    leBytes 2 (l.grant.getD 2 0) ++ leBytes 1 (s.get Reg.HO_LIVE_fmt_ver))

/-! ### Credit (R389, R364) -/

/-- Places of the ingress pool that class `cls` draws on; the die's classes share one pool.
[DEDUCED, unsafe: log entry 92] -/
def State.poolCap (s : State) (cls : Nat) : Nat := if !s.tray then 512 else if cls = 0 then 1024 else 4096

/-- Every entry queued for a lane or an association. -/
def State.allQueued (s : State) : List (Nat × QEntry) :=
  let f := fun (qs : List (List QEntry)) => (qs.zipIdx.map fun (q, c) => q.map fun e => (c, e)).flatten
  (s.hl.lanes.map fun l => f l.queues).flatten ++ (s.hl.assocs.map fun a => f a.queues).flatten

/-- Pool places still held by pennants that came from `src`. -/
def State.poolHeld (s : State) (src : Src) (cls : Nat) : Nat :=
  (s.allQueued.filter fun e => e.1 == cls && e.2.src == src).length +
    (s.hl.locals.filter fun l => penClass l.pen == cls && l.src == src).length

/-- Places taken from the pool of `cls` by every receiver but `src`. -/
def State.poolTaken (s : State) (src : Src) (cls : Nat) : Nat :=
  let one := fun (c : Nat) =>
    ((s.hl.lanes.zipIdx.filter fun (_, n) => Src.lane n != src).map fun (l, n) =>
      if l.state = 2 then l.init.getD c 0 else s.poolHeld (.lane n) c).foldl (· + ·) 0 +
    ((s.hl.assocs.filter fun a => Src.assoc a.peer != src).map fun a =>
      if a.state = 2 then a.init.getD c 0 else s.poolHeld (.assoc a.peer) c).foldl (· + ·) 0
  if s.tray then one cls else one 0 + one 1 + one 2

/-- The initial grant and the places set aside for a receiver that comes into service: `HL_CRED_c`, as far as the pool
has room. -/
def State.firstGrant (s : State) (src : Src) : List Nat × List Nat :=
  let step := fun (acc : List Nat × List Nat × Nat) (c : Nat) =>
    let held := if s.tray then s.poolHeld src c else 0
    let shared := if s.tray then 0 else s.poolHeld src 0 + s.poolHeld src 1 + s.poolHeld src 2 + acc.2.2
    let g := min (min (s.get (Reg.HL_CRED_c_blocks c)) 32767) (s.poolCap c - s.poolTaken src c - held - shared)
    (acc.1 ++ [g], acc.2.1 ++ [g + s.poolHeld src c], acc.2.2 + g)
  let r := [0, 1, 2].foldl step ([], [], 0)
  (r.1, r.2.1)

/-! ### Lane states (R373–R375) -/

/-- A lane enters a state; the change is a STATE record. -/
def State.laneTo (s : State) (n st : Nat) : State :=
  (s.setLane n fun l => { l with state := st }).record 3 0x05 Unit_.halyard n st

/-- The other lane of the pair. -/
def otherLane (n : Nat) : Nat := if n % 2 = 0 then n + 1 else n - 1

/-- Class C entries of this instance's own take their place in the source buffer again. -/
def State.backToSrc (s : State) (e : QEntry) : State :=
  if e.src = .own ∧ penClass e.pen = 2 then { s with hl := { s.hl with srcC := s.hl.srcC + 64 } } else s

/-- R373: unacknowledged blocks go, in order, to the head of the class queues of the other lane; the pennants queued
behind them follow, since their classes use that lane now (R375).
[DEDUCED, unsafe: log entry 94] -/
def State.moveBlocks (s : State) (n : Nat) : State :=
  let l := s.lane n
  let m := otherLane n
  let un := l.unacked.map fun u => u.ent
  let part := fun c => (un.filter fun e => penClass e.pen == c)
  let follow := s.laneUp m
  let s := un.foldl State.backToSrc s
  let s := s.setLane n fun l => { l with unacked := [], rpl := [], rplDue := none, tries := 0, control := [],
                                         queues := if follow then [[], [], []] else l.queues }
  let s := s.setLane m fun k =>
    { k with queues := (k.queues.zipIdx.map fun (q, c) => part c ++ (if follow then l.queues.getD c [] else []) ++ q) }
  [0, 1, 2].foldl (fun t c => t.noteDepth (3 * m + c)) s

/-- A lane comes into service: its own queues and, while the other lane is out, the other's wait on it (R375). -/
def State.gatherQueues (s : State) (n : Nat) : State :=
  let m := otherLane n
  if s.laneUp m then s
  else
    let k := s.lane m
    let s := s.setLane m fun k => { k with queues := [[], [], []] }
    s.setLane n fun l => { l with queues := (l.queues.zipIdx.map fun (q, c) => k.queues.getD c [] ++ q) }

/-- Into TRAIN: alignment and the ANNOUNCE exchange begin, the first ANNOUNCE due at once (R374). -/
def State.laneTrain (s : State) (n : Nat) : State :=
  let s := s.setLane n fun l => { l with aligned := false, good := 0, heard := false, peerHeard := false, discard := false,
                                         unacked := [], rpl := [], rplDue := none, tries := 0, control := [], annAt := s.cyc }
  s.laneTo n 1

/-- DOWN → TRAIN (R374). -/
def State.laneStart (s : State) (n : Nat) (lock : Bool) : State :=
  let s := s.setLane n fun l => { l with lock := lock }
  if (s.lane n).state == 0 && lock && !(bit s.pw.laneRst n) && s.genLive && decide (n < s.laneCount) then s.laneTrain n
  else s

/-- A lane of the role, out of the resets of its groups (R53, R55, R105). -/
def State.laneAlive (s : State) (n : Nat) : Bool :=
  s.pw.st != .off && s.pw.st != .aonReset && s.pw.st != .fastReset && decide (n < s.laneCount) && !(bit s.pw.laneRst n)

/-- What a lane or port brings with the fast clock stopped is held at the crossing and is a need for the clock (R22, R108).
[DEDUCED, unsafe: log entry 99] -/
def State.hold (s : State) (a : Arrival) : State := { s with hl := { s.hl with arrived := s.hl.arrived ++ [a] } }.need

/-- The PHY's lock as the lane sees it: a rise starts training. While the group is in reset only the level is kept. -/
def execLaneTrainStart (lane : Fin 16) (lock : Bool) (s : State) : Host.Outcome State Fault Refusal :=
  .next (if s.active then s.laneStart lane.val lock
    else if s.laneAlive lane.val then s.hold (.lock lane.val lock)
    else s.setLane lane.val fun l => { l with lock := lock })

/-- ANNOUNCE_TIMER (R374).
[DEDUCED, safe: log entry 81] -/
def State.laneAnnounce (s : State) (n : Nat) : State :=
  let l := s.lane n
  if l.state = 1 then
    let s := s.passTo l.annAt
    let blk := s.announceBlock l.heard
    s.setLane n fun l => { l with control := l.control ++ [blk], annAt := s.cyc + usCycles }
  else s

def execAnnounceTimer (lane : Fin 16) (s : State) : Host.Outcome State Fault Refusal :=
  .next (if s.active then s.laneAnnounce lane.val else s)

/-- LANE_LOCK_LOSS (R374).
[DEDUCED, safe: log entry 82] -/
def State.laneLockLoss (s : State) (n : Nat) : State :=
  let was := (s.lane n).state
  let s := s.setLane n fun l => { l with lock := false }
  if was = 2 then ((s.laneTo n 0).fault Code.LINK_DOWN Unit_.halyard n 0).moveBlocks n else s

def execLaneLockLoss (lane : Fin 16) (s : State) : Host.Outcome State Fault Refusal :=
  .next (if s.active then s.laneLockLoss lane.val
    else if s.laneAlive lane.val then s.hold (.lock lane.val false)
    else s.setLane lane.val fun l => { l with lock := false })

/-- LANE_RETRAIN_TIMER (R374). -/
def State.laneRetrain (s : State) (n : Nat) : State :=
  let l := s.lane n
  if l.state = 3 then (s.passTo (l.outAt + s.get Reg.HL_TIMERS_retrain_ms * msCycles)).laneTrain n else s

def execLaneRetrainTimer (lane : Fin 16) (s : State) : Host.Outcome State Fault Refusal :=
  .next (if s.active then s.laneRetrain lane.val else s)

/-- Entries emptied from a lane leave the pools and the source buffer. -/
def State.dropEntry (s : State) (cls : Nat) (e : QEntry) : State :=
  let s := s.leavePool e.src cls
  if e.src = .own ∧ cls = 2 then { s with hl := { s.hl with srcC := s.hl.srcC - 64 } } else s

/-- A lane reset (R374, R105): assertion empties the replay buffer and queues and sends the lane DOWN, whether or not the
fast clock runs; its STATE record is formed where the reset is seen, in the always-on domain (R490). What was held at the
lane's crossing is lost. -/
def State.laneReset (s : State) (n : Nat) (asserted : Bool) : State :=
  let s := { s with pw := { s.pw with laneRst := putBits s.pw.laneRst n 1 (b2n asserted) } }
  if asserted then
    let l := s.lane n
    let all := (l.queues.zipIdx.map fun (q, c) => q.map fun e => (c, e)).flatten
    let s := all.foldl (fun t e => t.dropEntry e.1 e.2) s
    let s := s.setLane n fun l => { lock := l.lock }
    let s := { s with hl := { s.hl with arrived := s.hl.arrived.filter fun a => match a with | .block m _ _ => m != n | _ => true } }
    if l.state = 0 then s else s.recordAon 3 0x05 Unit_.halyard n 0
  else s

/-- LANE_RESET; a lane that the role lacks has no reset (R53, R77). -/
def execLaneReset (lane : Fin 16) (assert : Bool) (s : State) : Host.Outcome State Fault Refusal :=
  .next (if lane.val < s.laneCount then (s.looseRelease lane.val assert).laneReset lane.val assert else s)

/-- `HO_LANE_FMT_n` shows what a die-facing lane's peer announced last (R154, R159): 1 version N, 2 N−1, 3 Plovbaez 2
(whose version reads 0) or a refused version. -/
def State.noteVer (s : State) (n : Nat) : State :=
  if s.tray then
    let l := s.lane n
    let live := s.get Reg.HO_LIVE_fmt_ver
    let kind := if l.plov then 3 else if l.ver = live then 1 else if (l.ver + 1) % 256 = live then 2 else 3
    (s.put (Reg.HO_LANE_FMT_n_fmt_ver n) (if l.plov then 0 else l.ver)).put (Reg.HO_LANE_FMT_n_kind n) kind
  else s

/-- R374: into IN_SERVICE, with the peer's version recorded (R154) and the first credit granted (R389). -/
def State.laneServe (s : State) (n : Nat) : State :=
  let g := s.firstGrant (.lane n)
  let s := s.setLane n fun l => { l with txSeq := 0, rxSeq := 0, rxIn := 0, unacked := [], rpl := [], rplDue := none, tries := 0,
                                         discard := false, sinceLink := 31, limits := [0, 0, 0], sent := [0, 0, 0],
                                         grant := g.1, init := g.2, identBad := 0 }
  (s.noteVer n |>.laneTo n 2).gatherQueues n

/-- R374: identity agrees. -/
def State.identAgrees (s : State) (n : Nat) (trayRole : Bool) (id : Nat) : Bool :=
  if s.tray then !trayRole && id / 8 == s.trayId && id % 8 == n / 2
  else trayRole && id == s.ident / 8

/-! ### Replay (R372, R373) -/

/-- Blocks that an acknowledgement passes leave the replay buffer (R17). -/
def State.laneAck (s : State) (n ack : Nat) : State :=
  s.setLane n fun l =>
    let keep := l.unacked.filter fun u => !(later 16 ack u.bseq)
    let still := fun u : Unacked => keep.any fun v => v.bseq == u.bseq
    { l with unacked := keep, rpl := l.rpl.filter still
             rplDue := match l.rplDue with
               | some _ => (match l.rpl.filter still with | [] => none | u :: _ => some u.bseq)
               | none => none
             tries := if (keep.head?.map fun u => u.bseq) == (l.unacked.head?.map fun u => u.bseq) then l.tries else 0 }

/-- A replay from the oldest unacknowledged block. -/
def State.laneReplay (s : State) (n from_ : Nat) (timeout : Bool) : State :=
  let s := s.setLane n fun l =>
    let oldest := l.unacked.head?.map fun u => u.bseq
    { l with rplDue := some from_, rpl := l.unacked.filter fun u => !(later 16 from_ u.bseq), rplTimeout := timeout
             tries := if oldest == some from_ then l.tries + 1 else l.tries }
  s.bump (Reg.HL_LN_RPL_n_replays n) 1

/-- R373: escalation. -/
def State.laneEscalate (s : State) (n : Nat) : State :=
  let s := (s.fault Code.UNCORRECTABLE Unit_.halyard n 0).bump (Reg.HL_LN_RPL_n_esc n) 1
  (((s.setLane n fun l => { l with outAt := s.cyc }).laneTo n 3)).moveBlocks n

/-- The lane replay timeout in AON cycles. -/
def State.rtoLane (s : State) : Nat := max 1 (s.get Reg.HL_TIMERS_rto_ln) * 10

/-- LANE_REPLAY_TIMEOUT. -/
def State.laneTimeout (s : State) (n : Nat) : State :=
  let l := s.lane n
  match l.unacked with
  | [] => s
  | u :: _ =>
    if l.state ≠ 2 ∨ l.rplDue.isSome = true ∨ (l.rpl.any fun v => v.bseq == u.bseq) = true then s
    else
      let s := s.passTo (u.at_ + s.rtoLane)
      if 8 ≤ l.tries then s.laneEscalate n else s.laneReplay n u.bseq true

def execLaneReplayTimeout (lane : Fin 16) (s : State) : Host.Outcome State Fault Refusal :=
  .next (if s.active then s.laneTimeout lane.val else s)

/-! ### Egress (R390, R392) -/

/-- A shaper's tokens now, in 1/100 byte. -/
def State.shapeTok (s : State) (egress cls : Nat) : Nat :=
  let burst := 100 * max 1472 (s.get (Reg.HL_SHP_BURST_c_bytes cls))
  match (s.hl.shape.find? fun e => e.1 == 3 * egress + cls) with
  | some (_, tok, at_) => min burst (tok + (s.cyc - at_) * s.get (Reg.HL_SHP_RATE_c_rate cls))
  | none => burst

def State.shapeOn (s : State) (cls : Nat) : Bool := s.get (Reg.HL_SHP_RATE_c_en cls) == 1

/-- Pennants of 64 bytes the shaper admits now, at most `n`. -/
def State.shapeRoom (s : State) (egress cls n : Nat) : Nat :=
  if s.shapeOn cls then min n (s.shapeTok egress cls / 6400) else n

def State.shapeSpend (s : State) (egress cls n : Nat) : State :=
  if s.shapeOn cls then
    { s with hl := { s.hl with shape := Sparse.insert s.hl.shape (3 * egress + cls) (s.shapeTok egress cls - 6400 * n, s.cyc) } }
  else s

/-- A queue's depth and delay figures as an entry leaves it (R392). -/
def State.noteDelay (s : State) (q : Nat) (e : QEntry) : State :=
  let d := min (s.sinceFleet e.at_) 0xFFFFFFFF
  let s := s.wr (Reg.HL_Q_DELAY_q q) d
  s.wr (Reg.HL_Q_DMAX_q q) (max (s.rd (Reg.HL_Q_DMAX_q q)) d)

/-- The function of an entry under the table of its version. -/
def State.entFunc (s : State) (e : QEntry) : Nat := typFunc (s.typeOf (e.ver != s.get Reg.HO_LIVE_fmt_ver) (penType e.pen))

/-- R322, R390: step-taint pennants stand ahead of every other of class A. -/
def State.taintFirst (s : State) (cls : Nat) (q : List QEntry) : List QEntry :=
  if cls = 0 then (q.filter fun e => s.entFunc e == 4) ++ q.filter fun e => s.entFunc e != 4 else q

/-- The type of a table whose valid entry names a function.
[DEDUCED, unsafe: log entry 83] -/
def State.typeNamed (s : State) (prev : Bool) (func : Nat) : Option Nat :=
  if prev then
    match s.ho.prevTypes with
    | some (_, m) => (m.find? fun e => typValid e.2.toNat && typFunc e.2.toNat == func).map fun e => (e.1 - 0x5C000) / 4
    | none => none
  else s.typeFor func

/-- R155: a pennant as emitted towards a die, in the version recorded for its lane: a block function takes the type that
version's table gives it.
[DESIGN CHOICE, unsafe: log entry 200] -/
def State.inVersion (s : State) (e : QEntry) (v : Nat) : List Byte :=
  let live := s.get Reg.HO_LIVE_fmt_ver
  if e.ver = v ∨ s.entFunc e = 0 then e.pen
  else
    match s.typeNamed (v != live) (s.entFunc e) with
    | none => e.pen
    | some t =>
      let b := field e.pen 0 2
      let h := leBytes 2 (b - b % 2 ^ 12 + t) ++ (e.pen.drop 2).take 58
      h ++ leBytes 4 (crc32c h)

/-- R155: the version recorded for a die-facing lane is N or N−1.
[DEDUCED, safe: log entry 84] -/
def State.laneVerOk (s : State) (n : Nat) : Bool :=
  let live := s.get Reg.HO_LIVE_fmt_ver
  let l := s.lane n
  !s.tray || (!l.plov && (l.ver == live || (l.ver + 1) % 256 == live))

/-- R155: what is queued for a lane whose recorded version is neither is withheld. -/
def State.withhold (s : State) (n : Nat) : State :=
  if s.laneVerOk n then s
  else
    let all := ((s.lane n).queues.zipIdx.map fun (q, c) => q.map fun e => (c, e)).flatten
    let s := s.setLane n fun l => { l with queues := [[], [], []] }
    all.foldl (fun t e => ((t.dropEntry e.1 e.2).bump Reg.HO_FMT_REF_count 1).refusal 0x2B Unit_.halyard n 0) s

/-- Send a block and note it for the LINK interval of R372.
[DEDUCED, safe: log entry 85] -/
def State.sendBlock (s : State) (n : Nat) (bs : List Byte) (link : Bool) : State :=
  (s.setLane n fun l => { l with sinceLink := if link then 0 else l.sinceLink + 1 }).sendOut n (laneBlock bs)

/-- The replay buffer's blocks (R364). -/
def State.rplCap (s : State) : Nat := if s.tray then 256 else 1024

/-- Remove the first entry equal to `e`. -/
def dropOne (e : QEntry) : List QEntry → List QEntry
  | [] => []
  | x :: xs => if x = e then xs else x :: dropOne e xs

/-- A new pennant block of class `c`. -/
def State.sendPennant (s : State) (n c : Nat) (e : QEntry) : State :=
  let l := s.lane n
  let bs := if s.tray then s.inVersion e l.ver else e.pen
  let s := s.setLane n fun l => { l with queues := modAt l.queues c (dropOne e)
                                         unacked := l.unacked ++ [{ bseq := l.txSeq, ent := { e with pen := bs, ver := if s.tray then l.ver else e.ver, src := if e.src = .own then .own else .copy }, at_ := s.cyc }]
                                         txSeq := (l.txSeq + 1) % 2 ^ 16
                                         sent := modAt l.sent c fun k => (k + 1) % 2 ^ 16 }
  let s := ((s.dropEntry c e).noteDelay (3 * n + c) e).shapeSpend n c 1
  (((s.incr64 Reg.HL_TX_LO 1).bump (Reg.HL_LN_BLK_n_count n) 1)).sendBlock n bs false

/-- The class whose pennant goes next, with the pennant. -/
def State.laneChoice (s : State) (n : Nat) : Option (Nat × QEntry) :=
  let l := s.lane n
  [0, 1, 2].findSome? fun c =>
    match s.taintFirst c (l.queues.getD c []) with
    | [] => none
    | e :: _ => if later 16 (l.limits.getD c 0) (l.sent.getD c 0) && decide (0 < s.shapeRoom n c 1) then some (c, e) else none

/-- A block boundary of lane `n` (R390).
[DEDUCED, safe: log entry 76] -/
def State.laneBoundary (s : State) (n : Nat) : State :=
  if bit s.pw.laneRst n ∨ s.laneCount ≤ n then s
  else
    let s := s.withhold n
    let l := s.lane n
    match l.control with
    | b :: rest =>
      let s := s.setLane n fun l => { l with control := rest }
      let r := s.syncLeaves true b
      (r.1.setLane n fun l => { l with control := l.control ++ r.2 }).sendBlock n b false
    | [] =>
      if l.state ≠ 2 then s.sendBlock n (controlBlock 0 []) false
      else if 31 ≤ l.sinceLink then s.sendBlock n (s.linkBlock l) true
      else
        match l.rplDue, l.rpl with
        | some k, _ => (s.setLane n fun l => { l with rplDue := none }).sendBlock n (controlBlock 0x003 (leBytes 2 k)) false
        | none, u :: us =>
          let s := s.setLane n fun l => { l with
            rpl := us, unacked := (l.unacked.map fun v => if v.bseq = u.bseq then { v with at_ := s.cyc } else v) }
          (s.bump (Reg.HL_LN_BLK_n_count n) 1).sendBlock n u.ent.pen false
        | none, [] =>
          match s.laneChoice n with
          | some (c, e) => if l.unacked.length < s.rplCap then s.sendPennant n c e else s.sendBlock n (controlBlock 0 []) false
          | none => s.sendBlock n (controlBlock 0 []) false

/-! ### Reception (R369–R374) -/

/-- A codeword read, with its counts (R369). -/
def State.laneWord (s : State) (n : Nat) (cw : List Byte) : State × Option (List Byte) :=
  match rsDecode cw with
  | .clean d => (s, some d)
  | .corrected d => (s.bump (Reg.HL_LN_CW_n_corr n) 1, some d)
  | .uncorrectable => (s.bump (Reg.HL_LN_CW_n_unc n) 1, none)

/-- TRAIN: alignment and ANNOUNCE (R370, R374). Until alignment is held, a block that is no valid IDLE or ANNOUNCE in the
phase tried moves the search on to the next of the nine.
[DESIGN CHOICE, safe: log entry 225] -/
def State.trainBlock (s : State) (n : Nat) (bs : Option (List Byte)) : State :=
  let valid := match bs with
    | some b => penClass b == 3 && penCrcOk b && (field b 0 2 == 0x3000 || field b 0 2 == 0x3004)
    | none => false
  let s := s.setLane n fun l =>
    let g := if valid then min 16 (l.good + 1) else 0
    { l with good := g, aligned := l.aligned || g == 16, phase := if valid || l.aligned then l.phase else (l.phase + 1) % 9 }
  match bs with
  | some b =>
    if valid && field b 0 2 == 0x3004 then
      let fl := field b 3 1
      let ok := s.identAgrees n (bit fl 3) (field b 10 3 % 2 ^ 17)
      let s := s.setLane n fun l => { l with heard := true, ver := field b 2 1, plov := fl % 4 == 1, peerHeard := ok && bit fl 2
                                             identBad := if ok then l.identBad else satAdd 255 l.identBad 1 }
      let s := if ok then s else s.record 3 0x05 Unit_.halyard n 1
      if (s.lane n).aligned && (s.lane n).peerHeard then s.laneServe n else s
    else if (s.lane n).aligned && (s.lane n).peerHeard then s.laneServe n else s
  | none => s

/-- A NAK is due for the expected block; the rest is discarded until REPLAY (R372).
[DEDUCED, unsafe: log entry 80] -/
def State.laneNak (s : State) (n : Nat) : State :=
  s.setLane n fun l => if l.discard then l
    else { l with discard := true, control := l.control ++ [controlBlock 0x002 (leBytes 2 l.rxSeq)] }

/-- A control block in IN_SERVICE (R371, R372, R389).
[DEDUCED, unsafe: log entry 78] -/
def State.laneControl (s : State) (n now : Nat) (b : List Byte) : State :=
  if !penCrcOk b then s
  else
    match field b 0 2 with
    | 0x3000 => s
    | 0x3001 =>
      let s := s.laneAck n (field b 2 2)
      (s.setLane n fun l => { l with limits := [field b 4 2, field b 6 2, field b 8 2], ver := field b 10 1 }).noteVer n
    | 0x3002 =>
      let k := field b 2 2
      let s := s.laneAck n k
      let l := s.lane n
      if l.rplTimeout && (l.rplDue == some k || (l.rpl.any fun u => u.bseq == k)) then s else s.laneReplay n k false
    | 0x3003 =>
      s.setLane n fun l => { l with rxIn := field b 2 2, discard := l.discard && field b 2 2 != l.rxSeq }
    | 0x3004 => s
    | 0x3005 | 0x3006 | 0x3007 =>
      let r := s.syncArrives true now b
      r.1.setLane n fun l => { l with control := l.control ++ r.2 }
    | _ => s.bump Reg.HL_DISCARD_ctl 1

/-- A pennant block in IN_SERVICE: discarded, a duplicate, out of order, or accepted (R372). `good` is false for an
uncorrectable block or a failed pennant CRC.
[DEDUCED, unsafe: log entry 79] -/
def State.lanePennant (s : State) (n : Nat) (good : Bool) : State × Bool :=
  let l := s.lane n
  if l.discard then (s, false)
  else
    let s' := s.setLane n fun l => { l with rxIn := (l.rxIn + 1) % 2 ^ 16 }
    if later 16 l.rxSeq l.rxIn then (s', false)
    else if !good ∨ l.rxIn ≠ l.rxSeq then (s'.laneNak n, false)
    else (s'.setLane n fun l => { l with rxSeq := (l.rxSeq + 1) % 2 ^ 16 }, true)

/-- A received lane block; a pennant accepted by the lane protocol is handed on by `next`.
[DEDUCED, unsafe: log entry 77] -/
def State.laneRx (s : State) (n now : Nat) (block : List Byte) (next : State → List Byte → State) : State :=
  let l := s.lane n
  if bit s.pw.laneRst n ∨ s.laneCount ≤ n ∨ !(l.state == 1 || l.state == 2) then s
  else
    let a := s.laneWord n (block.take 36)
    let b := a.1.laneWord n (block.drop 36)
    let s := b.1
    let data := match a.2, b.2 with | some x, some y => some (x ++ y) | _, _ => none
    if l.state = 1 then s.trainBlock n data
    else
      match data with
      | some d =>
        if penClass d = 3 then s.laneControl n now d
        else
          let r := s.lanePennant n (l.plov || penCrcOk d)
          if r.2 then next r.1 d else r.1
      | none =>
        match a.2 with
        | some x => if penClass x = 3 then s else (s.lanePennant n false).1
        | none => (s.lanePennant n false).1

end Sys2Proof.Machine
end

