-- ==== Sys2Proof/Machine/Ethernet.lean ====
section
/-! DEFINITION. The tray's Ethernet side of the halyard (R377–R383, R389, R390, R393): associations, frames, policing and
the frame boundary; and a pennant's arrival at an instance (R154, R368, R376, R384, R385), with the halyard's timers. -/

namespace Sys2Proof.Machine

/-! ### A pennant arrives -/

/-- R365, R366: malformed. -/
def penMalformed (p : List Byte) : Bool := (penAddr p && penFan p) || penClass p == 3

/-- The version table a sender's version selects: `none` is not accepted, `some true` the N−1 table (R154).
[DEDUCED, unsafe: log entry 86] -/
def State.acceptVer (s : State) (ver : Nat) : Option Bool :=
  let live := s.get Reg.HO_LIVE_fmt_ver
  if !s.tray || ver == live then some false
  else if (ver + 1) % 256 == live && bit s.ho.flags 0 && s.ho.prevTypes.isSome then some true
  else none

/-- R385: functions with a consumer at a die. -/
def dieConsumes (f : Nat) : Bool := [0, 4, 6, 8, 10, 11, 14].contains f

/-- R376: a duplicate at this instance, with the state that has noted the pennant and its gap. -/
def State.dupCheck (s : State) (pen : List Byte) (src : Src) : Bool × State :=
  if s.tray then
    match src with
    | .lane n =>
      let k := 3 * (n / 2) + penClass pen
      let q := penSeq pen
      match s.hl.lastSeq.find? fun e => e.1 == k with
      | some (_, last) =>
        if later 16 q last then
          (false, { s with hl := { s.hl with lastSeq := Sparse.insert s.hl.lastSeq k q } }.bump Reg.HL_GAPS_count (subMod 16 q last - 1))
        else (true, s)
      | none => (false, { s with hl := { s.hl with lastSeq := Sparse.insert s.hl.lastSeq k q } })
    | _ => (false, s)
  else
    let key := (penIdent pen, penLevel pen, penClass pen, penSeq pen)
    if s.hl.recent.contains key then (true, s)
    else (false, { s with hl := { s.hl with recent := (key :: s.hl.recent).take 64 } })

/-- R154: count an accepted pennant by its sender's version. -/
def State.countVer (s : State) (prev : Bool) : State :=
  if !s.tray then s else if prev then s.bump Reg.HO_FMT_N1_count 1 else s.bump Reg.HO_FMT_N_count 1

/-- R154: a pennant of a version not accepted. -/
def State.refuseVer (s : State) (src : Src) (cls : Nat) : State :=
  ((s.bump Reg.HO_FMT_REF_count 1).refusal 0x2B Unit_.halyard 0 0).leavePool src cls

/-- R409: the reduction takes this pennant before R384 routes it. -/
def State.redTakes (s : State) (pen : List Byte) (func : Nat) : Bool :=
  s.tray && func == 13 && (decide (penLevel pen ≤ 1) || (penLevel pen == 2 && (s.entryOf mastBases (penJob pen)).isSome))

/-- R494: the record of a die's own fault report goes into the mirror of its slot.
[DEDUCED, safe: log entry 97] -/
def State.mirror (s : State) (pen : List Byte) : State :=
  let d := penIdent pen % 8
  let next := s.get (Reg.EV_MIR_NEXT_s_slot d)
  let s := s.fsWrite .store (s.get Reg.EV_MIR_AREA_base * 2 ^ 20 + 524288 * d + 32 * next) ((pen.drop 16).take 32)
  let s := (s.put (Reg.EV_MIR_NEXT_s_slot d) (if next + 1 = 16384 then 4096 else next + 1)).incr (Reg.EV_MIR_WR_s d) 1
  s.bump (Reg.EV_MIR_HELD_s_count d) (field pen 48 4)

/-- A fault report of one of this tray's own dies. -/
def State.mirrors (s : State) (func : Nat) (pen : List Byte) : Bool :=
  s.tray && func == 12 && penLevel pen == 0 && penIdent pen / 8 == s.trayId

/-- R384, R385: an accepted pennant goes on, or waits for its consumer here. -/
def State.place (s : State) (e : QEntry) (typ : Nat) : State :=
  let s := if s.mirrors (typFunc typ) e.pen then s.mirror e.pen else s
  let loc : Local := { pen := e.pen, src := e.src, typ := typ, at_ := s.fleet, via := e.via }
  if s.redTakes e.pen (typFunc typ) then { s with hl := { s.hl with locals := s.hl.locals ++ [loc] } }
  else if s.tray then
    let s := s.noteSeen (typFunc typ) e.pen
    if penFan e.pen && typFunc typ == 10 then
      ({ s with hl := { s.hl with locals := s.hl.locals ++ [{ loc with src := .copy }] } }).forward e (typSink typ)
    else s.forward e (typSink typ)
  else if (penFan e.pen || (penAddr e.pen && penDest e.pen == s.ident)) && dieConsumes (typFunc typ) then
    { s with hl := { s.hl with locals := s.hl.locals ++ [loc] } }
  else (s.bump Reg.HL_DISCARD_stray 1).leavePool e.src (penClass e.pen)

/-- A pennant that the hop has accepted: R154's version, R368's checks, R376's duplicates, then R384 or R385. `pcpClass` is
the class of the frame's PCP. -/
def State.arrive (s : State) (src : Src) (via ver : Nat) (pcpClass : Option Nat) (pen : List Byte) : State :=
  let c := penClass pen
  if !(penCrcOk pen) then (s.bump Reg.HL_DISCARD_crc 1).leavePool src (pcpClass.getD c)
  else
    match s.acceptVer ver with
    | none => s.refuseVer src (pcpClass.getD c)
    | some prev =>
      let w := s.typeOf prev (penType pen)
      if penMalformed pen || !(typValid w) || typClass w != c || (match pcpClass with | some k => k != c | none => false) then
        (s.bump Reg.HL_DISCARD_type 1).leavePool src (pcpClass.getD c)
      else
        let d := s.dupCheck pen src
        if d.1 then (s.bump Reg.HL_DUPS_count 1).leavePool src c
        else
          let s := (d.2.countVer prev).incr64 Reg.HL_RX_LO 1
          s.place { pen := pen, ver := ver, src := src, at_ := s.fleet, via := via } w

/-- R382: a block of a lane whose peer is Plovbaez 2. -/
def State.plovBlock (s : State) (n : Nat) (d : List Byte) : State :=
  let s := s.leavePool (.lane n) (penClass d)
  if s.tray && bit s.ho.flags 1 then (s.bump Reg.HO_FMT_PLOV_count 1).stewardRx d 1 n s.fleet
  else (s.bump Reg.HO_FMT_REF_count 1).refusal 0x2B Unit_.halyard n 0

/-- R450: block slots received on a pair of die-facing lanes. -/
def State.noteSlot (s : State) (n : Nat) (classC : Bool) : State :=
  if !s.tray then s
  else
    let v := match s.hl.slots.find? fun e => e.1 == n / 2 with | some e => e.2 | none => (0, 0)
    let v := if classC then (v.1 + 1, v.2) else (v.1, v.2 + 1)
    { s with hl := { s.hl with slots := Sparse.insert s.hl.slots (n / 2) v } }

/-- LANE_BLOCK_RECEIVE up to the pennants that wait for a consumer here. -/
def State.laneReceive (s : State) (n now : Nat) (block : List Byte) : State :=
  let s := s.noteSlot n false
  s.laneRx n now block fun t d =>
    let l := t.lane n
    let t := if penClass d = 2 then t.noteSlot n true else t
    if l.plov then t.plovBlock n d else t.arrive (.lane n) n l.ver none d

/-! ### Frames (R377) -/

/-- The class that a PCP maps to (3 none). -/
def State.pcpClass (s : State) (pcp : Nat) : Nat := bits (s.get Reg.HL_PCP_rx_map) (2 * pcp) 2

def State.pcpOf (s : State) (cls : Nat) : Nat :=
  if cls = 0 then s.get Reg.HL_PCP_tx_a else if cls = 1 then s.get Reg.HL_PCP_tx_b else s.get Reg.HL_PCP_tx_c

/-- The frame bytes, without FCS. `flags`: [0] unseq, [1] nak, [2] replay. -/
def State.frame (s : State) (p : Nat) (a : Assoc) (cls ver fseq flags : Nat) (blocks : List (List Byte)) : List Byte :=
  let pfx := leBytes 4 (s.rd Reg.HL_MAC_PFX)
  let f := pfx ++ beBytes 2 a.peer ++ pfx ++ beBytes 2 s.trayId ++ beBytes 2 0x8100 ++
    beBytes 2 (s.pcpOf cls * 2 ^ 13 + s.get (Reg.HL_EP_CFG_p_vid p)) ++ beBytes 2 0x88B5 ++ leBytes 1 1 ++ leBytes 1 ver ++
    leBytes 2 s.trayId ++ leBytes 2 a.peer ++ leBytes 2 fseq ++ leBytes 2 a.rxSeq ++ leBytes 1 blocks.length ++ leBytes 1 flags ++
    leBytes 2 (a.grant.getD 0 0) ++ leBytes 2 (a.grant.getD 1 0) ++ leBytes 2 (a.grant.getD 2 0) ++ leBytes 6 0 ++ blocks.flatten
  if blocks.isEmpty then padTo 60 f else f

/-! ### Associations (R379–R381) -/

/-- R379: the peers the live hoist fixes, in ascending order. -/
def State.peers (s : State) : List Nat :=
  if !s.tray || !s.genLive then []
  else if s.duty = 1 then (match s.cubeTray s.ownCube with | some t => [t] | none => [])
  else if 2 ≤ s.duty then
    sortBy (fun a b => decide (a < b)) ((((upto 8).map fun i => s.ownCube * 8 + i) ++
      ((upto 2048).filter fun c => c != s.ownCube).filterMap s.cubeTray).filter (fun t => t != s.trayId)).eraseDups
  else []

/-- A commit's directory takes effect (R379): associations that are gone lose what they hold, new ones begin to open. -/
def State.assocRefresh (s : State) : State :=
  let ps := s.peers
  let gone := s.hl.assocs.filter fun a => !(ps.contains a.peer)
  let s := gone.foldl (fun t a =>
    let all := ((a.queues.zipIdx.map fun (q, c) => q.map fun e => (c, e)).flatten) ++
      ((a.unacked.map fun f => f.ents.map fun e => (f.cls, { e with src := .copy })).flatten)
    all.foldl (fun t e => ((t.noteRefusal e.1 Unit_.halyard false).refusal Code.HL_NO_ROUTE Unit_.halyard 0 0).dropEntry e.1 e.2) t) s
  { s with hl := { s.hl with assocs := ps.map fun p => (s.assoc? p).getD { peer := p, annAt := s.cyc } } }

/-- R380: an association that has sent and received ANNOUNCE with `heard` opens.
[DESIGN CHOICE, unsafe: log entry 88] -/
def State.assocOpen (s : State) (p : Nat) : State :=
  match s.assoc? p with
  | some a =>
    if a.state ≠ 2 ∧ a.sentAnn = true ∧ a.peerHeard = true then
      let g := s.firstGrant (.assoc p)
      s.setAssoc p fun a => { a with state := 2, txSeq := 0, rxSeq := 0, unacked := [], retx := [], tries := 0, limits := [0, 0, 0],
                                     sent := [0, 0, 0], grant := g.1, init := g.2, ackAt := some s.cyc, nak := false }
    else s
  | none => s

/-- ASSOCIATION_ANNOUNCE (R380). -/
def State.assocAnnounce (s : State) (p : Nat) : State :=
  match s.assoc? p with
  | some a =>
    if a.state = 2 then s
    else
      let s := s.passTo a.annAt
      let blk := s.announceBlock a.heard
      s.setAssoc p fun a => { a with control := a.control ++ [blk], annAt := s.cyc + 100 * usCycles }
  | none => s

def execAssociationAnnounce (peer : BitVec 14) (s : State) : Host.Outcome State Fault Refusal :=
  .next (if s.active then s.assocAnnounce peer.toNat else s)

/-- ACK_TIMER (R380). -/
def State.ackTimer (s : State) (p : Nat) : State :=
  match s.assoc? p with
  | some a =>
    match a.ackAt with
    | some c => (s.passTo (c + s.get Reg.HL_TIMERS_ack_us * usCycles)).setAssoc p fun a => { a with ackDue := true }
    | none => s
  | none => s

def execAckTimer (peer : BitVec 14) (s : State) : Host.Outcome State Fault Refusal :=
  .next (if s.active then s.ackTimer peer.toNat else s)

/-- The allowance of one lane or Ethernet hop (R395), in µs. -/
def laneBound (cls : Nat) : Nat := if cls = 0 then 40 else 100
def hopBound (cls : Nat) (masthead : Bool) : Nat :=
  if cls = 0 then (if masthead then 3760 else 200) else if masthead then 4400 else 500

/-- R395, R396: the bound of the path that ends at this instance, from the originator's `ident` and `level`, in µs. -/
def State.pathBound (s : State) (cls ident level : Nat) : Nat :=
  let tray := if level = 0 then ident / 8 else ident % 2 ^ 14
  let up := if level = 0 then laneBound cls else 0
  let into := hopBound cls (s.tray && s.duty == 3)
  let mid := hopBound cls false
  if s.tray then
    if tray = s.trayId then up
    else if tray / 8 = s.ownCube then up + (if s.duty ≤ 1 ∧ level ≤ 1 then mid + into else into)
    else if level ≤ 1 then up + mid + (if s.duty ≤ 1 then mid + into else into)
    else if s.duty ≤ 1 then mid + into
    else into
  else
    let own := s.ident / 8
    if tray = own then up + laneBound cls
    else if tray / 8 = own / 8 then up + (if level ≤ 1 then 2 * mid else mid) + laneBound cls
    else up + (if level ≤ 1 then 3 * mid else 2 * mid) + laneBound cls

/-- The pennant's age in ticks of 10 ns: the 48-bit signed difference of R396. -/
def State.penAge (s : State) (pen : List Byte) : Int := toSigned 48 (subMod 48 (s.fleet / 16) (penTime pen))

/-- Microseconds by which a pennant is past a bound of `us`. -/
def State.pastBound (s : State) (pen : List Byte) (us : Nat) : Nat := ((s.penAge pen - 100 * us) / 100).toNat

/-- A class A or B pennant given up at this hop completes with DEADLINE_MISS (R373, R375, R380, R396). -/
def State.giveUp (s : State) (e : QEntry) (inst hop : Nat) : State :=
  let us := s.pathBound (penClass e.pen) (penIdent e.pen) (penLevel e.pen) + hop
  s.deadline Unit_.halyard inst (usTicks * s.pastBound e.pen us)

/-- R380: an association is LOST. -/
def State.assocLost (s : State) (p : Nat) : State :=
  match s.assoc? p with
  | none => s
  | some a =>
    let un := (a.unacked.map fun f => f.ents).flatten
    let q := fun c => a.queues.getD c []
    let hop := fun c => hopBound c false
    let un2 := un.filter fun e => penClass e.pen == 2
    let s := s.setAssoc p fun a => { a with state := 3, heard := false, sentAnn := false, peerHeard := false, unacked := [], retx := [],
                                            tries := 0, annAt := s.cyc, control := [], ackAt := none, ackDue := false, nak := false,
                                            queues := [[], [], un2 ++ q 2] }
    let s := un2.foldl State.backToSrc s
    let s := (un.filter fun e => penClass e.pen != 2).foldl (fun t e => t.giveUp e 0 (hop (penClass e.pen))) s
    [0, 1].foldl (fun t c => (q c).foldl (fun t e => (t.dropEntry c e).giveUp e 0 (hop c)) t) s

/-- ASSOCIATION_RTO (R380, R381). -/
def State.assocRto (s : State) (p : Nat) : State :=
  match s.assoc? p with
  | none => s
  | some a =>
    match a.unacked with
    | [] => s
    | f :: _ =>
      if a.state ≠ 2 ∨ ((s.portFor p).isSome && a.retx.any fun g => g.fseq == f.fseq) = true then s
      else
        let s := s.passTo (f.at_ + max 1 (s.get Reg.HL_TIMERS_rto_en) * usCycles)
        if 8 ≤ a.tries then s.assocLost p
        else
          match s.portFor p with
          | some _ => s.setAssoc p fun a => { a with tries := a.tries + 1, retx := a.unacked }
          | none => s.setAssoc p fun a => { a with
              tries := a.tries + 1, unacked := (a.unacked.map fun g => { g with at_ := s.cyc }) }

def execAssociationRto (peer : BitVec 14) (s : State) : Host.Outcome State Fault Refusal :=
  .next (if s.active then s.assocRto peer.toNat else s)

/-- R381: after the set of ports changed, associations whose port moved send their unacknowledged frames again, which is a
retransmission of the oldest as any other (R380). -/
def State.portsMoved (s : State) (old : List (Nat × Option Nat)) : State :=
  { s with hl := { s.hl with assocs := (s.hl.assocs.map fun a =>
      let was := match old.find? fun e => e.1 == a.peer with | some e => e.2 | none => none
      if s.portFor a.peer ≠ was ∧ (s.portFor a.peer).isSome = true then
        { a with retx := a.unacked, tries := a.tries + b2n (!a.unacked.isEmpty) } else a) } }

def State.portList (s : State) : List (Nat × Option Nat) := s.hl.assocs.map fun a => (a.peer, s.portFor a.peer)

/-- ETHERNET_LINK_CHANGE (R82, R381). -/
def State.linkChange (s : State) (p : Nat) (up : Bool) : State :=
  let old := s.portList
  let was := s.portsUp.contains p
  let s := { s with hl := { s.hl with linkUp := putBits s.hl.linkUp p 1 (b2n up) } }
  let s := if was && !up then s.fault Code.LINK_DOWN Unit_.halyard (16 + p) 0 else s
  s.portsMoved old

/-- A port, in tray role, out of the resets of its groups (R53, R55, R105). -/
def State.portAlive (s : State) (p : Nat) : Bool :=
  s.tray && s.pw.st != .off && s.pw.st != .aonReset && s.pw.st != .fastReset && !(bit s.pw.portRst p)

/-- ETHERNET_LINK_CHANGE: while the group is in reset only the level is kept; a die has no port (R53). -/
def execEthernetLinkChange (port : Fin 4) (up : Bool) (s : State) : Host.Outcome State Fault Refusal :=
  .next (if !s.tray then s
    else if s.active then s.linkChange port.val up
    else if s.portAlive port.val then s.hold (.link port.val up)
    else { s with hl := { s.hl with linkUp := putBits s.hl.linkUp port.val 1 (b2n up) } })

/-- A port reset (R105). -/
def State.portReset (s : State) (p : Nat) (asserted : Bool) : State :=
  let old := s.portList
  ({ s with pw := { s.pw with portRst := putBits s.pw.portRst p 1 (b2n asserted) } }).portsMoved old

def execPortReset (port : Fin 4) (assert : Bool) (s : State) : Host.Outcome State Fault Refusal :=
  .next (if s.tray then (s.looseRelease (16 + port.val) assert).portReset port.val assert else s)

/-! ### Egress (R390) -/

/-- Hand a frame to the port: it carries the acknowledgement, the credit and any NAK due. -/
def State.sendFrame (s : State) (p : Nat) (a : Assoc) (cls ver fseq flags : Nat) (blocks : List (List Byte)) : State :=
  let fr := s.frame p a cls ver fseq (flags + 2 * b2n a.nak) blocks
  let s := s.setAssoc a.peer fun a => { a with ackAt := none, ackDue := false, nak := false }
  (s.bump (Reg.HL_EP_TXF_p_count p) 1).sendOut (16 + p) fr

/-- A control block as the only block of an unsequenced frame (R378, R380, R383). -/
def State.sendControl (s : State) (p : Nat) (a : Assoc) (b : List Byte) (rest : List (List Byte)) : State :=
  let s := s.setAssoc a.peer fun a => { a with
    control := rest, sentAnn := a.sentAnn || (field b 0 2 == 0x3004 && bit (field b 3 1) 2) }
  let r := s.syncLeaves false b
  let s := r.1.setAssoc a.peer fun a => { a with control := a.control ++ r.2 }
  (s.sendFrame p a 0 (s.get Reg.HO_LIVE_fmt_ver) 0 1 [b]).assocOpen a.peer

/-- Frames of the replay pool in use (R364). -/
def State.poolFrames (s : State) : Nat := s.hl.assocs.foldl (fun n a => n + a.unacked.length) 0

/-- The pennants of the next frame of class `c`: at most 23, of one version, as far as credit and shaper reach. -/
def State.frameOf (s : State) (p : Nat) (a : Assoc) (c : Nat) : List QEntry :=
  match s.taintFirst c (a.queues.getD c []) with
  | [] => []
  | e :: es =>
    let credit := if later 16 (a.limits.getD c 0) (a.sent.getD c 0) then subMod 16 (a.limits.getD c 0) (a.sent.getD c 0) else 0
    ((e :: es).takeWhile fun x => x.ver == e.ver).take (min credit (s.shapeRoom (16 + p) c 23))

/-- Whether an association may send a new sequenced frame. -/
def State.mayFrame (s : State) (a : Assoc) : Bool :=
  a.state == 2 && decide (a.unacked.length < 128) && decide (s.poolFrames < 640)

/-- Of the associations on the port, the one whose next pennant of class `c` entered its queue first. -/
def State.frameChoice (s : State) (p : Nat) (as : List Assoc) (taint : Bool) (c : Nat) : Option Assoc :=
  let ok := as.filter fun a => s.mayFrame a && !(s.frameOf p a c).isEmpty &&
    (!taint || (match s.frameOf p a c with | e :: _ => s.entFunc e == 4 | [] => false))
  let key := fun a => match s.frameOf p a c with | e :: _ => e.at_ | [] => 0
  ok.foldl (fun (b : Option Assoc) a => match b with
    | none => some a
    | some x => if later 64 (key x) (key a) then some a else some x) none

/-- R450: the window's highest delay of a class C Ethernet queue. -/
def State.noteSat (s : State) (c : Nat) (e : QEntry) : State :=
  if c = 2 then { s with hl := { s.hl with satDelay := max s.hl.satDelay (s.sinceFleet e.at_) } } else s

/-- A new sequenced frame. -/
def State.sendNew (s : State) (p : Nat) (a : Assoc) (c : Nat) : State :=
  let es := s.frameOf p a c
  let ver := match es with | e :: _ => e.ver | [] => 0
  let kept := es.map fun e => { e with src := if e.src = .own then .own else .copy }
  let s := s.setAssoc a.peer fun a => { a with
    queues := modAt a.queues c fun q => es.foldl (fun q e => dropOne e q) q
    unacked := a.unacked ++ [{ fseq := a.txSeq, cls := c, ver := ver, ents := kept, at_ := s.cyc }]
    txSeq := (a.txSeq + 1) % 2 ^ 16
    sent := modAt a.sent c fun k => (k + es.length) % 2 ^ 16 }
  let s := es.foldl (fun t e => (((t.dropEntry c e).noteDelay (48 + 3 * p + c) e).noteSat c e).incr64 Reg.HL_TX_LO 1) s
  (s.shapeSpend (16 + p) c es.length).sendFrame p ((s.assoc? a.peer).getD a) c ver a.txSeq 0 (es.map fun e => e.pen)

/-- The port a control block leaves on: the association's, but `TB_PARENT.port` for the requests of this instance's own
exchanges with a parent over Ethernet (R207, R383). -/
def State.controlPort (s : State) (a : Assoc) (b : List Byte) : Option Nat :=
  if penType b = 0x005 ∧ s.get Reg.TB_PARENT_kind = 2 ∧ a.peer = s.get Reg.TB_PARENT_ptray then some (s.get Reg.TB_PARENT_port)
  else s.portFor a.peer

/-- The first control block that an association has due on port `p`. -/
def State.controlDue (s : State) (p : Nat) (a : Assoc) : Option (List Byte) :=
  a.control.find? fun b => s.controlPort a b == some p

/-- A frame boundary of port `p` (R390).
[DEDUCED, safe: log entry 87] -/
def State.portBoundary (s : State) (p : Nat) : State :=
  if !(s.portsUp.contains p) then s
  else
    let as := s.hl.assocs.filter fun a => s.portFor a.peer == some p
    match s.hl.assocs.find? fun a => (s.controlDue p a).isSome || (s.portFor a.peer == some p && (a.ackDue || a.nak)) with
    | some a =>
      match s.controlDue p a with
      | some b => s.sendControl p a b (a.control.erase b)
      | none => s.sendFrame p a 0 (s.get Reg.HO_LIVE_fmt_ver) 0 1 []
    | none =>
      match as.find? fun a => !a.retx.isEmpty with
      | some a =>
        match a.retx with
        | f :: fs =>
          let s := s.setAssoc a.peer fun a => { a with
            retx := fs, unacked := (a.unacked.map fun g => if g.fseq = f.fseq then { g with at_ := s.cyc } else g) }
          (s.bump (Reg.HL_EP_RTX_p_count p) 1).sendFrame p a f.cls f.ver f.fseq 4 (f.ents.map fun e => e.pen)
        | [] => s
      | none =>
        match [(true, 0), (false, 0), (false, 1), (false, 2)].findSome? fun (t, c) => (s.frameChoice p as t c).map fun a => (a, c) with
        | some (a, c) => s.sendNew p a c
        | none => s

/-- EGRESS_BOUNDARY (R390): lanes 0–15, ports 16–19. -/
def State.egressBoundary (s : State) (e : Nat) : State := if e < 16 then s.laneBoundary e else s.portBoundary (e - 16)

/-! ### Policing (R393) -/

/-- The colour of a frame of `len` bytes: 0 green, 1 yellow, 2 red; with the buckets' new state. -/
def State.police (s : State) (p c len : Nat) : Nat × State :=
  let mode := s.get (Reg.HL_POL_CFG_p_c_mode p c)
  if mode = 0 ∨ mode = 3 then (0, s)
  else
    let cir := s.get (Reg.HL_POL_CFG_p_c_cir p c)
    let pir := max cir (s.get (Reg.HL_POL_PIR_p_c_pir p c))
    let cbs := 100 * max 1518 (s.get (Reg.HL_POL_CBS_p_c_bytes p c))
    let ebs := 100 * max 1518 (s.get (Reg.HL_POL_EBS_p_c_bytes p c))
    let k := 3 * p + c
    let (c0, e0, at_) := match s.hl.police.find? fun e => e.1 == k with
      | some (_, v) => (min cbs v.1, min ebs v.2.1, v.2.2)
      | none => (cbs, ebs, s.cyc)
    let dt := s.cyc - at_
    let (tc, te) :=
      if mode = 1 then (min cbs (c0 + dt * cir), min ebs (e0 + (c0 + dt * cir - cbs)))
      else (min cbs (c0 + dt * cir), min ebs (e0 + dt * pir))
    let b := 100 * len
    let (col, tc, te) : Nat × Nat × Nat :=
      if mode = 1 then
        if b ≤ tc then (0, tc - b, te) else if b ≤ te then (1, tc, te - b) else (2, tc, te)
      else
        if te < b then (2, tc, te) else if tc < b then (1, tc, te - b) else (0, tc - b, te - b)
    (col, { s with hl := { s.hl with police := Sparse.insert s.hl.police k (tc, te, s.cyc) } })

/-! ### Reception (R82, R377–R383) -/

/-- A received frame's header fields, when R82 and R377 let it in: the PCP, the association's peer and the blocks. -/
def State.frameOk (s : State) (p : Nat) (f : List Byte) (fcsErr : Bool) : Option (Nat × Nat × List (List Byte)) :=
  let tci := beNat ((f.drop 14).take 2)
  let n := field f 28 1
  let src := field f 20 2
  let pcp := tci / 2 ^ 13
  if fcsErr || decide (f.length < 60) || decide (1514 < f.length) || beNat ((f.drop 12).take 2) != 0x8100 ||
      beNat ((f.drop 16).take 2) != 0x88B5 || tci % 2 ^ 12 != s.get (Reg.HL_EP_CFG_p_vid p) || field f 18 1 != 1 ||
      beNat ((f.drop 4).take 2) != s.trayId || f.take 4 != leBytes 4 (s.rd Reg.HL_MAC_PFX) || field f 22 2 != s.trayId ||
      (s.assoc? src).isNone || s.pcpClass pcp == 3 || decide (23 < n) || decide (f.length < 42 + 64 * n) then none
  else some (pcp, src, (List.range n).map fun i => (f.drop (42 + 64 * i)).take 64)

/-- The acknowledgement, credit and NAK of a frame's header (R380, R389). -/
def State.frameHeader (s : State) (peer : Nat) (f : List Byte) : State :=
  let ack := field f 26 2
  let fl := field f 29 1
  s.setAssoc peer fun a =>
    if a.state ≠ 2 then a
    else
      let keep := a.unacked.filter fun g => !(later 16 ack g.fseq)
      let same := (keep.head?.map fun g => g.fseq) == (a.unacked.head?.map fun g => g.fseq)
      let retx := a.retx.filter fun g => !(later 16 ack g.fseq)
      let again := bit fl 1 && retx.isEmpty && !keep.isEmpty
      { a with unacked := keep, tries := (if same then a.tries else 0) + b2n again
               limits := [field f 30 2, field f 32 2, field f 34 2]
               retx := if again then keep else retx
               prev := (field f 19 1 + 1) % 256 == s.get Reg.HO_LIVE_fmt_ver }

/-- A control block over Ethernet: ANNOUNCE and SYNC (R378, R383). -/
def State.frameControl (s : State) (peer now : Nat) (b : List Byte) : State :=
  if !penCrcOk b ∨ penClass b ≠ 3 then s
  else
    match field b 0 2 with
    | 0x3004 => (s.setAssoc peer fun a => { a with heard := true, peerHeard := a.peerHeard || bit (field b 3 1) 2 }).assocOpen peer
    | 0x3005 | 0x3006 | 0x3007 =>
      let r := s.syncArrives false now b
      r.1.setAssoc peer fun a => { a with control := a.control ++ r.2 }
    | _ => s.bump Reg.HL_DISCARD_ctl 1

/-- A sequenced frame in its turn: policed, its version judged, and its pennants handed on. -/
def State.frameTaken (s : State) (p peer pcp : Nat) (f : List Byte) (blocks : List (List Byte)) : State :=
  let c := s.pcpClass pcp
  let s := s.setAssoc peer fun a => { a with
    rxSeq := (a.rxSeq + 1) % 2 ^ 16, ackDue := a.ackDue || s.get Reg.HL_TIMERS_ack_us == 0
    ackAt := match a.ackAt with | some k => some k | none => some s.cyc }
  let r := (s.bump (Reg.HL_EP_RXF_p_count p) 1).police p c (f.length + 4)
  let drop := fun (t : State) => blocks.foldl (fun t _ => t.leavePool (.assoc peer) c) t
  if r.1 = 2 then drop ((r.2.bump (Reg.HL_POL_CNT_p_c_red p c) 1).refusal Code.HL_POLICED Unit_.halyard (16 + p) 0)
  else
    let s := if r.1 = 1 then r.2.bump (Reg.HL_POL_CNT_p_c_yellow p c) 1 else r.2
    let ver := field f 19 1
    match s.acceptVer ver with
    | none => drop ((s.bump Reg.HO_FMT_REF_count blocks.length).refusal 0x2B Unit_.halyard (16 + p) 0)
    | some _ => blocks.foldl (fun t b => t.arrive (.assoc peer) (16 + p) ver (some c) b) s

/-- ETHERNET_FRAME_RECEIVE up to the pennants that wait for a consumer here. -/
def State.frameReceive (s : State) (p now : Nat) (f : List Byte) (fcsErr : Bool) : State :=
  if !(s.portsUp.contains p) then s
  else
    match s.frameOk p f fcsErr with
    | none => s.bump (Reg.HL_EP_DISC_p_count p) 1
    | some (pcp, peer, blocks) =>
      let s := s.frameHeader peer f
      if bit (field f 29 1) 0 then
        blocks.foldl (fun t b => t.frameControl peer now b) (s.bump (Reg.HL_EP_RXF_p_count p) 1)
      else
        match s.assoc? peer with
        | none => s
        | some a =>
          let q := field f 24 2
          if a.state ≠ 2 then s
          else if q = a.rxSeq then s.frameTaken p peer pcp f blocks
          else if later 16 q a.rxSeq then s.setAssoc peer fun a => { a with nak := true }
          else s.setAssoc peer fun a => { a with ackDue := true }

/-! ### Bounds of queued pennants, summaries, SEND -/

/-- The class A or B entry of a lane's queues that reaches its bound first, with that bound in 10 ns units from now. -/
def State.firstBound (s : State) (n : Nat) : Option (Nat × QEntry × Int) :=
  let l := s.lane n
  let all := [0, 1].flatMap fun c => (l.queues.getD c []).map fun e => (c, e)
  all.foldl (fun (b : Option (Nat × QEntry × Int)) (c, e) =>
    let left := 100 * ((s.pathBound c (penIdent e.pen) (penLevel e.pen) + laneBound c : Nat) : Int) - s.penAge e.pen
    match b with
    | some (_, _, x) => if left < x then some (c, e, left) else b
    | none => some (c, e, left)) none

/-- QUEUED_PENNANT_BOUND (R375): for a pair with no lane in service. -/
def State.queuedBound (s : State) (n : Nat) : State :=
  if s.laneUp n || s.laneUp (otherLane n) then s
  else
    match s.firstBound n with
    | none => s
    | some (c, e, left) =>
      let s := s.passToFleet ((s.fleet + 16 * left.toNat) % 2 ^ 64)
      let s := s.setLane n fun l => { l with queues := modAt l.queues c (dropOne e) }
      (s.dropEntry c e).giveUp e n (laneBound c)

def execQueuedPennantBound (lane : Fin 16) (s : State) : Host.Outcome State Fault Refusal :=
  .next (if s.active then s.queuedBound lane.val else s)

/-- R387: the next fleet time at which an interval of `us` µs ends. -/
def State.summaryAt (s : State) (us : Nat) : Nat := ((s.fleet / (us * usTicks) + 1) * (us * usTicks)) % 2 ^ 64

/-- REFUSAL_SUMMARY (R387). -/
def State.summary (s : State) : State :=
  let us := s.get Reg.HL_ADM_SUM_us
  let r := s.hl.refs
  if us = 0 ∨ r.counts.all (· == 0) = true then s
  else
    let s := s.passToFleet (s.summaryAt us)
    let iv := (r.intervals + b2n r.thisIvl) % 2 ^ 32
    let pay := leBytes 4 (r.counts.getD 0 0) ++ leBytes 4 (r.counts.getD 1 0) ++ leBytes 4 (r.counts.getD 2 0) ++ leBytes 4 r.units ++
      leBytes 8 r.firstAt ++ leBytes 8 r.lastAt ++ leBytes 4 iv ++ leBytes 8 0
    let p := s.offer { func := 1, unit := Unit_.halyard, level := if s.tray then s.duty else 0, pay := pay, reserved := true }
    if p.1 = Code.OK then { p.2 with hl := { p.2.hl with refs := {} } }
    else { p.2 with hl := { p.2.hl with refs := { p.2.hl.refs with intervals := iv, thisIvl := false } } }

def execRefusalSummary (s : State) : Host.Outcome State Fault Refusal := .next (if s.active then s.summary else s)

/-- The pennant of a SEND command: bytes 0 and 1, the tag and the payload from the sampling buffer or the data memory (R168,
R366). -/
def State.sendOffer (s : State) (c : List Byte) : Offer :=
  let src := field c 12 4
  let len := field c 16 1
  let b := field c 8 2
  { func := typFunc (s.typeOf false (b % 2 ^ 12)), b01 := some b, unit := Unit_.firmware, level := if s.tray then s.duty else 0
    job := field c 10 2, pay := if field c 17 1 == 1 then s.dmem.bytes src len else s.cf.sbuf.bytes src len }

/-- SEND (R168, R366, R386).
[DEDUCED, safe: log entry 90]
[DEDUCED, unsafe: log entry 91] -/
def State.runSend (s : State) (q : Nat) (f : Flight) : State :=
  let c := f.cmd
  let src := field c 12 4
  let len := field c 16 1
  let dmem := field c 17 1 == 1
  if (if dmem then s.dmemSize else 524288) < src + len then s.finish q f.seq { code := Code.QE_BAD_CMD }
  else if lostIn (if dmem then s.st.dmBad else s.cf.sbufBad) src len then
    s.finish q f.seq { code := Code.UNCORRECTABLE }
  else
    let o := s.sendOffer c
    let p := s.offer o
    let s := if p.1 = Code.OK ∧ o.func = 9 ∧ !s.tray then p.2.notice 21 else p.2
    s.finish q f.seq { code := p.1 }

def execSend (q : Fin 16) (s : State) : Host.Outcome State Fault Refusal :=
  .next (s.issue q.val (some 0x06) State.runSend)

/-! ### Views (R397, R400) -/

/-- Bit 4 of a strike's units (R397). -/
def State.halyardLatch (s : State) : State :=
  (s.wr64 Reg.HL_SNAP_TX_LO (s.rd64 Reg.HL_TX_LO)).wr64 Reg.HL_SNAP_RX_LO (s.rd64 Reg.HL_RX_LO)

def State.rHlStatus (s : State) : Nat :=
  (upto s.laneCount).foldl (fun n k => n + (if s.laneUp k then 2 ^ (16 + k) else 0)) 0 +
    s.portsUp.foldl (fun n p => n + 2 ^ (12 + p)) 0

def State.rHlAssoc (s : State) : Nat := (s.hl.assocs.filter fun a => a.state == 2).length

def State.rLaneState (s : State) (n : Nat) : Nat :=
  let l := s.lane n
  l.unacked.length * 2 ^ 16 + l.identBad * 2 ^ 8 + 4 * b2n l.plov + l.state

def State.rPortState (s : State) (p : Nat) : Nat := b2n (bit s.hl.linkUp p) + 2 * b2n (s.portsUp.contains p)

/-- Association entry `e`. -/
def State.rAssocEntry (s : State) (e : Nat) : Nat :=
  match s.hl.assocs[e]? with
  | some a => b2n a.prev * 2 ^ 18 + (s.portFor a.peer).getD 0 * 2 ^ 16 + a.state * 2 ^ 14 + a.peer
  | none => 0

end Sys2Proof.Machine
end

