-- ==== Sys2Proof/Machine/Reduction.lean ====
section
/-! DEFINITION. Exact reduction and job trees (chapter 13): epochs, contributions and their judgement, the fold and its
census, emission, publication, and the job entries' states. -/

namespace Sys2Proof.Machine

/-! ### Entries and epochs (R402–R404) -/

/-- The level an entry folds at: 1 tray stage, 2 cube table, 3 masthead table. -/
def levelOf (base : Nat) : Nat := if base < 0x61000 then 1 else if base < 0x63000 then 2 else 3

/-- An entry's number within its table. -/
def entryNo (base : Nat) : Nat :=
  if base < 0x61000 then (base - 0x60800) / 256 else if base < 0x63000 then (base - 0x61000) / 256 else (base - 0x63000) / 256

def Content.t0 (c : Content) : Nat := c.word 0x04 + 2 ^ 32 * c.word 0x08
def Content.len (c : Content) : Nat := c.word 0x0C
def Content.tag (c : Content) : Nat := c.word 0x00 % 2 ^ 12
def Content.valid (c : Content) : Bool := bit (c.word 0x00) 31
def Content.exp (c : Content) : Nat := c.word 0x20 % 2 ^ 18

/-- D_L − end in ticks. -/
def Content.dl (c : Content) (level : Nat) : Nat :=
  usTicks * (if level = 1 then c.word 0x10 % 2 ^ 16 else if level = 2 then c.word 0x10 / 2 ^ 16 else c.word 0x14 % 2 ^ 24)

/-- R403: the quotient at fleet time `f`. -/
def epochQ (t0 len f : Nat) : Int := if len = 0 then 0 else toSigned 64 (subMod 64 f t0) / (len : Int)

def epochNo (q : Int) : Nat := ofSigned 32 q

/-- The quotient of epoch `e`, the one nearest fleet time `f`. -/
def epochNear (t0 len f e : Nat) : Int :=
  let q := epochQ t0 len f
  q + toSigned 32 (subMod 32 e (epochNo q))

/-- The end of epoch `e`. -/
def epochEnd (t0 len f e : Nat) : Nat := ofSigned 64 ((t0 : Int) + (epochNear t0 len f e + 1) * len)

/-- The beginning of epoch `e`. -/
def epochStart (t0 len f e : Nat) : Nat := ofSigned 64 ((t0 : Int) + epochNear t0 len f e * len)

/-- The content that gives an entry's current epoch. -/
def Entry.now (en : Entry) : Option Content := en.cont.head?

/-- A pending copy as content. -/
def PendCopy.content (p : PendCopy) : Content :=
  { from_ := p.from_, stamp := p.stamp, words := p.words.map fun e => (e.1, BitVec.ofNat 32 e.2) }

def State.pendOf (s : State) (base : Nat) : Option PendCopy := s.ho.pend.find? fun p => p.base == base

/-- The current epoch of an entry: by its content, or by the pending copy that is being installed (R403, R417). -/
def State.entryEpoch (s : State) (en : Entry) : Nat :=
  match en.now.or ((s.pendOf en.base).map PendCopy.content) with
  | some c => epochNo (epochQ c.t0 c.len s.fleet)
  | none => 0

/-- D_L of epoch `e` under content `c`. -/
def State.deadlineOf (s : State) (c : Content) (level e : Nat) : Nat := (epochEnd c.t0 c.len s.fleet e + c.dl level) % 2 ^ 64

/-- A series range (R404, R428). -/
structure Range where
  fan   : Bool
  dir   : Bool
  k     : Nat
  op    : Nat
  count : Nat
  first : Nat
  shift : Nat
  lo    : Int
deriving DecidableEq, Repr

def Content.range (c : Content) (r : Nat) : Range :=
  let a := c.word (0x40 + 16 * r)
  { fan := bit a 31, dir := bit a 30, k := bits a 25 5, op := bits a 22 3, count := bits a 11 11, first := a % 2 ^ 10
    shift := c.word (0x44 + 16 * r) % 64, lo := toSigned 64 (c.word (0x48 + 16 * r) + 2 ^ 32 * c.word (0x4C + 16 * r)) }

def Content.ranges (c : Content) : List Range := (upto (min 8 (c.word 0x24 % 16))).map c.range

def Content.rangeOf (c : Content) (series : Nat) : Option Range :=
  c.ranges.find? fun r => decide (r.first ≤ series) && decide (series < r.first + r.count)

/-- Parts above level 0 (R404). -/
def Range.parts (r : Range) : Nat := if r.op = 4 then 9 else if r.op = 6 then 1 + (r.k + 2) / 3 else 1

/-- The cubes of a masthead content's bitmap. -/
def Content.cubes (c : Content) : List Nat := (upto 2048).filter fun k => bit (c.word (0x100 + 4 * (k / 32))) (k % 32)

/-! ### A contribution's fields (R405, R406) -/

def pcEpoch (p : List Byte) : Nat := field p 16 4
/--
[DEDUCED, safe: log entry 109] -/
def pcSeries (p : List Byte) : Nat := field p 20 2 % 1024
def pcPart (p : List Byte) : Nat := field p 20 2 / 1024
def pcStamp (p : List Byte) : Nat := field p 22 2
def pcN (p : List Byte) : Nat := field p 24 3 % 2 ^ 18
def pcParts (p : List Byte) : Nat := field p 27 1

/-- The five missing counts: late, stale, absent, excluded, other. -/
def pcMiss (p : List Byte) : List Nat := (upto 5).map fun i => field p (44 + 3 * i) 3 % 2 ^ 18

/-- `n` and the missing counts together. -/
def pcCensus (p : List Byte) : Nat := pcN p + (pcMiss p).foldl (· + ·) 0

/-! ### Operations (R404, R406, R411) -/

/-- A partial result. -/
inductive Partial where
  | sum (v : Int)
  | ext (v : Int)
  | cnt (v : Nat)
  | hist (b : List Nat)
  | mask (v : Nat)
  | top (es : List (Int × Nat))
deriving DecidableEq, Repr

/-- The empty result. -/
def Range.empty (r : Range) : Partial :=
  match r.op with
  | 0 => .sum 0
  | 1 => .ext (2 ^ 63 - 1)
  | 2 => .ext (-(2 ^ 63))
  | 3 => .cnt 0
  | 4 => .hist (List.replicate 64 0)
  | 5 => .mask 0
  | _ => .top []

/-- R404: top-k order: by value, then by the lower die ID. -/
def Range.before (r : Range) (a b : Int × Nat) : Bool :=
  if a.1 = b.1 then decide (a.2 < b.2) else if r.dir then decide (a.1 < b.1) else decide (b.1 < a.1)

/-- The bin of a histogram value. -/
def Range.bin (r : Range) (v : Int) : Nat :=
  let x := asr (v - r.lo) r.shift
  if x < 0 then 0 else if 63 < x then 63 else x.toNat

/-- The value a single-value contribution carries; `die` ranks it in a top-k. -/
def Range.single (r : Range) (p : List Byte) (die : Nat) : Partial :=
  let v := toSigned 64 (field p 28 8)
  match r.op with
  | 0 => .sum v
  | 1 => .ext v
  | 2 => .ext v
  | 3 => .cnt (if field p 28 8 = 0 then 0 else 1)
  | 4 => .hist (modAt (List.replicate 64 0) (r.bin v) fun _ => 1)
  | 5 => .mask (field p 28 16)
  | _ => .top [(v, die)]

/-- The partial that a tray's or cube's parts carry, part 0 first. -/
def Range.multi (r : Range) (ps : List (List Byte)) : Partial :=
  let p := ps.getD 0 []
  match r.op with
  | 0 => .sum (toSigned 128 (field p 28 16))
  | 1 => .ext (toSigned 64 (field p 28 8))
  | 2 => .ext (toSigned 64 (field p 28 8))
  | 3 => .cnt (field p 28 8)
  | 4 => .hist ((ps.drop 1).flatMap fun q => (upto 8).map fun i => field q (24 + 4 * i) 4)
  | 5 => .mask (field p 28 16)
  | _ => .top (((ps.drop 1).flatMap fun q => (upto 3).filterMap fun i =>
      let w := field q (32 + 12 * i) 4
      if bit w 17 then some (toSigned 64 (field q (24 + 12 * i) 8), w % 2 ^ 17) else none).take r.k)

def Range.fold (r : Range) (a b : Partial) : Partial :=
  match a, b with
  | .sum x, .sum y => .sum (x + y)
  | .ext x, .ext y => .ext (if r.op = 1 then min x y else max x y)
  | .cnt x, .cnt y => .cnt ((x + y) % 2 ^ 64)
  | .hist x, .hist y => .hist (List.zipWith (fun m n => (m + n) % 2 ^ 32) x y)
  | .mask x, .mask y => .mask (x ||| y)
  | .top x, .top y => .top ((sortBy r.before (x ++ y)).take r.k)
  | x, _ => x

/-- Bytes 28–43 of part 0. -/
def Partial.value : Partial → List Byte
  | .sum v => leBytes 16 (ofSigned 128 v)
  | .ext v => leBytes 8 (ofSigned 64 v) ++ leBytes 8 0
  | .cnt v => leBytes 16 v
  | .mask v => leBytes 16 v
  | _ => leBytes 16 0

/-- Bytes 24–59 of parts 1 and up. -/
def Partial.data (v : Partial) (part : Nat) : List Byte :=
  match v with
  | .hist b => padTo 36 (((b.drop (8 * (part - 1))).take 8).flatMap fun n => leBytes 4 n)
  | .top es => padTo 36 (((es.drop (3 * (part - 1))).take 3).flatMap fun (x, d) => leBytes 8 (ofSigned 64 x) ++ leBytes 4 (d + 2 ^ 17))
  | _ => leBytes 36 0

/-- The payloads of a result's parts (R405, R406). -/
def Range.payloads (r : Range) (v : Partial) (epoch series stamp n : Nat) (miss : List Nat) (final : Bool) : List (List Byte) :=
  let head := fun part => leBytes 4 epoch ++ leBytes 2 (series + 1024 * part) ++ leBytes 2 stamp
  let p0 := head 0 ++ leBytes 3 n ++ leBytes 1 r.parts ++ v.value ++ (miss.flatMap fun m => leBytes 3 m) ++
    leBytes 1 (b2n final + 2 * b2n (n == 0))
  p0 :: (upto (r.parts - 1)).map fun i => head (i + 1) ++ v.data (i + 1)

/-! ### Judging a contribution (R407, R410) -/

/-- The must-be-0 bytes of R405 and R406. `single` is a level 0 or cube-origin value. -/
def Range.zeros (r : Range) (single : Bool) (p : List Byte) : Bool :=
  let z := fun i j => field p i (j - i) == 0
  if pcPart p = 0 then
    (field p 26 1 < 4) && ((upto 5).all fun i => field p (46 + 3 * i) 1 < 4) && field p 59 1 < 4 &&
      (match r.op with
       | 1 | 2 | 3 => z 36 44
       | 4 => if single then z 36 44 else z 28 44
       | 6 => if single then (if pcSeries p < 256 then z 36 44 else field p 38 1 < 2 && z 39 44) else z 28 44
       | _ => true)
  else if r.op = 4 then z 56 60
  else (upto 3).all fun i =>
    let k := 3 * (pcPart p - 1) + i
    field p (32 + 12 * i) 4 < 2 ^ 18 && (decide (k < r.k) || field p (24 + 12 * i) 12 == 0)

/-- The contributors an entry expects, by number (R412). -/
def Content.expects (c : Content) (level who : Nat) : Bool :=
  if level = 1 then decide (who < 8) else if level = 2 then decide (who < 8) && bit c.exp who
  else bit (c.word (0x100 + 4 * (who / 32))) (who % 32)

/-- R407: the census a contributor's contribution may hold: a tray 8; a cube 8 for each tray of its mask, which this instance
knows of its own cube alone, and else 64; a cube-origin value 1.
[DEDUCED, unsafe: log entry 217] -/
def State.share (s : State) (c : Content) (level who series : Nat) : Nat :=
  if level = 1 then 1
  else if level = 2 then 8
  else if 256 ≤ series then 1
  else if who = s.ownCube then
    match s.entryOf cubeBases c.tag with
    | some en => (match en.now with | some k => 8 * popcount 8 k.exp | none => 64)
    | none => 64
  else 64

/-- R407. `ps` are the parts of one contribution, part 0 among them where it was taken; `share` is its contributor's. -/
def Content.badParts (c : Content) (level who share : Nat) (ps : List (List Byte)) : Bool :=
  match ps with
  | [] => false
  | p :: _ =>
    let series := pcSeries p
    match c.rangeOf series with
    | none => true
    | some r =>
      let single := level == 1 || decide (256 ≤ series)
      let np := if single then 1 else r.parts
      (decide (256 ≤ series) && decide (level ≤ 2)) || !(c.expects level who) ||
        ps.any (fun q => decide (np ≤ pcPart q) || !(r.zeros single q) || pcSeries q != series ||
          (pcPart q == 0 && (pcParts q != np ||
            (level == 1 && (pcStamp q != 0 || pcN q != 1 || (pcMiss q).any (· != 0))) ||
            (level != 1 && decide (256 ≤ series) && (pcN q != 1 || (pcMiss q).any (· != 0))) ||
            (level != 1 && decide (share < pcCensus q)))))

/-- The cause of an exclusion: its census field (0 late, 1 stale, 3 excluded, 4 other) and its code. -/
structure Cause where
  field : Nat
  code  : Nat
deriving DecidableEq, Repr

/-- R410, R414, R425, R426: how the parts of one contributor for one series stand at D_L: accepted parts in order, or the
cause. `none` is nothing taken.
[DEDUCED, unsafe: log entry 102] -/
def Content.judge (c : Content) (level who share D : Nat) (ps : List Part) (early : Option Cause) : Option (Cause ⊕ List (List Byte)) :=
  let inTime := ps.filter fun p => later 64 D p.at_
  let late := ps.any fun p => !(later 64 D p.at_)
  let pens := inTime.map fun p => p.pen
  let all := ps.map fun p => p.pen
  let np := match (c.rangeOf (match all with | p :: _ => pcSeries p | [] => 0)) with
    | some r => if level = 1 ∨ 256 ≤ (match all with | p :: _ => pcSeries p | [] => 0) then 1 else r.parts
    | none => 1
  let count := fun (l : List (List Byte)) k => (l.filter fun p => pcPart p == k).length
  let twice := (upto np).all fun k => decide (2 ≤ count pens k)
  let repeated := (upto np).any fun k => decide (2 ≤ count pens k)
  let whole := (upto np).all fun k => decide (1 ≤ count pens k)
  let wholeLate := (upto np).all fun k => decide (1 ≤ count all k)
  let stale := level != 1 && all.any fun p => pcStamp p != c.stamp
  match early with
  | some e => some (.inl e)
  | none =>
    if ps.isEmpty then none
    else if stale then some (.inl { field := 1, code := Code.GEN_STALE })
    else if inTime.any (fun p => p.err) then some (.inl { field := 4, code := Code.UNCORRECTABLE })
    else if c.badParts level who share all then some (.inl { field := 4, code := Code.RD_BAD })
    else if repeated && !twice then some (.inl { field := 4, code := Code.RD_INCOMPLETE })
    else if twice then some (.inl { field := 4, code := Code.RD_DUP })
    else if whole then some (.inr ((upto np).filterMap fun k => pens.find? fun p => pcPart p == k))
    else if late && wholeLate then some (.inl { field := 0, code := Code.RD_LATE })
    else some (.inl { field := 4, code := Code.RD_INCOMPLETE })

/-- The census an excluded contribution takes with it: 1 for a die; otherwise that of its part 0, where it was taken, and
never more than its contributor's share, so that the identity of R412 holds.
[DEDUCED, safe: log entry 104] -/
def exclShare (level share : Nat) (ps : List Part) : Nat :=
  match ps.find? fun p => pcPart p.pen == 0 with
  | some p => if level = 1 then 1 else min share (pcCensus p.pen)
  | none => 0

/-- Count an exclusion (R410). -/
def State.countExcl (s : State) (code : Nat) : State :=
  if code = Code.RD_LATE then s.bump Reg.RD_EXCL_A_late 1
  else if code = Code.GEN_STALE then s.bump Reg.RD_EXCL_A_stale 1
  else if code = Code.RD_DUP then s.bump Reg.RD_EXCL_B_dup 1
  else if code = Code.RD_INCOMPLETE then s.bump Reg.RD_EXCL_B_incomp 1
  else if code = Code.RD_BAD then s.bump Reg.RD_EXCL_B_bad 1
  else if code = Code.RD_EPOCH then s.bump Reg.RD_EXCL_B_early 1
  else if code = Code.UNCORRECTABLE then s.fault Code.UNCORRECTABLE Unit_.reduction 0 0
  else s

/-! ### Taking parts (R409, R410, R419) -/

def State.setRed (s : State) (f : Reduction → Reduction) : State := { s with red := f s.red }

def State.setEntry (s : State) (base : Nat) (f : Entry → Entry) : State :=
  s.setRed fun r => { r with entries := (r.entries.map fun e => if e.base = base then f e else e) }

/-- R419. -/
def State.orphan (s : State) : State :=
  let s := s.bump Reg.RD_ORPHANS_count 1
  let again := match s.red.orphanAt with | some c => decide (c + msCycles ≤ s.cyc) | none => true
  if again then (s.setRed fun r => { r with orphanAt := some s.cyc }).refusal Code.RD_ORPHAN Unit_.reduction 0 0 else s

/-- Fleet-store address of a place in the state area.
[DESIGN CHOICE, safe: log entry 106] -/
def State.partAddr (s : State) (slot : Nat) : Nat :=
  s.get Reg.RD_STATE_AREA_base * 2 ^ 20 + 64 * (slot % max 1 (s.get Reg.RD_STATE_AREA_size * 16384))

/-- A part reaches an entry.
[DEDUCED, unsafe: log entry 103]
[DESIGN CHOICE, safe: log entry 105] -/
def State.takeInto (s : State) (en : Entry) (who : Nat) (pen : List Byte) : State :=
  let e := pcEpoch pen
  let level := levelOf en.base
  let cur := s.entryEpoch en
  let key := fun (x : Nat × Nat × Nat × Nat × Nat × Nat) => x.1 == en.base && x.2.1 == e && x.2.2.1 == who && x.2.2.2.1 == pcSeries pen
  if later 32 e cur || (match en.retireAt with | some f => !(later 32 f e) | none => false) then
    -- ahead of the current epoch
    let amt := if level = 1 then 1 else if pcPart pen = 0 then pcCensus pen else 0
    match s.red.excl.find? key with
    | some x =>
      if x.2.2.2.2.2 = 0 then
        s.setRed fun r => { r with excl := (r.excl.map fun y => if key y then (y.1, y.2.1, y.2.2.1, y.2.2.2.1, y.2.2.2.2.1, amt) else y) }
      else s
    | none =>
      (s.setRed fun r => { r with excl := r.excl ++ [(en.base, e, who, pcSeries pen, Code.RD_EPOCH, amt)] }).countExcl Code.RD_EPOCH
  else if later 32 en.next e then
    -- its epoch has folded: one exclusion for each contribution
    if s.red.excl.any key then s
    else (s.setRed fun r => { r with excl := r.excl ++ [(en.base, e, who, pcSeries pen, Code.RD_LATE, 0)] }).countExcl Code.RD_LATE
  else
    let slot := s.red.slot
    let late := match en.at e with | some c => !(later 64 (s.deadlineOf c level e) s.fleet) | none => false
    let p : Part := { base := en.base, epoch := e, who := who, pen := pen, at_ := s.fleet, slot := slot }
    let s := s.setRed fun r => { r with parts := r.parts ++ [p], slot := slot + 1 }
    if late then s else s.fsWrite (.held en.base) (s.partAddr slot) pen

/-- R409: a function-13 pennant at the reduction. -/
def State.takePart (s : State) (pen : List Byte) : State :=
  let job := penJob pen
  let id := penIdent pen
  match penLevel pen with
  | 0 =>
    if id / 8 = s.trayId then
      match s.entryOf trayBases job with | some en => s.takeInto en (id % 8) pen | none => s.orphan
    else s.orphan
  | 1 =>
    if id % 2 ^ 14 / 8 = s.ownCube then
      match s.entryOf cubeBases job with | some en => s.takeInto en (id % 8) pen | none => s.orphan
    else s.orphan
  | _ =>
    match s.entryOf mastBases job with
    | some en => s.takeInto en (id % 2 ^ 14 / 8) pen
    | none => s.orphan

/-! ### The fold (R411, R412) -/

/-- Die mask of `RD_TS_EXCL` for epoch `e` (R414).
[DEDUCED, unsafe: log entry 111] -/
def State.tsExcl (s : State) (en : Entry) (e : Nat) : Nat :=
  match en.excl.find? fun x => x.1 == e with | some x => x.2 | none => s.get Reg.RD_TS_EXCL_mask

/-- Contributor numbers of a level, ascending. -/
def Content.contributors (c : Content) (level : Nat) : List Nat := if level ≤ 2 then upto 8 else c.cubes

/-- One series of one epoch folded. -/
structure Folded where
  val   : Partial
  n     : Nat := 0
  miss  : List Nat := [0, 0, 0, 0, 0]
  /-- Accepted contributors and their parts. -/
  got   : List (Nat × List (List Byte)) := []
deriving DecidableEq, Repr

/-- Fold one contributor into a series. -/
def State.foldOne (c : Content) (r : Range) (level D series : Nat) (mask : Nat) (en : Entry)
    (acc : State × Folded) (who : Nat) : State × Folded :=
  let (s, f) := acc
  let e := en.next
  let ps := s.red.parts.filter fun p => p.base == en.base && p.epoch == e && p.who == who && pcSeries p.pen == series
  let ex := s.red.excl.find? fun x => x.1 == en.base && x.2.1 == e && x.2.2.1 == who && x.2.2.2.1 == series
  let share := s.share c level who series
  if level = 1 ∧ !(bit c.exp who) then (s, { f with miss := modAt f.miss 3 fun m => m + 1 })
  else if level = 1 ∧ bit mask who = true then
    (s, if ps.isEmpty then f else { f with miss := modAt f.miss 3 fun m => m + 1 })
  else
    match c.judge level who share D ps (ex.map fun _ => { field := 4, code := Code.RD_EPOCH }) with
    | none => (s, f)
    | some (.inl cause) =>
      let amt := if !(c.expects level who) then 0 else match ex with | some x => min share x.2.2.2.2.2 | none => exclShare level share ps
      (if ex.isSome then s else s.countExcl cause.code, { f with miss := modAt f.miss cause.field fun m => m + amt })
    | some (.inr pens) =>
      let p := pens.getD 0 []
      let single := level == 1 || decide (256 ≤ series)
      let die := if level = 1 then penIdent p else field p 36 3 % 2 ^ 17
      let v := if single then r.single p die else r.multi pens
      let lateToo := ps.any fun q => !(later 64 D q.at_)
      let s := if lateToo then s.countExcl Code.RD_LATE else s
      (s.incr64 Reg.RD_IN_LO 1, { f with val := r.fold f.val v, n := f.n + pcN p, got := f.got ++ [(who, pens)],
                                         miss := List.zipWith (· + ·) f.miss (pcMiss p) })

/-- R407: contributions that no series or contributor of the entry stands for are excluded, each once, with the cause that
`judge` gives; they enter no census.
[DEDUCED, unsafe: log entry 218] -/
def State.foldStrays (s : State) (c : Content) (level D : Nat) (en : Entry) : State :=
  let ps := s.red.parts.filter fun p => p.base == en.base && p.epoch == en.next
  let ks := (ps.map fun p => (p.who, pcSeries p.pen)).eraseDups.filter fun k =>
    (c.rangeOf k.2).isNone || !((c.contributors level).contains k.1)
  ks.foldl (fun t k =>
    if t.red.excl.any fun x => x.1 == en.base && x.2.1 == en.next && x.2.2.1 == k.1 && x.2.2.2.1 == k.2 then t
    else
      match c.judge level k.1 (t.share c level k.1 k.2) D (ps.filter fun p => p.who == k.1 && pcSeries p.pen == k.2) none with
      | some (.inl cause) => t.countExcl cause.code
      | _ => t) s

/-- E of R412. -/
def Content.expected (c : Content) (level series : Nat) : Nat :=
  if level = 1 then 8 else if level = 2 then 8 * popcount 8 c.exp
  else if series < 256 then c.exp else c.cubes.length

/-- A series folded, with `m_absent` the remainder. -/
def State.foldSeries (s : State) (c : Content) (r : Range) (level D series mask : Nat) (en : Entry) : State × Folded :=
  let a := (c.contributors level).foldl (State.foldOne c r level D series mask en) (s, { val := r.empty })
  let f := a.2
  (a.1, { f with miss := modAt f.miss 2 fun m => m + (c.expected level series - f.n - f.miss.foldl (· + ·) 0) })

/-! ### Emission, retirement (R413, R416, R418) -/

/-- Offer or pass on one level 1 or level 2 contribution (R409, R413). -/
def State.emit (s : State) (level job : Nat) (pay : List Byte) : State :=
  let inside := if level = 1 then decide (2 ≤ s.duty) else (s.entryOf mastBases job).isSome
  if s.stage ≠ 8 then s
  else if inside then
    s.takePart (formPennant 0 s.trayId level Unit_.reduction job s.fleet 0 pay)
  else
    let p := s.offer { func := 13, unit := Unit_.reduction, level := level, job := job, pay := pay }
    if p.1 = Code.OK then p.2 else p.2.bump Reg.RD_REFUSED_count 1

/-- The retired list: the tags whose time has not come (R418). -/
def State.retiredTags (s : State) : Sparse (Nat × Nat) := s.red.retired.filter fun e => later 64 e.2.2 s.fleet

/-- An entry frees and its tag enters the retired list (R416, R418). -/
def State.freeEntry (s : State) (base : Nat) : State :=
  match s.entry? base with
  | none => s
  | some en =>
    let (tag, len) := match en.now with | some c => (c.tag, c.len) | none => (0, 0)
    let held := s.retiredTags
    let place := (upto 128).find? fun i => !(held.any fun e => e.1 == i)
    s.need.setRed fun r => { r with
      entries := (r.entries.filter fun e => e.base != base)
      parts := (r.parts.filter fun p => p.base != base)
      excl := (r.excl.filter fun x => x.1 != base)
      freed := some (base, s.cyc)
      retired := match place with | some i => Sparse.insert held i (tag, (s.fleet + len) % 2 ^ 64) | none => held }

/-- After the last emission of epoch F − 1, the entry frees. -/
def State.endEpoch (s : State) (base : Nat) : State :=
  match s.entry? base with
  | some en => if en.state = 3 ∧ en.retireAt = some en.next then s.freeEntry base else s
  | none => s

/-- R434: the entry is bound to the analytics. -/
def State.faBound (s : State) (c : Content) (level : Nat) : Bool :=
  let ok := fun (series k : Nat) => match c.rangeOf series with | some r => r.op == 6 && r.k == k | none => false
  if level ≤ 2 then ok (s.get Reg.FA_SER_A_pace) 8 && ok (s.get Reg.FA_SER_A_score) 8
  else ok (s.get Reg.FA_SER_C_cand) 1 && ok (s.get Reg.FA_SER_C_cpace) 1 && ok (s.get Reg.FA_SER_D_cdrift) 1 && ok (s.get Reg.FA_SER_D_med) 1

/-- The fold itself, its reads done: every series of the epoch, and the emission or the results to publish. -/
def State.foldNow (s : State) (en : Entry) : State :=
  let level := levelOf en.base
  let e := en.next
  match en.at e with
  | none => s
  | some c =>
    let D := s.deadlineOf c level e
    let mask := s.tsExcl en e
    let all := c.ranges.flatMap fun r => (upto r.count).map fun i => (r, r.first + i)
    let r := all.foldl (fun (acc : State × List (Range × Nat × Folded)) (r, series) =>
      let x := acc.1.foldSeries c r level D series mask en
      (x.1, acc.2 ++ [(r, series, x.2)])) (s.foldStrays c level D en, [])
    let s := r.1.setRed fun d => { d with
      parts := (d.parts.filter fun p => !(p.base == en.base && p.epoch == e))
      excl := (d.excl.filter fun x => !(x.1 == en.base && (x.2.1 == e || decide (64 < subMod 32 e x.2.1 ∧ subMod 32 e x.2.1 < 2 ^ 31)))) }
    let due : FaDue := { level := level, tag := c.tag, epoch := e, stamp := c.stamp, ok := s.faBound c level, cubes := if level = 3 then c.cubes else []
                         got := r.2.map fun x => (x.2.1, x.2.2.got)
                         at_ := D, bound := if level = 3 then min c.len (10 * msTicks) else 50 * usTicks }
    let s := s.setRed fun d => { d with due := d.due ++ [due] }
    let s := s.setEntry en.base fun x => { x with next := (e + 1) % 2 ^ 32, folding := false, excl := x.excl.filter fun y => y.1 != e }
    if level ≤ 2 then
      let late := s.sinceFleet ((D + 50 * usTicks) % 2 ^ 64)
      let s := if late = 0 then s else (s.bump Reg.RD_MISS_count 1).deadline Unit_.reduction (entryNo en.base) late
      let s := r.2.foldl (fun t (rg, series, f) =>
        (rg.payloads f.val e series c.stamp f.n f.miss false).foldl (fun t p => t.emit level c.tag p) t) s
      s.endEpoch en.base
    else
      let out : List Result := r.2.map fun (rg, series, f) =>
        { base := en.base, tag := c.tag, stamp := c.stamp, epoch := e, series := series, due := D, bound := min c.len (10 * msTicks)
          parts := rg.payloads f.val e series c.stamp f.n f.miss true, cubes := f.got.map (fun g => g.1), fan := rg.fan }
      let s := s.setRed fun d => { d with results := d.results ++ out }
      if out.isEmpty then s.endEpoch en.base else s

/-- Reads of the state area are outstanding for an entry.
[DEDUCED, safe: log entry 107] -/
def State.readsOut (s : State) (base : Nat) : Bool :=
  (s.fsp.out.any fun r => r.owner == .held base && !r.write) || s.fsp.want.any fun w => w.owner == .held base && !w.write

/-- The fold of `next` begins once no earlier epoch's publication runs: each part held is read once (R411, R426). -/
def State.foldStart (s : State) (base : Nat) : State :=
  match s.entry? base with
  | none => s
  | some en =>
    let s := s.setEntry base fun x => { x with folding := true }
    if s.red.results.any fun r => r.base == base then
      s.setRed fun d => { d with results := d.results.map fun r => if r.base = base then { r with past := true } else r }
    else
      let ps := s.red.parts.filter fun p => p.base == base && p.epoch == en.next
      let s := ps.foldl (fun t p => t.fsAccess (.held base) false [t.partAddr p.slot] p.slot) s
      if s.readsOut base then s else s.foldNow en

/-- EPOCH_FOLD: D_L of the entry's next epoch. An epoch from `from_epoch` of a pending copy on waits for its switch. -/
def State.epochFold (s : State) (base : Nat) : State :=
  match s.entry? base with
  | none => s
  | some en =>
    if en.state < 2 ∨ en.folding = true ∨ en.retireAt = some en.next ∨ (s.pendOf base).any (fun p => p.from_ == en.next) = true then s
    else
      match en.at en.next with
      | none => s
      | some c => (s.passToFleet (s.deadlineOf c (levelOf base) en.next)).foldStart base

/-- A response of the fleet store for a held part (R410): an error marks it; the last read of a fold completes it. -/
def State.heldResponse (s : State) (base slot : Nat) (write err : Bool) : State :=
  let s := if err then
      s.setRed fun r => { r with parts := (r.parts.map fun p => if p.base = base ∧ p.slot = slot then { p with err := true } else p) }
    else s
  match s.entry? base with
  | some en => if en.folding && !write && !(s.readsOut base) && !(s.red.results.any fun r => r.base == base) then s.foldNow en else s
  | none => s

/-! ### Publication (R413, R415) -/

/-- Write bytes into a ring of the fleet store in stop mode; `none` without room (R238). -/
def State.fsRing (s : State) (base size wr rd : Nat) (bs : List Byte) : Option State :=
  if size < subMod 32 wr rd + bs.length ∨ size = 0 then none
  else
    let at_ := wr % size
    let head := bs.take (size - at_)
    let s := s.fsWrite .store (base + at_) head
    some (if head.length = bs.length then s else s.fsWrite .store base (bs.drop head.length))

/-- A function-14 pennant of a result: what admission answers, and its bytes.
[DESIGN CHOICE, safe: log entry 108] -/
def State.resultPennant (s : State) (r : Result) (pay : List Byte) : State × List Byte :=
  let o : Offer := { func := 14, fan := true, unit := Unit_.reduction, level := 3, job := r.tag, pay := pay }
  let b := fun (fan : Bool) => match s.typeFor 14 with
    | some t => t + 2 ^ 12 + 2 ^ 15 * b2n fan
    | none => 2 ^ 12 + 2 ^ 15 * b2n fan
  if r.fan then
    let seq := s.hl.seqs.getD 1 0
    let now := s.fleet
    let p := s.offer o
    if p.1 = Code.OK then (p.2, formPennant (b true) p.2.ident 3 Unit_.reduction r.tag now seq pay)
    else ((p.2.bump Reg.RD_REFUSED_count 1).draw, formPennant (b true) p.2.ident 3 Unit_.reduction r.tag now (p.2.drawn 16) pay)
  else (s.draw, formPennant (b false) s.ident 3 Unit_.reduction r.tag s.fleet (s.drawn 16) pay)

/-- The result record (R415). -/
def State.resultRecord (s : State) (r : Result) (pens : List (List Byte)) (late : Bool) : List Byte :=
  let p0 := r.parts.getD 0 []
  let at_ := leBytes 16 0 ++ p0
  let h := leBytes 2 r.tag ++ leBytes 2 r.stamp ++ leBytes 4 r.epoch ++ leBytes 2 r.series ++ leBytes 1 r.parts.length ++
    leBytes 1 (b2n late + 2 * b2n (pcN at_ == 0) + 4 * b2n ((pcMiss at_).any (· != 0))) ++ leBytes 4 0 ++ leBytes 8 s.fleet ++
    leBytes 8 r.due ++ leBytes 28 0
  let body := pens.flatten
  let map := (upto 256).map fun i => BitVec.ofNat 8 ((upto 8).foldl (fun n b => n + (if r.cubes.contains (8 * i + b) then 2 ^ b else 0)) 0)
  h ++ leBytes 4 (crc32c (h ++ body ++ map)) ++ body ++ map

/-- The record of a published result goes into the ring, or is lost (R410). -/
def State.ringResult (s : State) (bs : List Byte) : State :=
  (s.fsRing (s.get Reg.RD_RING_AREA_base * 2 ^ 20) (min 1024 (s.get Reg.RD_RING_AREA_size) * 2 ^ 20) (s.rd Reg.RD_RING_WR)
    (s.rd Reg.RD_RING_RD) bs).elim (s.bump Reg.RD_RING_LOST_count 1) fun t => t.incr Reg.RD_RING_WR bs.length

/-- The entry goes on once no result of it waits. -/
def State.published (s : State) (base : Nat) : State :=
  let s := s.need
  if s.red.results.any fun k => k.base == base then s
  else
    match s.entry? base with
    | some en => if en.folding then s.foldStart base else s.endEpoch base
    | none => s

/-- Publish the next result; it is also returned, for fleet analytics. -/
def State.publish (s : State) : State × Option Result :=
  match s.red.results with
  | [] => (s, none)
  | r :: rest =>
    let s := s.setRed fun d => { d with results := rest }
    let late := s.sinceFleet ((r.due + r.bound) % 2 ^ 64)
    let s := if late = 0 ∧ r.past = false then s else (s.bump Reg.RD_MISS_count 1).deadline Unit_.reduction (entryNo r.base) late
    let x := r.parts.foldl (fun (acc : State × List (List Byte)) p =>
      let y := acc.1.resultPennant r p
      (y.1, acc.2 ++ [y.2])) (s, [])
    let bs := x.1.resultRecord r x.2 (late != 0)
    let s := x.1.ringResult bs
    let s := (s.bump Reg.RD_PUB_count 1).raise 41
    (s.published r.base, some r)

/-! ### Tags, switches and views (R416, R418, R428) -/

/-- RETIRED_TAG_EXPIRE (R418). -/
def execRetiredTagExpire (place : Fin 128) (s : State) : Host.Outcome State Fault Refusal :=
  match s.red.retired.find? fun e => e.1 == place.val with
  | some (_, _, t) => .next ((s.passToFleet t).setRed fun r => { r with retired := (r.retired.filter fun e => e.1 != place.val) })
  | none => .next s

/-- R448: the slots whose die is not in CLEAR; their exclusion reads 1. -/
def State.outMask (s : State) : Nat :=
  (upto 8).foldl (fun m d => m + (if s.get (Reg.FA_DIE_s_state d) = 0 then 0 else 2 ^ d)) 0

/-- A write of `RD_TS_EXCL` (R414, R426, R448): epochs that have ended keep the mask as it stood. -/
def State.wTsExcl (s : State) (v : Nat) : State :=
  let old := s.get Reg.RD_TS_EXCL_mask
  let s := s.setRed fun r => { r with entries := (r.entries.map fun en =>
    match en.now with
    | some c =>
      if levelOf en.base = 1 ∧ 2 ≤ en.state then
        let n := min 64 (subMod 32 (epochNo (epochQ c.t0 c.len s.fleet)) en.next)
        let es := (upto n).map fun i => (en.next + i) % 2 ^ 32
        -- an epoch whose end is this cycle has just passed into `epochQ`'s next
        { en with excl := en.excl ++ (es.filter fun e => !(en.excl.any fun x => x.1 == e)).map fun e => (e, old) }
      else en
    | none => en) }
  s.put Reg.RD_TS_EXCL_mask (v % 256 ||| s.outMask)

def State.rRedStatus (s : State) : Nat :=
  let n := fun (l : Nat) => (s.red.entries.filter fun e => levelOf e.base == l && e.state != 0).length
  2 ^ 31 * b2n (!s.red.results.isEmpty || s.red.entries.any fun e => e.folding) + 2 ^ 24 * n 3 + 2 ^ 16 * n 2 + n 1

/-- `STATE` of an entry. -/
def State.rEntryState (s : State) (base : Nat) : Nat :=
  let pend := s.ho.pend.any fun p => p.base == base
  match s.entry? base with
  | some en => en.state * 2 ^ 30 + 2 ^ 29 * b2n pend + (match en.now with | some c => c.stamp | none => 0)
  | none => 0

def State.rEntryEpoch (s : State) (base : Nat) : Nat :=
  match s.entry? base with
  | some en => s.entryEpoch en
  | none => 0

/-- Epochs that have begun and are not closed. -/
def State.rEntryOpen (s : State) (base : Nat) : Nat :=
  match s.entry? base with
  | some en =>
    let stop := match en.retireAt with | some f => f | none => (s.entryEpoch en + 1) % 2 ^ 32
    if en.state < 2 ∨ !(later 32 stop en.next) then 0 else min 64 (subMod 32 stop en.next)
  | none => 0

/-- `RD_RTAG_i` and `RD_RTAG_T_i`. -/
def State.rRtag (s : State) (i : Nat) : Nat :=
  match s.retiredTags.find? fun e => e.1 == i with | some (_, tag, _) => 2 ^ 31 + tag | none => 0

def State.rRtagT (s : State) (i : Nat) : Nat :=
  match s.retiredTags.find? fun e => e.1 == i with | some (_, _, t) => (t + 2 ^ 20 - 1) / 2 ^ 20 % 2 ^ 32 | none => 0

/-- Bit 5 of a strike's units (R426). -/
def State.redLatch (s : State) : State :=
  (s.wr64 Reg.RD_SNAP_IN_LO (s.rd64 Reg.RD_IN_LO)).wr Reg.RD_SNAP_PUB (s.rd Reg.RD_PUB)

end Sys2Proof.Machine
end

