-- ==== Sys2Proof/Machine/Counters.lean ====
section
/-! DEFINITION. The counter fabric (R224–R231): event counters, the gap count, the bunting and the host-queue monitors. -/

namespace Sys2Proof.Machine

/-! ### Event counters (R225–R228) -/

/-- R228: a 48-bit count plus `n`: the value, and whether it wrapped and saturated. -/
def count48 (sat : Bool) (v n : Nat) : Nat × Bool × Bool :=
  if v + n < 2 ^ 48 then (v + n, false, false)
  else if sat then (2 ^ 48 - 1, false, true)
  else ((v + n) % 2 ^ 48, true, false)

/-- Set bit `i` of a mask when `b`. -/
def setBitIf (m i : Nat) (b : Bool) : Nat := if b && !(bit m i) then m + 2 ^ i else m

/-- Clear bit `i` of a mask. -/
def clearBit (m i : Nat) : Nat := if bit m i then m - 2 ^ i else m

def zeroNat (_ : Nat) : Nat := 0

def State.evValue (s : State) (k : Nat) : Nat := Sparse.get zeroNat s.cf.ev k

/-- Counter `k` in a fast cycle with the given input levels (R225). -/
def State.evStep (s : State) (levels k : Nat) : State :=
  let i := s.get (Reg.CF_XB_k_input k)
  let hit := bit levels i && (s.get (Reg.CF_XB_k_edge k) == 0 || !(bit s.cf.prev i))
  if s.get (Reg.CF_XB_k_en k) == 1 && hit then
    let r := count48 (s.get (Reg.CF_XB_k_sat k) == 1) (s.evValue k) 1
    { s with cf := { s.cf with
        ev := Sparse.set zeroNat s.cf.ev k r.1
        evWrap := setBitIf s.cf.evWrap k r.2.1
        evSat := setBitIf s.cf.evSat k r.2.2 } }
  else s

/-- EVENT_INPUT_COUNT: one fast cycle of the event inputs. A latch of the same cycle has taken the value before this
increment (R233, R242).
[DEDUCED, safe: log entry 54] -/
def State.eventInputs (s : State) (levels : Nat) : State :=
  let s := (upto 1024).foldl (fun t k => t.evStep levels k) s
  { s with cf := { s.cf with prev := levels, fcyc := s.cf.fcyc + 1 } }

def execEventInputCount (levels : BitVec 1024) (s : State) : Host.Outcome State Fault Refusal :=
  .next (if s.active then s.eventInputs levels.toNat else s)

/-- The enabled event counters, one bit each. -/
def State.evEnabled (s : State) : Nat :=
  (upto 1024).foldl (fun m k => if s.get (Reg.CF_XB_k_en k) = 1 then m + 2 ^ k else m) 0

/-- The fast clock is stopped: neither running nor in reset (R226, R99). -/
def State.stopped (s : State) : Bool := s.pw.st == .sleep || s.pw.st == .waking || s.pw.st == .stopping

/-- GAP_COUNT (R226): one AON cycle with the fast clock stopped. -/
def State.gapCount (s : State) : State :=
  let en := s.evEnabled
  if s.stopped && en != 0 then
    let s := s.incr64 Reg.CF_GAP_LO 1
    { s with cf := { s.cf with evGap := s.cf.evGap ||| en } }
  else s

def execGapCount (s : State) : Host.Outcome State Fault Refusal := .next s.gapCount

/-! ### The bunting (R229, R230) -/

def State.btValue (s : State) (b : Nat) : Nat := Sparse.get zeroNat s.cf.bt b

def State.btStep (s : State) (incs b : Nat) : State :=
  if s.get (Reg.CF_BTX_b_en b) = 1 then
    let r := count48 (s.get (Reg.CF_BTX_b_sat b) == 1) (s.btValue b) (bits incs (4 * s.get (Reg.CF_BTX_b_input b)) 4)
    { s with cf := { s.cf with
        bt := Sparse.set zeroNat s.cf.bt b r.1
        btWrap := setBitIf s.cf.btWrap b r.2.1
        btSat := setBitIf s.cf.btSat b r.2.2 } }
  else s

/-- BUNTING_INCREMENT: one AON cycle of the bunting inputs. The values it replaces stay in the mirror's reach for the six
cycles of R230. -/
def State.bunting (s : State) (incs : Nat) : State :=
  let s := { s with cf := { s.cf with
    btHist := ((s.cyc + 1, s.cf.bt, s.cf.btWrap, s.cf.btSat) :: s.cf.btHist).filter fun h => decide (s.cyc < h.1 + 6) } }
  let s := (upto 128).foldl (fun t b => t.btStep incs b) s
  { s with cyc := s.cyc + 1 }

def execBuntingIncrement (incs : BitVec 512) (s : State) : Host.Outcome State Fault Refusal :=
  .next (if s.pw.aonRst || s.pw.st == .off then s else s.bunting incs.toNat)

/-- What the fast domain's mirror of the bunting shows (R230): the values, `wrap` and `sat` that stood in AON cycle
`mirAt`. -/
def State.btSeen (s : State) : Sparse Nat × Nat × Nat :=
  match (s.cf.btHist.filter fun h => decide (s.cf.mirAt < h.1)).getLast? with
  | some h => h.2
  | none => (s.cf.bt, s.cf.btWrap, s.cf.btSat)

/-! ### Host-queue monitors (R231) -/

/-- An idle monitor. -/
def noMonitor (_ : Nat) : Monitor := {}

def State.mon (s : State) (h : Nat) : Monitor := Sparse.get noMonitor s.cf.mons h

def State.setMon (s : State) (h : Nat) (m : Monitor) : State :=
  { s with cf := { s.cf with mons := Sparse.set noMonitor s.cf.mons h m } }

/-- R231 step 1: depth, its maximum and the counts. A dequeue with an enqueue in one cycle leaves the depth (R242). -/
def Monitor.strobe (m : Monitor) (enq deq : Bool) : Monitor :=
  let under := deq && !enq && m.depth == 0
  let depth := if enq && deq then m.depth else if enq then min (m.depth + 1) (2 ^ 32 - 1) else if deq then m.depth - 1 else m.depth
  { m with depth := depth, max := Nat.max m.max depth, under := m.under || under
           enq := m.enq + b2n enq, deq := m.deq + b2n (deq && !under)
           marker := if under then none else m.marker }

/-- R231 steps 2 and 3 at fleet time `now`. -/
def Monitor.mark (m : Monitor) (enq deq : Bool) (now : Nat) : Monitor :=
  let m := match m.marker with
    | some (t, target) =>
      if deq && m.deq == target then
        let d := subMod 64 now t
        { m with marker := none, delay := min d (2 ^ 32 - 1), delaySat := decide (2 ^ 32 - 1 < d)
                 markers := min (m.markers + 1) 0xFFFF }
      else m
    | none => m
  if enq && m.marker.isNone then { m with marker := some (now, m.enq) } else m

/--
[DEDUCED, unsafe: log entry 57] -/
def State.monStep (s : State) (levels h : Nat) : State :=
  if s.get (Reg.CF_HQ_CFG_h_en h) = 1 then
    let enq := bit levels (s.get (Reg.CF_HQ_CFG_h_enq h))
    let deq := bit levels (s.get (Reg.CF_HQ_CFG_h_deq h))
    s.setMon h (((s.mon h).strobe enq deq).mark enq deq s.fleet)
  else s

/-- HOST_QUEUE_MONITOR: one fast cycle of the strobe inputs. -/
def execHostQueueMonitor (levels : BitVec 1024) (s : State) : Host.Outcome State Fault Refusal :=
  .next (if s.active then (upto 64).foldl (fun t h => t.monStep levels.toNat h) s else s)

/-- R227: the fabric holds the fast clock. -/
def State.fabricHolds (s : State) : Bool :=
  (s.get Reg.CF_CTRL_hold_ev == 1 && s.evEnabled != 0) || (upto 64).any fun h => s.get (Reg.CF_HQ_CFG_h_en h) == 1

end Sys2Proof.Machine
end

