-- ==== Sys2Proof/Machine/Sampling.lean ====
section
/-! DEFINITION. Sampling (R232–R241): latch banks, areas and their records, the plans, the SAMPLE command and the snapshot
record. -/

namespace Sys2Proof.Machine

/-- The fast cycle of a latch. Event inputs end a cycle; so does a change of the AON cycle. -/
def State.cycleId (s : State) : Nat × Nat := (s.cyc, s.cf.fcyc)

def State.setCf (s : State) (f : Counters → Counters) : State := { s with cf := f s.cf }

/-! ### Entries (R240) -/

/-- The fast cycle uses the bunting's mirror: it is at most six AON cycles old, never older than it was before, and one copy
serves every latch of the cycle (R230, R242).
[DESIGN CHOICE, safe: log entry 55] -/
def State.mirrorOf (s : State) : State :=
  if s.cf.mirId = some s.cycleId then s
  else (s.setCf fun c => { c with mirAt := max c.mirAt (s.cyc - s.drawn 16 % 7), mirId := some s.cycleId }).draw

/-- The 64-bit entry of counter `k` now, without `boundary`; `bt` is what the bunting's mirror shows. -/
def State.entryWord (s : State) (bt : Sparse Nat × Nat × Nat) (k : Nat) : Nat :=
  if k < 1024 then
    s.evValue k + 2 ^ 48 * b2n (bit s.cf.evWrap k) + 2 ^ 49 * b2n (bit s.cf.evSat k) + 2 ^ 51 * b2n (bit s.cf.evGap k) +
      2 ^ 52 * (1 - s.get (Reg.CF_XB_k_en k))
  else
    let b := k - 1024
    Sparse.get zeroNat bt.1 b + 2 ^ 48 * b2n (bit bt.2.1 b) + 2 ^ 49 * b2n (bit bt.2.2 b) + 2 ^ 52 * (1 - s.get (Reg.CF_BTX_b_en b))

/-- The entry a latch takes: the value before a reset of this very cycle, with `boundary` (R234). -/
def State.latchWord (s : State) (bt : Sparse Nat × Nat × Nat) (k : Nat) : Nat :=
  match s.cf.mark with
  | some m =>
    if m.id = s.cycleId then
      match m.pre.find? fun e => e.1 == k with
      | some e => e.2 + 2 ^ 50
      | none => s.entryWord bt k
    else s.entryWord bt k
  | none => s.entryWord bt k

/-- The 16-byte entry of host queue `h`. -/
def State.hqEntry (s : State) (h : Nat) : List Byte :=
  let m := s.mon h
  leBytes 4 m.depth ++ leBytes 4 m.max ++ leBytes 4 m.delay ++ leBytes 2 m.markers ++
    leBytes 1 (b2n m.under + 2 * b2n m.marker.isSome + 4 * (1 - s.get (Reg.CF_HQ_CFG_h_en h)) + 8 * b2n m.delaySat) ++ leBytes 1 h

/-- Record bytes of a payload, padded (R237). -/
def recLen (n : Nat) : Nat := (32 + n + 31) / 32 * 32

def Bank.len (b : Bank) : Nat := recLen (8 * b.ents.length + b.hqs.length)

/-- The record's bytes (R239). -/
def Bank.bytes (b : Bank) (seq : Nat) : List Byte :=
  let boundary := b.bq.isSome && b.ents.any fun e => bit e.2 50
  let gap := b.ents.any fun e => bit e.2 51
  let bq := if boundary then (b.bq.getD (0, 0)) else (0, 0)
  padTo b.len (leBytes 1 b.kind ++ leBytes 1 (b.flags + 2 * b2n boundary + 4 * b2n gap) ++ leBytes 1 b.area ++ leBytes 1 b.queue ++
    leBytes 2 b.first ++ leBytes 2 b.count ++ leBytes 8 b.time ++ leBytes 2 b.gen ++ leBytes 2 seq ++
    leBytes 1 (bq.1 + 128 * b2n boundary) ++ leBytes 1 0 ++ leBytes 2 bq.2 ++ leBytes 4 b.len ++ leBytes 4 b.tag ++
    (b.ents.flatMap fun e => leBytes 8 e.2) ++ b.hqs)

/-! ### Banks (R236) -/

def State.bankFree (s : State) : Bool := decide (s.cf.banks.length < 4)

/-- Order of the records of one cycle: SAMPLE, plans in ascending number, snapshot. -/
def Bank.rank (b : Bank) : Nat := match b.cmd, b.plan with | some _, _ => 0 | none, some p => p + 1 | none, none => 17

/-- Take a bank: behind every record of an earlier cycle. -/
def State.takeBank (s : State) (b : Bank) : State :=
  s.setCf fun c => { c with banks := insertBy (fun x y => x.id == y.id && decide (x.rank < y.rank)) b c.banks }

/-- Latch of counter list `ks`. -/
def State.latchEnts (s : State) (ks : List Nat) : List (Nat × Nat) × State :=
  let s := s.mirrorOf
  (ks.map fun k => (k, s.latchWord s.btSeen k), s)

/-- The finishing SAMPLE of this cycle (R234). -/
def State.finishing (s : State) : Option (Nat × Nat) :=
  match s.cf.mark with
  | some m => if m.id = s.cycleId then some (m.q, m.seq) else none
  | none => none

/-! ### Areas (R237, R238) -/

def State.areaBytes (s : State) (a : Nat) : Nat := s.get (Reg.CF_AREA_p_size a) * 32
def State.areaStop (s : State) (a : Nat) : Bool := s.get (Reg.CF_AREA_p_mode a) == 1

/-- Room of an area, less the records waiting in banks for it. -/
def State.areaRoom (s : State) (a : Nat) : Nat :=
  let used := subMod 32 (s.rd (Reg.CF_AREA_WR_p a)) (s.rd (Reg.CF_AREA_RD_p a))
  let wait := (s.cf.banks.filter fun b => b.area == a).foldl (fun n b => n + b.len) 0
  s.areaBytes a - (used + wait)

/-- A record of `n` bytes is refused by the area at its latch: stop mode without room, or larger than the area.
[DEDUCED, safe: log entry 56] -/
def State.areaRefuses (s : State) (a n : Nat) : Bool :=
  decide (s.areaBytes a < n) || (s.areaStop a && decide (s.areaRoom a < n))

def State.areaRecs (s : State) (a : Nat) : List (Nat × Nat) :=
  (s.cf.recs.getD a []).filter fun r => later 32 (r.1 + r.2) (s.rd (Reg.CF_AREA_RD_p a))

/-- R238, overwrite mode: advance RD over the oldest whole records until `n` bytes fit. -/
def State.makeRoom (s : State) (a n : Nat) : List (Nat × Nat) → State
  | [] => s.setCf fun c => { c with recs := modAt c.recs a fun _ => [] }
  | r :: rs =>
    if n ≤ s.areaBytes a - subMod 32 (s.rd (Reg.CF_AREA_WR_p a)) (s.rd (Reg.CF_AREA_RD_p a)) then
      s.setCf fun c => { c with recs := modAt c.recs a fun _ => r :: rs }
    else
      let s := s.setCf fun c => { c with rdAdv := modAt c.rdAdv a fun _ => some s.cycleId }
      State.makeRoom ((s.wr (Reg.CF_AREA_RD_p a) ((r.1 + r.2) % 2 ^ 32)).bump (Reg.CF_AREA_DROP_p_dropped a) 1) a n rs

/-- Byte `i` of a record written at byte count `wr` of area `a`: continuing at the area's base (R237). -/
def State.areaAddr (s : State) (a wr i : Nat) : Nat :=
  s.get (Reg.CF_AREA_p_base a) * 32 + (wr + i) % (s.areaBytes a)

def State.areaPut (s : State) (a wr : Nat) (bs : List Byte) : State :=
  s.setCf fun c => { c with
    sbuf := bs.zipIdx.foldl (fun m (b, i) => m.write (s.areaAddr a wr i) b) c.sbuf
    sbufBad := c.sbufBad.filter fun k => !((upto bs.length).any fun i => touches (s.areaAddr a wr i) 1 k) }

/-- Write a bank's record into its area; the record's byte offset in the buffer. -/
def State.areaWrite (s : State) (b : Bank) : Nat × State :=
  let a := b.area
  let s := s.makeRoom a b.len (s.areaRecs a)
  let wr := s.rd (Reg.CF_AREA_WR_p a)
  let seq := s.cf.areaSeq.getD a 0
  let off := s.areaAddr a wr 0
  let s := s.areaPut a wr (b.bytes seq)
  let s := (s.wr (Reg.CF_AREA_WR_p a) ((wr + b.len) % 2 ^ 32)).bump Reg.CF_RECORDS_count 1
  (off, s.setCf fun c => { c with
    areaSeq := modAt c.areaSeq a fun n => (n + 1) % 2 ^ 16
    recs := modAt c.recs a fun l => l ++ [(wr, b.len)] })

/-- A consumer's write of RD; in the cycle of an advance by the block the later of the two values stands (R238). -/
def State.wAreaRd (s : State) (a v : Nat) : State :=
  if s.cf.rdAdv.getD a none = some s.cycleId ∧ later 32 v (s.rd (Reg.CF_AREA_RD_p a)) = false then s else s.wr (Reg.CF_AREA_RD_p a) v

/-! ### Plans (R232) -/

/-- A plan fires when its interval, its list and its area are not 0. -/
def State.planFires (s : State) (p : Nat) : Bool :=
  s.get (Reg.CF_PLAN_IVL_p_us p) != 0 && s.get (Reg.CF_PLAN_CFG_p_len p) != 0 && s.get (Reg.CF_AREA_p_size p) != 0

def State.planPer (s : State) (p : Nat) : Nat := s.get (Reg.CF_PLAN_IVL_p_us p) * usTicks

def State.planNext (s : State) (p : Nat) : Nat := s.rd64 (Reg.CF_PLAN_NEXT_LO_p p)

/-- The first due time not earlier than fleet time now and not earlier than `start`. -/
def State.planFirst (s : State) (p : Nat) : Nat :=
  let start := s.rd64 (Reg.CF_PLAN_START_LO_p p)
  let per := s.planPer p
  if s.reached start && per != 0 then (start + (s.sinceFleet start + per - 1) / per * per) % 2 ^ 64 else start

def State.planArm (s : State) (p : Nat) : State :=
  if s.planFires p then s.wr64 (Reg.CF_PLAN_NEXT_LO_p p) (s.planFirst p) else s

def State.planList (s : State) (p : Nat) : List Nat :=
  (upto (s.get (Reg.CF_PLAN_CFG_p_len p))).map fun i =>
    s.get (Reg.CF_LIST_i_index (s.get (Reg.CF_PLAN_CFG_p_base p) + i))

/-- A kind 1 record clears what it includes (R240).
[DEDUCED, safe: log entry 58] -/
def State.clearMons (s : State) (hs : List Nat) : State :=
  hs.foldl (fun t h => t.setMon h { t.mon h with max := 0, markers := 0, under := false }) s

/-- The latch of plan `p` for due time `due`. -/
def State.planLatch (s : State) (p due : Nat) : State :=
  let kind := s.get (Reg.CF_PLAN_CFG_p_kind p)
  let ks := s.planList p
  let n := recLen (if kind = 1 then 16 * ks.length else 8 * ks.length)
  if !s.bankFree then s.bump (Reg.CF_PLAN_TALLY_p_missed p) 1
  else if s.areaRefuses p n then
    let s := if s.areaStop p then s.bump (Reg.CF_AREA_DROP_p_refused p) 1 else s
    s.bump (Reg.CF_PLAN_TALLY_p_missed p) 1
  else
    let flags := 16 * b2n (decide (usTicks < s.sinceFleet due))
    let b : Bank := { area := p, kind := kind, id := s.cycleId, plan := some p, flags := flags,
                      first := s.get (Reg.CF_PLAN_CFG_p_base p), count := ks.length, time := s.fleet, gen := s.get Reg.HO_LIVE_gen,
                      bq := s.finishing, ents := [] }
    if kind = 1 then (s.takeBank { b with hqs := ks.flatMap s.hqEntry }).clearMons ks
    else
      let r := s.latchEnts ks
      r.2.takeBank { b with ents := r.1 }

/-- A commit's drain holds the plan's trigger: it changes sections 0x04 or 0x05 (R157). -/
def State.planHeld (s : State) : Bool := s.ho.phase == 1 && decide (s.ho.changed &&& (2 ^ 4 + 2 ^ 5) ≠ 0)

/-- PLAN_LATCH: due times stepped past but for the latest are missed (R232). -/
def State.planDue (s : State) (p : Nat) : State :=
  if !(s.planFires p) then s
  else
    let due := s.planNext p
    let s := s.passToFleet due
    let n := s.sinceFleet due / s.planPer p
    let s := (s.bump (Reg.CF_PLAN_TALLY_p_missed p) n).wr64 (Reg.CF_PLAN_NEXT_LO_p p) ((due + (n + 1) * s.planPer p) % 2 ^ 64)
    let last := (due + n * s.planPer p) % 2 ^ 64
    if s.planHeld then s.setCf fun c => { c with held := modAt c.held p fun l => l ++ [last] }
    else s.planLatch p last

def execPlanLatch (plan : Fin 16) (s : State) : Host.Outcome State Fault Refusal :=
  .next (if s.active then s.planDue plan.val else s)

/-! ### SAMPLE (R233–R236) -/

/-- Reset the event counters of a latched range and leave the mark of R234; records latched earlier in this cycle take
`boundary` too. -/
def State.resetRange (s : State) (q seq : Nat) (ents : List (Nat × Nat)) : State :=
  let pre := ents.filter fun e => decide (e.1 < 1024)
  let hit := fun (e : Nat × Nat) => if pre.any (fun x => x.1 == e.1) && !(bit e.2 50) then (e.1, e.2 + 2 ^ 50) else e
  s.setCf fun c => { c with
    ev := pre.foldl (fun m e => Sparse.set zeroNat m e.1 0) c.ev
    evWrap := pre.foldl (fun m e => clearBit m e.1) c.evWrap
    evSat := pre.foldl (fun m e => clearBit m e.1) c.evSat
    evGap := pre.foldl (fun m e => clearBit m e.1) c.evGap
    mark := some { id := s.cycleId, q := q, seq := seq, pre := pre }
    banks := c.banks.map fun b => if b.id = s.cycleId then { b with bq := some (q, seq), ents := b.ents.map hit } else b }

/-- Word 2 of the result (R235). -/
def sampleWord2 (reset : Bool) (ents : List (Nat × Nat)) : Nat :=
  b2n reset + 2 * b2n (ents.any fun e => bit e.2 48) + 4 * b2n (ents.any fun e => bit e.2 49) + 8 * b2n (ents.any fun e => bit e.2 51)

/-- The latch of a SAMPLE, a bank being free. -/
def State.sampleLatch (s : State) (q : Nat) (f : Flight) : State :=
  let c := f.cmd
  let first := field c 8 2
  let count := field c 10 2
  let a := field c 12 1
  let reset := field c 13 1 == 1
  let r := s.latchEnts ((upto count).map fun i => first + i)
  let s := r.2
  let ents := if reset then r.1.map fun e => (e.1, if bit e.2 50 then e.2 - 2 ^ 50 else e.2) else r.1
  let over_ := s.sinceFleet ((f.at_ + 16000) % 2 ^ 64)
  let b : Bank := { area := a, kind := 0, id := s.cycleId, cmd := some (q, f.seq), flags := b2n reset + 8, queue := q, first := first,
                    count := count, time := s.fleet, gen := s.get Reg.HO_LIVE_gen, tag := field c 4 4,
                    bq := if reset then none else s.finishing, ents := ents, word2 := sampleWord2 reset ents,
                    code := if over_ = 0 then Code.OK else Code.DEADLINE_MISS, arg := over_ / usTicks }
  let s := if reset then s.resetRange q f.seq ents else s
  s.takeBank b

/-- A SAMPLE goes to its latch, waits for a bank, or completes without reading anything (R235). -/
def State.runSample (s : State) (q : Nat) (f : Flight) : State :=
  let a := field f.cmd 12 1
  let n := recLen (8 * field f.cmd 10 2)
  if s.areaStop a && decide (s.areaRoom a < n) then s.finish q f.seq { code := Code.REFUSED_FULL }
  else if s.areaBytes a = 0 then s.finish q f.seq { code := 0x90 }
  else if s.areaBytes a < n then s.finish q f.seq { code := 0x91 }
  else if s.bankFree then s.sampleLatch q f
  else s.setCf fun c => { c with waiting := c.waiting ++ [(q, f.seq)] }

/-- The next fast cycle. -/
def State.nextCycle (s : State) : State := s.setCf fun c => { c with fcyc := c.fcyc + 1 }

/-- The engine issues at most one command per fast cycle (R160): a second SAMPLE or SNAPSHOT falls in the next one. -/
def State.issueCycle (s : State) : State :=
  let s := if s.cf.issued = some s.cycleId then s.nextCycle else s
  s.setCf fun c => { c with issued := some s.cycleId }

def execSample (q : Fin 16) (s : State) : Host.Outcome State Fault Refusal :=
  .next (s.issue q.val (some 0x01) fun t q f => t.issueCycle.runSample q f)

/-! ### The snapshot record (R241) -/

/-- Bit 0 of a strike's units: latch everything into one kind 2 record, when it is enabled and can be written. -/
def State.snapLatch (s : State) : State :=
  let a := s.get Reg.CF_SNAP_CFG_area
  let ok := s.get Reg.CF_SNAP_CFG_en == 1 && !(s.areaRefuses a 10272)
  if ok && !s.bankFree then s.setCf fun c => { c with snapWait := c.snapWait + 1 }
  else
    let s := s.wr64 Reg.CF_SNAP_TIME_LO s.fleet
    if !ok then s.put Reg.CF_SNAP_OFF_valid 0
    else
      let r := s.latchEnts (upto 1152)
      let hqs := (upto 64).flatMap s.hqEntry
      r.2.takeBank { area := a, kind := 2, id := s.cycleId, flags := 0, first := 0, count := 1216, time := s.fleet,
                     gen := s.get Reg.HO_LIVE_gen, bq := s.finishing, ents := r.1, hqs := hqs }

/-! ### A bank empties (R236) -/

/-- What the record's end does for what latched it. -/
def State.bankDone (s : State) (b : Bank) (off : Nat) : State :=
  match b.cmd with
  | some (q, seq) => s.finish q seq { code := b.code, res := [off, b.len, b.word2], arg := b.arg }
  | none =>
    match b.plan with
    | some p => s.bump (Reg.CF_PLAN_TALLY_p_fired p) 1
    | none => (s.put Reg.CF_SNAP_OFF_valid 1).put Reg.CF_SNAP_OFF_offset off

/-- SAMPLEs that wait for a bank latch in order while one is free; one that has ended, or that its area now refuses, gives
its turn to the next. -/
def State.sampleWaiters : List (Nat × Nat) → State → State
  | [], s => s.setCf fun c => { c with waiting := [] }
  | (q, seq) :: ws, s =>
    if s.bankFree then
      State.sampleWaiters ws (match s.flight? q seq with
        | some f => if f.done.isNone then s.runSample q f else s
        | none => s)
    else s.setCf fun c => { c with waiting := (q, seq) :: ws }

/-- So do snapshots, each with a latch and a record of its own (R241). -/
def State.snapWaiters : Nat → State → State
  | 0, s => s
  | n + 1, s => if s.bankFree then State.snapWaiters n ((s.setCf fun c => { c with snapWait := n }).snapLatch) else s

/-- A bank is free: what waits for one latches in this cycle (R236). -/
def State.bankWaiters (s : State) : State :=
  let s := State.sampleWaiters s.cf.waiting s
  State.snapWaiters s.cf.snapWait s

/-- LATCH_BANK_DRAIN: the oldest bank's record enters its area. -/
def State.bankDrain (s : State) : State :=
  match s.cf.banks with
  | [] => s
  | b :: bs =>
    let r := (s.nextCycle.setCf fun c => { c with banks := bs }).areaWrite b
    (r.2.bankDone b r.1).bankWaiters.need

def execLatchBankDrain (s : State) : Host.Outcome State Fault Refusal := .next (if s.active then s.bankDrain else s)

/-! ### A commit's end (R157, R232) -/

/-- A swap changed a field of the plan, of the list entries it reads or of its area, by register offsets `touched`. -/
def State.planTouched (s : State) (p : Nat) (touched : Nat → Bool) : Bool :=
  touched (Reg.CF_PLAN_CFG_p p) || touched (Reg.CF_PLAN_IVL_p p) || touched (Reg.CF_PLAN_START_LO_p p) ||
    touched (Reg.CF_PLAN_START_HI_p p) || touched (Reg.CF_AREA_p p) ||
    (upto (s.get (Reg.CF_PLAN_CFG_p_len p))).any fun i => touched (Reg.CF_LIST_i (s.get (Reg.CF_PLAN_CFG_p_base p) + i))

/-- After a swap: a changed plan's held trigger is dropped and missed and the plan starts afresh; another's latches. -/
def State.planSwap (s : State) (touched : Nat → Bool) : State :=
  (upto 16).foldl (fun t p =>
    let h := (t.cf.held.getD p [])
    let t := t.setCf fun c => { c with held := modAt c.held p fun _ => [] }
    if t.planTouched p touched then (t.bump (Reg.CF_PLAN_TALLY_p_missed p) h.length).planArm p
    else h.foldl (fun u due => u.planLatch p due) t) s

/-- `CF_STATUS`. -/
def State.fabricStatus (s : State) : Nat := s.cf.banks.length * 32 + 16 * b2n s.fabricHolds

/-- A word of the buffer window (R244). -/
def State.rSampleWin (s : State) (off : Nat) : Nat := s.cf.sbuf.nat (65536 * s.get Reg.CF_BUF_PAGE_page + off % 65536) 4

end Sys2Proof.Machine
end

