-- ==== Sys2Proof/Machine/Scoring.lean ====
section
/-! DEFINITION. The tree-ensemble scoring engine (R334–R359): the front stage, traversal, the probability table, score
records and completion. -/

namespace Sys2Proof.Machine

/-! ### FP32 (R338–R340) -/

/-- A value in units of 2⁻²⁹⁸ rounded to FP32, to nearest, ties to even: in units of 2⁻¹⁴⁹, or an infinity. -/
def toFp32 (n : Int) : Elem :=
  let a := n.natAbs
  let u := max (Nat.log2 a - 23) 149
  let v := rne a (2 ^ u) * 2 ^ (u - 149)
  if 2 ^ 277 ≤ v then .inf (decide (n < 0)) else .fin (if n < 0 then -(v : Int) else v)

/-- `a × b + c` with one rounding (R339). -/
def fma32 (a b c : Elem) : Elem :=
  let sgn := fun (v : Int) => decide (v < 0)
  let add := fun (p : Elem) => match p, c with
    | .nan, _ => Elem.nan
    | _, .nan => .nan
    | .inf m, .inf n => if m = n then .inf m else .nan
    | .inf m, _ => .inf m
    | _, .inf n => .inf n
    | .fin u, .fin v => toFp32 (u + v * 2 ^ 149)
  match a, b with
  | .nan, _ => .nan
  | _, .nan => .nan
  | .inf m, .inf n => add (.inf (m != n))
  | .inf m, .fin v => if v = 0 then .nan else add (.inf (m != sgn v))
  | .fin u, .inf n => if u = 0 then .nan else add (.inf (n != sgn u))
  | .fin u, .fin v => add (.fin (u * v))

/-- An exact integer as an FP32 value. -/
def intElem (n : Nat) : Elem := .fin ((n : Int) * 2 ^ 149)

/-- `x < y` for values that are not NaN. -/
def Elem.lt : Elem → Elem → Bool
  | .inf m, .inf n => m && !n
  | .inf m, .fin _ => m
  | .fin _, .inf n => !n
  | .fin u, .fin v => decide (u < v)
  | _, _ => false

def fp32 (w : Nat) : Elem := elemOf 1 w false

/-! ### The front stage (R335, R339–R343) -/

/-- Bytes of both front-stage banks, which come before the probability banks in memory 4 (R502). -/
def frontBytes : Nat := 163840

/-- Byte of front-stage entry `e` of the live bank. -/
def State.frontAt (s : State) (e : Nat) : Nat := 16 * (5120 * s.get Reg.SC_FS_CFG_bank + e)

/-- The 16 bytes of front-stage entry `e` of the live bank. -/
def State.fsEntry (s : State) (e : Nat) : List Byte :=
  s.sc.front.bytes (s.frontAt e) 16

/-- Edge `n` of the pool. -/
def State.fsEdge (s : State) (n : Nat) : Elem := fp32 (field (s.fsEntry (1536 + n / 4)) (4 * (n % 4)) 4)

/-- R335: a raw slot's value; `none` is missing. -/
def slotValue (vec : List Byte) (slots slot kind : Nat) : Option Elem :=
  if slots ≤ slot then none
  else
    let w := field vec (8 * slot) 8
    let lo := w % 2 ^ 32
    let whole := fun (n : Int) => toFp32 (n * 2 ^ 298)
    match kind with
    | 0 => if bit w 63 then none else some (fp32 lo)
    | 1 => if bit w 63 then none else some (whole (toSigned 32 lo))
    | 2 => if bit w 52 || bit w 51 then none else some (whole (w % 2 ^ 48))
    | _ => if bit w 63 then none else some (whole lo)

/-- A raw feature: enabled, its edge count, its scaled value and its bin; no value where it is missing. -/
structure RawFeat where
  en   : Bool
  ne   : Nat
  x    : Option Elem := none
  bin  : Option Nat := none
  err  : Bool := false
  /-- An edge lies in a lost codeword (R502). -/
  lost : Bool := false
deriving DecidableEq, Repr

/-- R339, R340: raw feature `r` of a vector. -/
def State.rawFeat (s : State) (vec : List Byte) (slots r : Nat) : RawFeat :=
  let e := s.fsEntry r
  let w := field e 0 2
  let ne := field e 2 2 % 2 ^ 9
  let eb := field e 12 2 % 2 ^ 14
  let bad := bits w 12 3 != 0 || decide (2 ^ 9 ≤ field e 2 2) || decide (2 ^ 14 ≤ field e 12 2) || field e 14 2 != 0
  let en := bit w 15
  if bad then { en := en, ne := ne, err := true }
  else if !en then { en := false, ne := ne }
  else
    match slotValue vec slots (w % 2 ^ 10) (bits w 10 2) with
    | none => { en := true, ne := ne }
    | some v =>
      let x := fma32 v (fp32 (field e 4 4)) (fp32 (field e 8 4))
      if ne = 0 then { en := true, ne := 0, x := some x }
      else if 14336 < eb + ne ∨ 255 < ne then { en := true, ne := ne, err := true }
      else
        match x with
        | .nan => { en := true, ne := ne }
        | x => { en := true, ne := ne, x := some x, lost := lostIn s.sc.tabBad (s.frontAt 1536 + 4 * eb) (4 * ne)
                 bin := some (((upto ne).filter fun k => let g := s.fsEdge (eb + k); g != .nan && !(x.lt g)).length) }

/-- The value a raw feature gives as a prepared feature. -/
def RawFeat.value (f : RawFeat) : Option Elem :=
  if f.ne = 0 then f.x else f.bin.map intElem

/-- R341: crossed feature `c`; the value and whether it counts in `xsrc`. -/
def State.crossFeat (s : State) (raws : List RawFeat) (c : Nat) : Option Elem × Bool :=
  let e := s.fsEntry (1024 + c)
  let w := field e 0 2
  if bits w 10 5 != 0 || decide (2 ^ 10 ≤ field e 2 2) || field e 7 9 != 0 then (none, true)
  else if !(bit w 15) then (none, false)
  else
    let a := raws.getD (w % 2 ^ 10) { en := false, ne := 0 }
    let b := raws.getD (field e 2 2) { en := false, ne := 0 }
    let op := field e 4 1
    if 2 < op ∨ a.en = false ∨ b.en = false ∨ a.ne = 0 ∨ b.ne = 0 then (none, true)
    else
      match a.bin, b.bin with
      | some x, some y =>
        (some (intElem (match op with
          | 0 => x * (b.ne + 1) + y
          | 1 => x * y
          | _ => b2n (x == field e 5 1 && y == field e 6 1))), false)
      | _, _ => (none, false)

/-- R342: alias feature `i`. -/
def State.aliasFeat (s : State) (raws : List RawFeat) (i : Nat) : Option Elem × Bool :=
  let e := s.fsEntry (1280 + i)
  let w := field e 0 2
  if bits w 10 5 != 0 || field e 2 14 != 0 then (none, true)
  else if !(bit w 15) then (none, false)
  else
    let a := raws.getD (w % 2 ^ 10) { en := false, ne := 0 }
    (if a.en && !a.err then a.x else none, false)

/-- R338–R342: the prepared features of a vector, how many a descriptor fault made missing, and whether an entry read lies
in a lost codeword (R502). -/
def State.prepare (s : State) (vec : List Byte) (slots : Nat) : List (Option Elem) × Nat × Bool :=
  let raws := (upto 1024).map fun r => s.rawFeat vec slots r
  let cross := (upto 256).map fun c => s.crossFeat raws c
  let alias_ := (upto 256).map fun i => s.aliasFeat raws i
  (raws.map RawFeat.value ++ cross.map (fun p => p.1) ++ alias_.map (fun p => p.1),
    (raws.filter fun r => r.err).length + (cross.filter fun p => p.2).length + (alias_.filter fun p => p.2).length,
    lostIn s.sc.tabBad (s.frontAt 0) (16 * 1536) || raws.any fun r => r.lost)

/-! ### Traversal (R344–R350) -/

/-- A model's descriptor. -/
structure ModelCfg where
  num   : Nat
  base  : Nat
  span  : Nat
  depth : Nat
  trees : Nat
  slots : Nat
deriving DecidableEq, Repr

def State.model (s : State) (m : Nat) : ModelCfg :=
  { num := m, base := s.get (Reg.SC_MD_BASE_m_base m), span := s.get (Reg.SC_MD_SPAN_m_span m)
    depth := s.get (Reg.SC_MD_SPAN_m_depth_max m), trees := s.get (Reg.SC_MD_CFG_m_ntrees m)
    slots := s.get (Reg.SC_MD_CFG_m_vec_slots m) }

def ModelCfg.dir (m : ModelCfg) : Nat := (m.trees + 3) / 4

/-- Node-table entries of the role. -/
def State.nodeCount (s : State) : Nat := if s.tray then 262144 else 131072

def State.node (s : State) (e : Nat) : List Byte := s.sc.nodes.bytes (16 * e) 16

/-- What a traversal found: its code, leaf, default decisions, visits and the last entry visited. -/
structure TreeRes where
  code   : Nat := Code.OK
  value  : Int := 0
  dflt   : Nat := 0
  visits : Nat := 0
  entry  : Nat := 0
deriving DecidableEq, Repr

/-- R346: a visited entry is well formed. -/
def nodeOk (m : ModelCfg) (off : Nat) (e : List Byte) : Bool :=
  let w := field e 0 2
  let l := field e 8 4
  let r := field e 12 4
  decide (m.dir ≤ off) && field e 2 2 == 0 &&
  (if bit w 15 then w % 2 ^ 15 == 0 && field e 4 4 == 0
   else bits w 12 3 == 0 && decide (w % 2 ^ 11 ≤ 1535) && fp32 (field e 4 4) != .nan && decide (l < m.span) && decide (r < m.span))

/-- R346, R347: visit nodes from offset `off`, at most `n` of them. -/
def State.descend (s : State) (m : ModelCfg) (fs : List (Option Elem)) : Nat → Nat → TreeRes → TreeRes
  | 0, _, t => { t with code := 0x62 }
  | n + 1, off, t =>
    let e := s.node (m.base + off)
    let t := { t with visits := t.visits + 1, entry := m.base + off }
    if lostIn s.sc.nodeBad (16 * (m.base + off)) 16 then { t with code := Code.UNCORRECTABLE }
    else if !(nodeOk m off e) then { t with code := 0x61 }
    else
      let w := field e 0 2
      if bit w 15 then { t with value := toSigned 64 (field e 8 8) }
      else
        let dir : Bool × Bool := match fs.getD (w % 2 ^ 11) none with
          | none => (bit w 11, true)
          | some .nan => (bit w 11, true)
          | some f => (!(f.lt (fp32 (field e 4 4))), false)
        State.descend s m fs n (if dir.1 then field e 12 4 else field e 8 4) { t with dflt := t.dflt + b2n dir.2 }

/-- One tree (R345); a lost directory entry loses each tree it names (R360). -/
def State.runTree (s : State) (m : ModelCfg) (fs : List (Option Elem)) (t : Nat) : TreeRes :=
  let root := field (s.node (m.base + t / 4)) (4 * (t % 4)) 4
  if lostIn s.sc.nodeBad (16 * (m.base + t / 4)) 16 then { code := Code.UNCORRECTABLE, entry := m.base + t / 4 }
  else if m.span ≤ root ∨ root < m.dir then { code := 0x61, entry := m.base + t / 4 }
  else s.descend m fs (m.depth + 1) root {}

/-! ### The probability table (R351, R352) -/

/-- Byte of probability `i` of table `m` of the live bank. -/
def State.probAt (s : State) (m i : Nat) : Nat := 16 * (1024 * s.get Reg.SC_PT_CFG_bank + 128 * m + i / 8) + 2 * (i % 8)

/-- `prob` and `clip` of a sum, and whether the entry lies in a lost codeword. -/
def State.probOf (s : State) (m : Nat) (sum : Int) : Nat × Bool × Bool :=
  let i := asr (sum - toSigned 64 (s.rd64 (Reg.SC_MD_PBASE_LO_m m))) (s.get (Reg.SC_MD_PROB_m_p_shift m))
  let a := s.probAt m (max 0 (min 1023 i)).toNat
  (s.sc.prob.nat a 2, decide (i < 0 ∨ 1023 < i), lostIn s.sc.tabBad (frontBytes + a) 2)

/-! ### A vector (R349, R350, R353) -/

/-- The score record. -/
def scoreRecord (sum prob status flags model gen trees dflt vidx : Nat) : List Byte :=
  let h := leBytes 10 sum ++ leBytes 2 prob ++ leBytes 1 status ++ leBytes 1 flags ++ leBytes 1 model ++ leBytes 1 0 ++ leBytes 2 gen ++
    leBytes 2 trees ++ leBytes 4 dflt ++ leBytes 4 vidx
  h ++ leBytes 4 (crc32c h)

/-- The first tree in order whose traversal faulted. -/
def firstFault (ts : List TreeRes) : Option (Nat × TreeRes) :=
  (ts.zipIdx.find? fun p => p.1.code != Code.OK).map fun p => (p.2, p.1)

/-- The first fault of a vector: of what it reads before its trees, of its trees, of its probability (R350).
[DEDUCED, safe: log entry 212] -/
def vectorFault (before : Bool) (ts : List TreeRes) (after : Bool) : Option (Nat × TreeRes) :=
  if before then some (0, { code := Code.UNCORRECTABLE })
  else (firstFault ts).orElse fun _ => if after then some (0, { code := Code.UNCORRECTABLE }) else none

/-- Score vector `j.next` of a SCORE: the state with its record and counts, and the SCORE's account of it. -/
def State.scoreVector (s : State) (j : ScoreJob) : State × ScoreJob :=
  let m := s.model j.model
  let at_ := j.src + j.next * 8 * m.slots
  let p := s.prepare (s.cf.sbuf.bytes at_ (8 * m.slots)) m.slots
  let before := lostIn s.cf.sbufBad at_ (8 * m.slots) || p.2.2
  let ts := (upto m.trees).map fun t => s.runTree m p.1 t
  let all := ts.foldl (fun a t => a + t.value) (0 : Int)
  let clean := !before && (firstFault ts).isNone
  let pr := if clean && s.get (Reg.SC_MD_CFG_m_prob_en j.model) == 1 then some (s.probOf j.model all) else none
  let after := match pr with | some x => x.2.2 | none => false
  let code := ts.foldl (fun c t => max c t.code) (if before || after then Code.UNCORRECTABLE else 0)
  let pr := if after then none else pr
  let visits := ts.foldl (fun n t => n + t.visits) 0
  let dflt := ts.foldl (fun n t => n + t.dflt) 0
  let sum := if code = 0 then all else 0
  let wide := !(decide (-(2 ^ 63) ≤ sum) && decide (sum < 2 ^ 63))
  let flags := b2n pr.isSome + 2 * b2n wide + 4 * b2n (match pr with | some q => q.2.1 | none => false)
  let gen := match s.flight? j.q j.seq with | some f => f.gen | none => s.get Reg.HO_LIVE_gen
  let rec_ := scoreRecord (ofSigned 80 sum) (match pr with | some q => q.1 | none => 0) code flags j.model gen m.trees dflt j.next
  let s := s.sbufPut (j.dst + 32 * j.next) rec_
  let s := ((s.incr64 Reg.SC_VECS_LO 1).incr64 Reg.SC_VISITS_LO visits).incr64 Reg.SC_DFLT_LO dflt
  let s := ((s.bump Reg.SC_ERRS_xsrc p.2.1).bump Reg.SC_ERRS_bad (ts.filter fun t => t.code == 0x61).length).bump Reg.SC_ERRS_depth
    (ts.filter fun t => t.code == 0x62).length
  let s := if code = 0 then s else s.bump (Reg.SC_MD_STAT_m_faults j.model) 1
  let s := match j.first, vectorFault before ts after with
    | none, some (t, r) =>
      (s.wr Reg.SC_LAST_FAULT (r.code * 2 ^ 24 + j.model * 2 ^ 16 + j.next)).wr Reg.SC_LAST_NODE (t * 2 ^ 18 + r.entry)
    | _, _ => s
  (s, { j with next := j.next + 1, good := j.good + b2n (code == 0), faults := j.faults + b2n (code != 0)
               first := if code ≠ 0 ∧ j.first.isNone then some j.next else j.first, visits := j.visits + visits
               dflt := min (2 ^ 32 - 1) (j.dflt + dflt), codes := if code = 0 ∨ j.codes.contains code then j.codes else j.codes ++ [code] })

/-! ### SCORE (R336, R354, R355) -/

/-- R336: the operands are bad.
[DEDUCED, safe: log entry 70] -/
def State.badScore (s : State) (c : List Byte) : Bool :=
  let slots := s.get (Reg.SC_MD_CFG_m_vec_slots (field c 8 1))
  let count := field c 10 2
  let src := field c 12 4
  let dst := field c 16 4
  let n := count * 8 * slots
  src % 8 != 0 || dst % 32 != 0 || decide (524288 < src + n) || decide (524288 < dst + count * 32) ||
    (decide (src < dst + count * 32) && decide (dst < src + n))

/-- The account of a SCORE of which no vector has been scored. -/
def newScore (q : Nat) (f : Flight) : ScoreJob :=
  { q := q, seq := f.seq, model := field f.cmd 8 1, count := field f.cmd 10 2, src := field f.cmd 12 4, dst := field f.cmd 16 4 }

/-- The result words (R354). -/
def ScoreJob.words (j : ScoreJob) (trees : Nat) : List Nat :=
  [j.good, j.faults, j.first.getD 0xFFFFFFFF, j.visits % 2 ^ 32, j.visits / 2 ^ 32 % 2 ^ 32, j.dflt, trees + j.model * 2 ^ 16, 0]

def ScoreJob.same (a b : ScoreJob) : Bool := a.q == b.q && a.seq == b.seq

/-- Take a SCORE out of service and complete it with `code`; its other codes are written as event records. -/
def State.scoreEnd (s : State) (j : ScoreJob) (code arg : Nat) : State :=
  let s := { s with sc := { s.sc with jobs := s.sc.jobs.filter fun k => !(k.same j) } }
  let s := (j.codes.filter fun c => c != code).foldl (fun u c => u.fault c Unit_.scoring j.q 0) s
  (s.bump (Reg.SC_MD_STAT_m_cmds j.model) 1).finish j.q j.seq
    { code := code, res := j.words (s.get (Reg.SC_MD_CFG_m_ntrees j.model)), arg := arg }

/-- SCORE at its start (R336, R355). -/
def State.runScore (s : State) (q : Nat) (f : Flight) : State :=
  let bad := s.badScore f.cmd
  let none_ := s.get (Reg.SC_MD_CFG_m_ntrees (field f.cmd 8 1)) == 0
  if none_ then
    (if bad then s.fault Code.QE_BAD_CMD Unit_.queues q 0 else s).finish q f.seq { code := 0x60 }
  else if bad then s.finish q f.seq { code := Code.QE_BAD_CMD }
  else if s.get Reg.SC_BOUND_us = 0 then s.scoreEnd (newScore q f) Code.DEADLINE_MISS 0
  else { s with sc := { s.sc with jobs := s.sc.jobs ++ [newScore q f] } }

/-- A SCORE that the drain holds: a bound of 0 gives it no time (R355). -/
def State.heldScore (s : State) (q : Nat) (f : Flight) : State :=
  if s.get Reg.SC_BOUND_us = 0 then s.scoreEnd (newScore q f) Code.DEADLINE_MISS 0 else s

def execScore (q : Fin 16) (s : State) : Host.Outcome State Fault Refusal :=
  .next (s.issue q.val (some 0x03) State.runScore State.heldScore)

/-- SCORE_VECTOR_DONE: the next vector of the queue's oldest SCORE in service has its record (R348: four in service). -/
def State.scoreDone (s : State) (q : Nat) : State :=
  match (s.sc.jobs.take 4).find? fun j => j.q == q with
  | none => s
  | some j =>
    let p := s.scoreVector j
    let s := { p.1 with sc := { p.1.sc with jobs := p.1.sc.jobs.map fun k => if k.same j then p.2 else k } }
    if p.2.count ≤ p.2.next then s.scoreEnd p.2 (firstCode p.2.codes) 0 else s

def execScoreVectorDone (q : Fin 16) (s : State) : Host.Outcome State Fault Refusal :=
  .next (if s.active then s.scoreDone q.val else s)

/-- The account of a SCORE in flight: in service or waiting, or still held by the drain. -/
def State.scoreJob (s : State) (q : Nat) (f : Flight) : ScoreJob :=
  (s.sc.jobs.find? fun j => j.q == q && j.seq == f.seq).getD (newScore q f)

/-- SCORE_BOUND (R355): the oldest SCORE of the queue reaches its bound, held or not (R157). -/
def State.scoreBound (s : State) (q : Nat) : State :=
  match (s.queue q).flights.find? fun f => cmdOp f.cmd == 3 && f.done.isNone with
  | none => s
  | some f =>
    let due := (f.at_ + s.get Reg.SC_BOUND_us * usTicks) % 2 ^ 64
    let s := s.passToFleet due
    s.scoreEnd (s.scoreJob q f) Code.DEADLINE_MISS (s.sinceFleet due / usTicks)

def execScoreBound (q : Fin 16) (s : State) : Host.Outcome State Fault Refusal :=
  .next (if s.active then s.scoreBound q.val else s)

/-! ### Windows and snapshot (R359, R362) -/

/-- A word of the table window. -/
def State.rScoreWin (s : State) (off : Nat) : Nat :=
  let a := 32768 * s.get Reg.SC_WIN_SEL_page + off % 32768
  match s.get Reg.SC_WIN_SEL_table with
  | 0 => if a < 16 * s.nodeCount then s.sc.nodes.nat a 4 else 0
  | 1 => if a < 163840 then s.sc.front.nat a 4 else 0
  | 2 => if a < 32768 then s.sc.prob.nat a 4 else 0
  | _ => 0

/-- Traversal slots of the role (R334). -/
def State.slotCount (s : State) : Nat := 32 * (if s.tray then 16 else 4)

/-- `SC_STATUS`: traversal slots in use while a SCORE is in service, and SCOREs in service. -/
def State.scoreStatus (s : State) : Nat :=
  let slots := if s.sc.jobs.isEmpty then 0 else Config.scoreSlots s.cyc s.free % (s.slotCount + 1)
  slots * 2 ^ 16 + min 4 s.sc.jobs.length

/-- Bit 3 of a strike's units. -/
def State.scoreLatch (s : State) : State :=
  (s.wr64 Reg.SC_SNAP_VECS_LO (s.rd64 Reg.SC_VECS_LO)).wr64 Reg.SC_SNAP_VISITS_LO (s.rd64 Reg.SC_VISITS_LO)

end Sys2Proof.Machine
end

