-- ==== Sys2Proof/Machine/Taint.lean ====
section
/-! DEFINITION. The recipient table, step taint and the die's yellow jack (R267, R268, R321–R328). -/

namespace Sys2Proof.Machine

def State.setCk (s : State) (f : Taps → Taps) : State := { s with ck := f s.ck }

/-! ### Recipients (R267, R268) -/

def noRecipient (_ : Nat) : Recipient := {}

def State.rcp (s : State) (i : Nat) : Recipient := Sparse.get noRecipient s.ck.rcp i

def State.rcpAge (s : State) : Nat := s.get Reg.CK_RCP_AGE_ms * msTicks

/-- The entry's time lies within the age of fleet time `t`. -/
def State.rcpCurrent (s : State) (t : Nat) (e : Recipient) : Bool :=
  e.valid && decide (s.rcpAge ≠ 0) && decide ((if later 64 t e.time then subMod 64 t e.time else 0) ≤ s.rcpAge)

/-- The oldest of the entries at positions `is`. -/
def State.rcpOldest (s : State) : List Nat → Nat → Nat
  | [], b => b
  | i :: is, b => State.rcpOldest s is (if later 64 (s.rcp b).time (s.rcp i).time then i else b)

def State.setRcp (s : State) (i : Nat) (e : Recipient) : State :=
  s.setCk fun c => { c with rcp := Sparse.set noRecipient c.rcp i e }

/-- The place of the table's oldest entry goes to `e`; the incomplete mark moves to the moment that entry would have aged
out (R267, R268). -/
def State.rcpEvict (s : State) (e : Recipient) : State :=
  let i := s.rcpOldest (upto 2048) 0
  let t := ((s.rcp i).time + s.rcpAge) % 2 ^ 64
  let s := s.bump Reg.CK_RCP_STAT_evicted 1
  let s := if later 64 t (s.rd64 Reg.CK_RCP_INC_LO) then s.wr64 Reg.CK_RCP_INC_LO t else s
  s.setRcp i e

/-- `e` goes to its own entry, else to a free place, else to the oldest's. -/
def State.rcpPut (s : State) (e : Recipient) : Option Nat → Option Nat → State
  | some i, _ => s.setRcp i e
  | none, some i => s.setRcp i e
  | none, none => s.rcpEvict e

/-- R267: record a recipient: the entry with its key, a free or aged one, or else the oldest, evicted. -/
def State.recordRcp (s : State) (step peer : Nat) (unattr : Bool) (tap : Nat) : State :=
  let now := s.fleet
  let e : Recipient := { valid := true, step := if unattr then 0 else step, peer := peer, unattr := unattr, tap := tap, time := now }
  let same := fun (r : Recipient) => r.valid && r.step == e.step && r.peer == peer && r.unattr == unattr && r.tap == tap
  s.rcpPut e ((upto 2048).find? fun i => same (s.rcp i)) ((upto 2048).find? fun i => !(s.rcpCurrent now (s.rcp i)))

/-- R268: fleet time `t` is before `CK_RCP_INC`. -/
def State.rcpIncAt (s : State) (t : Nat) : Bool := later 64 (s.rd64 Reg.CK_RCP_INC_LO) t

def State.rcpInc (s : State) : Bool := s.rcpIncAt s.fleet

/-- R268, R322: the recipients of a step at fleet time `t`; with `any`, of every step. -/
def State.recipients (s : State) (step : Nat) (any : Bool) (t : Nat) : List Nat :=
  (((s.ck.rcp.map fun e => e.2).filter fun r => s.rcpCurrent t r && (r.unattr || any || r.step == step)).map fun r => r.peer).eraseDups

/-- `CK_RCP_STAT.used`. -/
def State.rcpUsed (s : State) : Nat := (s.ck.rcp.filter fun e => s.rcpCurrent s.fleet e.2).length

/-- The 16 bytes of a table entry (R277). -/
def Recipient.bytes (r : Recipient) : List Byte :=
  if r.valid then leBytes 4 r.step ++ leBytes 3 (r.peer + 2 ^ 17 + 2 ^ 18 * b2n r.unattr) ++ leBytes 1 r.tap ++ leBytes 8 r.time
  else leBytes 16 0

/-! ### Taint records (R326) -/

/-- R326: a taint record, from the fields of a taint's payload and the flags of byte 5. -/
def State.taintRecord (s : State) (pay : List Byte) (flags origin sent : Nat) : State :=
  let h := leBytes 4 (field pay 0 4) ++ leBytes 1 (bits (field pay 4 4) 17 2) ++ leBytes 1 flags ++ leBytes 2 (field pay 22 2) ++
    leBytes 8 (field pay 8 8) ++ leBytes 5 (field pay 16 5) ++ leBytes 1 (field pay 21 1) ++ leBytes 2 0 ++ leBytes 3 origin ++
    leBytes 1 0 ++ leBytes 2 (min sent 0xFFFF) ++ leBytes 2 0 ++ leBytes 8 (field pay 24 8) ++ leBytes 8 s.fleet ++ leBytes 12 0
  let addr := s.get Reg.XC_TR_LO_addr_lo * 64 + s.get Reg.XC_TR_HI_addr_hi * 2 ^ 32
  let s := match s.ringPut 2 (min 256 (s.get Reg.XC_TR_HI_ents)) addr (s.rd Reg.XC_TR_WR) (s.rd Reg.XC_TR_RD) (h ++ leBytes 4 (crc32c h)) with
    | none => s
    | some none => s.bump Reg.XC_TR_LOST_count 1
    | some (some t) => t.incr Reg.XC_TR_WR 1
  s.notice 16

/-- R322: the bound of a taint from die `origin`, in µs: within a tray or across trays. -/
def State.taintBound (s : State) (origin : Nat) : Nat := if origin / 8 = s.ident / 8 then 26 else 50

/-- R322, R37: a taint that reaches this target past its bound is a missed deadline; the forwarding of a `wide` taint has
no such bound (R323).
[DEDUCED, safe: log entry 190] -/
def State.taintLate (s : State) (pen : List Byte) : State :=
  let us := s.taintBound (penIdent pen) * usTicks
  let past := s.sinceFleet (field pen 40 8)
  if bit (field pen 20 4) 20 || decide (past ≤ us) then s
  else (s.bump Reg.XC_TAINT_MISS_late 1).deadline Unit_.checker 0 (past - us)

/-- A taint pennant of this die consumed (R326). -/
def State.taintReceived (s : State) (pen : List Byte) : State :=
  let w := field pen 20 4
  (s.taintLate pen |>.bump Reg.XC_TAINTS_received 1).taintRecord (pen.drop 16)
    (b2n (bit w 19) + 4 * b2n (bit w 20) + 8 * b2n (bit w 21)) (penIdent pen) 0

/-! ### The origin of a taint (R321–R325) -/

/-- A detection: what a frame fault hands over (R269), or a verdict (R319). -/
structure Detection where
  step  : Nat
  cause : Nat
  any   : Bool := false
  name  : Nat := 0
  index : Nat := 0
  src   : Nat := 0x1F
  peer  : Option Nat := none
  /-- Fleet time of detection, where it is not now (R269). -/
  at_   : Option Nat := none
deriving DecidableEq, Repr

/-- R324: payload bytes 16–59. -/
def Detection.pay (d : Detection) (target seq det : Nat) (inc wide : Bool) : List Byte :=
  leBytes 4 (if d.any then 0 else d.step) ++
    leBytes 4 (target % 2 ^ 17 + 2 ^ 17 * d.cause + 2 ^ 19 * b2n inc + 2 ^ 20 * b2n wide + 2 ^ 21 * b2n d.any) ++
    leBytes 8 d.name ++ leBytes 5 d.index ++ leBytes 1 d.src ++ leBytes 2 seq ++ leBytes 8 det ++ leBytes 12 0

def State.offerTaint (s : State) (d : Detection) (target seq det : Nat) (inc wide : Bool) : Nat × State :=
  s.offer { func := 4, addr := true, unit := if d.cause = 0 then Unit_.taps else Unit_.checker, job := s.jobTag
            pay := d.pay target seq det inc wide }

/-- The age at which an entry leaves the table, in AON cycles. -/
def State.taintHold (s : State) : Nat := s.get Reg.XC_TAINT_CFG_hold_ms * msCycles

def State.taintLive (s : State) (e : TaintEntry) : Bool := decide (s.cyc < e.last + s.taintHold)

/-- Entries past their hold leave. -/
def State.taintSweep (s : State) : State :=
  s.setCk fun c => { c with taint := c.taint.map fun e => match e with | some x => if s.taintLive x then some x else none | none => none }

def State.setTaint (s : State) (i : Nat) (e : Option TaintEntry) : State :=
  s.setCk fun c => { c with taint := modAt c.taint i fun _ => e }

/-- The place of the entry whose last detection is the earliest.
[DEDUCED, safe: log entry 66] -/
def oldestTaint (l : List (Option TaintEntry)) : Nat :=
  (l.zipIdx.foldl (fun (b : Nat × Option Nat) (e, i) =>
    match e, b.2 with
    | some x, some t => if x.last < t then (i, some x.last) else b
    | some x, none => (i, some x.last)
    | none, _ => b) (0, none)).1

/-- R325: the table entry of a step: found, or a new one in a free place or the oldest's. `none` keeps no entry. -/
def State.taintEntry (s : State) (step : Nat) : Option (Nat × Bool) × State :=
  if s.taintHold = 0 then (none, s)
  else
    let s := s.taintSweep
    match (upto 16).find? fun i => match s.ck.taint.getD i none with | some x => x.step == step | none => false with
    | some i => (some (i, true), s)
    | none =>
      let new : TaintEntry := { step := step, sent := [], inc := false, last := s.cyc }
      match (upto 16).find? fun i => (s.ck.taint.getD i none).isNone with
      | some i => (some (i, false), s.setTaint i (some new))
      | none =>
        let i := oldestTaint s.ck.taint
        (some (i, false), (s.bump Reg.XC_TAINTS_evicted 1).setTaint i (some new))

/-- Number standing for the origin's own host in an entry's targets.
[DEDUCED, safe: log entry 65] -/
def ownHost : Nat := 2 ^ 17

/-- Number standing in an entry's targets for the masthead that a `wide` pennant reached. -/
def wideSent : Nat := 2 ^ 17 + 1

/-- Send the pennants of a taint: the state, and the targets whose pennant was admitted. -/
def State.taintSend (d : Detection) (seq det : Nat) (inc : Bool) : List Nat → State × List Nat → State × List Nat
  | [], r => r
  | t :: ts, (s, ok) =>
    let p := s.offerTaint d t seq det inc false
    State.taintSend d seq det inc ts
      (if p.1 = Code.OK then (p.2, ok ++ [t]) else (p.2.bump Reg.XC_TAINT_MISS_refused 1, ok))

/-- R323: the pennants of a taint, which is incomplete as a whole if one of them is refused: the state, the targets
admitted and whether it is incomplete. -/
def State.taintSpread (s : State) (d : Detection) (seq det : Nat) (inc : Bool) (targets : List Nat) : State × List Nat × Bool :=
  let p := State.taintSend d seq det inc targets (s, [])
  if inc || decide (p.2.length = targets.length) then (p.1, p.2, inc)
  else
    let p := State.taintSend d seq det true targets (s, [])
    (p.1, p.2, true)

/-- R323: the one `wide` pennant of an incomplete taint: the state and whether it was admitted. -/
def State.taintWide (s : State) (d : Detection) (seq det : Nat) : State × Bool :=
  let p := s.offerTaint d 0x1FFFF seq det true true
  if p.1 = Code.OK then (p.2, true) else (p.2.bump Reg.XC_TAINT_MISS_refused 1, false)

/-- R325: entry `i` has its last detection now, is incomplete with `inc`, and has sent to `ts` too. -/
def State.taintSent (s : State) (i : Nat) (inc : Bool) (ts : List Nat) : State :=
  s.setTaint i ((s.ck.taint.getD i none).map fun x => { x with last := s.cyc, inc := x.inc || inc, sent := x.sent ++ ts })

/-- What follows the pennants of a taint (`r`): the `wide` one of an incomplete taint, once an entry, the sequence number's
advance when anything went out, the entry's targets, and the own host's record, once an entry (R323–R325). -/
def State.taintEnd (d : Detection) (entry : Option Nat) (seq det : Nat) (fresh sent : List Nat) (r : State × List Nat × Bool) : State :=
  let self := !(sent.contains ownHost)
  let wide := r.2.2 && r.1.get Reg.XC_TAINT_CFG_wide == 1
  let w := if wide && !(sent.contains wideSent) then r.1.taintWide d seq det else (r.1, false)
  let s := if self || !fresh.isEmpty || (wide && !(sent.contains wideSent)) then w.1.setCk fun c => { c with tseq := (c.tseq + 1) % 2 ^ 16 }
    else w.1
  let s := match entry with
    | some i => s.taintSent i r.2.2 (r.2.1 ++ (if self then [ownHost] else []) ++ (if w.2 then [wideSent] else []))
    | none => s
  if self then
    s.taintRecord (d.pay 0x1FFFF seq det r.2.2 wide) (b2n r.2.2 + 2 + 4 * b2n wide + 8 * b2n d.any) s.ident r.2.1.length
  else s

/-- R321–R325: a detection becomes a taint: it goes to the targets not yet sent, and to the own host once. -/
def State.detect (s : State) (d : Detection) : State :=
  let det := d.at_.getD s.fleet
  let e := if d.any then (none, s) else s.taintEntry d.step
  let s := e.2
  let merged := match e.1 with | some (_, true) => true | _ => false
  let s := if merged then s.bump Reg.XC_TAINTS_merged 1 else s.bump Reg.XC_TAINTS_origin 1
  let old := match e.1 with | some (i, _) => (s.ck.taint.getD i none) | none => none
  let sent := match old with | some x => x.sent | none => []
  let targets := (s.recipients d.step d.any det ++ (match d.peer with | some p => [p] | none => [])).eraseDups.filter (fun t => t != s.ident)
  let fresh := targets.filter fun t => !(sent.contains t)
  let inc := s.rcpIncAt det || (match old with | some x => x.inc | none => false)
  let seq := s.ck.tseq
  State.taintEnd d (e.1.map fun x => x.1) seq det fresh sent (s.taintSpread d seq det inc fresh)

/-- TAINT_ENTRY_EXPIRE: `hold_ms` after the entry's last detection. -/
def State.taintExpire (s : State) (i : Nat) : State :=
  match s.ck.taint.getD i none with
  | some x => (s.passTo (x.last + s.taintHold)).setTaint i none
  | none => s

def execTaintEntryExpire (entry : Fin 16) (s : State) : Host.Outcome State Fault Refusal :=
  .next (if s.active then s.taintExpire entry.val else s)

/-- `XC_TT_STEP_e` and `XC_TT_STATE_e`. -/
def State.rTaintStep (s : State) (e : Nat) : Nat :=
  match s.ck.taint.getD e none with | some x => if s.taintLive x then x.step else 0 | none => 0

def State.rTaintState (s : State) (e : Nat) : Nat :=
  match s.ck.taint.getD e none with
  | some x =>
    if s.taintLive x then 2 ^ 31 + 2 ^ 30 * b2n x.inc + min (x.sent.filter fun t => decide (t < ownHost)).length 0xFFF else 0
  | none => 0

/-! ### The yellow jack (R328) -/

def State.jackState (s : State) : Nat := s.get Reg.XC_YJ_state

def State.jackTo (s : State) (st : Nat) : State := (s.put Reg.XC_YJ_state st).record 3 0x07 Unit_.checker 0 st

/-- The drain's lateness, reported once. -/
def State.jackLate (s : State) : State :=
  if s.jackState = 1 ∧ !s.ck.drainLate then (s.setCk fun c => { c with drainLate := true }).fault 0x4C Unit_.checker 0 0 else s

/-- An addressed pennant's destination in bytes 20–22 of the payload (R365), whatever stands there. -/
def withDest (pay : List Byte) (d : Nat) : List Byte :=
  pay.take 4 ++ leBytes 3 (field pay 4 3 - field pay 4 3 % 2 ^ 17 + d % 2 ^ 17) ++ pay.drop 7

/-- A jack: by a local host-suspect verdict or by the tray's pennant. -/
def State.jack (s : State) (local_ : Bool) : State :=
  if s.jackState ≠ 0 then s.bump Reg.XC_YJ_repeats 1
  else
    let s := ((s.put Reg.XC_YJ_local (b2n local_)).jackTo 1).setCk fun c => { c with jackAt := s.cyc, drainLate := false }
    let s := (s.notice 18).raise 42
    let s := if local_ then
        (s.offer { func := 6, addr := true, unit := Unit_.checker, job := s.jobTag
                   pay := withDest (leBytes 4 s.ident ++ leBytes 8 s.fleet ++ leBytes 32 0) 0x1FFFF }).2
      else s
    if s.get Reg.XC_YJ_CFG_drain_ms = 0 then s.jackLate else s

/-- The tray's release. -/
def State.jackRelease (s : State) : State :=
  if s.jackState = 0 then s
  else (((s.put Reg.XC_YJ_repeats 0).jackTo 0).notice 18).raise 42

/-- A write of `XC_YJ_CTRL` (R328). -/
def State.wDrained (s : State) (v : Nat) : State :=
  if bit v 0 && s.jackState == 1 then
    ((s.offer { func := 7, unit := Unit_.checker, job := s.jobTag, pay := leBytes 8 s.fleet ++ leBytes 36 0 }).2).jackTo 2
  else s

/-- DRAIN_LATE_TIMER. -/
def execDrainLateTimer (s : State) : Host.Outcome State Fault Refusal :=
  .next (if s.active && s.jackState == 1 && !s.ck.drainLate then
      (s.passTo (s.ck.jackAt + s.get Reg.XC_YJ_CFG_drain_ms * msCycles)).jackLate
    else s)

end Sys2Proof.Machine
end

