-- ==== Sys2Proof/Machine/Analytics.lean ====
section
/-! DEFINITION. Fleet analytics (chapter 14): error rates by condition, the pace table and drift, the masthead's
comparison, the quarantine budget, the die table and its jacks, and saturated levels. -/

namespace Sys2Proof.Machine

def State.setFa (s : State) (f : Analytics → Analytics) : State := { s with fa := f s.fa }

/-! ### Levels and state (R431, R432) -/

/-- R431: the level (0 tray, 1 cube, 2 masthead) exists at the instance's duty. -/
def State.faDuty (s : State) (l : Nat) : Bool := s.tray && decide (l + 1 ≤ s.duty)

/-- The level runs: enabled, and its state reloaded (R432). -/
def State.faRuns (s : State) (l : Nat) : Bool := s.faDuty l && bit (s.get Reg.FA_CFG_en) l && s.fa.reload == 0

def State.faLevels (s : State) : Nat := (upto 3).foldl (fun n l => n + (if s.faDuty l && bit (s.get Reg.FA_CFG_en) l then 2 ^ l else 0)) 0

/-- R432: bytes of the state area, written as the state changes.
[DESIGN CHOICE, safe: log entry 114] -/
def State.faStore (s : State) (o : Nat) (bs : List Byte) : State :=
  if s.get Reg.FA_STATE_AREA_size = 0 then s else s.fsWrite .store (s.get Reg.FA_STATE_AREA_base * 2 ^ 20 + o) bs

/-- A table register changed: its word goes to the state area at its offset in the window. -/
def State.faWr (s : State) (off v : Nat) : State := (s.wr off v).faStore (off - 0xF0000) (leBytes 4 v)

def State.faPut (s : State) (f : Fld) (v : Nat) : State := s.faWr f.off (putBits (s.rd f.off) f.lo f.w v)

/-- Averages `i` (2 × die + input), at 0xA000 + 32i of the area. -/
def State.setAvg (s : State) (i : Nat) (v : Option (Int × Int)) : State :=
  let s := s.setFa fun a => { a with avg := match v with | some p => Sparse.insert a.avg i p | none => Sparse.erase a.avg i }
  match v with
  | some (f, g) => s.faStore (0xA000 + 32 * i) (leBytes 8 (ofSigned 64 f) ++ leBytes 8 (ofSigned 64 g) ++ leBytes 8 1)
  | none => s.faStore (0xA000 + 32 * i) (leBytes 24 0)

/-- The set of hot cells of a slot, at 0xC000 + 16s of the area. -/
def State.setHot (s : State) (d m : Nat) : State :=
  (((s.setFa fun a => { a with hot := modAt a.hot d fun _ => m }).faPut (Reg.FA_DIE_s_hot d) (popcount 128 m))).faStore (0xC000 + 16 * d)
    (leBytes 16 m)

/-- R432: a line of the state area has been reloaded, or could not be. -/
def State.faReload (s : State) (i : Nat) (data : List Byte) (err : Bool) : State :=
  let s := s.setFa fun a => { a with reload := a.reload - 1 }
  if err then s.fault Code.UNCORRECTABLE Unit_.analytics 0 i
  else
    let o := 64 * i
    if o < 0xA000 then
      let s := (upto 16).foldl (fun t k =>
        let off := 0xF0000 + o + 4 * k
        if (decide (0xF0100 ≤ off) && decide (off < 0xF0180)) || off == Reg.FA_QB_TOKENS || decide (0xF1000 ≤ off) then t.wr off (field data (4 * k) 4)
        else t) s
      s.wTsExcl (s.get Reg.RD_TS_EXCL_mask)
    else if o < 0xB000 then
      let put := fun (m : Sparse (Int × Int)) (k : Nat) =>
        if field data (32 * k + 16) 8 = 1 then
          Sparse.insert m ((o - 0xA000) / 32 + k) (toSigned 64 (field data (32 * k) 8), toSigned 64 (field data (32 * k + 8) 8))
        else m
      s.setFa fun a => { a with avg := (upto 2).foldl put a.avg }
    else if 0xC000 ≤ o ∧ o < 0xC080 then
      let put := fun (m : List Nat) (k : Nat) => modAt m ((o - 0xC000) / 16 + k) fun _ => field data (16 * k) 16
      s.setFa fun a => { a with hot := (upto 4).foldl put a.hot }
    else s

/-- After a warm reset the first commit that names the area starts the reload (R432). -/
def State.faCommit (s : State) (firstCommit : Bool) : State :=
  if firstCommit && s.tray && s.get Reg.FA_STATE_AREA_size != 0 && s.get Reg.PM_RESET_CAUSE_power_on == 0 && s.storeBytes != 0 then
    (s.setFa fun a => { a with reload := 1024 }).fsAccess .fa false
      ((upto 1024).map fun i => s.get Reg.FA_STATE_AREA_base * 2 ^ 20 + 64 * i) 0
  else s

/-! ### The die table (R447, R448) -/

def State.dieState (s : State) (d : Nat) : Nat := s.get (Reg.FA_DIE_s_state d)

def State.setDie (s : State) (d st : Nat) : State := s.faPut (Reg.FA_DIE_s_state d) st

/-- The analytics sets or clears a slot's exclusion (R448, R414). -/
def State.setExcl (s : State) (d : Nat) (on : Bool) : State :=
  s.wTsExcl (putBits (s.get Reg.RD_TS_EXCL_mask) d 1 (b2n on))

/-- R435: a die's cells return to 0.
[DEDUCED, unsafe: log entry 115] -/
def State.clearCells (s : State) (d : Nat) : State :=
  ((upto 128).foldl (fun t k =>
    let t := if t.rd (Reg.FA_CELL_ERR_s_k d k) = 0 then t else t.faWr (Reg.FA_CELL_ERR_s_k d k) 0
    if t.rd (Reg.FA_CELL_EXP_s_k d k) = 0 then t else t.faWr (Reg.FA_CELL_EXP_s_k d k) 0) s).setHot d 0

/-- The die of slot `d`. -/
def State.slotDie (s : State) (d : Nat) : Nat := 8 * s.trayId + d

/-- A tray offers a yellow jack or a pace-table entry; one that admission takes is issued and raises source 42 (R190). -/
def State.issues42 (s : State) (o : Offer) : State :=
  let p := s.offer o
  if p.1 = Code.OK then p.2.raise 42 else p.2

/-- A yellow-jack pennant (R447). -/
def State.sendJack (s : State) (level die cause : Nat) (battery : Bool) (job : Nat) (tail : List Byte) : State :=
  let pay := leBytes 4 (die + 2 ^ 17 * cause + 2 ^ 20 * b2n battery) ++ leBytes 8 s.fleet ++ padTo 32 tail
  s.issues42 { func := 6, addr := true, unit := Unit_.analytics, level := level, job := job, pay := withDest pay die }

/-- CLEAR → JACKED: a jack of the die seen or sent, or its host-suspect report.
[DEDUCED, safe: log entry 121] -/
def State.jackSeen (s : State) (d : Nat) : State :=
  let s := s.setFa fun a => { a with jackSeen := modAt a.jackSeen d fun _ => some s.cyc }
  if s.dieState d = 0 then (s.setExcl d true).setDie d 1 else s

/-- A join of the die. -/
def State.dieJoins (s : State) (d job : Nat) : State :=
  let st := s.dieState d
  if st = 0 then s
  else if st ≤ 2 then
    if s.get (Reg.FA_DIE_CTRL_s_repaired d) = 1 then (s.sendJack 1 (s.slotDie d) 4 true job []).setDie d 3
    else s.sendJack 1 (s.slotDie d) 4 false job []
  else (s.sendJack 1 (s.slotDie d) 4 true job []).setDie d 3

def State.strayDie (s : State) : State := s.bump Reg.FA_STATUS_stray 1

/-- A drained pennant of the die. -/
def State.dieDrained (s : State) (d : Nat) : State :=
  if s.dieState d = 0 then s.strayDie else if s.dieState d = 1 then s.setDie d 2 else s

/-- A fit pennant of the die. -/
def State.dieFit (s : State) (d : Nat) (pen : List Byte) : State :=
  let st := s.dieState d
  let form := field pen 16 1
  if st = 0 then s.strayDie
  else if st = 3 ∧ form = 0 then
    if field pen 17 1 % 16 = 15 then s.setDie d 4
    else
      let s := (s.sendJack 1 (s.slotDie d) 3 false (penJob pen) []).bump Reg.FA_JACKS_battery_fail 1
      ((s.fault 0x75 Unit_.analytics d 0).put (Reg.FA_DIE_CTRL_s_repaired d) 0).setDie d 1
  else if st = 4 ∧ form = 1 then
    let at_ := field pen 20 8
    if later 64 at_ s.fleet && decide (s.get Reg.FA_ADM_lead_us * usTicks ≤ subMod 64 at_ s.fleet) then
      let pay := leBytes 4 (s.slotDie d) ++ leBytes 8 at_ ++ leBytes 4 (field pen 28 4) ++ leBytes 28 0
      let s := (s.offer { func := 8, addr := true, unit := Unit_.analytics, level := 1, job := penJob pen, pay := withDest pay (s.slotDie d) }).2
      ((s.faWr (Reg.FA_DIE_ADM_LO_s d) (at_ % 2 ^ 32)).faWr (Reg.FA_DIE_ADM_HI_s d) (at_ / 2 ^ 32)).setDie d 5 |>.clearCells d
    else s.refusal 0x76 Unit_.analytics d 0
  else s

/-- ADMIT_TIME_REACHED (R448, R452). -/
def State.admitReached (s : State) (d : Nat) : State :=
  if s.faRuns 0 && s.dieState d == 5 then
    let s := s.passToFleet (s.rd64 (Reg.FA_DIE_ADM_LO_s d))
    if s.fa.jackSeen.getD d none = some s.cyc then s.setDie d 1
    else
      let s := ((s.setDie d 0).setExcl d false).clearCells d
      let i := 2 * (s.slotDie d % 64)
      (s.setAvg i none).setAvg (i + 1) none
  else s

def execAdmitTimeReached (slot : Fin 8) (s : State) : Host.Outcome State Fault Refusal :=
  .next (if s.active then s.admitReached slot.val else s)

/-- R446: a check fault of a die, from a memory tap with DATA_FAULT. -/
def State.dieFrameFault (s : State) (d : Nat) (pen : List Byte) : State :=
  let n := s.get Reg.FA_CONF_cf_n
  if n = 0 ∨ field pen 30 1 ≠ Code.DATA_FAULT ∨ 16 ≤ field pen 29 1 % 32 then s
  else
    let ts := (s.fleet :: s.fa.conf.getD d []).filter fun t => decide (s.sinceFleet t ≤ s.get Reg.FA_CONF_cf_ms * msTicks)
    let s := s.setFa fun a => { a with conf := modAt a.conf d fun _ => ts.take 256 }
    if ts.length < n then s
    else
      let s := s.bump Reg.FA_JACKS_confirmed 1
      if s.dieState d = 0 then
        (s.sendJack 1 (s.slotDie d) 1 false (penJob pen) []).fault 0x74 Unit_.analytics d 0
      else s

/-- A pennant that the tray level observes (R446, R448).
[DEDUCED, unsafe: log entry 119] -/
def State.observe (s : State) (func : Nat) (pen : List Byte) : State :=
  let from_ := penIdent pen
  let own := penLevel pen == 0 && from_ / 8 == s.trayId
  if !(s.faRuns 0) then s
  else
    match func with
    | 2 => if own then s.dieJoins (from_ % 8) (penJob pen) else s
    | 3 => if own then s.dieFrameFault (from_ % 8) pen else s
    | 5 =>
      if own && field pen 16 1 == 1 then
        let d := from_ % 8
        if s.dieState d = 0 then (s.bump Reg.FA_JACKS_confirmed 1).jackSeen d else s.bump Reg.FA_JACKS_confirmed 1
      else s
    | 6 =>
      let t := if penDest pen = 0x1FFFF then from_ else field pen 16 4 % 2 ^ 17
      if t / 8 = s.trayId then s.jackSeen (t % 8) else s
    | _ => s

/-- Observe every pennant seen, and those that acting on them adds. -/
def State.observeSeen : Nat → State → State
  | 0, s => s
  | n + 1, s =>
    match s.hl.seen with
    | [] => s
    | (f, p) :: rest => State.observeSeen n ({ s with hl := { s.hl with seen := rest } }.observe f p)

/-! ### The tray level (R433, R435–R438) -/

/-- Accepted parts of contributor `who` for a series. -/
def FaDue.find (x : FaDue) (series who : Nat) : Option (List (List Byte)) :=
  match x.got.find? fun g => g.1 == series with
  | some g => (g.2.find? fun w => w.1 == who).map fun w => w.2
  | none => none

def singleVal (ps : List (List Byte)) : Int := toSigned 64 (field (ps.getD 0 []) 28 8)

/-- R435: the cell of a temperature and a load. -/
def State.faCell (s : State) (temp load : Int) : Nat :=
  let cl := fun (x : Int) (hi : Int) => (max 0 (min hi x)).toNat
  16 * cl (asr load (s.get Reg.FA_XBIN_l_shift)) 7 + cl (asr (temp - toSigned 16 (s.get Reg.FA_XBIN_t_base)) (s.get Reg.FA_XBIN_t_shift)) 15

/-- R435: one die's update; halving when an exposure reaches 2³¹. -/
def State.cellUpdate (s : State) (d k : Nat) (err : Int) : State :=
  let s := s.faWr (Reg.FA_CELL_ERR_s_k d k) (satAdd (2 ^ 32 - 1) (s.rd (Reg.FA_CELL_ERR_s_k d k)) (max err 0).toNat)
  let x := s.rd (Reg.FA_CELL_EXP_s_k d k) + 1
  let s := s.faWr (Reg.FA_CELL_EXP_s_k d k) x
  if 2 ^ 31 ≤ x then
    (upto 128).foldl (fun t j =>
      (t.faWr (Reg.FA_CELL_ERR_s_k d j) (t.rd (Reg.FA_CELL_ERR_s_k d j) / 2)).faWr (Reg.FA_CELL_EXP_s_k d j) (t.rd (Reg.FA_CELL_EXP_s_k d j) / 2)) s
  else s

/-- R436: the hot cells of die `d`. -/
def State.hotCells (s : State) (d : Nat) : Nat :=
  let e := fun i k => s.rd (Reg.FA_CELL_ERR_s_k i k)
  let x := fun i k => s.rd (Reg.FA_CELL_EXP_s_k i k)
  let ratio := s.get Reg.FA_XBIN_ratio
  let least := s.get Reg.FA_XMIN_min_exp
  let eAll := (upto 128).foldl (fun n k => n + e d k) 0
  let xAll := (upto 128).foldl (fun n k => n + x d k) 0
  let peers := (upto 8).filter fun i => i != d && s.dieState i == 0
  if ratio = 0 then 0
  else (upto 128).foldl (fun m k =>
    let ec := e d k
    let xc := x d k
    let pe := peers.foldl (fun n i => n + e i k) 0
    let px := peers.foldl (fun n i => n + x i k) 0
    if least ≤ xc ∧ ratio * (eAll - ec + 1) * xc < ec * (xAll - xc) ∧ (px < least ∨ ratio * (pe + 1) * xc < ec * px) then m + 2 ^ k else m) 0

/-- R436, R437: after every update, the hot sets; a changed set of a die in CLEAR is steered. -/
def State.steer (s : State) (job d : Nat) : State :=
  let old := s.fa.hot.getD d 0
  let new := s.hotCells d
  if new = old then s
  else
    let turned := popcount 128 (new - (new &&& old))
    let s := (s.setHot d new).bump Reg.FA_HOT_count turned
    if s.dieState d = 0 then
      let pay := leBytes 1 1 ++ leBytes 1 0 ++ leBytes 2 (s.get Reg.FA_XMIN_boost) ++ leBytes 16 new ++ leBytes 24 0
      s.issues42 { func := 11, addr := true, unit := Unit_.analytics, level := 1, job := job, pay := withDest pay (s.slotDie d) }
    else s

/-- The tray level at D₁. -/
def State.faTray (s : State) (x : FaDue) : State :=
  let ups := (upto 8).filterMap fun d =>
    match x.find (s.get Reg.FA_SER_A_err) d, x.find (s.get Reg.FA_SER_A_temp) d, x.find (s.get Reg.FA_SER_B_load) d with
    | some e, some t, some l => some (d, s.faCell (singleVal t) (singleVal l), singleVal e)
    | _, _, _ => none
  let s := ups.foldl (fun t (d, k, e) => t.cellUpdate d k e) s
  ups.foldl (fun t (d, _, _) => t.steer x.tag d) s

/-! ### The cube level (R439–R443) -/

/-- Entries with `valid` 1 of the accepted tray partials of a top-k series. -/
def FaDue.tops (x : FaDue) (series : Nat) : List (Int × Nat) :=
  match x.got.find? fun g => g.1 == series with
  | some g => g.2.flatMap fun w =>
      match ({ fan := false, dir := false, k := 8, op := 6, count := 0, first := 0, shift := 0, lo := 0 } : Range).multi w.2 with
      | .top es => es
      | _ => []
  | none => []

def sat32 (x : Int) : Int := max (-(2 ^ 31)) (min (2 ^ 31 - 1) x)
def sat64 (x : Int) : Int := max (-(2 ^ 63)) (min (2 ^ 63 - 1) x)

/-- R442: one input's averages updated with `v`; the drift. -/
def State.avgStep (s : State) (i : Nat) (v : Int) : State × Int :=
  let af := s.get Reg.FA_DRIFT_af
  let as_ := s.get Reg.FA_DRIFT_as
  let (f, g) := match s.fa.avg.find? fun e => e.1 == i with
    | some (_, f, g) => (f + asr (v - f) af, g + asr (v - g) as_)
    | none => (v, v)
  (s.setAvg i (some (f, g)), sat64 (f - g))

/-- A die of V with its figures of this epoch. -/
structure PaceDie where
  die    : Nat
  v      : Int
  p      : Nat
  score  : Option Int
  dpace  : Int
  dscore : Int
deriving DecidableEq, Repr

/-- R440, R442: the pace factor and drifts of one die. -/
def State.paceDie (s : State) (M : Int) (scores : List (Int × Nat)) (v : Int × Nat) : State × PaceDie :=
  let d := v.2
  let i := d % 64
  let p := min 0xFFFFFFFF ((max v.1 0 * 65536) / M).toNat
  let a := s.avgStep (2 * i) ((p : Int) * 65536)
  let sc : Option Int := (scores.find? fun e => e.2 == d).map fun e => e.1
  let kept : Int := match a.1.fa.avg.find? (fun (e : Nat × Int × Int) => e.1 == 2 * i + 1) with
    | some (_, f, g) => sat64 (f - g)
    | none => 0
  let b := match sc with
    | some x => a.1.avgStep (2 * i + 1) x
    | none => (a.1, kept)
  let dp := sat32 (asr a.2 16)
  let ds := sat32 (asr b.2 16)
  let s := ((b.1.faWr (Reg.FA_CD_P_d i) p).faWr (Reg.FA_CD_DP_d i) (ofSigned 32 dp)).faWr (Reg.FA_CD_DS_d i) (ofSigned 32 ds)
  (s, { die := d, v := v.1, p := p, score := sc, dpace := dp, dscore := ds })

/-- R442: the self-score of a die that is not in V. -/
def State.scoreOnly (s : State) (e : Int × Nat) : State :=
  let i := e.2 % 64
  let a := s.avgStep (2 * i + 1) e.1
  a.1.faWr (Reg.FA_CD_DS_d i) (ofSigned 32 (sat32 (asr a.2 16)))

/-- R440: the form-0 pennant of one die. -/
def State.sendPace (s : State) (x : FaDue) (n : Nat) (M : Int) (cand : Option Nat) (r : PaceDie) : State :=
  let c32 := fun (v : Int) => (max 0 (min 0xFFFFFFFF v)).toNat
  let drift := decide (toSigned 32 (s.rd Reg.FA_DTHR) ≤ r.dpace)
  let pay := leBytes 1 0 ++ leBytes 1 (b2n drift + 2 * b2n (cand == some r.die)) ++ leBytes 2 n ++ leBytes 4 x.epoch ++ leBytes 4 (c32 r.v) ++
    leBytes 4 (c32 M) ++ leBytes 4 r.p ++ leBytes 4 (ofSigned 32 r.dpace) ++ leBytes 4 (ofSigned 32 r.dscore) ++ leBytes 16 0
  (s.issues42 { func := 11, addr := true, unit := Unit_.analytics, level := 2, job := x.tag, pay := withDest pay r.die }).bump
    Reg.FA_PACE_published 1

/-- R443: one cube-origin contribution. -/
def State.cubeOrigin (s : State) (x : FaDue) (series : Nat) (v : Int) (die : Nat) : State :=
  let pay := leBytes 4 x.epoch ++ leBytes 2 series ++ leBytes 2 x.stamp ++ leBytes 3 1 ++ leBytes 1 1 ++ leBytes 8 (ofSigned 64 v) ++
    leBytes 3 die ++ leBytes 5 0 ++ leBytes 16 0
  s.emit 2 x.tag pay

/-- The cube level at D₂.
[DEDUCED, unsafe: log entry 116] -/
def State.faCube (s : State) (x : FaDue) : State :=
  let V := sortBy (fun (a b : Int × Nat) => if a.1 = b.1 then decide (a.2 < b.2) else decide (a.1 < b.1)) (x.tops (s.get Reg.FA_SER_A_pace))
  let scores := x.tops (s.get Reg.FA_SER_A_score)
  let M := (V.getD ((V.length - 1) / 2) (0, 0)).1
  let origin := fun (t : State) (c : Option PaceDie) (m : Int) =>
    let die := match c with | some r => r.die | none => 0
    let t := t.cubeOrigin x (t.get Reg.FA_SER_C_cand) (match c with | some r => r.score.getD (-(2 ^ 63)) | none => -(2 ^ 63)) die
    let t := t.cubeOrigin x (t.get Reg.FA_SER_C_cpace) (match c with | some r => (r.p : Int) | none => 0) die
    let t := t.cubeOrigin x (t.get Reg.FA_SER_D_cdrift) (match c with | some r => r.dpace | none => 0) die
    t.cubeOrigin x (t.get Reg.FA_SER_D_med) m 0
  if V.length < s.get Reg.FA_CFG_min_n ∨ M ≤ 0 then origin (s.bump Reg.FA_PACE_thin 1) none 0
  else
    let a := V.foldl (fun (acc : State × List PaceDie) v =>
      let r := acc.1.paceDie M scores v
      (r.1, acc.2 ++ [r.2])) (s, [])
    let s := (scores.filter fun e => !(V.any fun v => v.2 == e.2)).foldl State.scoreOnly a.1
    let dies := sortBy (fun (p q : PaceDie) => decide (p.die < q.die)) a.2
    let thr := toSigned 64 (s.rd64 Reg.FA_CAND_LO)
    let dthr := toSigned 32 (s.rd Reg.FA_DTHR)
    let cands := dies.filter fun r => (match r.score with | some v => decide (thr ≤ v) | none => false) || decide (dthr ≤ r.dpace)
    let key := fun (r : PaceDie) => r.score.getD (-(2 ^ 63))
    let cand := (sortBy (fun (p q : PaceDie) => decide (key q < key p)) cands).head?
    let per := s.get Reg.FA_CFG_pace_ep
    let s := if per ≠ 0 ∧ x.epoch % per = 0 then dies.foldl (fun t r => t.sendPace x V.length M (cand.map fun c => c.die) r) s else s
    origin s cand M

/-! ### The masthead level (R444–R446) -/

/-- FP32 bits of a value in units of 2⁻¹⁴⁹ that FP32 holds exactly. -/
def fp32Bits (v : Int) : Nat :=
  let a := v.natAbs
  let e := Nat.log2 a - 23
  (if a < 2 ^ 23 then a else (e + 1) * 2 ^ 23 + (a / 2 ^ e - 2 ^ 23)) + (if v < 0 then 2 ^ 31 else 0)

def Elem.f32 : Elem → Nat
  | .fin x => fp32Bits x
  | _ => 0

def scoreF32 (v : Int) : Nat := (toFp32 (v * 2 ^ 266)).f32

/-- A cube's candidate at the masthead. -/
structure MhCand where
  cube : Nat
  die  : Nat
  vec  : List Byte
deriving DecidableEq, Repr

/-- R444: score the vectors as one SCORE; the record of each. A SCORE that R336 turns away, or that has no time, leaves its
code alone.
[DEDUCED, unsafe: log entry 220] -/
def State.mhScore (s : State) (vs : List MhCand) : State × List (List Byte) :=
  let base := 32 * s.get Reg.FA_MH_vbase
  let m := s.get Reg.FA_MH_model
  let s := s.sbufPut base ((vs.map fun v => v.vec).flatten)
  let job : ScoreJob := { q := 16, seq := 0, model := m, count := vs.length, src := base, dst := base + 65536 }
  let cmd := leBytes 8 3 ++ leBytes 2 m ++ leBytes 2 vs.length ++ leBytes 4 base ++ leBytes 4 (base + 65536)
  if vs.isEmpty then (s, [])
  else if s.get (Reg.SC_MD_CFG_m_ntrees m) = 0 then (s.refusal 0x60 Unit_.scoring 0 0, [])
  else if s.badScore cmd then (s.fault Code.QE_BAD_CMD Unit_.scoring 0 0, [])
  else if s.get Reg.SC_BOUND_us = 0 then ((s.bump (Reg.SC_MD_STAT_m_cmds m) 1).deadline Unit_.scoring 0 0, [])
  else
    let r := vs.foldl (fun (acc : State × ScoreJob) _ => acc.1.scoreVector acc.2) (s, job)
    let s := r.2.codes.foldl (fun u c => u.fault c Unit_.scoring 0 0) r.1
    (s.bump (Reg.SC_MD_STAT_m_cmds m) 1, (upto vs.length).map fun i => s.cf.sbuf.bytes (base + 65536 + 32 * i) 32)

def State.tokens (s : State) (c : Nat) : Nat := s.get (Reg.FA_QB_TOK_c_tokens c)

/-- R445: one request for expulsion: `sum`, die and cube. -/
def State.expel (s : State) (tag : Nat) (r : Int × Nat × Nat) : State :=
  let (sum, die, c) := r
  -- a die of the own tray that a confirmed verdict names in the same cycle (R452)
  if die / 8 = s.trayId ∧ s.fa.jackSeen.getD (die % 8) none = some s.cyc then s
  else if 0 < s.tokens c ∧ 0 < s.get Reg.FA_QB_TOKENS_tokens then
    let s := (s.faPut (Reg.FA_QB_TOK_c_tokens c) (s.tokens c - 1)).faPut Reg.FA_QB_TOKENS_tokens (s.get Reg.FA_QB_TOKENS_tokens - 1)
    let tail := leBytes 8 (ofSigned 64 sum) ++ leBytes 2 (s.tokens c) ++ leBytes 2 (s.get Reg.FA_QB_TOKENS_tokens)
    let s := s.sendJack 3 die 2 false tag tail
    let s := (s.faPut (Reg.FA_QB_TOK_c_run c) 0).faWr (Reg.FA_TRK_c c) 0
    (s.bump Reg.FA_JACKS_score 1).fault 0x73 Unit_.analytics 0 die
  else (s.bump Reg.FA_JACKS_refused 1).refusal Code.REFUSED_BUDGET Unit_.analytics 0 die

/-- R444: a cube's tracker after this D₃. -/
def State.track (s : State) (c : Nat) (verdict : Option Nat) : State :=
  match verdict with
  | none => if s.get (Reg.FA_QB_TOK_c_run c) = 0 ∧ s.rd (Reg.FA_TRK_c c) = 0 then s else (s.faPut (Reg.FA_QB_TOK_c_run c) 0).faWr (Reg.FA_TRK_c c) 0
  | some d =>
    if s.get (Reg.FA_QB_TOK_c_run c) ≠ 0 ∧ s.get (Reg.FA_TRK_c_die c) = d then
      s.faPut (Reg.FA_QB_TOK_c_run c) (satAdd 255 (s.get (Reg.FA_QB_TOK_c_run c)) 1)
    else (s.faPut (Reg.FA_QB_TOK_c_run c) 1).faWr (Reg.FA_TRK_c c) d

/-- The masthead level at D₃.
[DEDUCED, safe: log entry 117] -/
def State.faMast (s : State) (x : FaDue) : State :=
  let get := fun (series c : Nat) => x.find series c
  let med := fun c => (get (s.get Reg.FA_SER_D_med) c).map singleVal
  let meds := sortBy (fun (a b : Int × Nat) => if a.1 = b.1 then decide (a.2 < b.2) else decide (a.1 < b.1))
    (x.cubes.filterMap fun c => match med c with | some m => if 0 < m then some (m, c) else none | none => none)
  let J := (meds.getD ((meds.length - 1) / 2) (0, 0)).1
  let vs : List MhCand := if J ≤ 0 then [] else x.cubes.filterMap fun c =>
    match get (s.get Reg.FA_SER_C_cand) c, get (s.get Reg.FA_SER_C_cpace) c, get (s.get Reg.FA_SER_D_cdrift) c, med c with
    | some a, some p, some d, some m =>
      if singleVal a = -(2 ^ 63) then none
      else
        let w := fun (n : Nat) => leBytes 4 n ++ leBytes 4 0
        some { cube := c, die := field (a.getD 0 []) 36 3 % 2 ^ 17
               vec := w (scoreF32 (singleVal a)) ++ w (ofSigned 32 (singleVal p)) ++ w (ofSigned 32 (singleVal d)) ++
                 w ((max 0 (min 0xFFFFFFFF (m * 65536 / J))).toNat) }
    | _, _, _, _ => none
  let r := s.mhScore vs
  let thr := toSigned 64 (s.rd64 Reg.FA_JACK_LO)
  let verdicts := (vs.zip r.2).filterMap fun (v, rec_) =>
    let sum := toSigned 80 (field rec_ 0 10)
    if field rec_ 12 1 = 0 ∧ thr ≤ sum then some (v.cube, v.die, sum) else none
  let s := x.cubes.foldl (fun t c => t.track c ((verdicts.find? fun v => v.1 == c).map fun v => v.2.1)) r.1
  let n := s.get Reg.FA_MH_jack_n
  let reqs := if n = 0 then [] else verdicts.filter fun v => decide (n ≤ s.get (Reg.FA_QB_TOK_c_run v.1))
  let sorted := sortBy (fun (a b : Int × Nat × Nat) => if a.1 = b.1 then decide (a.2.1 < b.2.1) else decide (b.1 < a.1))
    (reqs.map fun v => (v.2.2, v.2.1, v.1))
  sorted.foldl (fun t v => t.expel x.tag v) s

/-- CUBE_TOKEN_REFILL (R445): every `refill_s` seconds of fleet time; now, when the cube's last refill is a period behind.
[DEDUCED, safe: log entry 113] -/
def State.refill (s : State) (c : Nat) : State :=
  let p := s.get Reg.FA_QB_CUBE_refill_s * 1000 * msTicks
  if s.faRuns 2 && p != 0 then
    let last := Sparse.get (fun _ => 0) s.fa.refilled c
    let s := if last < s.fleet / p then s else s.passToFleet ((s.fleet / p + 1) * p % 2 ^ 64)
    let s := s.setFa fun a => { a with refilled := Sparse.insert a.refilled c (s.fleet / p) }
    s.faPut (Reg.FA_QB_TOK_c_tokens c) (satAdd (s.get Reg.FA_QB_CUBE_burst) (s.tokens c) 1)
  else s

def execCubeTokenRefill (cube : Fin 2048) (s : State) : Host.Outcome State Fault Refusal :=
  .next (if s.active then s.refill cube.val else s)

/-- A write of `FA_QB_ADD`. -/
def State.wSpares (s : State) (v : Nat) : State :=
  s.faPut Reg.FA_QB_TOKENS_tokens (satAdd (s.get Reg.FA_QB_FLEET_burst) (s.get Reg.FA_QB_TOKENS_tokens) (v % 2 ^ 16))

/-! ### The folds reach the analytics (R433, R434) -/

/-- One fold's contributions; decisions past their bound are a miss (R37, R430). -/
def State.faTake (s : State) (x : FaDue) : State :=
  if !(s.faRuns (x.level - 1)) then s
  else if !x.ok then s.bump Reg.FA_STATUS_unbound 1
  else
    let late := s.sinceFleet ((x.at_ + x.bound) % 2 ^ 64)
    let s := if x.level = 1 then s.faTray x else if x.level = 2 then s.faCube x else s.faMast x
    if late = 0 then s else s.deadline Unit_.analytics (x.level - 1) late

/-- Take every fold waiting; then observe what this instance has itself sent. A reload comes first (R432). -/
def State.faRun (s : State) : State :=
  if s.fa.reload ≠ 0 then s
  else
    let ds := s.red.due
    let s := ds.foldl State.faTake { s with red := { s.red with due := [] } }
    State.observeSeen 64 s

def execEpochFold (base : BitVec 20) (s : State) : Host.Outcome State Fault Refusal :=
  .next (if s.active then (s.epochFold base.toNat).faRun else s)

/-- RESULT_PUBLISH. -/
def execResultPublish (s : State) : Host.Outcome State Fault Refusal :=
  .next (if s.active then s.publish.1.faRun else s)

/-- R435, R442: a tray-stage or cube entry for a new job tag goes LIVE. -/
def State.faNewTag (s : State) (base : Nat) : State :=
  if levelOf base = 1 then (upto 8).foldl (fun t d => t.clearCells d) s
  else if levelOf base = 2 then (upto 128).foldl (fun t i => if t.fa.avg.any (fun e => e.1 == i) then t.setAvg i none else t) s
  else s

/-! ### A die receives a pace pennant (R438, R441) -/

/-- R438: the sampler's weights follow a steer; each change is a CONFIG record. -/
def State.steered (s : State) (pen : List Byte) : State :=
  let boost := field pen 18 2
  let mask := field pen 20 16
  (upto 128).foldl (fun t k =>
    let sh := bits (t.srd (Reg.XC_W_k k)) 0 16
    let new := if bit mask k then max boost sh else sh
    if t.get (Reg.XC_W_k_w k) = new then t
    else ((t.put (Reg.XC_W_k_w k) new).put Reg.HO_LIVE_direct 1).record 4 0x05 Unit_.checker k (t.get Reg.HO_LIVE_gen)) s

/-- A die's pace mailbox. -/
def State.paceReceived (s : State) (pen : List Byte) : State :=
  let f := field pen 16 1
  let s := if f = 1 then s.setFa fun a => { a with mail := a.mail.take 64 ++ padTo 64 pen }
    else s.setFa fun a => { a with mail := padTo 64 pen ++ a.mail.drop 64 }
  let s := (s.raise 42).notice 17
  if f = 1 then s.steered pen else s

/-! ### Saturated levels (R450, R451) -/

/--
[DEDUCED, safe: log entry 120] -/
def State.satWindow (s : State) : Nat := s.get Reg.FA_SAT_win_ms * msTicks

/-- The end of the window after the one judged last: now, when it has passed. -/
def State.windowEnd (s : State) (last : Nat) : State :=
  if last < s.fleet / s.satWindow then s else s.passToFleet ((s.fleet / s.satWindow + 1) * s.satWindow % 2 ^ 64)

/-- A saturation window begins: nothing is counted in it yet. -/
def State.satBegin (s : State) : State :=
  let s := s.setFa fun a => { a with satWin := s.fleet / s.satWindow }
  { s with hl := { s.hl with satDelay := 0, slots := [] } }

/-- SAT_WINDOW_END (R450). -/
def State.satEnd (s : State) : State :=
  if !s.tray || s.satWindow == 0 then s
  else
    let s := s.windowEnd s.fa.satWin
    let own := decide (s.get Reg.FA_SAT_sat_us * usTicks ≤ s.hl.satDelay)
    let pct := s.get Reg.FA_SAT_lane_pct
    let below := pct != 0 && s.hl.slots.any fun e => decide (0 < e.2.2) && decide (pct * e.2.2 ≤ 100 * e.2.1)
    let s := s.satBegin
    let s := if own then s.fault 0x70 Unit_.analytics 0 0 else s
    if below then s.fault 0x71 Unit_.analytics 0 0 else s

def execSatWindowEnd (s : State) : Host.Outcome State Fault Refusal := .next (if s.active then s.satEnd.faRun else s)

/-- R451: this instance is the one `HL_ROOT` names. -/
def State.isHealthRoot (s : State) : Bool := s.tray && s.get Reg.HL_ROOT_valid == 1 && s.get Reg.HL_ROOT_tray == s.trayId

/-- R451: a fault report that reaches the root is tallied. -/
def State.tallyReport (s : State) (pen : List Byte) : State :=
  let add := fun (l : Nat) => s.setFa fun a => { a with tally := modAt a.tally l fun n => n + 1 }
  if !s.isHealthRoot then s
  else if field pen 16 1 = 0x70 then add (penLevel pen)
  else if field pen 16 1 = 0x71 then add 0
  else s

/-- LEVEL_SAT_WINDOW (R451). -/
def State.levelSat (s : State) : State :=
  if !s.isHealthRoot || s.satWindow == 0 then s
  else
    let s := s.windowEnd s.fa.levelWin
    let n := s.get Reg.FA_SAT_N_sat_n
    let t := fun l => s.fa.tally.getD l 0
    let sat := fun l => n != 0 && decide (n ≤ t l) && (l == 0 || t (l - 1) == 0) && (l == 3 || t (l + 1) == 0)
    let s := s.setFa fun a => { a with tally := [0, 0, 0, 0], levelWin := s.fleet / s.satWindow }
    let s := s.wr Reg.FA_SAT_STATE ((upto 4).foldl (fun m l => m + (if sat l then 2 ^ (16 + l) else 0)) 0 + n)
    (upto 4).foldl (fun u l => if sat l then u.fault 0x72 Unit_.analytics 0 l else u) s

def execLevelSatWindow (s : State) : Host.Outcome State Fault Refusal := .next (if s.active then s.levelSat else s)

end Sys2Proof.Machine
end

