-- ==== Sys2Proof/Machine/Taps.lean ====
section
/-! DEFINITION. The check taps (R246–R273): regions and interleave, memory taps and frame trackers, link taps, coverage and
the reporting of frame faults. -/

namespace Sys2Proof.Machine

/-! ### Regions, layouts and interleave (R250–R253) -/

def State.rgSize (s : State) (r : Nat) : Nat := s.get (Reg.CK_RG_SIZE_r_granules r)
def State.rgLayout (s : State) (r : Nat) : Nat := s.get (Reg.CK_RG_CFG_r_layout r)
def State.rgBase (s : State) (r : Nat) : Nat :=
  s.get (Reg.CK_RG_BASE_LO_r_addr_lo r) * 256 + s.get (Reg.CK_RG_BASE_HI_r_addr_hi r) * 2 ^ 32

/-- The region that holds a byte address. -/
def State.regionOf (s : State) (a : Nat) : Option Nat :=
  (upto 64).find? fun r => decide (s.rgBase r ≤ a ∧ a < s.rgBase r + 256 * s.rgSize r)

/-- Frames of a region. -/
def State.framesIn (s : State) (r : Nat) : Nat :=
  match s.rgLayout r with | 0 => s.rgSize r / 17 | 1 => s.rgSize r / 16 | _ => 0

/-- The split-data region that names trailer region `r`. -/
def State.dataOf (s : State) (r : Nat) : Option Nat :=
  (upto 64).find? fun d => s.rgSize d != 0 && s.rgLayout d == 1 && s.get (Reg.CK_RG_CFG_r_pair d) == r

/-- Sector `k` of granule `g` of region `r`: data region, frame and position in the frame; `none` is exempt (R251). -/
def State.sectorAt (s : State) (r g k : Nat) : Option (Nat × Nat × Nat) :=
  let p := match s.rgLayout r with
    | 0 => if g % 17 < 16 then some (r, g / 17, 8 * (g % 17) + k) else if k < 2 then some (r, g / 17, 128 + k) else none
    | 1 => some (r, g / 16, 8 * (g % 16) + k)
    | 2 => (s.dataOf r).map fun d => (d, 4 * g + k / 2, 128 + k % 2)
    | _ => none
  p.filter fun x => decide (x.2.1 < s.framesIn x.1)

/-- The address of the granule that holds position `j` of a frame, and its region. -/
def State.granuleOf (s : State) (r f j : Nat) : Nat × Nat :=
  if s.rgLayout r = 0 then (s.rgBase r + 256 * (17 * f + min (j / 8) 16), r)
  else if j < 128 then (s.rgBase r + 256 * (16 * f + j / 8), r)
  else
    let t := s.get (Reg.CK_RG_CFG_r_pair r)
    (s.rgBase t + 256 * (f / 4), t)

/-- The trailer's byte address. -/
def State.trailerAddr (s : State) (r f : Nat) : Nat :=
  (s.granuleOf r f 128).1 + (if s.rgLayout r = 0 then 0 else 64 * (f % 4))

def State.ilvMask (s : State) (set j : Nat) : Nat :=
  s.get (Reg.CK_ILV_MASK_LO_s_j_mask_lo set j) * 256 + s.get (Reg.CK_ILV_MASK_HI_s_j_mask_hi set j) * 2 ^ 32

/-- Where a set sends a granule (R253). -/
inductive Route where
  | free
  | noTap
  | tap (m : Nat)
deriving DecidableEq, Repr

def State.routeOf (s : State) (set a : Nat) : Route :=
  let n := s.get (Reg.CK_ILV_CFG_s_chans set)
  if n = 0 then .free
  else
    let c := ((upto 4).filter fun j => decide (2 ^ j < n) && popcount 52 (a &&& s.ilvMask set j) % 2 == 1).foldl (fun c j => c + 2 ^ j) 0
    if bit (s.get (Reg.CK_ILV_CFG_s_present set)) c then
      .tap (bits (s.rd (Reg.CK_ILV_MAP_LO_s set) + 2 ^ 32 * s.rd (Reg.CK_ILV_MAP_HI_s set)) (4 * c) 4)
    else .noTap

def State.routeOfGranule (s : State) (a r : Nat) : Route := s.routeOf (s.get (Reg.CK_RG_CFG_r_ilv r)) a

def State.mtEn (s : State) (m : Nat) : Bool := decide (m < s.memTaps) && s.get (Reg.CK_MT_CFG_m_en m) == 1
def State.ltEn (s : State) (l : Nat) : Bool := decide (l < s.linkTaps) && s.get (Reg.CK_LT_CFG_l_en l) == 1

/-- Some tap is enabled (R68). -/
def State.tapsEnabled (s : State) : Bool := !s.tray && ((upto 16).any s.mtEn || (upto 8).any s.ltEn)

/-- Positions that stand for a frame's seventeen granules. -/
def granulePos : List Nat := (upto 17).map fun k => 8 * k

/-- R255: some granule of the frame goes to no enabled tap. -/
def State.blindFrame (s : State) (r f : Nat) : Bool :=
  granulePos.any fun j =>
    let g := s.granuleOf r f j
    match s.routeOfGranule g.1 g.2 with
    | .free => false
    | .noTap => true
    | .tap m => !(s.mtEn m)

/-! ### Coverage (R263) -/

def State.addChk (s : State) (m n : Nat) : State := if m < 16 then s.incr64 (Reg.CK_MT_CHK_LO_m m) n else s
/--
[DEDUCED, unsafe: log entry 74] -/
def State.addUnc (s : State) (m n : Nat) : State := if m < 16 then s.incr64 (Reg.CK_MT_UNC_LO_m m) n else s
def State.uncause (s : State) (c : Nat) : State := s.bump (Reg.CK_UNC_c_count c) 1

/-! ### Frame faults (R269, R270) -/

/-- What is known of a faulty frame. -/
structure FrameFault where
  code   : Nat
  tap    : Nat
  inward : Bool
  region : Nat
  /-- The trailer when it is valid. -/
  trailer : Option (List Byte)
  got    : Nat
  where_ : Nat
  last   : Nat
  peer   : Option Nat := none
deriving DecidableEq, Repr

/-- R269: count, latch, record, raise source 39, offer the check-fault pennant and hand over to step taint. -/
def State.frameFault (s : State) (f : FrameFault) : State :=
  let t := f.trailer.getD []
  let ident := f.trailer.isSome
  let src := f.tap + 32 * b2n f.inward + 64 * b2n ident
  let name := field t 8 8
  let index := field t 16 5
  let step := field t 24 4
  let want := field t 0 4
  let s := if 16 ≤ f.tap ∧ f.tap < 24 then s.bump Reg.CK_FAULTS_link 1 else s.bump Reg.CK_FAULTS_mem 1
  let s := s.wr Reg.CK_LAST_SRC (f.code * 2 ^ 24 + f.region * 2 ^ 16 + src * 2 ^ 8 + index / 2 ^ 32)
  let s := ((s.wr Reg.CK_LAST_IDX (index % 2 ^ 32)).wr64 Reg.CK_LAST_NAME_LO name).wr Reg.CK_LAST_STEP step
  let s := (s.wr Reg.CK_LAST_WANT want).wr Reg.CK_LAST_GOT f.got
  let s := (s.fault f.code Unit_.taps f.tap 0).raise 39
  let pay := leBytes 8 name ++ leBytes 5 index ++ leBytes 1 src ++ leBytes 1 f.code ++ leBytes 1 f.region ++ leBytes 4 step ++
    leBytes 4 want ++ leBytes 4 f.got ++ leBytes 6 f.where_ ++ leBytes 2 (min s.ck.supp 0xFFFF) ++ leBytes 8 f.last
  let p := s.offer { func := 3, unit := Unit_.taps, job := s.jobTag, pay := pay }
  let s := if p.1 = Code.OK then p.2.setCk fun c => { c with supp := 0 }
    else
      let t := p.2.setCk fun c => { c with supp := c.supp + 1 }
      if p.1 = Code.REFUSED_BUDGET then t.bump Reg.CK_SUPP_count 1 else t
  s.detect { step := step, cause := 0, any := !ident, name := name, index := index, src := src, peer := f.peer, at_ := some f.last }

/-! ### Trackers (R256–R262) -/

/-- R256: the key of a traversal. -/
def Tracker.same (a b : Tracker) : Bool := a.region == b.region && a.frame == b.frame && a.wr == b.wr

def State.dropTracker (s : State) (t : Tracker) : State :=
  s.setCk fun c => { c with trackers := c.trackers.filter fun x => !(x.same t) }

def State.putTracker (s : State) (t : Tracker) : State :=
  s.setCk fun c => { c with trackers := c.trackers.map fun x => if x.same t then t else x }

def Tracker.sector (t : Tracker) (j : Nat) : List Byte := Sparse.get (fun _ => []) t.secs j

def Tracker.trailer (t : Tracker) : List Byte := t.sector 128 ++ t.sector 129

def Tracker.full (t : Tracker) : Bool := t.secs.length == 130

/-- `tmagic` of R247. -/
def trailerMagic (tr : List Byte) : Bool := field tr 4 4 == 0x46524254

/-- The trailer's fields have been seen. -/
def Tracker.seen (t : Tracker) : Option (List Byte) :=
  if !(t.sector 128).isEmpty && trailerMagic t.trailer then some t.trailer else none

/-- R66, R92: the one report of a traversal's first granule with `mt_err`. -/
def State.errFault (s : State) (t : Tracker) : State :=
  match t.err with
  | some (tap, _) =>
    if t.told then s
    else
      s.frameFault { code := Code.DATA_FAULT, tap := tap, inward := t.wr, region := t.region, trailer := t.seen, got := 0
                     where_ := (s.granuleOf t.region t.frame 0).1 / 256, last := t.lastAt }
  | none => s

/-- R260: the traversal ends uncovered under cause `c`; an error a granule of it brought is reported all the same (R66). -/
def State.endTracker (s : State) (c : Nat) (t : Tracker) : State :=
  (t.bytes.foldl (fun u b => u.addUnc b.1 b.2) ((s.dropTracker t).uncause c)).errFault t

/-- A checker lane's reading learns of a frame decided under a traversal that it fed (R310, R316): the code, 0 for OK. -/
def State.tellReader (s : State) (t : Tracker) (code : Nat) (rm : Nat) : State :=
  if rm = 1 ∨ rm = 2 then
    { s with xc := { s.xc with lanes := modAt s.xc.lanes (rm - 1) fun l =>
      { l with read := l.read.map fun r => if code = 0 then { r with good := (t.region, t.frame) :: r.good } else { r with wrong := true } } } }
  else s

/-- R248: the frame's check value over data and trailer bytes 4–63. -/
def frameCrc (data trailer : List Byte) : Nat := crc32c (data ++ trailer.drop 4)

/-- R259: a traversal that holds all its sectors is decided. -/
def State.decideFrame (s : State) (t : Tracker) : State :=
  let tr := t.trailer
  if !(trailerMagic tr) then s.endTracker 6 t
  else
    let want := field tr 0 4
    let got := frameCrc ((upto 128).flatMap t.sector) tr
    let idx := (s.get (Reg.CK_RG_IDX_LO_r_idx_lo t.region) + 2 ^ 32 * s.get (Reg.CK_RG_IDX_HI_r_idx_hi t.region) + t.frame) % 2 ^ 40
    let bad := got != want
    let ident := s.get (Reg.CK_RG_CFG_r_idx_chk t.region) == 1 && field tr 16 5 != idx
    let code := if ident then 0x42 else if bad || t.err.isSome then Code.DATA_FAULT else 0
    let s := t.bytes.foldl (fun u b => u.addChk b.1 b.2) (s.dropTracker t)
    let s := t.readers.foldl (fun u r => u.tellReader t code r) s
    if code = 0 ∨ (t.told = true ∧ ident = false) then s
    else
      let s := if ident && (bad || t.err.isSome) && !t.told then s.fault Code.DATA_FAULT Unit_.taps t.tap 0 else s
      s.frameFault { code := code, tap := t.tap, inward := t.wr, region := t.region, trailer := some tr
                     got := if bad || ident then got else 0, where_ := (s.granuleOf t.region t.frame 0).1 / 256, last := t.lastAt }

/-- R260: a sector of the frame in one direction ends its traversal in the other. -/
def State.endOther (s : State) (r f : Nat) (wr : Bool) : State :=
  (s.ck.trackers.filter fun t => t.region == r && t.frame == f && t.wr != wr).foldl (fun u t => u.endTracker 10 t) s

/-- A carried, covered sector joins or opens its traversal, or is uncovered under the cause answered (R255, R256, R260,
R261). -/
def State.takeSector (s : State) (tap rm r f j : Nat) (wr err : Bool) (data : List Byte) : State × Option Nat :=
  if s.get Reg.CK_TRK_AGE_us = 0 then (s, some 2)
  else
    let s := s.endOther r f wr
    let key : Tracker := { region := r, frame := f, wr := wr, firstAt := s.cyc }
    let s := match s.ck.trackers.find? fun t => t.same key with
      | some t => if (t.sector j).isEmpty then s else s.endTracker 4 t
      | none => s
    let old := s.ck.trackers.find? fun t => t.same key
    if old.isNone && s.blindFrame r f then (s, some 5)
    else if old.isNone && decide (2048 ≤ s.ck.trackers.length) then (s, some 3)
    else
      let s := if old.isNone then s.setCk fun c => { c with trackers := c.trackers ++ [key] } else s
      let s := s.put Reg.CK_TRK_PEAK_peak (max (s.get Reg.CK_TRK_PEAK_peak) s.ck.trackers.length)
      let t := old.getD key
      let n := ((t.bytes.find? fun b => b.1 == tap).map fun b => b.2).getD 0
      let t := { t with secs := Sparse.insert t.secs j data, tap := tap, lastAt := s.fleet
                        readers := if t.readers.contains rm then t.readers else t.readers ++ [rm]
                        bytes := (t.bytes.filter fun b => b.1 != tap) ++ [(tap, n + 32)]
                        err := if err && t.err.isNone then some (tap, s.cyc) else t.err }
      let s := s.putTracker t
      (if t.full then s.decideFrame t else s, none)

/-! ### Memory taps (R254, R262) -/

/-- A carried sector of a beat: its data region and frame, its direction and its position. -/
abbrev Carried := Nat × Nat × Bool × Nat

/-- Sector `j` of the traversal has come, or comes with the beat (R262). -/
def Tracker.holds (t : Tracker) (now : List Carried) (j : Nat) : Bool :=
  !(t.sector j).isEmpty || now.contains (t.region, t.frame, t.wr, j)

/-- The traversal may have lost a sector at a drop on tap `m`: one of its sectors that belong to the tap has not come. -/
def State.lacks (s : State) (m : Nat) (now : List Carried) (t : Tracker) : Bool :=
  s.get (Reg.CK_ILV_CFG_s_chans (s.get (Reg.CK_RG_CFG_r_ilv t.region))) == 0 ||
  granulePos.any fun j =>
    (upto (if j = 128 then 2 else 8)).any (fun k => !(t.holds now (j + k))) &&
      (let g := s.granuleOf t.region t.frame j
       s.routeOfGranule g.1 g.2 == .tap m)

/-- R262: a drop on tap `m` ends every traversal that may have lost a sector there; sectors `now` come with the beat that
carries the drop. -/
def State.tapDrop (s : State) (m : Nat) (now : List Carried) : State :=
  (s.ck.trackers.filter fun t => s.lacks m now t).foldl (fun u t => u.endTracker 1 t) (s.bump (Reg.CK_MT_EVT_m_drops m) 1)

/-- R254: a misrouted granule is counted, and recorded at most once per millisecond per tap.
[DEDUCED, unsafe: log entry 73] -/
def State.misroute (s : State) (m : Nat) : State :=
  let s := s.bump Reg.CK_MISROUTES_count 1
  let due := match s.ck.misAt.getD m none with | some c => decide (c + msCycles ≤ s.cyc) | none => true
  if due then (s.setCk fun c => { c with misAt := modAt c.misAt m fun _ => some s.cyc }).fault 0x43 Unit_.taps m 0 |>.raise 39 else s

/-- The direction is enabled for the data region. -/
def State.dirOn (s : State) (r : Nat) (wr : Bool) : Bool :=
  if wr then s.get (Reg.CK_RG_CFG_r_wr r) == 1 else s.get (Reg.CK_RG_CFG_r_rd r) == 1

/-- What becomes of a carried sector. -/
inductive Taken where
  | exempt
  | joined
  | uncovered (c : Nat)
deriving DecidableEq, Repr

/-- One carried sector of a granule. `ws` are the frames the beat writes: a read sector of such a frame is uncovered
(R273). -/
def State.memSector (s : State) (m r g k : Nat) (wr err mis : Bool) (ws : List (Nat × Nat)) (data : List Byte) : State × Taken :=
  match s.sectorAt r g k with
  | none => (s.incr64 (Reg.CK_MT_EXM_LO_m m) 32, .exempt)
  | some (d, f, j) =>
    let raced := !wr && ws.contains (d, f)
    let s := if raced then s.endOther d f true else s.endOther d f wr
    if !(s.dirOn d wr) then (s.incr64 (Reg.CK_MT_EXM_LO_m m) 32, .exempt)
    else if mis then (s.addUnc m 32, .uncovered 7)
    else if raced then (s.addUnc m 32, .uncovered 10)
    else
      match s.takeSector m 0 d f j wr err data with
      | (t, some c) => (t.addUnc m 32, .uncovered c)
      | (t, none) => (t, .joined)

/-- Carried sectors `ks` of a granule in order; what became of them, each outcome once. -/
def State.memSectors (m r g : Nat) (wr err mis : Bool) (ws : List (Nat × Nat)) (data : List Byte) :
    List Nat → State × List Taken → State × List Taken
  | [], p => p
  | k :: ks, (s, cs) =>
    let q := s.memSector m r g k wr err mis ws ((data.drop (32 * k)).take 32)
    State.memSectors m r g wr err mis ws data ks (q.1, if cs.contains q.2 then cs else cs ++ [q.2])

/-- The data region and frame of a granule of region `r`, by the first of sectors `ks` that has one. -/
def State.frameAt (s : State) (r g : Nat) (ks : List Nat) : Option (Nat × Nat) :=
  (ks.findSome? fun k => s.sectorAt r g k).map fun x => (x.1, x.2.1)

/-- A granule with an error that no frame of the trackers carries is a frame fault of its own; `where` is its frame's first
granule (R270), or its own where it belongs to no frame.
[DEDUCED, unsafe: log entry 60] -/
def State.granuleErr (s : State) (m : Nat) (g : Granule) (region : Nat) (frame : Option (Nat × Nat)) : State :=
  s.frameFault { code := Code.DATA_FAULT, tap := m, inward := g.wr, trailer := none, got := 0, last := s.fleet
                 region := match frame with | some x => x.1 | none => region
                 where_ := match frame with | some x => (s.granuleOf x.1 x.2 0).1 / 256 | none => g.gaddr.toNat }

/-- Sectors `ks` of a granule outside every region. -/
def State.granuleOut (s : State) (m : Nat) (g : Granule) (ks : List Nat) : State :=
  let s := s.incr64 (Reg.CK_MT_OUT_LO_m m) (32 * ks.length)
  if g.err then s.granuleErr m g 0xFF none else s

/-- The granule of region `r` does not belong to tap `m` (R254). -/
def State.misrouted (s : State) (m a r : Nat) : Bool :=
  match s.routeOfGranule a r with | .free => false | .noTap => true | .tap t => t != m

/-- Sectors `ks` of a granule of region `r`. -/
def State.granuleIn (s : State) (m : Nat) (g : Granule) (ks : List Nat) (ws : List (Nat × Nat)) (r : Nat) : State :=
  let a := g.gaddr.toNat * 256
  let n := (a - s.rgBase r) / 256
  let mis := s.misrouted m a r
  let s := if mis && !ks.isEmpty then s.misroute m else s
  let p := State.memSectors m r n g.wr g.err mis ws (padTo 256 g.data) ks (s, [])
  let s := p.2.foldl (fun u x => match x with | .uncovered c => u.uncause c | _ => u) p.1
  if g.err && !(p.2.contains .joined) then s.granuleErr m g r (s.frameAt r n (if ks.isEmpty then upto 8 else ks)) else s

def carriedOf (g : Granule) : List Nat := (upto 8).filter fun k => bit g.smask.toNat k

/-- One granule of a beat. -/
def State.memGranule (s : State) (m : Nat) (ws : List (Nat × Nat)) (g : Granule) : State :=
  let s := if g.err then s.bump (Reg.CK_MT_EVT_m_err m) 1 else s
  (s.regionOf (g.gaddr.toNat * 256)).elim (s.granuleOut m g (carriedOf g)) (s.granuleIn m g (carriedOf g) ws)

/-- The sectors of frames that a granule carries. -/
def State.carried (s : State) (g : Granule) : List Carried :=
  let a := g.gaddr.toNat * 256
  match s.regionOf a with
  | none => []
  | some r => (carriedOf g).filterMap fun k => (s.sectorAt r ((a - s.rgBase r) / 256) k).map fun x => (x.1, x.2.1, g.wr, x.2.2)

/-- MEMORY_TAP_BEAT (R65, R66): a drop applies before the beat that carries it; the granules follow in the order of their
lanes.
[DEDUCED, unsafe: log entry 72] -/
def State.memBeat (s : State) (m : Nat) (gs : List (Option Granule)) (drop : Bool) : State :=
  let gs := (gs.take 4).filterMap id
  let now := gs.flatMap s.carried
  let s := if drop then s.tapDrop m now else s
  gs.foldl (fun u g => u.memGranule m ((now.filter fun c => c.2.2.1).map fun c => (c.1, c.2.1)) g) s

def execMemoryTapBeat (tap : Fin 16) (granules : List (Option Granule)) (drop : Bool) (s : State) : Host.Outcome State Fault Refusal :=
  .next (if s.active && s.mtEn tap.val && !s.tray then s.memBeat tap.val granules drop else s)

/-- MEMORY_TAP_DROP: `mt_drop` alone for one cycle. -/
def execMemoryTapDrop (tap : Fin 16) (s : State) : Host.Outcome State Fault Refusal :=
  .next (if s.active && s.mtEn tap.val && !s.tray then s.tapDrop tap.val [] else s)

/-- TRACKER_AGE_OUT (R260): traversals of the frame in that direction whose age has passed; one that is complete has
been decided (R273). -/
def State.trackerAge (s : State) (r f : Nat) (wr : Bool) : State :=
  let mine := fun (t : Tracker) => t.region == r && t.frame == f && t.wr == wr
  match s.ck.trackers.find? mine with
  | none => s
  | some t =>
    let age := s.get Reg.CK_TRK_AGE_us * usCycles
    let s := s.passTo (t.firstAt + age)
    (s.ck.trackers.filter fun x => mine x && decide (x.firstAt + age ≤ s.cyc)).foldl (fun u x => u.endTracker 2 x) s

def execTrackerAgeOut (region : Fin 64) (frame : BitVec 52) (wr : Bool) (s : State) : Host.Outcome State Fault Refusal :=
  .next (if s.active then s.trackerAge region.val frame.toNat wr else s)

/-- MT_ERR_REPORT_TIMEOUT (R269): the 2 µs of a frame fault from `mt_err` have run out before the frame's decision. -/
def State.mtErrTimeout (s : State) (r f : Nat) (wr : Bool) : State :=
  match s.ck.trackers.find? fun t => t.region == r && t.frame == f && t.wr == wr && t.err.isSome && !t.told with
  | none => s
  | some t =>
    match t.err with
    | none => s
    | some (_, at_) => ((s.passTo (at_ + 2 * usCycles)).putTracker { t with told := true }).errFault t

def execMtErrReportTimeout (region : Fin 64) (frame : BitVec 52) (wr : Bool) (s : State) : Host.Outcome State Fault Refusal :=
  .next (if s.active then s.mtErrTimeout region.val frame.toNat wr else s)

/-! ### Link taps (R264–R267) -/

def State.link (s : State) (i : Nat) : LinkDir := s.ck.links.getD i {}

def State.setLink (s : State) (i : Nat) (f : LinkDir → LinkDir) : State := s.setCk fun c => { c with links := modAt c.links i f }

/-- The direction of a link tap is checked (R264). -/
def State.linkChk (s : State) (l i : Nat) : Bool :=
  s.ltEn l && (if i % 2 = 1 then s.get (Reg.CK_LT_CFG_l_ingr l) == 1 else s.get (Reg.CK_LT_CFG_l_egr l) == 1)

/-- Recipient recording is on for this egress stream. -/
def State.rcpOn (s : State) (l i : Nat) : Bool := i % 2 == 0 && s.get (Reg.CK_LT_CFG_l_rcp l) == 1

/-- Bytes of a stream that are in no tensor block frame: uncovered where the direction is checked, and recorded as
unattributed (R267). -/
def State.streamLost (s : State) (l i peer n : Nat) : State :=
  let s := if s.linkChk l i then s.incr64 (Reg.CK_LT_UNC_LO_l l) n else s
  if s.rcpOn l i && n != 0 then s.recordRcp 0 peer true l else s

/-- The stream goes out of sync (R265): the bytes of the frame under way are lost, under cause `c`. -/
def State.loseSync (s : State) (l i c : Nat) : State :=
  let d := s.link i
  if !d.sync then s
  else
    let s := (s.bump (Reg.CK_LT_EVT_l_desync l) 1).streamLost l i (d.peer.getD 0) d.buf.length
    let s := if s.linkChk l i then s.uncause c else s
    s.setLink i fun d => { d with sync := false, buf := [] }

/-- A whole candidate frame stands in the stream's buffer (R265, R266, R267). -/
def State.linkFrame (s : State) (l i peer : Nat) : State :=
  let bs := (s.link i).buf
  let tr := bs.drop 4096
  if !(trailerMagic tr) then s.loseSync l i 6
  else
    let s := s.setLink i fun d => { d with buf := [] }
    let s := if s.rcpOn l i then s.recordRcp (field tr 24 4) peer false l else s
    let got := frameCrc (bs.take 4096) tr
    if !(s.linkChk l i) then s
    else
      let s := s.incr64 (Reg.CK_LT_CHK_LO_l l) 4160
      if got = field tr 0 4 then s
      else
        s.frameFault { code := Code.DATA_FAULT, tap := 16 + l, inward := i % 2 == 1, region := 0xFF, trailer := some tr, got := got
                       where_ := peer, last := s.fleet, peer := some peer }

/-- The stream takes a payload: whole frames are decided, the rest waits. -/
def State.linkPayload (l i peer : Nat) : Nat → List Byte → State → State
  | 0, _, s => s
  | n + 1, bs, s =>
    let d := s.link i
    if !d.sync then s.streamLost l i peer bs.length
    else
      let k := 4160 - d.buf.length
      let s := s.setLink i fun d => { d with buf := d.buf ++ bs.take k }
      if bs.length < k then s else State.linkPayload l i peer n (bs.drop k) (s.linkFrame l i peer)

/-- R264: the frame is tensor traffic of the tap. -/
def State.tensorTraffic (s : State) (l : Nat) (bs : List Byte) : Bool :=
  let off := s.get (Reg.CK_LT_SEL_l_off l)
  let mask := s.get (Reg.CK_LT_SEL_l_mask l)
  if mask = 0 then true
  else decide (off < bs.length) && (field bs off 1 &&& mask) == s.get (Reg.CK_LT_SEL_l_val l)

/-- The payload of a tensor-traffic link frame joins its stream: `pre` is what came before a gap, `post` what came after
it (R265).
[DEDUCED, safe: log entry 62] -/
def State.streamTake (s : State) (l i peer : Nat) (pre post : List Byte) (gap err : Bool) : State :=
  let d := s.link i
  let s := if d.peer ≠ some peer ∧ !d.buf.isEmpty then s.loseSync l i 8 else s
  let s := s.setLink i fun d => { d with peer := some peer, sync := d.sync || !pre.isEmpty }
  let s := State.linkPayload l i peer (pre.length / 4160 + 2) pre s
  let s := if gap || (err && !(s.link i).buf.isEmpty) then s.loseSync l i 8 else s
  s.streamLost l i peer post.length

/-- A link frame has ended, with `lt_eof` or, without it, because the next began.
[DEDUCED, safe: log entry 61] -/
def State.linkEnd (s : State) (l i : Nat) (eof err : Bool) : State :=
  let d := s.link i
  let bs := d.cur
  let gap := if eof then d.gap else some (d.gap.getD bs.length)
  let s := s.setLink i fun d => { d with cur := [], opened := false, bad := false, gap := none }
  let s := if err || d.bad then s.bump (Reg.CK_LT_EVT_l_lost l) 1 else s
  if !(s.tensorTraffic l bs) then
    let s := s.incr64 (Reg.CK_LT_OUT_LO_l l) bs.length
    if (err || gap.isSome) && !(s.link i).buf.isEmpty then s.loseSync l i 8 else s
  else
    let hdr := min (s.get (Reg.CK_LT_CFG_l_hdr l)) bs.length
    let tail := if eof then min (s.get (Reg.CK_LT_CFG_l_tail l)) (bs.length - hdr) else 0
    let pay := (bs.drop hdr).take (bs.length - hdr - tail)
    let k := match gap with | some n => n - hdr | none => pay.length
    let s := s.incr64 (Reg.CK_LT_OUT_LO_l l) (if s.linkChk l i then hdr + tail else bs.length)
    if s.linkChk l i || s.rcpOn l i then s.streamTake l i d.far (pay.take k) (pay.drop k) gap.isSome err else s

/-- A dropped interval on a direction of a link tap: it falls inside the link frame under way, or inside the tensor block
frame that awaits the next one. -/
def State.linkDrop (s : State) (l i : Nat) : State :=
  let d := s.link i
  let s := if !d.opened && !d.buf.isEmpty then s.loseSync l i 8 else s
  s.setLink i fun d => { d with bad := true, gap := if d.opened then some (d.gap.getD d.cur.length) else d.gap }

/-- A dropped interval on a link tap, of either direction (R67). -/
def State.linkDrops (s : State) (l : Nat) : State := (s.linkDrop l (2 * l)).linkDrop l (2 * l + 1)

/-- R68: the clock stopped with taps enabled: when it returns, every enabled tap has a drop. -/
def State.tapsReturn (s : State) : State :=
  if !s.ck.stopped then s
  else
    let s := s.setCk fun c => { c with stopped := false }
    let s := ((upto 16).filter s.mtEn).foldl (fun u m => u.tapDrop m []) s
    ((upto 8).filter s.ltEn).foldl (fun u l => u.linkDrops l) s

/-- A beat opens its link frame: with `lt_sof`, ending one left open; without it, in the middle of a frame whose start was
not seen. -/
def State.linkOpen (s : State) (l i peer : Nat) (sof drop : Bool) : State :=
  let d := s.link i
  if sof then
    let s := if d.opened then s.linkEnd l i false false else s
    s.setLink i fun d => { d with cur := [], opened := true, bad := d.bad || drop, gap := none, far := peer }
  else if d.opened then s
  else s.setLink i fun d => { d with cur := [], opened := true, gap := some 0, far := peer }

/-- LINK_TAP_BEAT (R67); `lt_drop` alone for a cycle comes with no bytes. -/
def State.linkBeat (s : State) (l : Nat) (ingress sof eof : Bool) (data : List Byte) (peer : Nat) (err drop : Bool) : State :=
  let i := 2 * l + b2n ingress
  let s := if drop then s.linkDrops l else s
  if data.isEmpty && !sof && !eof then s
  else
    let s := (s.linkOpen l i peer sof drop).setLink i fun d => { d with cur := d.cur ++ data.take 32 }
    if eof then s.linkEnd l i true err else s

def execLinkTapBeat (tap : Fin 8) (ingress sof eof : Bool) (data : List Byte) (peer : BitVec 17) (err drop : Bool) (s : State) :
    Host.Outcome State Fault Refusal :=
  .next (if s.active && s.ltEn tap.val && !s.tray then s.linkBeat tap.val ingress sof eof data peer.toNat err drop else s)

/-! ### Snapshot, commit and start (R268, R271, R272) -/

/-- Bit 1 of a strike's units. -/
def State.tapsLatch (s : State) : State :=
  let sum := fun (f g : Nat → Nat) => ((upto 16).foldl (fun n m => n + s.rd64 (f m)) 0 + (upto 8).foldl (fun n l => n + s.rd64 (g l)) 0) % 2 ^ 64
  ((s.wr64 Reg.CK_SNAP_CHK_LO (sum Reg.CK_MT_CHK_LO_m Reg.CK_LT_CHK_LO_l)).wr64 Reg.CK_SNAP_UNC_LO
    (sum Reg.CK_MT_UNC_LO_m Reg.CK_LT_UNC_LO_l)).wr Reg.CK_SNAP_TRK s.ck.trackers.length

/-- Region `r`'s own registers, or those of its interleave set, are touched. -/
def State.regionTouched (s : State) (touched : Nat → Bool) (r : Nat) : Bool :=
  let set := s.get (Reg.CK_RG_CFG_r_ilv r)
  (upto 6).any (fun k => touched (Reg.CK_RG_BASE_LO_r r + 4 * k)) || (upto 12).any fun k => touched (Reg.CK_ILV_CFG_s set + 4 * k)

/-- R260: the swap changes the region of a traversal, its trailers' region or the interleave set of either. -/
def State.regionChanged (s : State) (touched : Nat → Bool) (r : Nat) : Bool :=
  s.regionTouched touched r || (s.rgLayout r == 1 && s.regionTouched touched (s.get (Reg.CK_RG_CFG_r_pair r)))

/-- R271: a stream whose direction `old` did not check starts empty; one no longer checked loses the frame under way.
[DEDUCED, unsafe: log entry 213] -/
def State.streamsSwap (s old : State) : State :=
  (upto 16).foldl (fun u i =>
    if u.linkChk (i / 2) i == old.linkChk (i / 2) i then u
    else if u.linkChk (i / 2) i then u.setLink i fun _ => {}
    else
      let d := u.link i
      let u := u.incr64 (Reg.CK_LT_UNC_LO_l (i / 2)) d.buf.length
      (if d.buf.isEmpty then u else u.uncause 8).setLink i fun _ => {}) s

/-- After a swap from `old`: traversals of regions it changes end with cause `config`, those of other regions go on. -/
def State.tapsSwap (s old : State) (touched : Nat → Bool) : State :=
  ((s.ck.trackers.filter fun t => s.regionChanged touched t.region).foldl (fun u t => u.endTracker 9 t) s).streamsSwap old

/-- R268: the recipient table was lost: incomplete for one age from now. -/
def State.rcpRestart (s : State) : State :=
  if s.tray then s else s.wr64 Reg.CK_RCP_INC_LO ((s.fleet + s.rcpAge) % 2 ^ 64)

/-- `CK_STATUS` and `CK_LT_STATE_l`. -/
def State.tapStatus (s : State) : Nat := s.ck.trackers.length + 2 ^ 31 * b2n s.rcpInc
def State.linkState (s : State) (l : Nat) : Nat := b2n (s.link (2 * l + 1)).sync + 2 * b2n (s.link (2 * l)).sync

/-! ### Frames by address (R306) -/

/-- The framed data byte at an address: region and position among the region's data bytes. -/
def State.dataPos (s : State) (a : Nat) : Option (Nat × Nat) :=
  (s.regionOf a).bind fun r =>
    let o := a - s.rgBase r
    if s.rgLayout r = 1 then some (r, o)
    else if s.rgLayout r = 0 ∧ o / 256 % 17 < 16 then some (r, 4096 * (o / 4352) + o % 4352)
    else none

/-- The address of data byte `p` of region `r`. -/
def State.dataAddr (s : State) (r p : Nat) : Nat :=
  s.rgBase r + (if s.rgLayout r = 0 then 4352 else 4096) * (p / 4096) + p % 4096

/-- The lines of a whole frame: 64 of data and the trailer's. -/
def State.frameLines (s : State) (r f : Nat) : List Nat :=
  ((upto 64).map fun k => s.dataAddr r (4096 * f) + 64 * k) ++ [s.trailerAddr r f]

/-- A line of a frame that the read master brought goes through the combiner as source 24 (R270).
[DEDUCED, safe: log entry 59] -/
def State.readMasterLine (s : State) (rm r f : Nat) (a : Nat) (bs : List Byte) : State :=
  if !(s.dirOn r false) then s.endOther r f false
  else
    let j := if a = s.trailerAddr r f then 128 else (a - s.dataAddr r (4096 * f)) / 32
    let p := s.takeSector 24 rm r f j false false (bs.take 32)
    let q := p.1.takeSector 24 rm r f (j + 1) false false ((bs.drop 32).take 32)
    (([p.2, q.2].filterMap id).eraseDups).foldl (fun u c => u.uncause c) q.1

end Sys2Proof.Machine
end

