-- ==== Sys2Proof/Machine/Checker.lean ====
section
/-! DEFINITION. The spot checker (R304–R320): CHECK, tile descriptors, the sampler, the lanes, arbitration and verdicts. -/

namespace Sys2Proof.Machine

def State.xlane (s : State) (l : Nat) : CheckLane := s.xc.lanes.getD l {}

def State.setXlane (s : State) (l : Nat) (f : CheckLane → CheckLane) : State :=
  { s with xc := { s.xc with lanes := modAt s.xc.lanes l f } }

def State.setXc (s : State) (f : Checker → Checker) : State := { s with xc := f s.xc }

/-- Host model `n` from its registers (R302). -/
def State.hostModel (s : State) (n : Nat) : HostModel :=
  { aFmt := s.get (Reg.XC_HM_IN_n_a_fmt n), bFmt := s.get (Reg.XC_HM_IN_n_b_fmt n), aScale := s.get (Reg.XC_HM_IN_n_a_scale n) == 1
    bScale := s.get (Reg.XC_HM_IN_n_b_scale n) == 1, ftz := s.get (Reg.XC_HM_IN_n_ftz n) == 1, outFmt := s.get (Reg.XC_HM_OUT_n_out_fmt n)
    sat := s.get (Reg.XC_HM_OUT_n_mode n) == 1, intSat := s.get (Reg.XC_HM_OUT_n_int_sat n) == 1, acc := s.get (Reg.XC_HM_ACC_n_acc n)
    rz := s.get (Reg.XC_HM_ACC_n_rz n) == 1, prodRnd := s.get (Reg.XC_HM_ACC_n_prod_rnd n) == 1, order := s.get (Reg.XC_HM_ACC_n_order n)
    chunk := s.get (Reg.XC_HM_ACC_n_chunk n), num := n }

/-! ### Descriptors (R305–R307) -/

def dA (d : List Byte) : Nat := field d 0 8
def dB (d : List Byte) : Nat := field d 8 8
def dD (d : List Byte) : Nat := field d 16 8
def dAs (d : List Byte) : Nat := field d 24 8
def dBs (d : List Byte) : Nat := field d 32 8
def dK (d : List Byte) : Nat := field d 40 4 % 2 ^ 21
def dHdigV (d : List Byte) : Bool := bit (field d 40 4) 24
def dForce (d : List Byte) : Bool := bit (field d 40 4) 25
def dHdig (d : List Byte) : Nat := field d 60 4

/-- A run of bytes of one array of a tile: its base, the run's data offset and length, and whether it is an operand. -/
structure Span where
  base : Nat
  off  : Nat
  n    : Nat
  oper : Bool
deriving DecidableEq, Repr

/-- Bytes of `k` elements. -/
def elemBytes (fmt k : Nat) : Nat := (k * fmtBits fmt + 7) / 8

/-- R306: every run of bytes of a tile. -/
def tileSpans (h : HostModel) (d : List Byte) : List Span :=
  (upto 128).flatMap fun i =>
    [{ base := dA d, off := i * field d 44 4, n := elemBytes h.aFmt (dK d), oper := true },
     { base := dB d, off := i * field d 48 4, n := elemBytes h.bFmt (dK d), oper := true }] ++
    (if h.aScale then [{ base := dAs d, off := i * field d 56 2, n := dK d / 32, oper := true }] else []) ++
    (if h.bScale then [{ base := dBs d, off := i * field d 58 2, n := dK d / 32, oper := true }] else []) ++
    [{ base := dD d, off := i * field d 52 4, n := elemBytes h.outFmt 128, oper := false }]

/-- A run of bytes that no frames hold lies wholly in the region of its base, or wholly outside every region (R306).
[DEDUCED, safe: log entry 214] -/
def State.rawOk (s : State) (p : Span) : Bool :=
  let lo := p.base + p.off
  match s.regionOf p.base with
  | some r => decide (lo + p.n ≤ s.rgBase r + 256 * s.rgSize r)
  | none => decide (lo + p.n ≤ 2 ^ 52) && (upto 64).all fun r =>
      let a := s.rgBase r
      s.rgSize r == 0 || decide (lo + p.n ≤ a) || decide (a + 256 * s.rgSize r ≤ lo)

/-- R306: the span lies wholly in the region of its base, or wholly outside every region. -/
def State.spanOk (s : State) (p : Span) : Bool :=
  (s.dataPos p.base).elim (s.rawOk p) fun x => decide (x.2 + p.off + p.n ≤ 4096 * s.framesIn x.1)

/-- R307. -/
def State.badDesc (s : State) (h : HostModel) (d : List Byte) : Bool :=
  let w := field d 40 4
  let addrs := [dA d, dB d, dD d] ++ (if h.aScale then [dAs d] else []) ++ (if h.bScale then [dBs d] else [])
  bits w 21 3 != 0 || bits w 26 6 != 0 || addrs.any (fun a => decide (2 ^ 52 ≤ a)) || decide (2 ^ 20 < dK d) ||
    ((h.aScale || h.bScale) && dK d % 32 != 0) || !((tileSpans h d).all s.spanOk)

/-! ### The sampler (R308, R309) -/

/-- R308: the temperature and load bins. -/
def State.bins (s : State) : Nat × Nat :=
  let n := s.get Reg.XC_SAMP_CFG_sensor
  let v := toSigned 16 (s.get (Reg.PM_SN_VAL_n_value n))
  let tb := if s.get (Reg.PM_SN_VAL_n_state n) = 3 then 0
    else (max 0 (min 15 (asr (v - toSigned 16 (s.get Reg.XC_SAMP_TBASE_t_base)) (s.get Reg.XC_SAMP_CFG_t_shift)))).toNat
  let h := s.get Reg.XC_SAMP_CFG_hq
  let lb := if s.get (Reg.CF_HQ_CFG_h_en h) = 0 then 0 else min 7 ((s.mon h).depth >>> s.get Reg.XC_SAMP_CFG_l_shift)
  (tb, lb)

/-- R309: the tile is checked.
[DEDUCED, safe: log entry 68] -/
def State.chosen (s : State) (j : CheckJob) (d : List Byte) : Bool :=
  let h := crc32c (leBytes 8 (dD d) ++ leBytes 4 j.step ++ leBytes 4 (s.rd Reg.XC_SAMP_SEED))
  let thr := min 0xFFFFFFFF ((s.rd Reg.XC_SAMP_BASE * s.get (Reg.XC_W_k_w (16 * j.lb + j.tb))) >>> 8)
  s.get Reg.XC_SAMP_CFG_en == 0 || dForce d || decide (h < thr)

/-! ### Reading a tile (R310, R311, R315) -/

/-- Frames of a tile with the flag of an operand, ascending by address; unframed lines beside them. -/
def State.tileFrames (s : State) (ps : List Span) : List (Nat × Nat × Bool) :=
  let fs := ps.flatMap fun p =>
    match s.dataPos p.base with
    | some (r, b) =>
      if p.n = 0 then []
      else (upto ((b + p.off + p.n - 1) / 4096 - (b + p.off) / 4096 + 1)).map fun i => (r, (b + p.off) / 4096 + i, p.oper)
    | none => []
  let keys := (fs.map fun f => (f.1, f.2.1)).eraseDups
  sortBy (fun a b => decide (s.dataAddr a.1 (4096 * a.2.1) < s.dataAddr b.1 (4096 * b.2.1)))
    (keys.map fun k => (k.1, k.2, fs.any fun f => f.1 == k.1 && f.2.1 == k.2 && f.2.2))

def State.tileRaw (s : State) (ps : List Span) : List Nat :=
  ((ps.filter fun p => (s.dataPos p.base).isNone).flatMap fun p => linesOf (p.base + p.off) p.n).eraseDups

/-- Start a lane's reading with the descriptor. -/
def State.readDesc (s : State) (l addr : Nat) (again : Bool) : State :=
  (s.setXlane l fun x => { x with read := some { again := again, startAt := s.cyc, lastAt := s.cyc } }).hostRead (.tile l) [addr] 0

/-- The descriptor has come and its tile is checked: ask for every frame whole, and every unframed line. -/
def State.readTile (s : State) (l : Nat) (h : HostModel) (d : List Byte) (again : Bool) : State :=
  let ps := tileSpans h d
  let fs := s.tileFrames ps
  let raw := s.tileRaw ps
  let ordered := if again then fs.reverse else fs
  let lines := ordered.flatMap (fun f => s.frameLines f.1 f.2.1) ++ raw
  let opRaw := ps.any fun p => p.oper && (s.dataPos p.base).isNone && p.n != 0
  (s.setXlane l fun x => { x with read := x.read.map fun r =>
    { r with desc := some d, left := lines.length, frames := fs, raw := !raw.isEmpty, opRaw := opRaw } }).hostRead (.tile l) lines 1

/-- A byte of an array of the tile, from the lines read. -/
def State.tileByte (s : State) (r : TileRead) (base off : Nat) : Byte :=
  let a := match s.dataPos base with | some (g, b) => s.dataAddr g (b + off) | none => base + off
  (Sparse.get (fun _ => []) r.lines (a - a % 64)).getD (a % 64) 0

def State.tileBytes (s : State) (r : TileRead) (base off n : Nat) : List Byte := (upto n).map fun i => s.tileByte r base (off + i)

/-- Element `k` of a packed run (R306). -/
def elemAt (fmt : Nat) (bs : List Byte) (k : Nat) : Nat :=
  let w := fmtBits fmt
  bits (field bs (k * w / 8) 5) (k * w % 8) w

/-- One row of A or column of B. -/
def State.opRow (s : State) (r : TileRead) (fmt k base stride sbase sstride i : Nat) (scaled ftz : Bool) : OpRow :=
  let bs := s.tileBytes r base (i * stride) (elemBytes fmt k)
  let sc := if scaled then s.tileBytes r sbase (i * sstride) (k / 32) else []
  (upto k).map fun j => (elemOf fmt (elemAt fmt bs j) ftz, if scaled then (sc.getD (j / 32) 0).toNat else 127)

/-- The summary a lane computes from what it read. -/
def State.tileCompute (s : State) (h : HostModel) (r : TileRead) : List Byte :=
  let d := r.desc.getD []
  let k := dK d
  let rows := (upto 128).map fun i => s.opRow r h.aFmt k (dA d) (field d 44 4) (dAs d) (field d 56 2) i h.aScale h.ftz
  let cols := (upto 128).map fun i => s.opRow r h.bFmt k (dB d) (field d 48 4) (dBs d) (field d 58 2) i h.bScale h.ftz
  let host := (upto 128).map fun i =>
    let bs := s.tileBytes r (dD d) (i * field d 52 4) (elemBytes h.outFmt 128)
    (upto 128).map fun j => elemAt h.outFmt bs j
  tileSummary h k rows cols host

/-- R311: the digest over the operand frames' trailer `crc` fields. -/
def State.tileDigest (s : State) (r : TileRead) : Option Nat :=
  if r.opRaw then none
  else some (crc32c ((r.frames.filter fun f => f.2.2).flatMap fun f =>
    ((Sparse.get (fun _ => []) r.lines (s.trailerAddr f.1 f.2.1 - s.trailerAddr f.1 f.2.1 % 64)).take 4)))

/-- What a finished reading and computation found. -/
def State.tileRes (s : State) (h : HostModel) (r : TileRead) : TileRes :=
  { sum := if r.unread then [] else s.tileCompute h r, dig := s.tileDigest r, changed := r.wrong
    unver := r.raw || r.frames.any (fun f => !(r.good.contains (f.1, f.2.1))), unread := r.unread, at_ := s.cyc }

/-! ### Verdicts (R313, R319, R320) -/

def verdictCode (v : Nat) : Nat :=
  match v with | 0 => Code.OK | 1 => Code.CHECK_MISMATCH | 2 => 0x48 | 3 => 0x49 | 4 => 0x4A | _ => 0x4B

/-- The verdict record (R320). -/
def State.verdictRecord (s : State) (j : CheckJob) (d sum : List Byte) (v flags : Nat) : List Byte :=
  let h := leBytes 1 v ++ leBytes 1 (verdictCode v) ++ leBytes 1 flags ++ leBytes 1 j.q ++ leBytes 4 j.step ++ leBytes 8 (dD d) ++
    padTo 32 sum ++ leBytes 8 s.fleet ++ leBytes 4 (dK d + 2 ^ 21 * j.tb + 2 ^ 25 * j.lb)
  h ++ leBytes 4 (crc32c h)

def State.verdictRing (s : State) (bs : List Byte) : State :=
  let addr := s.get Reg.XC_VR_LO_addr_lo * 64 + s.get Reg.XC_VR_HI_addr_hi * 2 ^ 32
  match s.ringPut 2 (min 256 (s.get Reg.XC_VR_HI_ents)) addr (s.rd Reg.XC_VR_WR) (s.rd Reg.XC_VR_RD) bs with
  | none => s
  | some none => s.bump Reg.XC_VR_LOST_count 1
  | some (some t) => t.incr Reg.XC_VR_WR 1

/-- The tally of `XC_VERDICTS`. -/
def State.tallyVerdict (s : State) (v : Nat) : State :=
  match v with
  | 1 => s.bump Reg.XC_VERDICTS_host 1
  | 2 => s.bump Reg.XC_VERDICTS_checker 1
  | 3 => s.bump Reg.XC_VERDICTS_data 1
  | 4 => s.bump Reg.XC_VERDICTS_inconc 1
  | _ => s

/-- R319: a verdict other than `agree` acts. -/
def State.verdictActs (s : State) (j : CheckJob) (vr : List Byte) (v : Nat) : State :=
  let s := (s.tallyVerdict v).raise 40
  let s := (s.offer { func := 5, unit := Unit_.checker, job := s.jobTag, pay := vr.take 44 }).2
  if v = 1 then (s.detect { step := j.step, cause := 1 }).jack true
  else if v = 4 ∧ s.get Reg.XC_POLICY_taint_inc = 1 then s.detect { step := j.step, cause := 2 }
  else s

/-- A CHECK's account of a verdict (R313). -/
def CheckJob.note (j : CheckJob) (v idx : Nat) : CheckJob :=
  if v = 0 then j
  else { j with bad := j.bad + 1, first := if j.first.isNone then some (v, idx) else j.first, codes := j.codes ++ [verdictCode v] }

/-- The verdict of lane `l`'s tile: its event record (R48, R319), its verdict record with notice 19 (R320), its effects. -/
def State.verdict (s : State) (l v flags : Nat) (sum : List Byte) : State :=
  let x := s.xlane l
  match x.job, x.tile with
  | some j, some (i, d) =>
    let vr := s.verdictRecord j d sum v (flags + l)
    let s := s.setXlane l fun x => { x with job := some (j.note v i), tile := none, prim := none }
    let s := if v = 0 then s else s.fault (verdictCode v) Unit_.checker j.q 0
    let s := if v != 0 || s.get Reg.XC_POLICY_vr_all == 1 then (s.verdictRing vr).notice 19 else s
    if v = 0 then s else s.verdictActs j vr v
  | _, _ => s

/-! ### A CHECK's end (R313, R314) -/

/-- The result words. -/
def CheckJob.words (j : CheckJob) : List Nat :=
  let f := j.first.getD (0, 0xFFFFFFFF)
  [j.offered, j.checked, j.bad, f.1, f.2, j.tb + 16 * j.lb, j.ops % 2 ^ 32, j.ops / 2 ^ 32 % 2 ^ 32]

/-- A CHECK whose last tile has its verdict. Every code of its tiles has its event records from the verdicts. -/
def State.checkEnd (s : State) (j : CheckJob) : State :=
  if j.ended then s else s.finish j.q j.seq { code := firstCode j.codes, silent := true, res := j.words }

/-- The CHECK has completed: at its bound, or by its queue's watchdog (R186, R314). -/
def State.checkOver (s : State) (j : CheckJob) : Bool :=
  j.ended || (match s.flight? j.q j.seq with | some f => f.done.isSome | none => true)

/-! ### Lane scheduling (R312, R315) -/

/-- A lane neither reads nor runs the known answer. -/
def State.laneFree (s : State) (l : Nat) : Bool :=
  (s.xlane l).read.isNone && (match s.xc.arb with | some a => a.stage != 2 | none => true)

/-- The arbitration under way still waits for lane `l` to recompute. -/
def State.laneOwed (s : State) (l : Nat) : Bool :=
  match s.xc.arb with | some a => a.stage == 1 && a.lane != l && !a.started | none => false

/-- Lane `l` goes to its next tile, its next CHECK, or idles; one step for each unit of fuel.
[DEDUCED, safe: log entry 67] -/
def State.nextTile (l : Nat) : Nat → State → State
  | 0, s => s
  | n + 1, s =>
    let x := s.xlane l
    match x.job with
    | none =>
      match x.jobs with
      | [] => s
      | j :: js => State.nextTile l n (s.setXlane l fun x => { x with job := some j, jobs := js })
    | some j =>
      if s.checkOver j || decide (j.count ≤ j.idx) then
        State.nextTile l n ((s.setXlane l fun x => { x with job := none }).checkEnd j)
      else
        (s.setXlane l fun x => { x with tile := some (j.idx, []), job := some { j with idx := j.idx + 1 } }).readDesc l
          (j.desc + 64 * j.idx) false

/-- Start what can start: the next arbitration, its recompute, and each free lane's next tile. -/
def State.checkerPump (s : State) : State :=
  let s := match s.xc.arb, s.xc.arbQ with
    | none, l :: ls => s.setXc fun c => { c with arb := some { lane := l }, arbQ := ls }
    | _, _ => s
  let s := match s.xc.arb with
    | some a =>
      let o := 1 - a.lane
      if a.stage = 1 ∧ a.started = false ∧ s.laneFree o = true then
        match (s.xlane a.lane).job, (s.xlane a.lane).tile with
        | some j, some (i, _) => (s.setXc fun c => { c with arb := some { a with started := true } }).readDesc o (j.desc + 64 * i) true
        | _, _ => s
      else s
    | none => s
  [0, 1].foldl (fun u l =>
    if u.laneFree l && (u.xlane l).tile.isNone && !(u.laneOwed l) then State.nextTile l ((u.xlane l).jobs.length * 2 + 3) u else u) s

/-- The account of a CHECK of which no tile has run. -/
def State.newCheck (s : State) (q : Nat) (f : Flight) : CheckJob :=
  let c := f.cmd
  let b := f.bins.getD s.bins
  { q := q, seq := f.seq, desc := field c 8 8, count := field c 18 2, step := field c 20 4, model := s.hostModel (field c 16 1)
    tb := b.1, lb := b.2 }

/-- CHECK at its start (R288, R308, R314). -/
def State.runCheck (s : State) (q : Nat) (f : Flight) : State :=
  let c := f.cmd
  let hm := field c 16 1
  if 15 < hm then s.finish q f.seq { code := Code.QE_BAD_CMD }
  else if s.get (Reg.XC_HM_IN_n_a_fmt hm) = 0 then s.finish q f.seq { code := Code.QE_BAD_CMD }
  else if s.get Reg.XC_BOUND_ms = 0 then s.finish q f.seq { code := Code.DEADLINE_MISS, res := (s.newCheck q f).words }
  else (s.setXlane (field c 17 1 % 2) fun x => { x with jobs := x.jobs ++ [s.newCheck q f] }).checkerPump

/-- A CHECK that the drain holds has its bins from its issue (R308); a bound of 0 gives it no time (R314). -/
def State.heldCheck (s : State) (q : Nat) (f : Flight) : State :=
  let b := s.bins
  let t := s.setQueue q fun u => { u with flights := u.flights.map fun g => if g.seq == f.seq then { g with bins := some b } else g }
  if s.get Reg.XC_BOUND_ms = 0 then t.finish q f.seq { code := Code.DEADLINE_MISS, res := (s.newCheck q f).words } else t

def execCheck (q : Fin 16) (s : State) : Host.Outcome State Fault Refusal :=
  .next (s.issue q.val (some 0x04) State.runCheck State.heldCheck)

/-- The model a lane's reading is judged under: that of the CHECK whose tile it reads. -/
def State.readJob (s : State) (l : Nat) (again : Bool) : Option CheckJob :=
  (s.xlane (if again then 1 - l else l)).job

/-- R312: lane `l` has been busy since AON cycle `from_`. -/
def State.laneBusy (s : State) (l from_ : Nat) : State := s.incr64 (Reg.XC_L_BUSY_LO_L l) (16 * (s.cyc - from_))

/-- The descriptor of a primary reading has come: empty, so that there is no tile (R50), bad, passed over, or checked
(R307, R309). -/
def State.descHere (s : State) (l : Nat) (d : List Byte) (err : Bool) : State :=
  match (s.xlane l).job, (s.xlane l).tile with
  | some j, some (i, _) =>
    let h := j.model
    let k := 16 * j.lb + j.tb
    let stop := fun (t : State) => (t.laneBusy l (match (t.xlane l).read with | some r => r.startAt | none => t.cyc)).setXlane l
      fun x => { x with read := none }
    let pass := fun (t : State) => ((stop t).setXlane l fun x => { x with tile := none }).checkerPump
    let none_ := !err && dK d == 0
    let j := if none_ then j else { j with offered := j.offered + 1 }
    let s := (if none_ then s else s.bump (Reg.XC_BIN_k_offered k) 1).setXlane l fun x => { x with job := some j, tile := some (i, d) }
    if err then (((stop s).fault Code.DATA_FAULT Unit_.checker j.q 0).verdict l 4 64 []).checkerPump
    else if none_ then pass s
    else if s.badDesc h d then ((stop s).verdict l 5 0 []).checkerPump
    else if !(s.chosen j d) then pass s
    else
      let s := (s.bump (Reg.XC_BIN_k_accepted k) 1).setXlane l fun x => { x with job := some { j with checked := j.checked + 1 } }
      s.readTile l h d false
  | _, _ => s

/-- A line of a lane's reading has come (R310). Frame lines pass through the combiner as source 24.
[DEDUCED, unsafe: log entry 63] -/
def State.tileLine (s : State) (l addr idx : Nat) (bs : List Byte) (err : Bool) : State :=
  match (s.xlane l).read with
  | none => s
  | some r =>
    let s := s.incr64 (Reg.XC_L_BYTES_LO_L l) 64
    if idx = 0 then
      if r.again then
        match s.readJob l true, (s.xlane (1 - l)).tile with
        | some j, some (_, d) =>
          let s := s.setXlane l fun x => { x with read := x.read.map fun r => { r with unread := err } }
          s.readTile l j.model d true
        | _, _ => s
      else s.descHere l bs err
    else
      let s := s.setXlane l fun x => { x with read := x.read.map fun r =>
        { r with left := r.left - 1, lastAt := s.cyc, unread := r.unread || err
                 lines := if err then r.lines else Sparse.insert r.lines addr bs } }
      let f := if err then none else r.frames.find? fun f => (s.frameLines f.1 f.2.1).contains addr
      match f with
      | some f => s.readMasterLine (1 + l) f.1 f.2.1 addr bs
      | none => s

/-- AON cycles of computing a tile at the lane's rate (R42, R282).
[DEDUCED, safe: log entry 69] -/
def computeCycles (h : HostModel) (k : Nat) : Nat :=
  let ops := 2 * 16384 * k
  match rateClass h.aFmt h.bFmt with | 32 => ops / 5000 | 16 => ops / 40000 | _ => ops / 80000

/-- A lane's reading and computation end: its counters (R312). Operands arrive while the lane computes, so it waited for
them as long as it was busy and did not compute. -/
def State.laneDone (s : State) (l : Nat) (h : HostModel) (r : TileRead) (compute : Bool) : State :=
  let k := dK (r.desc.getD [])
  let s := (s.laneBusy l r.startAt).incr64 (Reg.XC_L_STALL_LO_L l)
    (16 * (s.cyc - r.startAt - (if compute then computeCycles h k else 0)))
  if compute then (s.incr64 (Reg.XC_L_OPS_LO_L l) (2 * 16384 * k)).bump (Reg.XC_L_TILES_L_count l) 1 else s

/-- Lane `l`'s primary summary disagrees: its arbitration waits for its turn, with lane A first on a tie (R315).
[DEDUCED, safe: log entry 215] -/
def State.arbAsk (s : State) (l : Nat) (res : TileRes) : State :=
  let tie := l == 0 && (match (s.xlane 1).prim with | some p => p.at_ == res.at_ | none => false)
  let s := s.setXlane l fun x => { x with prim := some res }
  match s.xc.arb with
  | some { lane := 1, stage := _, started := false, res := _, kaAt := _ } =>
    if tie then s.setXc fun c => { c with arb := some { lane := 0 }, arbQ := 1 :: c.arbQ } else s.setXc fun c => { c with arbQ := c.arbQ ++ [l] }
  | _ => s.setXc fun c => { c with arbQ := if tie then l :: c.arbQ else c.arbQ ++ [l] }

/-- TILE_SUMMARY: the primary lane finishes a tile; one that disagrees goes to arbitration (R315). -/
def State.tileDone (s : State) (l : Nat) : State :=
  match (s.xlane l).read, (s.xlane l).job with
  | some r, some j =>
    if r.again || r.desc.isNone || r.left != 0 then s
    else
      let h := j.model
      let s := s.passTo (r.startAt + computeCycles h (dK (r.desc.getD [])))
      let res := s.tileRes h r
      let s := (s.laneDone l h r (!res.unread)).setXlane l fun x =>
        { x with read := none, job := some (if res.unread then j else { j with ops := j.ops + 2 * 16384 * dK (r.desc.getD []) }) }
      let s :=
        if res.unread then (s.fault Code.DATA_FAULT Unit_.checker j.q 0).verdict l 4 64 []
        else if field res.sum 2 2 + field res.sum 4 2 = 0 then s.verdict l 0 0 res.sum
        else s.arbAsk l res
      s.checkerPump
  | _, _ => s

def execTileSummary (lane : Fin 2) (s : State) : Host.Outcome State Fault Refusal :=
  .next (if s.active then s.tileDone lane.val else s)

/-- RECOMPUTE_DONE: the other lane has recomputed; both lanes start the known answer. -/
def State.recomputed (s : State) (l : Nat) : State :=
  match (s.xlane l).read, s.readJob l true, s.xc.arb with
  | some r, some j, some a =>
    if !r.again || r.desc.isNone || r.left != 0 || a.lane == l then s
    else
      let h := j.model
      let s := s.passTo (r.startAt + computeCycles h (dK (r.desc.getD [])))
      let res := s.tileRes h r
      let s := (s.laneDone l h r (!res.unread)).setXlane l fun x => { x with read := none }
      let s := s.setXlane a.lane fun x => { x with job := some (if res.unread then j else { j with ops := j.ops + 2 * 16384 * dK (r.desc.getD []) }) }
      s.setXc fun c => { c with arb := some { a with stage := 2, res := some res, kaAt := s.cyc } }
  | _, _, _ => s

def execRecomputeDone (lane : Fin 2) (s : State) : Host.Outcome State Fault Refusal :=
  .next (if s.active then s.recomputed lane.val else s)

/-- AON cycles of the known-answer tile (R304). -/
def knownAnswerCycles (h : HostModel) : Nat :=
  match rateClass h.aFmt h.bFmt with | 32 => 1698 | 16 => 230 | _ => 125

/-- R316: the operand class: 0 ok, 1 changed, 2 unverified. -/
def operandClass (d : List Byte) (p r : TileRes) : Nat :=
  let digs := match p.dig, r.dig with
    | some x, some y => x != y || (dHdigV d && (x != dHdig d || y != dHdig d))
    | _, _ => false
  if p.changed || r.changed || digs then 1
  else if !(dHdigV d) || p.unver || r.unver then 2
  else 0

/-- R318: the first row that holds. `ka` is 0 when both lanes pass. -/
def verdictOf (ka : Nat) (p r : TileRes) (cls : Nat) : Nat :=
  if ka ≠ 0 then 2
  else if p.unread || r.unread then 4
  else if cls = 1 then 3
  else if p.sum ≠ r.sum then 2
  else if cls = 2 then 4
  else 1

/-- KNOWN_ANSWER_DONE: the known answers are in and the verdict is given.
[DESIGN CHOICE, safe: log entry 64] -/
def State.knownAnswer (s : State) : State :=
  match s.xc.arb with
  | some { lane := l, stage := 2, started := _, res := some r, kaAt := at_ } =>
    match (s.xlane l).job, (s.xlane l).tile, (s.xlane l).prim with
    | some j, some (_, d), some p =>
      let s := s.passTo (at_ + knownAnswerCycles j.model)
      let s := (s.laneBusy 0 at_).laneBusy 1 at_
      let failA := !(Config.knownAnswerGood s.free)
      let failB := !(Config.knownAnswerGood (s.free + 1))
      let ka := b2n failA + 2 * b2n failB
      let s := ((s.draw.draw.bump Reg.XC_KAT_runs 2).bump Reg.XC_KAT_fails (b2n failA + b2n failB)).setXc fun c => { c with arb := none }
      let s := if r.unread then s.fault Code.DATA_FAULT Unit_.checker j.q 0 else s
      let cls := operandClass d p r
      let flags := 2 * b2n (!r.unread && p.sum == r.sum) + 4 * cls + 16 * ka + 64 * b2n (p.unread || r.unread)
      (s.verdict l (verdictOf ka p r cls) flags p.sum).checkerPump
    | _, _, _ => s
  | _ => s

def execKnownAnswerDone (s : State) : Host.Outcome State Fault Refusal := .next (if s.active then s.knownAnswer else s)

/-- The account of a CHECK in flight: its lane's, or that of one that the drain still holds. -/
def State.checkJob (s : State) (q : Nat) (f : Flight) : CheckJob :=
  ((s.xc.lanes.flatMap fun x => x.job.toList ++ x.jobs).find? fun j => j.q == q && j.seq == f.seq).getD (s.newCheck q f)

/-- CHECK_BOUND (R314): the oldest CHECK of the queue reaches its bound, held or not (R166). -/
def State.checkBound (s : State) (q : Nat) : State :=
  match (s.queue q).flights.find? fun f => cmdOp f.cmd == 4 && f.done.isNone with
  | none => s
  | some f =>
    let due := (f.at_ + s.get Reg.XC_BOUND_ms * msTicks) % 2 ^ 64
    let s := s.passToFleet due
    let mark := fun (k : CheckJob) => if k.q == q && k.seq == f.seq then { k with ended := true } else k
    let words := (s.checkJob q f).words
    let s := s.setXc fun c => { c with lanes := c.lanes.map fun x => { x with job := x.job.map mark, jobs := x.jobs.map mark } }
    (s.finish q f.seq { code := Code.DEADLINE_MISS, res := words, arg := s.sinceFleet due / usTicks }).checkerPump

def execCheckBound (q : Fin 16) (s : State) : Host.Outcome State Fault Refusal :=
  .next (if s.active then s.checkBound q.val else s)

/-- `XC_STATUS`. -/
def State.checkerStatus (s : State) : Nat :=
  let stage := match s.xc.arb with | some a => a.stage | none => 0
  let busy := fun l => (s.xlane l).read.isSome || (s.xlane l).tile.isSome || stage == 2
  b2n (busy 0) + 2 * b2n (busy 1) + 4 * s.xc.arbQ.length + 16 * stage

/-- Bit 2 of a strike's units (R333). -/
def State.checkerLatch (s : State) : State :=
  (s.wr64 Reg.XC_SNAP_OPS_LO ((s.rd64 (Reg.XC_L_OPS_LO_L 0) + s.rd64 (Reg.XC_L_OPS_LO_L 1)) % 2 ^ 64)).wr Reg.XC_SNAP_TILES
    (satAdd (2 ^ 32 - 1) (s.rd (Reg.XC_L_TILES_L 0)) (s.rd (Reg.XC_L_TILES_L 1)))

end Sys2Proof.Machine
end

