-- ==== Sys2Proof/Machine/Trace.lean ====
section
/-! DEFINITION. The trace unit (R456–R464, R479): sources, filters, triggers, the record FIFO with its losses and stalls,
the circular buffer and its states, and the low-power and strike markers. -/

namespace Sys2Proof.Machine

def State.setTr (s : State) (f : TraceUnit → TraceUnit) : State := { s with tr := f s.tr }

/-- Records the buffer holds (R456). -/
def State.traceN (s : State) : Nat := if s.tray then 262144 else 65536

/-- The pre-trigger share (R461). -/
def State.tracePre (s : State) : Nat := min (s.traceN * min 16 (s.get Reg.TR_CFG_pre) / 16) (s.traceN - 1)

/-- The 32 bytes of a record (R458). -/
def TraceRec.bytes (r : TraceRec) : List Byte :=
  leBytes 1 r.kind ++ leBytes 1 r.flags ++ leBytes 1 r.size ++ leBytes 1 r.hit ++ leBytes 4 0 ++ leBytes 8 r.time ++
    leBytes 8 r.addr ++ leBytes 8 r.data

/-- The unit writes records: ARMED or TRIGGERED. -/
def State.traceRuns (s : State) : Bool := s.tr.state == 1 || s.tr.state == 2

/-! ### The buffer (R460, R461) -/

/-- Into FROZEN: source 43, and what stands in the FIFO is counted instead of written. -/
def State.traceFrozen (s : State) : State :=
  ((s.bump Reg.TR_FROZEN_count s.tr.fifo.length).setTr fun t => { t with state := 3, fifo := [], lost := none, stalled := false }).raise 43

/-- `TR_FIRST` as a trigger at index `i` sets it: the last min(P, T) records before it. -/
def State.traceKeep (s : State) (i : Nat) : State :=
  let first := i - min s.tracePre i
  (s.setTr fun t => { t with first := some first }).wr Reg.TR_FIRST (first % 2 ^ 32)

/-- The trigger marker has been written at index `i`. -/
def State.traceTriggered (s : State) (r : TraceRec) (i : Nat) : State :=
  let s := ((s.wr Reg.TR_TRIG (i % 2 ^ 32)).wr64 Reg.TR_TRIG_T_LO r.time).traceKeep i
  (s.setTr fun t => { t with state := 2, stopAt := i + (s.traceN - s.tracePre) }).raise 43

/-- Write one record into the buffer. -/
def State.traceWrite (s : State) (r : TraceRec) : State :=
  let i := s.tr.count
  let s := (s.setTr fun t => { t with buf := t.buf.put (32 * (i % s.traceN)) r.bytes, count := i + 1 }).wr Reg.TR_WR ((i + 1) % 2 ^ 32)
  let s := if r.kind = 6 then s.traceTriggered r i else s
  if s.tr.state = 2 ∧ s.tr.count = s.tr.stopAt then s.traceFrozen else s

/-! ### The FIFO (R462) -/

/-- The loss marker enters as soon as a record place is free. -/
def State.traceLoss (s : State) : State :=
  match s.tr.lost with
  | some (n, a, b) =>
    if s.tr.fifo.length < 120 ∧ s.traceRuns = true then
      s.setTr fun t => { t with lost := none, fifo := t.fifo ++ [{ kind := 5, time := a, addr := b, data := min n (2 ^ 32 - 1) }] }
    else s
  | none => s

/-- The stall level after a change of the FIFO: up at 64 records, down at 32. -/
def State.traceStall (s : State) : State :=
  let n := s.tr.fifo.length
  if s.get Reg.TR_CFG_stall = 1 ∧ s.traceRuns = true ∧ 64 ≤ n then s.setTr fun t => { t with stalled := true }
  else if n ≤ 32 ∨ s.get Reg.TR_CFG_stall = 0 ∨ s.traceRuns = false then s.setTr fun t => { t with stalled := false }
  else s

/-- Up to `n` fast cycles in each of which the oldest record leaves for the buffer. -/
def State.traceDrain : Nat → State → State
  | 0, s => s
  | n + 1, s =>
    match s.tr.fifo with
    | [] => s
    | r :: rs =>
      let s := if s.tr.stalled then s.bump Reg.TR_STALLS_count 1 else s
      State.traceDrain n (((s.setTr fun t => { t with fifo := rs }).traceWrite r).traceLoss.traceStall)

/-- A fast cycle begins; one that ended without a record entering let one leave.
[DESIGN CHOICE, safe: log entry 122] -/
def State.traceCycle (s : State) : State :=
  let s := if s.tr.wrote then s else State.traceDrain 1 s
  s.setTr fun t => { t with hostIn := false, stewIn := false, wrote := false }

/-- A record or marker enters the FIFO; the oldest leaves, once in the cycle. -/
def State.tracePush (s : State) (r : TraceRec) : State :=
  let s := (s.setTr fun t => { t with fifo := t.fifo ++ [r] }).traceStall
  if s.tr.wrote then s else (State.traceDrain 1 s).setTr fun t => { t with wrote := true }

/-- A marker enters: never lost; counted while FROZEN, nothing while OFF. -/
def State.markerIn (s : State) (r : TraceRec) : State :=
  if s.traceRuns then s.tracePush r
  else if s.tr.state = 3 then s.bump Reg.TR_FROZEN_count 1
  else s

/-- Bring the FIFO up to the current AON cycle: 16 fast cycles for each that has passed. A low-power marker enters in
the first of them (R463). -/
def State.traceCatch (s : State) : State :=
  let n := s.cyc - s.tr.drainAt
  if n = 0 then s
  else
    let s := s.setTr fun t => { t with drainAt := s.cyc, hostIn := false, stewIn := false, wrote := false }
    if s.active then
      State.traceDrain (min (16 * n) 256) (s.tr.held.foldl State.markerIn (s.setTr fun t => { t with held := [] }))
    else s

/-- A marker (R463). -/
def State.traceMark (s : State) (r : TraceRec) : State := s.traceCatch.traceCycle.markerIn r

/-! ### Filters (R459) -/

/-- Unit `u` of the twelve — comparators 0–7, then ranges — matches a load or store. -/
def State.traceMatch (s : State) (r : TraceIn) (u : Nat) : Bool :=
  let cfg := s.rd (if u < 8 then Reg.TR_CMP_CFG_k u else Reg.TR_RNG_CFG_j (u - 8))
  let a := r.addr.toNat
  let kindOk := if r.kind = 0 then bit cfg 3 else bit cfg 4
  let srcOk := if r.steward then bit cfg 6 else bit cfg 5
  let addrOk := if u < 8 then ((a ^^^ (s.rd64 (Reg.TR_CMP_LO_k u) % 2 ^ 52)) &&& (s.rd64 (Reg.TR_CMP_MSK_LO_k u) % 2 ^ 52)) == 0
    else decide (s.rd64 (Reg.TR_RNG_LO_LO_j (u - 8)) % 2 ^ 52 ≤ a) && decide (a < s.rd64 (Reg.TR_RNG_HI_LO_j (u - 8)) % 2 ^ 52)
  bit cfg 0 && kindOk && srcOk && addrOk

def State.traceRole (s : State) (u b : Nat) : Bool :=
  let cfg := s.rd (if u < 8 then Reg.TR_CMP_CFG_k u else Reg.TR_RNG_CFG_j (u - 8))
  bit cfg 0 && bit cfg b

/-- The `match` byte of a set of matched units: their lowest; 15 for none. -/
def matchByte (us : List Nat) : Nat := us.head?.getD 15

/-- R457: the record is excluded.
[DEDUCED, safe: log entry 125] -/
def State.traceExcluded (s : State) (r : TraceIn) : Bool := !s.secAuth && (r.steward || r.priv || r.sec)

/-- The stored form of a record. -/
def State.traceForm (s : State) (r : TraceIn) (hit : Nat) : TraceRec :=
  let mem := decide (r.kind.toNat < 2)
  let n := r.size.toNat
  { kind := r.kind.toNat, flags := b2n r.steward + 2 * b2n (r.steward || r.priv) + 4 * b2n (r.sec && !r.steward),
    size := if mem then n else 0, hit := hit, time := s.fleet, addr := r.addr.toNat,
    data := if mem then r.data.toNat % 2 ^ (8 * min 8 n) else r.data.toNat }

/-- A stored record enters the FIFO or is lost (R462). -/
def State.traceMarker (s : State) (r : TraceRec) : State :=
  if s.tr.fifo.length < 120 then s.tracePush r
  else
    (s.bump Reg.TR_LOST_count 1).setTr fun t => { t with lost := match t.lost with
      | some (n, a, _) => some (n + 1, a, r.time)
      | none => some (1, r.time, r.time) }

/-- A trigger: its marker enters, once for an arm.
[DEDUCED, safe: log entry 123] -/
def State.traceTrigger (s : State) (r : TraceRec) : State :=
  if s.tr.state = 1 ∧ s.tr.trigged = false then (s.setTr fun t => { t with trigged := true }).tracePush r else s

/-- A record that the unit has taken. -/
def State.traceTaken (s : State) (r : TraceIn) : State :=
  if s.traceExcluded r then s.bump Reg.TR_EXCL_count 1
  else if s.tr.state = 3 then s.bump Reg.TR_FROZEN_count 1
  else if !s.traceRuns then s
  else
    let us := if r.kind.toNat < 2 then (upto 12).filter (s.traceMatch r) else []
    let rec_ := s.traceForm r (matchByte us)
    let anyIncl := (upto 12).any fun u => s.traceRole u 1
    let keep := r.kind = 2 || !anyIncl || us.any fun u => s.traceRole u 1
    let trig := us.any fun u => s.traceRole u 2
    let s := if keep then s.traceMarker rec_ else s
    if trig then s.traceTrigger { kind := 6, time := rec_.time, addr := rec_.addr, data := rec_.hit } else s

/-- The source is enabled and presents a record of a kind that is not reserved (R72, R457). -/
def State.traceSource (s : State) (r : TraceIn) : Bool :=
  r.kind != 3 && (if r.steward then s.get Reg.TR_CFG_stew_en == 1 else s.get Reg.TR_CFG_host_en == 1)

/-- A record of either source. A host record begins a fast cycle; a steward record joins the host's, behind it (R462). -/
def State.traceRecord (s : State) (r : TraceIn) : State :=
  if s.active && s.traceSource r then
    let s := s.traceCatch
    let s := if r.steward && s.tr.hostIn && !s.tr.stewIn then s else s.traceCycle
    let s := s.setTr fun t => if r.steward then { t with stewIn := true } else { t with hostIn := true }
    s.traceTaken r
  else s

/-- TRACE_RECORD. -/
def execTraceRecord (r : TraceIn) (s : State) : Host.Outcome State Fault Refusal := .next (s.traceRecord r)

/-! ### `TR_CTRL` (R460, R479) -/

/-- A write of `arm`.
[DEDUCED, safe: log entry 126] -/
def State.traceArm (s : State) : State :=
  let s := s.traceCatch
  ((s.setTr fun t => { t with state := 1, fifo := [], trigged := false, count := 0, first := none, lost := none, stalled := false }).wr
    Reg.TR_WR 0).traceMark { kind := 8, time := s.fleet }

/-- A write of `trig`. -/
def State.traceTrig (s : State) : State :=
  (s.traceCatch.traceCycle).traceTrigger { kind := 6, time := s.fleet, addr := 0, data := 0xFF }

/-- A write of `off`. -/
def State.traceOff (s : State) : State :=
  s.traceCatch.setTr fun t => { t with state := 0, fifo := [], lost := none, stalled := false, trigged := false }

/-- A write of `TR_CTRL`: `arm`, then `trig`, then `off`.
[DEDUCED, safe: log entry 129] -/
def State.wTrCtrl (s : State) (v : Nat) : State :=
  let s := if bit v 0 then s.traceArm else s
  let s := if bit v 1 then s.traceTrig else s
  if bit v 2 then s.traceOff else s

/-- A hang dump with `halt` freezes the unit (R460, R468).
[DEDUCED, safe: log entry 124] -/
def State.traceHalt (s : State) : State :=
  let s := s.traceCatch
  if s.traceRuns then
    let s := match s.tr.first with
      | some _ => s
      | none => s.traceKeep s.tr.count
    s.traceFrozen
  else s

/-! ### Low power, strikes, the clock (R73, R463) -/

/-- A low-power marker waits for the first fast cycle after the edge (R463). -/
def State.traceEdge (s : State) (kind : Nat) : State := s.traceCatch.setTr fun t => { t with held := t.held ++ [{ kind := kind, time := s.fleet }] }

/-- `tp_ready` and `tp_stall` (R72, R73, R462): 0 in reset, 1 while the unit is OFF or FROZEN. -/
def State.tpReady (s : State) : Bool := s.active || (s.aonUp && s.pw.st != .fastReset && !s.traceRuns)
def State.tpStall (s : State) : Bool :=
  s.get Reg.TR_CFG_stall == 1 && s.traceRuns && (s.tr.stalled || !s.active)

/-- LOW_POWER_ENTRY.
[DEDUCED, safe: log entry 127] -/
def execLowPowerEntry (s : State) : Host.Outcome State Fault Refusal :=
  .next (if s.tpLp then s else { s with tpLp := true }.traceEdge 3 |>.setTr fun t => { t with lpRise := some s.cyc })

/-- LOW_POWER_EXIT: a need for the fast clock; while it is stopped, records are not taken until it runs. A rise in the
same AON cycle was not seen either, and leaves no marker (R92). -/
def execLowPowerExit (s : State) : Host.Outcome State Fault Refusal :=
  .next (if !s.tpLp then s
    else
      let s := { s with tpLp := false }
      if s.tr.lpRise = some s.cyc then s.setTr fun t => { t with lpRise := none, held := t.held.dropLast }
      else
        let s := if s.tpReady then s else s.setTr fun t => { t with lpFall := some s.fleet }
        (s.traceEdge 4).need)

/-- The fast clock runs: `tp_ready` rises. Held markers are written, and without the stall option the loss marker of the
records that the source has discarded (R73).
[DEDUCED, safe: log entry 128] -/
def State.traceWake (s : State) : State :=
  let held := s.tr.held
  let s := s.setTr fun t => { t with held := [] }
  let s := held.foldl (fun t r => t.traceMark r) s
  match s.tr.lpFall with
  | some a =>
    let s := s.setTr fun t => { t with lpFall := none }
    if s.get Reg.TR_CFG_stall = 0 ∧ s.get Reg.TR_CFG_host_en = 1 then
      s.traceMark { kind := 5, time := a, addr := s.fleet, data := 0xFFFFFFFF }
    else s
  | none => s

/-- Bit 6 of a strike's units: a strike marker, `data` as result word 3 of R219. -/
def State.traceLatch (s : State) (word3 : Nat) : State := s.traceMark { kind := 7, time := s.fleet, data := word3 }

/-- R463: the unit keeps the fast clock running for a traced core that is awake. -/
def State.traceHolds (s : State) : Bool := s.traceRuns && s.get Reg.TR_CFG_host_en == 1 && !s.tpLp

/-- R462: the steward waits out a stall before its access: the FIFO drains to 32 records. -/
def State.traceWait (s : State) : State :=
  let s := s.traceCatch
  if s.tr.stalled && s.get Reg.TR_CFG_stew_en == 1 then State.traceDrain (s.tr.fifo.length - 32) s else s

/-! ### Views (R464, R481) -/

def State.rTrStatus (s : State) : Nat := s.tr.fifo.length * 2 ^ 24 + s.tr.state

/-- A word of the buffer window. -/
def State.rTrWin (s : State) (off : Nat) : Nat :=
  let b := 32768 * s.get Reg.TR_WIN_SEL_page + off % 32768
  if b < 32 * s.traceN then s.tr.buf.nat b 4 else 0

end Sys2Proof.Machine
end

