-- ==== Sys2Proof/Machine/Strike.lean ====
section
/-! DEFINITION. The snapshot strike (R216–R219): SNAPSHOT, strike pennants, pending strikes and the latch. -/

namespace Sys2Proof.Machine

/-- R219, R223: the tray ID an instance issues strikes under is `trayId`. Word 3 of the result.
[DEDUCED, safe: log entry 130] -/
def strikeWord3 (seq issuer : Nat) : Nat := seq % 2 ^ 16 + 2 ^ 16 * (issuer % 2 ^ 14)

/-- Every named unit latches its snapshot registers (R216). -/
def State.latchUnits (s : State) (units seq issuer : Nat) (fleet late : Bool) : State :=
  let on := fun (b : Nat) (f : State → State) (t : State) => if bit units b then f t else t
  let s := on 0 State.snapLatch s
  let s := on 1 State.tapsLatch s
  let s := on 2 State.checkerLatch s
  let s := on 3 State.scoreLatch s
  let s := on 4 State.halyardLatch s
  let s := on 5 State.redLatch s
  let s := on 6 (fun t => t.traceLatch (strikeWord3 seq issuer)) s
  on 9 (fun t => (t.wr64 Reg.TB_STRIKE_LO t.fleet).wr Reg.TB_STRIKE_ID
    (strikeWord3 seq issuer + 2 ^ 30 * b2n late + 2 ^ 31 * b2n fleet)) s

/-- The result words of a SNAPSHOT (R219). -/
def strikeWords (t units seq issuer : Nat) : List Nat := [t % 2 ^ 32, t / 2 ^ 32, units, strikeWord3 seq issuer]

/-- How the SNAPSHOT of queue `q` with issue sequence `seq` ends at a latch: with the refusal code of its pennants, else as
late as R183 judges it, from the later of `at` and its issue (R221); a latch in the cycle of issue is not late.
[DEDUCED, safe: log entry 208] -/
def State.strikeEnd (s : State) (k : Strike) (q seq refused : Nat) : Done :=
  let from_ := match s.flight? q seq with
    | some f => if later 64 k.at_ f.at_ then k.at_ else f.at_
    | none => k.at_
  let d := waitTimeDone (if k.scope0 then 0 else s.sinceFleet from_)
  { d with code := if refused = Code.OK then d.code else refused, res := strikeWords s.fleet k.units k.seq k.issuer }

/-- A strike latches now, and the SNAPSHOTs that wait for it complete. -/
def State.strikeFire (s : State) (k : Strike) (late : Bool) : State :=
  let before := s
  let s := s.latchUnits k.units k.seq k.issuer k.fleet late
  let ids := (if k.fleet then [(k.seq, k.issuer)] else []) ++ k.merged
  let s := { s with tb := { s.tb with struck := s.tb.struck ++ ids.map fun i => (k.at_, i.1, i.2) } }
  k.waiters.foldl (fun u w => u.finish w.1 w.2.1 (before.strikeEnd k w.1 w.2.1 w.2.2)) s

/-- R219: a strike takes a place, or merges into the pending strike of its `at`, whose identity stands. -/
def State.strikeAdd (s : State) (k : Strike) : State :=
  if s.tb.strikes.any (fun x => x.at_ == k.at_) then
    { s with tb := { s.tb with strikes := s.tb.strikes.map fun x =>
        if x.at_ = k.at_ then
          { x with units := x.units ||| k.units, waiters := x.waiters ++ k.waiters
                   merged := x.merged ++ if k.fleet then [(k.seq, k.issuer)] else [] }
        else x } }
  else { s with tb := { s.tb with strikes := s.tb.strikes ++ [k] } }

/-- There is no place for a strike at `t`. -/
def State.strikeFull (s : State) (t : Nat) : Bool :=
  decide (4 ≤ s.tb.strikes.length) && !(s.tb.strikes.any fun x => x.at_ == t)

/-- R218: the lead a fleet-wide strike needs, in ticks.
[DEDUCED, safe: log entry 132] -/
def State.strikeLead (s : State) : Nat := if s.duty = 2 then 250 * usTicks else 4500 * usTicks

/-- The payload of a strike pennant (R217). -/
def strikePay (k : Strike) : List Byte :=
  leBytes 8 k.at_ ++ leBytes 4 k.units ++ leBytes 2 k.seq ++ leBytes 2 k.issuer

/-- The job tags a fleet-wide strike is sent under: 0x000, and at duty 3 each job whose root this instance holds. -/
def State.strikeJobs (s : State) : List Nat :=
  0 :: (if s.duty = 3 then (s.red.entries.filter fun e => mastBases.contains e.base && decide (2 ≤ e.state)).filterMap
    (fun e => e.cont.head?.map fun c => c.word 0 % 2 ^ 12) else [])

/-- Send the strike's pennants: the state and the highest refusal code, OK when every one is admitted. -/
def State.strikeSend (s : State) (k : Strike) : Nat × State :=
  s.strikeJobs.foldl (fun (acc : Nat × State) j =>
    let r := acc.2.offer { func := 10, fan := true, unit := Unit_.time, level := acc.2.duty, job := j, pay := strikePay k }
    (max acc.1 r.1, r.2)) (Code.OK, s)

/-- SNAPSHOT's work (R217–R219).
[DEDUCED, safe: log entry 133] -/
def State.runSnapshot (s : State) (q : Nat) (f : Flight) : State :=
  let scope := field f.cmd 8 1
  let t := field f.cmd 16 8
  if scope ≠ 0 ∧ s.strikeFull t = true then s.finish q f.seq { code := Code.REFUSED_FULL }
  else if scope = 2 ∧ later 64 ((s.fleet + s.strikeLead) % 2 ^ 64) t = true then s.finish q f.seq { code := 0x3C }
  else
    let seq := (s.tb.strikeSeq + 1) % 2 ^ 16
    let s := { s with tb := { s.tb with strikeSeq := seq } }
    let k : Strike := { at_ := t, units := field f.cmd 12 4 &&& s.unitMask, seq := seq, issuer := s.trayId % 2 ^ 14,
                        fleet := scope == 2, waiters := [(q, f.seq, Code.OK)], scope0 := scope == 0 }
    if scope = 0 then s.strikeFire k false
    else if scope = 1 then s.strikeAdd k
    else
      let r := s.strikeSend k
      r.2.strikeAdd { k with waiters := [(q, f.seq, r.1)] }

def execSnapshot (q : Fin 16) (s : State) : Host.Outcome State Fault Refusal :=
  .next (s.issue q.val (some 0x02) fun t q f => t.issueCycle.runSnapshot q f)

/-- The pending strike with the earliest `at`. -/
def firstStrike : List Strike → Option Strike
  | [] => none
  | k :: ks =>
    match firstStrike ks with
    | some b => if later 64 k.at_ b.at_ then some b else some k
    | none => some k

/-- STRIKE_LATCH: the first pending strike's time is reached. -/
def State.strikeLatch (s : State) : State :=
  match firstStrike s.tb.strikes with
  | none => s
  | some k =>
    let s := s.passToFleet k.at_
    { s with tb := { s.tb with strikes := s.tb.strikes.filter fun x => x.at_ != k.at_ } }.strikeFire k false

def execStrikeLatch (s : State) : Host.Outcome State Fault Refusal := .next (if s.active then s.strikeLatch else s)

/-- A strike pennant is consumed (R217–R219).
[DEDUCED, safe: log entry 131] -/
def State.strikeReceive (s : State) (pen : List Byte) : State :=
  let t := field pen 16 8
  let k : Strike := { at_ := t, units := field pen 24 4 % 2 ^ 11 &&& s.unitMask, seq := field pen 28 2,
                      issuer := field pen 30 2 % 2 ^ 14, fleet := true, waiters := [] }
  if k.units = 0 ∨ s.tb.struck.contains (t, k.seq, k.issuer) = true then s
  else if s.tb.strikes.any (fun x => x.at_ == t) then s.strikeAdd k
  else if s.reached t then
    let lat := s.sinceFleet t
    (s.strikeFire k true).fault 0x3B Unit_.time 0 (lat / usTicks)
  else if s.strikeFull t then s.refusal Code.REFUSED_FULL Unit_.time 0 (strikeWord3 k.seq k.issuer)
  else s.strikeAdd k

end Sys2Proof.Machine
end

