-- ==== Sys2Proof/Machine/Bundles.lean ====
section
/-! DEFINITION. The shadow and its bundles: what would go live, which bundles a change touches, and the agreement rule of
each (R28, R139–R141, R149–R151, R187, R206, R245, R275, R303, R333, R363, R401, R416–R418, R421, R422, R429, R455,
R483, R509, R535). -/

namespace Sys2Proof.Machine

/-! ### The shadow -/

/-- A register of a tap port that is not instantiated (R8), of the engines 1–3 that a die lacks (R482), or of the interrupt
sources 256 up that a die lacks: `IC_PEND_k`, `IC_EN_H_k` and `IC_EN_S_k` for k = 8–31 (R2, R199). -/
def State.absentPort (s : State) (off : Nat) : Bool :=
  (!s.tray && decide (0x6100 ≤ off) && decide (off < 0x6400) && decide (0x20 ≤ off % 0x100) && decide (off % 0x100 < 0x80)) ||
  (!s.tray && decide (0x80120 ≤ off) && decide (off < 0x80180)) ||
  (decide (0x21000 ≤ off) && decide (off < 0x21400) && decide (s.memTaps ≤ (off - 0x21000) / 64)) ||
  (decide (0x22000 ≤ off) && decide (off < 0x22200) && decide (s.linkTaps ≤ (off - 0x22000) / 64))

/-- The row is present in the instance's role (R2, R11). -/
def State.hasReg (s : State) (d : RegDef) : Bool := d.role == 0 || (d.role == 1 && !s.tray) || (d.role == 2 && s.tray)

/-- The register row at `off`, when it is present here. -/
def State.reg? (s : State) (off : Nat) : Option RegDef :=
  match findReg off with
  | some d => if s.hasReg d && !(s.absentPort off) then some d else none
  | none => none

/-- The bits of a register that the hoist carries: its SH bits, and `GL_DUTY` and `GL_PLACE`, which only an image
sets (R129, R142). -/
def hoistMask (d : RegDef) : Nat :=
  if d.base = Reg.GL_DUTY then 0x3 else if d.base = Reg.GL_PLACE then 0x0FFFFFFF else d.sh

/-- A register's bits of the hoist in the instance's role: a tray's `ident` is 14 bits wide (R7). -/
def State.shMask (s : State) (off : Nat) : Nat :=
  match s.reg? off with
  | some d => if off = Reg.GL_PLACE ∧ s.tray = true then 0x0FFE3FFF else hoistMask d
  | none => 0

/-- A register's bits of the hoist differ between shadow and live. -/
def State.shDiffers (s : State) (off : Nat) : Bool :=
  let m := s.shMask off
  (s.srd off) &&& m != (s.rd off) &&& m

/-- Registers whose shadow differs from the live copy. -/
def State.changedOffs (s : State) : List Nat :=
  (((s.shadow.map fun e => e.1) ++ (s.regs.map fun e => e.1)).eraseDups).filter s.shDiffers

/-- A shadow word takes the bits of `v` in its mask. -/
def State.setShadow (s : State) (off v : Nat) : State :=
  let m := s.shMask off
  s.swr off (((s.srd off) &&& (2 ^ 32 - 1 - m)) ||| (v &&& m))

/-- A live word takes the shadow's bits. -/
def State.goLive (s : State) (off : Nat) : State :=
  let m := s.shMask off
  s.wr off (((s.rd off) &&& (2 ^ 32 - 1 - m)) ||| ((s.srd off) &&& m))

/-- The shadow as it would go live: a state whose live fields read so (R141). -/
def State.asLive (s : State) : State := s.changedOffs.foldl State.goLive s

/-- Live into shadow (R135, R142). -/
def State.copyBack (s : State) : State :=
  s.changedOffs.foldl (fun t o => t.setShadow o (s.rd o)) s

/-! ### Job entries (R149, R416, R428) -/

def entryBases : List Nat := trayBases ++ cubeBases ++ mastBases

/-- Number of an entry's bundle: 0x0C_0000 + t, 0x0C_0002 + c, 0x0C_0022 + m (R429). -/
def entryBundle (base : Nat) : Nat :=
  if base < 0x61000 then 0x0C0000 + (base - 0x60800) / 256
  else if base < 0x63000 then 0x0C0002 + (base - 0x61000) / 256
  else 0x0C0022 + (base - 0x63000) / 256

/-- An entry's SH registers: the offset in its content and in the window. -/
def entryRegs (base : Nat) : List (Nat × Nat) :=
  ((upto 10).map fun i => (4 * i, base + 4 * i)) ++ ((upto 32).map fun i => (0x40 + 4 * i, base + 0x40 + 4 * i)) ++
  (if base < 0x63000 then [] else (upto 64).map fun w => (0x100 + 4 * w, base + 0x4000 + 4 * w))

/-- The entry a register belongs to, when it is an SH register of section 0x0C. -/
def entryOfReg (off : Nat) : Option Nat :=
  if 0x60800 ≤ off ∧ off < 0x60A00 then some (off - off % 256)
  else if 0x61000 ≤ off ∧ off < 0x67000 then some (off - off % 256)
  else if 0x67000 ≤ off ∧ off < 0x6B000 then some (off - off % 256 - 0x4000)
  else none

/-- An entry's content as its registers stand. -/
def State.entryWords (s : State) (base : Nat) : Sparse Word :=
  (entryRegs base).foldl (fun m (o, r) => Sparse.set contentReset m o (BitVec.ofNat 32 (s.rd r))) []

def State.entryContent (s : State) (base stamp : Nat) : Content :=
  let c : Content := { from_ := 0, stamp := stamp, words := s.entryWords base }
  { c with from_ := c.word 0x1C }

/-- Fields of an entry differ between shadow and live. -/
def State.entryChanged (s : State) (base : Nat) : Bool := (entryRegs base).any fun e => s.shDiffers e.2

/-- The entry's state (R416): an entry not listed is FREE. -/
def State.entryState (s : State) (base : Nat) : Nat := match s.entry? base with | some e => e.state | none => 0

/-- A change of this entry is switched at an epoch: it installs valid content, or retires a LIVE entry. A change that
leaves a FREE or RETIRING entry without valid content has no epoch to wait for. -/
def State.entryPends (s : State) (t : State) (base : Nat) : Bool :=
  s.entryChanged base && ((t.entryContent base 0).valid || s.entryState base == 2 || (s.pendOf base).isSome)

/-- The tag is held by another entry of the instance in any state but FREE (R417). -/
def State.tagHeld (s : State) (base tag : Nat) : Bool :=
  (s.red.entries.any fun e => e.base != base && (match e.now with | some c => c.tag == tag | none => false)) ||
  s.ho.pend.any fun p => p.base != base && p.content.valid && p.content.tag == tag

/-- Fleet time at which a retiring entry's last emission is due, at the latest.
[DEDUCED, unsafe: log entry 170] -/
def State.freeAt (s : State) (base from_ : Nat) : Option (Nat × Nat) :=
  match s.entry? base with
  | none => none
  | some en =>
    match en.now with
    | none => none
    | some c =>
      let last := (from_ + 2 ^ 32 - 1) % 2 ^ 32
      let d := (epochEnd c.t0 c.len s.fleet last + c.dl (levelOf base)) % 2 ^ 64
      some (d, (d + c.len) % 2 ^ 64)

/-- R418: all 128 places would hold tags still waiting when the entry frees.
[DEDUCED, safe: log entry 110] -/
def State.retiredFull (s : State) (base from_ : Nat) : Bool :=
  match s.freeAt base from_ with
  | none => false
  | some (d, _) =>
    let held := (s.red.retired.filter fun e => later 64 e.2.2 d).length
    let going := (s.red.entries.filter fun e => e.base != base &&
      (match (match e.retireAt with
              | some f => s.freeAt e.base f
              | none => match s.pendOf e.base with
                | some p => if p.content.valid then none else s.freeAt e.base p.from_
                | none => none) with
       | some (a, b) => !(later 64 a d) && later 64 b d
       | none => false)).length
    decide (128 ≤ held + going)

/-- R151, R417, R418: the codes a changed entry fails with; `t` reads as it would go live.
[DEDUCED, unsafe: log entry 171] -/
def State.entryCodes (s t : State) (base : Nat) : List Nat :=
  if !(s.entryPends t base) then []
  else
    let c := t.entryContent base 0
    let same := match s.pendOf base with
      | some p => p.from_ == c.from_ && p.content.words == c.words
      | none => false
    if same then []
    else
      let st := s.entryState base
      let cur := match s.entry? base with
        | some en => if en.state = 2 then s.entryEpoch en else epochNo (epochQ c.t0 c.len s.fleet)
        | none => epochNo (epochQ c.t0 c.len s.fleet)
      let d := subMod 32 c.from_ cur
      let liveTag := match s.entry? base with | some en => (match en.now with | some k => k.tag | none => 0) | none => 0
      (if (s.pendOf base).isSome then [0x28] else []) ++
      (if 1 ≤ d ∧ d ≤ 2 ^ 24 then [] else [0x29]) ++
      (if c.valid then
        (if (st = 2 ∧ liveTag ≠ c.tag) ∨ st = 3 ∨ s.red.freed = some (base, s.cyc) then [Code.REFUSED_FULL] else []) ++
        (if s.tagHeld base c.tag then [Code.HOIST_MISMATCH] else []) ++
        (if s.retiredTags.any fun e => e.2.1 == c.tag then [Code.RD_TAG_BUSY] else [])
      else if s.retiredFull base c.from_ then [Code.REFUSED_FULL] else [])

/-! ### Bundles (R139): which ones a register belongs to -/

/-- Where an area lies: base and size registers in MiB (R429, R455, R483, R509). -/
def rdAreas : List Nat := [Reg.RD_STATE_AREA, Reg.RD_RING_AREA]
def rxAreas : List Nat := [Reg.DC_RX_AREA, Reg.DC_CTX_AREA]
def evAreas : List Nat := [Reg.EV_LOG_AREA, Reg.EV_MIR_AREA, Reg.EV_FR_AREA]

def inRange (off a b : Nat) : Bool := decide (a ≤ off) && decide (off < b)

/-- The bundles a register is a member of; a register in none is free (R140). -/
def bundlesOf (off : Nat) : List Nat :=
  let m := fun (b : Bool) (id : Nat) => if b then [id] else ([] : List Nat)
  m ([Reg.GL_DUTY, Reg.GL_PLACE, Reg.GL_JOB].contains off) 0x010000 ++
  m (off == Reg.PM_VIN_LIM || off == Reg.PM_VIN_OV) 0x020000 ++
  m (inRange off 0x1800 0x2000) (0x020001 + (off - 0x1800) / 8) ++
  m ([Reg.TB_PARENT, Reg.TB_SYNC_CFG, Reg.TB_LIMITS, Reg.TB_LAT_LANE, Reg.TB_LAT_EN, Reg.GL_DUTY].contains off) 0x030000 ++
  m (inRange off 0x14000 0x15200) 0x040000 ++
  m (off == Reg.CF_SNAP_CFG || inRange off 0x12000 0x12400 || inRange off 0x16000 0x18000) 0x050000 ++
  m (inRange off 0x13000 0x13400) 0x050001 ++
  m (inRange off 0x24000 0x24800 || inRange off 0x26000 0x26100) 0x060000 ++
  m (inRange off 0x21000 0x22200) 0x060001 ++
  m (inRange off 0x30800 0x30900) (0x070000 + (off - 0x30800) / 16) ++
  m (off == Reg.XC_POLICY) 0x070010 ++
  m (off == Reg.SC_FS_CFG) 0x080000 ++
  m (inRange off 0x40100 0x40200 && decide (off % 32 ≤ 8)) 0x090000 ++
  m (off == Reg.SC_PT_CFG || (inRange off 0x40100 0x40200 && decide (12 ≤ off % 32))) 0x0A0000 ++
  m ([Reg.HL_MAC_PFX, Reg.HL_PCP, Reg.HL_ROOT, Reg.GL_DUTY, Reg.GL_PLACE].contains off ||
     (inRange off 0x50200 0x50280 && off % 32 == 0) || inRange off 0x54000 0x55000) 0x0B0000 ++
  (match entryOfReg off with | some b => [entryBundle b, 0x140100] | none => []) ++
  m (inRange off 0xF0004 0xF0044 || off == Reg.FA_STATE_AREA) 0x0D0000 ++
  m (off == Reg.QE_WDOG || inRange off 0x4100 0x4200 || (inRange off 0x4400 0x4800 && off % 64 == 8)) 0x0E0000 ++
  m (inRange off 0x4400 0x4800 && off % 64 == 8) (0x0E0001 + (off - 0x4400) / 64) ++
  m (inRange off 0x5C000 0x60000) 0x130000 ++
  m (off == Reg.RD_CTRL || rdAreas.contains off) 0x140100 ++
  m ((rdAreas ++ [Reg.FA_STATE_AREA]).contains off) 0x140200 ++
  m ((rdAreas ++ rxAreas ++ [Reg.FA_STATE_AREA, Reg.DC_RX_CFG]).contains off) 0x140300 ++
  m ((rdAreas ++ rxAreas ++ evAreas ++ [Reg.FA_STATE_AREA, Reg.EV_STORE, Reg.EV_NV_AREA]).contains off) 0x140400

/-- Every bundle of the role, in ascending order.
[DEDUCED, unsafe: log entry 168] -/
def State.bundles (s : State) : List Nat :=
  [0x010000] ++ (if s.tray then [0x020000] else []) ++ ((upto 256).map fun n => 0x020001 + n) ++
  [0x030000, 0x040000, 0x050000, 0x050001] ++
  (if s.tray then [] else [0x060000, 0x060001] ++ (upto 17).map fun n => 0x070000 + n) ++
  [0x080000, 0x090000, 0x0A0000, 0x0B0000] ++
  (if s.tray then entryBases.map entryBundle ++ [0x0D0000] else []) ++
  [0x0E0000] ++ ((upto 16).map fun q => 0x0E0001 + q) ++ [0x130000] ++
  (if s.tray then [0x140100, 0x140200, 0x140300, 0x140400] else [])

/-! ### Agreement rules, over a state whose fields read as they would go live -/

/-- R28, R139: bundle 0x01_0000. -/
def State.placeRule (t : State) : Bool :=
  if t.tray then t.get Reg.GL_PLACE_cube == t.ident / 8 % 2 ^ 11 && decide (1 ≤ t.duty) && t.get Reg.GL_JOB_job == 0 &&
    (decide (t.duty ≤ 1) || t.get Reg.RD_CTRL_cube_en == 1)
  else t.get Reg.GL_PLACE_cube == t.ident / 64 && t.duty == 0

/-- R139: the input bus. -/
def State.vinRule (t : State) : Bool :=
  decide (t.get Reg.PM_VIN_LIM_uv_crit < t.get Reg.PM_VIN_LIM_uv_warn) && decide (t.get Reg.PM_VIN_LIM_uv_warn < t.get Reg.PM_VIN_OV_ov_warn)

/-- R139: sensor `n`; kinds 6 and 7 fail.
[DESIGN CHOICE, unsafe: log entry 33] -/
def State.sensorRule (t : State) (n : Nat) : Bool :=
  let k := t.get (Reg.PM_SN_CFG_n_kind n)
  k == 0 || (decide (k ≤ 5) && decide (toSigned 16 (t.get (Reg.PM_SN_THR_n_warn n)) < toSigned 16 (t.get (Reg.PM_SN_THR_n_crit n))))

/-- R206 and bundle 0x03_0000. -/
def State.timeRule (t : State) : Bool :=
  let k := t.get Reg.TB_PARENT_kind
  let p := t.get Reg.TB_SYNC_CFG_period_us
  (k == 0 || (if t.tray then k == 2 || (k == 3 && t.duty == 3) else k == 1)) &&
  (t.get Reg.TB_PARENT_ext == 0 || k == 3) && decide (t.get Reg.TB_LIMITS_align < t.get Reg.TB_LIMITS_step) &&
  (p == 0 || decide (50 ≤ p))

/-- Spans, as (base, size), of size not 0 do not overlap. -/
def disjointSpans : List (Nat × Nat) → Bool
  | [] => true
  | a :: as => (a.2 == 0 || as.all fun b => b.2 == 0 || decide (a.1 + a.2 ≤ b.1) || decide (b.1 + b.2 ≤ a.1)) && disjointSpans as

/-- R245: bundle 0x05_0000; a list is at most 256 entries long (R224).
[DEDUCED, safe: log entry 210] -/
def State.planRule (t : State) : Bool :=
  ((upto 16).all fun p =>
    let b := t.get (Reg.CF_PLAN_CFG_p_base p)
    let n := t.get (Reg.CF_PLAN_CFG_p_len p)
    let cap := if t.get (Reg.CF_PLAN_CFG_p_kind p) = 0 then 1151 else 63
    decide (n ≤ 256) && decide (b + n ≤ 2048) && (upto n).all fun i => decide (t.get (Reg.CF_LIST_i_index (b + i)) ≤ cap)) &&
  ((upto 16).all fun a => t.get (Reg.CF_AREA_p_size a) == 0 ||
    decide (t.get (Reg.CF_AREA_p_base a) + t.get (Reg.CF_AREA_p_size a) ≤ 16384)) &&
  disjointSpans ((upto 16).map fun a => (t.get (Reg.CF_AREA_p_base a), t.get (Reg.CF_AREA_p_size a))) &&
  (t.get Reg.CF_SNAP_CFG_en == 0 || decide (321 ≤ t.get (Reg.CF_AREA_p_size (t.get Reg.CF_SNAP_CFG_area))))

/-- R245: bundle 0x05_0001. -/
def State.monitorRule (t : State) : Bool :=
  (upto 64).all fun h => t.get (Reg.CF_HQ_CFG_h_en h) == 0 || t.get (Reg.CF_HQ_CFG_h_enq h) != t.get (Reg.CF_HQ_CFG_h_deq h)

/-- R275: one region. -/
def State.regionRule (t : State) (r : Nat) : Bool :=
  let n := t.rgSize r
  let pair := t.get (Reg.CK_RG_CFG_r_pair r)
  if n = 0 then true
  else
    (match t.rgLayout r with
     | 0 => n % 17 == 0
     | 1 => n % 16 == 0 && t.rgSize pair != 0 && t.rgLayout pair == 2 && decide ((n + 63) / 64 ≤ t.rgSize pair) &&
         (upto 64).all fun x => x == r || t.rgSize x == 0 || t.rgLayout x != 1 || t.get (Reg.CK_RG_CFG_r_pair x) != pair
     | 2 => true
     | _ => t.get (Reg.CK_RG_CFG_r_idx_chk r) == 0) &&
    decide (t.get (Reg.CK_RG_IDX_LO_r_idx_lo r) + 2 ^ 32 * t.get (Reg.CK_RG_IDX_HI_r_idx_hi r) + t.framesIn r ≤ 2 ^ 40)

/-- R275: bundle 0x06_0000. -/
def State.tapRule (t : State) : Bool :=
  ((upto 64).all t.regionRule) && disjointSpans ((upto 64).map fun r => (t.rgBase r, 256 * t.rgSize r)) &&
  (upto 4).all fun i =>
    let n := t.get (Reg.CK_ILV_CFG_s_chans i)
    let map := t.rd (Reg.CK_ILV_MAP_LO_s i) + 2 ^ 32 * t.rd (Reg.CK_ILV_MAP_HI_s i)
    [0, 1, 2, 4, 8, 16].contains n &&
    (upto n).all fun c => !(bit (t.get (Reg.CK_ILV_CFG_s_present i)) c) || decide (bits map (4 * c) 4 < t.memTaps)

/-- R363: bundle 0x09_0000. -/
def State.modelRule (t : State) : Bool :=
  ((upto 8).all fun i =>
    let m := t.model i
    if m.trees = 0 then t.rd (Reg.SC_MD_BASE_m i) == 0 && t.rd (Reg.SC_MD_SPAN_m i) == 0 && t.rd (Reg.SC_MD_CFG_m i) == 0
    else decide (m.base + m.span ≤ t.nodeCount) && decide (m.dir + m.trees ≤ m.span) && decide (t.get (Reg.SC_MD_SPAN_m_depth_max i) ≤ 32) &&
      decide (t.get (Reg.SC_MD_CFG_m_vec_slots i) ≤ 1024)) &&
  disjointSpans ((upto 8).map fun i => ((t.model i).base, if (t.model i).trees = 0 then 0 else (t.model i).span))

/-- R401: bundle 0x0B_0000; its rules are about fields of the tray role. -/
def State.fleetRule (t : State) : Bool :=
  !t.tray ||
  (t.get Reg.HL_MAC_PFX_pfx % 4 == 2 &&
   (let a := t.get Reg.HL_PCP_tx_a
    let b := t.get Reg.HL_PCP_tx_b
    let c := t.get Reg.HL_PCP_tx_c
    let rx := fun p => bits (t.get Reg.HL_PCP_rx_map) (2 * p) 2
    a != b && a != c && b != c && rx a == 0 && rx b == 1 && rx c == 2) &&
   ((upto 4).all fun p => t.get (Reg.HL_EP_CFG_p_vid p) != 4095) &&
   (match t.cubeTray t.ownCube with
    | some x => (x == t.trayId) == decide (2 ≤ t.duty)
    | none => false))

/-- R401: bundle 0x13_0000. -/
def State.typeRule (t : State) : Bool :=
  let es := (t.regs.filter fun e => decide (0x5C000 ≤ e.1) && decide (e.1 < 0x60000) && typValid e.2.toNat).map fun e => e.2.toNat
  (es.all fun w =>
    let f := typFunc w
    decide (typClass w ≤ 2) && decide (f ≤ 15) && (f == 0 || typClass w == funcClass f) &&
    (!([4, 6, 8, 11].contains f) || typSink w == 0) && (!([7, 9].contains f) || typSink w == 1) &&
    (!([12, 13].contains f) || typSink w == 3)) &&
  (upto 16).all fun f => f == 0 || decide ((es.filter fun w => typFunc w == f).length ≤ 1)

/-- R187: bundle 0x0E_0000. -/
def State.flagRule (t : State) : Bool :=
  ((upto 64).all fun f =>
    let o := t.get (Reg.QE_FLAG_CFG_f_owner f)
    (decide (o ≤ 16) || o == 31) &&
    (if t.get (Reg.QE_FLAG_CFG_f_plov f) = 1 then o == 31 else decide (16 ≤ o) || t.get (Reg.QE_Qn_PROG_mode o) == 0)) &&
  (t.get Reg.QE_WDOG_us != 0 || (upto 16).all fun q => t.get (Reg.QE_Qn_PROG_mode q) == 0)

def distinct : List Nat → Bool
  | [] => true
  | a :: as => !(as.contains a) && distinct as

/-- R455: bundle 0x0D_0000. -/
def State.analyticsRule (t : State) : Bool :=
  let en := t.get Reg.FA_CFG_en
  let c := [t.get Reg.FA_SER_C_cand, t.get Reg.FA_SER_C_cpace, t.get Reg.FA_SER_D_cdrift, t.get Reg.FA_SER_D_med]
  (!(bit en 1) || decide (2 ≤ t.duty)) && (!(bit en 2) || t.duty == 3) &&
  distinct [t.get Reg.FA_SER_A_pace, t.get Reg.FA_SER_A_score, t.get Reg.FA_SER_A_err, t.get Reg.FA_SER_A_temp, t.get Reg.FA_SER_B_load] &&
  distinct c && (c.all fun x => decide (256 ≤ x)) && decide (t.get Reg.FA_DRIFT_af < t.get Reg.FA_DRIFT_as) &&
  decide (1 ≤ t.get Reg.FA_CFG_min_n ∧ t.get Reg.FA_CFG_min_n ≤ 64) &&
  (en == 0 || decide (1 ≤ t.get Reg.FA_STATE_AREA_size))

/-- Base and size in bytes of a fleet-store area. -/
def State.areaSpan (t : State) (off : Nat) : Nat × Nat := (t.rd off % 2 ^ 16 * 2 ^ 20, t.rd off / 2 ^ 16 * 2 ^ 20)

/-- Areas of size not 0 lie within the declared store and do not overlap. -/
def State.areasOk (t : State) (offs : List Nat) : Bool :=
  let ps := offs.map t.areaSpan
  (ps.all fun p => p.2 == 0 || decide (p.1 + p.2 ≤ t.storeBytes)) && disjointSpans ps

/-! ### Job entries: contents and sizes (R421, R422, R429) -/

/-- R429: the content of an entry at `base`.
[DEDUCED, unsafe: log entry 169] -/
def State.entryRule (t : State) (base : Nat) : Bool :=
  let c := t.entryContent base 0
  let level := levelOf base
  let n := c.word 0x24 % 16
  let tray := c.word 0x10 % 2 ^ 16
  let cube := c.word 0x10 / 2 ^ 16
  let mast := c.word 0x14 % 2 ^ 24
  let cap := if level = 3 then 1024 else 256
  if !c.valid then true
  else
    decide (1 ≤ c.tag) && decide (160000 ≤ c.len) && decide (1 ≤ tray ∧ tray < cube ∧ cube < mast) &&
    decide (mast * 1600 ≤ 63 * c.len) && decide (n ≤ 8) && decide (1 ≤ t.duty) &&
    ((c.ranges).all fun r => decide (1 ≤ r.count) && decide (r.first + r.count ≤ cap) && decide (r.op ≤ 6) &&
      (if r.op = 6 then decide (1 ≤ r.k ∧ r.k ≤ 16) else r.k == 0) && (r.op == 4 || (r.shift == 0 && r.lo == 0))) &&
    disjointSpans ((c.ranges).map fun r => (r.first, r.count)) &&
    ((upto 8).all fun r => decide (r < n) || (upto 4).all fun i => c.word (0x40 + 16 * r + 4 * i) == 0) &&
    (match t.typeFor 13 with | some k => typSink (t.typeOf false k) == 3 | none => false) &&
    (if level = 1 then true
     else if level = 2 then t.get Reg.RD_CTRL_cube_en == 1 && c.exp % 2 ^ 8 != 0 && c.exp / 2 ^ 8 == 0
     else t.get Reg.RD_CTRL_mast_en == 1 && c.word 0x18 % 2 ^ 14 == t.trayId && !c.cubes.isEmpty && decide (c.exp ≤ 64 * c.cubes.length))

/-- P of R421. -/
def Content.mastParts (c : Content) : Nat :=
  c.ranges.foldl (fun n r =>
    let low := min r.count (256 - min 256 r.first)
    n + low * r.parts + (r.count - low)) 0

/-- C × P of R422, and of R421 for a masthead. -/
def Content.shares (c : Content) (level : Nat) : Nat :=
  if level = 1 then 8 * c.ranges.foldl (fun n r => n + r.count) 0
  else if level = 2 then 8 * c.ranges.foldl (fun n r => n + r.count * r.parts) 0
  else c.cubes.length * c.mastParts

/-- The contents an entry may have once this commit is in: live, pending, and what the commit installs. -/
def State.entryContents (s t : State) (base : Nat) : List Content :=
  (match s.entry? base with | some en => if en.state = 2 ∨ en.state = 3 then en.now.toList else [] | none => []) ++
  (match s.pendOf base with | some p => [p.content] | none => []) ++
  (if s.entryPends t base then [t.entryContent base 0] else [])

/-- The larger of two non-negative fractions. -/
def fracMax (a b : Nat × Nat) : Nat × Nat := if a.1 * b.2 < b.1 * a.2 then b else a

/-- R421: 64·C·P / len over the masthead's entries is at most 15.625 bytes a tick. -/
def State.rateOk (s t : State) : Bool :=
  let sum := mastBases.foldl (fun (acc : Nat × Nat) b =>
    let x := ((s.entryContents t b).filter Content.valid).foldl (fun (m : Nat × Nat) c => fracMax m (64 * c.shares 3, max 1 c.len)) (0, 1)
    (acc.1 * x.2 + x.1 * acc.2, acc.2 * x.2)) (0, 1)
  decide (sum.1 * 8 ≤ 125 * sum.2)

/-- R422: the state area holds every entry's parts. -/
def State.stateAreaOk (s t : State) : Bool :=
  let need := entryBases.foldl (fun n b =>
    n + (((s.entryContents t b).filter Content.valid).map fun c =>
      let l := levelOf b
      64 * c.shares l * ((c.dl l + max 1 c.len - 1) / max 1 c.len + 1)).foldl max 0) 0
  decide (need ≤ t.get Reg.RD_STATE_AREA_size * 2 ^ 20)

/-- R429: bundle 0x14_0100. -/
def State.reduceRule (s t : State) : Bool :=
  (t.get Reg.RD_CTRL_cube_en == 1) == decide (2 ≤ t.duty) && (t.get Reg.RD_CTRL_mast_en == 1) == (t.duty == 3) &&
  t.areasOk rdAreas && s.rateOk t && s.stateAreaOk t &&
  (!(rdAreas.any s.shDiffers) || s.red.entries.isEmpty)

/-- R483: bundle 0x14_0300. -/
def State.receiveRule (s t : State) : Bool :=
  let n := t.get Reg.DC_RX_CFG_ctx
  t.areasOk (rdAreas ++ rxAreas ++ [Reg.FA_STATE_AREA]) &&
  (n == 0 || (decide (n * 65600 ≤ t.get Reg.DC_CTX_AREA_size * 2 ^ 20) && decide (1 ≤ t.get Reg.DC_RX_AREA_size))) &&
  (!(rxAreas.any s.shDiffers) || (n == 0 && s.get Reg.DC_RX_CFG_ctx == 0))

/-- R509: bundle 0x14_0400. -/
def State.storeRule (s t : State) : Bool :=
  let f := t.get Reg.EV_STORE_flash
  let sec := t.get Reg.EV_NV_AREA_sector
  t.areasOk (rdAreas ++ rxAreas ++ evAreas ++ [Reg.FA_STATE_AREA]) && t.get Reg.EV_STORE_store != 7 &&
  (f == 0 || decide (4 ≤ f ∧ f ≤ 11)) && decide (2 ≤ t.get Reg.EV_LOG_AREA_size) && decide (4 ≤ t.get Reg.EV_MIR_AREA_size) &&
  (t.get Reg.EV_NV_AREA_en == 0 || (f != 0 && decide (515 < sec) && decide ((sec + 512) * 4096 ≤ 2 ^ f * 2 ^ 20))) &&
  (s.ho.first || !([Reg.EV_STORE, Reg.EV_LOG_AREA, Reg.EV_MIR_AREA, Reg.EV_NV_AREA].any s.shDiffers))

/-- R455: bundle 0x14_0200. -/
def State.faAreaRule (s t : State) : Bool :=
  t.areasOk (rdAreas ++ [Reg.FA_STATE_AREA]) &&
  (!(s.shDiffers Reg.FA_STATE_AREA) || (t.get Reg.FA_CFG_en == 0 && s.get Reg.FA_CFG_en == 0))

/-- R141: the bundle agrees; `t` reads as it would go live. -/
def State.bundleOk (s t : State) (id : Nat) : Bool :=
  if id = 0x010000 then t.placeRule
  else if id = 0x020000 then t.vinRule
  else if inRange id 0x020001 0x020101 then t.sensorRule (id - 0x020001)
  else if id = 0x030000 then t.timeRule
  else if id = 0x050000 then t.planRule
  else if id = 0x050001 then t.monitorRule
  else if id = 0x060000 then t.tapRule
  else if inRange id 0x070000 0x070010 then
    let n := id - 0x070000
    hostModelOk (t.rd (Reg.XC_HM_IN_n n)) (t.rd (Reg.XC_HM_OUT_n n)) (t.rd (Reg.XC_HM_ACC_n n))
  else if id = 0x090000 then t.modelRule
  else if id = 0x0A0000 then (upto 8).all fun m => decide (t.get (Reg.SC_MD_PROB_m_p_shift m) ≤ 47)
  else if id = 0x0B0000 then t.fleetRule
  else if id = 0x0D0000 then t.analyticsRule
  else if id = 0x0E0000 then t.flagRule
  else if inRange id 0x0E0001 0x0E0011 then decide (t.get (Reg.QE_Qn_PROG_count (id - 0x0E0001)) ≤ 128)
  else if id = 0x130000 then t.typeRule
  else if id = 0x140100 then s.reduceRule t
  else if id = 0x140200 then s.faAreaRule t
  else if id = 0x140300 then s.receiveRule t
  else if id = 0x140400 then s.storeRule t
  else
    match entryBases.find? fun b => entryBundle b == id with
    | some b => t.entryRule b
    | none => true

/-- The bundles a commit evaluates (R141): with no generation live, every one.
[DEDUCED, unsafe: log entry 172] -/
def State.evaluated (s : State) : List Nat :=
  let hit := s.changedOffs.flatMap bundlesOf
  if s.genLive then s.bundles.filter fun b => hit.contains b else s.bundles

/-- The failing bundles of a commit with the codes each fails with, in ascending order (R141, R151, R417, R418). -/
def State.failing (s : State) : List (Nat × List Nat) :=
  let t := s.asLive
  let epoch := if s.tray then entryBases.map fun b => (entryBundle b, s.entryCodes t b) else []
  let es := epoch.filter fun e => !e.2.isEmpty
  s.bundles.filterMap fun id =>
    let ec := match es.find? fun e => e.1 == id with | some e => e.2 | none => []
    let bad := s.evaluated.contains id && !(s.bundleOk t id)
    let cs := (if bad then [Code.HOIST_MISMATCH] else []) ++ ec.filter fun c => !(bad && c == Code.HOIST_MISMATCH)
    if cs.isEmpty then none else some (id, cs)

end Sys2Proof.Machine
end

