-- ==== Sys2Proof/Machine/Ecdsa.lean ====
section
/-! DEFINITION. ECDSA over P-384 (R131, R525): the curve's arithmetic and the verification of a signature block. The
curve's constants are PRESUMED from the standard that names it. -/

namespace Sys2Proof.Machine

/-- The field prime, the coefficient b (a is −3), the order and the base point of P-384.
[PRESUMED, safe: log entry 146] -/
def p384P : Nat := 2 ^ 384 - 2 ^ 128 - 2 ^ 96 + 2 ^ 32 - 1
def p384N : Nat :=
  0xffffffffffffffffffffffffffffffffffffffffffffffffc7634d81f4372ddf581a0db248b0a77aecec196accc52973
def p384G : Nat × Nat :=
  (0xaa87ca22be8b05378eb1c71ef320ad746e1d3b628ba79b9859f741e082542a385502f25dbf55296c3a545e3872760ab7,
   0x3617de4a96262c6f5d9e98bf9292dc29f8f41dbd289a147ce9da3113b5f0b8c00a60b1ce1d7e819d7a431d7c90ea0e5f)

/-- `b ^ e` modulo `m`, by the `k` low bits of `e`. -/
def powMod (m : Nat) : Nat → Nat → Nat → Nat
  | 0, _, _ => 1 % m
  | k + 1, b, e =>
    let r := powMod m k (b * b % m) (e / 2)
    if e % 2 = 1 then r * b % m else r

/-- The inverse modulo a prime of 384 bits. -/
def invMod (m a : Nat) : Nat := powMod m 384 (a % m) (m - 2)

/-- A point: `none` is the point at infinity. -/
abbrev Point := Option (Nat × Nat)

def subP (a b : Nat) : Nat := (a + p384P - b % p384P) % p384P

/-- The chord or tangent through `(x1, y1)` of slope `l`, meeting the curve again with `x2`. -/
def chord (l x1 y1 x2 : Nat) : Point :=
  let x := subP (subP (l * l % p384P) x1) x2
  some (x, subP (l * subP x1 x % p384P) y1)

/-- Point addition. -/
def pointAdd : Point → Point → Point
  | none, q => q
  | p, none => p
  | some (x1, y1), some (x2, y2) =>
    if x1 = x2 then
      if (y1 + y2) % p384P = 0 then none
      else chord (subP (3 * (x1 * x1) % p384P) 3 * invMod p384P (2 * y1) % p384P) x1 y1 x2
    else chord (subP y2 y1 * invMod p384P (subP x2 x1) % p384P) x1 y1 x2

/-- `k` times a point, by the `n` low bits of `k`. -/
def pointMul : Nat → Nat → Point → Point
  | 0, _, _ => none
  | n + 1, k, p =>
    let r := pointMul n (k / 2) (pointAdd p p)
    if k % 2 = 1 then pointAdd r p else r

/-- ECDSA verification of the digest `e` under the public key `q`. -/
def ecdsaVerify (q : Nat × Nat) (e r s : Nat) : Bool :=
  if r = 0 ∨ s = 0 ∨ p384N ≤ r ∨ p384N ≤ s then false
  else
    let w := invMod p384N s
    match pointAdd (pointMul 384 (e * w % p384N) (some p384G)) (pointMul 384 (r * w % p384N) (some q)) with
    | none => false
    | some (x, _) => x % p384N == r

/-- R131: the signature block is well formed and its signature verifies under the table's key over `digest`.
[DESIGN CHOICE, unsafe: log entry 195] -/
def sigOk (blk digest : List Byte) : Bool :=
  match Config.romKey (field blk 0 4) with
  | none => false
  | some q => field blk 4 12 == 0 && ecdsaVerify q (beNat digest) (field blk 16 48) (field blk 64 48)

end Sys2Proof.Machine
end

