-- ==== Sys2Proof/Machine/Recorder.lean ====
section
/-! DEFINITION. The event recorder's own work: writing the log, freezes and clears, operating seconds and the life
block, the flash copy and its rebuild (R487–R489, R494–R497), and the flash operations of R88 the recorder starts. -/

namespace Sys2Proof.Machine

/-! ### Flash (R88) -/

/-- Byte `a` of the flash.
[DESIGN CHOICE, unsafe: log entry 9] -/
def State.flByte (s : State) (a : Nat) : Byte := Sparse.get (fun _ => 0xFF) s.fl.bytes a

def State.flBytes (s : State) (a n : Nat) : List Byte := (List.range n).map fun i => s.flByte (a + i)

/-- Programming a NOR flash clears bits only. -/
def flProgram (m : Sparse Byte) (a : Nat) : List Byte → Sparse Byte
  | [] => m
  | b :: bs => flProgram (Sparse.set (fun _ => (0xFF : Byte)) m a (b &&& Sparse.get (fun _ => (0xFF : Byte)) m a)) (a + 1) bs

/-- Erase the 4 KiB sector that holds `a`. -/
def flErase (m : Sparse Byte) (a : Nat) : Sparse Byte :=
  m.filter fun e => decide (e.1 / 4096 ≠ a / 4096)

/-- Start an operation on an idle flash. -/
def State.flStart (s : State) (erase : Bool) (a : Nat) (bs : List Byte) (who : Nat) : State :=
  { s with fl := { s.fl with op := some (erase, a, bs, who), since := s.cyc } }

/-- Start the recorder's next operation when the flash is idle. -/
def State.flPump (s : State) : State :=
  match s.fl.op, s.ev.nvQueue with
  | none, (a, bs, who) :: rest => { s with ev := { s.ev with nvQueue := rest } }.flStart bs.isEmpty a bs who
  | _, _ => s

def State.flQueue (s : State) (ops : List (Nat × List Byte × Nat)) : State :=
  { s with ev := { s.ev with nvQueue := s.ev.nvQueue ++ ops } }.flPump

/-! ### The log (R488, R490, R495) -/

/-- Base byte of the tray's working log in the fleet store. -/
def State.logBase (s : State) : Nat := s.get Reg.EV_LOG_AREA_base * 2 ^ 20

/-- Write a record's 32 bytes at a slot of the log. -/
def State.logPut (s : State) (slot : Nat) (bs : List Byte) : State :=
  if s.tray then s.fsWrite .store (s.logBase + 32 * slot) bs
  else { s with ev := { s.ev with log := s.ev.log.put (32 * slot) bs } }

/-- The circulating sectors still in use, in order: sector numbers within the log area. -/
def State.nvSectors (s : State) : List Nat := (upto 512).filter fun n => !(s.ev.nvBad.contains n)

/-- Flash address of a slot (R495). -/
def State.nvAddr (s : State) (slot : Nat) : Nat :=
  (s.get Reg.EV_NV_AREA_sector + s.nvSectors.getD (slot / 128) 0) * 4096 + slot % 128 * 32

/-- Write the next record: its slot, the count, and in tray role its place in the copy behind (R488, R495). -/
def State.logAppend (s : State) (r : EvRec) : State :=
  let r := { r with seq := s.ev.count % 2 ^ 32 }
  let s := s.logPut (slotOf s.logN s.logM s.ev.count) r.bytes
  let s := { s with ev := { s.ev with count := s.ev.count + 1 } }
  if s.tray && s.get Reg.EV_NV_AREA_en == 1 then
    { s with ev := { s.ev with nvPage := s.ev.nvPage ++ [r], nvAt := if s.ev.nvPage.isEmpty then s.cyc else s.ev.nvAt } }
  else s

/-- LOG_RECORD_WRITE (R490, R497): the oldest record of the intake is written, or only counted during a freeze; the
overflow marker enters with the room made. -/
def State.logRecordWrite (s : State) : State :=
  match s.ev.intake with
  | [] => s
  | r :: rest =>
    let s := { s with ev := { s.ev with intake := rest } }
    if s.get Reg.EV_CTRL_freeze = 1 then
      let s := s.bump (Reg.EV_FRZ_c_count r.cls) 1
      ({ s with ev := { s.ev with frzN := satAdd (2 ^ 32 - 1) s.ev.frzN 1 } }).marker
    else (s.logAppend r).marker

def execLogRecordWrite (s : State) : Host.Outcome State Fault Refusal :=
  .next (if s.active then s.logRecordWrite.need else s)

/-- OVERFLOW_MARKER (R490). -/
def execOverflowMarker (s : State) : Host.Outcome State Fault Refusal :=
  .next (if s.active then s.marker else s)

/-! ### Freeze and clear (R489, R497, R506) -/

/-- The end of a freeze: LIFE 0x06 with the records counted, and source 45. -/
def State.endFreeze (s : State) : State :=
  let n := s.ev.frzN
  (({ (s.put Reg.EV_CTRL_freeze 0) with ev := { s.ev with frzAt := none, frzN := 0 } }).record 5 0x06 Unit_.recorder 0 n).raise 45

/-- A write of `EV_CTRL`. -/
def State.wFreeze (s : State) (v : Nat) : State :=
  if s.get Reg.EV_CTRL_freeze = 0 then
    if v % 2 = 0 then s
    else if s.get Reg.EV_FRZ_TO_ms = 0 then s.endFreeze
    else { (s.put Reg.EV_CTRL_freeze 1) with ev := { s.ev with frzAt := some s.cyc, frzN := 0 } }
  else if v % 2 = 0 then s.endFreeze
  else s

/-- FREEZE_TIMEOUT: `EV_FRZ_TO.ms` after the freeze began. -/
def execFreezeTimeout (s : State) : Host.Outcome State Fault Refusal :=
  match s.ev.frzAt with
  | some c => .next (if s.active then (s.passTo (c + s.get Reg.EV_FRZ_TO_ms * msCycles)).endFreeze else s)
  | none => .next s

/-- R489: the flash log's 512 sectors, erased in the background after a clear. -/
def State.eraseLog (s : State) : State :=
  if s.tray && s.get Reg.EV_NV_AREA_en == 1 then
    { s with ev := { s.ev with nvPage := [], nvBad := [] } }.flQueue
      ((upto 512).map fun n => ((s.get Reg.EV_NV_AREA_sector + n) * 4096, [], 3))
  else { s with ev := { s.ev with nvBad := [] } }

/-- The erase of R489 is still under way. -/
def State.nvClearing (s : State) : Bool :=
  s.ev.nvQueue.any (fun e => e.2.2 == 3) || (match s.fl.op with | some (_, _, _, w) => w == 3 | none => false)

/-- The records waiting in the intake follow the new log's first ones. -/
def State.reseat (s : State) (rs : List EvRec) : State :=
  rs.foldl (fun t r => { t with ev := { t.ev with intake := t.ev.intake ++ [{ r with seq := t.nextSeq }] } }) s

/-- A write of `EV_CLEAR`: with the key and `sec_auth` the log is cleared; anything else is refused.
[DEDUCED, safe: log entry 222] -/
def State.wClear (s : State) (v : Nat) : Option State :=
  if v ≠ 0x5A5A ∨ s.secAuth = false then none
  else if s.tray && !s.ev.rebuilt then
    -- nothing is in the log yet: the record waits with those of the boot holding area
    some (s.record 5 0x05 Unit_.recorder 0 (s.ev.count % 2 ^ 32))
  else
    let old := s.ev.count % 2 ^ 32
    let wait := s.ev.intake
    let frozen := decide (s.get Reg.EV_CTRL_freeze = 1)
    let s := { s with ev := { s.ev with count := 0, intake := [], log := [] } }.eraseLog
    let r := s.form 5 0x05 Unit_.recorder 0 old false
    let s := (s.logAppend r).report { r with seq := 0 }
    let s := if frozen then s.endFreeze else s
    some (s.reseat wait)

/-! ### Operating seconds and the life block (R487) -/

/-- R487: a life-block entry. The order of its fields within the 32 bytes is the model's. -/
def lifeEntry (opsec pcc : Nat) : List Byte :=
  let h := leBytes 4 opsec ++ leBytes 4 pcc ++ List.replicate 20 0
  h ++ leBytes 4 (crc32c h)

/-- The entry at place `i` of the two sectors, when its CRC passes. -/
def State.lifeAt? (s : State) (i : Nat) : Option (Nat × Nat × Nat) :=
  let b := s.flBytes (514 * 4096 + 32 * i) 32
  if crc32c (b.take 28) = field b 28 4 then some (field b 4 4, field b 0 4, i) else none

/-- Of two entries, the one with the higher `pcc`, then the higher `opsec`. -/
def lifeBetter (a b : Option (Nat × Nat × Nat)) : Option (Nat × Nat × Nat) :=
  match a, b with
  | none, x => x
  | x, none => x
  | some x, some y => if x.1 < y.1 ∨ (x.1 = y.1 ∧ x.2.1 < y.2.1) then some y else some x

/-- Places of the life block that hold anything. -/
def State.lifePlaces (s : State) : List Nat :=
  (upto 256).filter fun i => s.fl.bytes.any fun e => decide ((e.1 - 514 * 4096) / 32 = i ∧ 514 * 4096 ≤ e.1)

def State.lifeBest (s : State) : Option (Nat × Nat × Nat) :=
  s.lifePlaces.foldl (fun a i => lifeBetter a (s.lifeAt? i)) none

/-- Append an entry; at a sector's start the sector is erased first. -/
def State.lifeAppend (s : State) : State :=
  let i := s.ev.lifeAt % 256
  let e := lifeEntry (s.rd Reg.EV_OPSEC) (s.get Reg.EV_PCC_pcc)
  let er := if i % 128 = 0 then [(514 * 4096 + 32 * i, ([] : List Byte), 2)] else []
  { s with ev := { s.ev with lifeAt := i + 1, saveAt := s.cyc } }.flQueue (er ++ [(514 * 4096 + 32 * i, e, 2)])

/-- LIFE_BLOCK_READ_END: the recorder stores count + 1, sets `life_v` and appends a new entry. -/
def State.lifeBlockRead (s : State) : State :=
  let best := s.lifeBest
  let (pcc, ops, at_) := match best with | some (p, o, i) => (p, o, i + 1) | none => (0, 0, 0)
  let s := (s.put Reg.EV_PCC_pcc (satAdd (2 ^ 24 - 1) pcc 1)).wr Reg.EV_OPSEC (satAdd (2 ^ 32 - 1) ops (s.rd Reg.EV_OPSEC))
  { s with ev := { s.ev with lifeV := true, lifeAt := at_ } }.lifeAppend

def execLifeBlockReadEnd (s : State) : Host.Outcome State Fault Refusal :=
  .next (if s.tray && !s.ev.lifeV then s.lifeBlockRead else s)

/-- R487: from the second of the two writes on, the counts read base + local. -/
def State.applyLife (s : State) : State :=
  match s.ev.lifeOps, s.ev.lifePcc with
  | some o, some p =>
    let s := (s.wr Reg.EV_OPSEC (satAdd (2 ^ 32 - 1) o (s.rd Reg.EV_OPSEC))).put Reg.EV_PCC_pcc (satAdd (2 ^ 24 - 1) p 1)
    { s with ev := { s.ev with lifeV := true } }
  | _, _ => s

/-- A die's write of `EV_LIFE_OPS` or `EV_LIFE_PCC`, once each; both apply from the second on. -/
def State.wLife (s : State) (pcc : Bool) (v : Nat) : Option State :=
  if s.tray then some s
  else if pcc then
    match s.ev.lifePcc with
    | some _ => none
    | none => some (State.applyLife { (s.wr Reg.EV_LIFE_PCC (v % 2 ^ 24)) with ev := { s.ev with lifePcc := some (v % 2 ^ 24) } })
  else
    match s.ev.lifeOps with
    | some _ => none
    | none => some (State.applyLife { (s.wr Reg.EV_LIFE_OPS v) with ev := { s.ev with lifeOps := some v } })
/-- OPSEC_TICK: a second of always-on power has passed. -/
def execOpsecTick (s : State) : Host.Outcome State Fault Refusal :=
  let s := s.passTo (s.ev.opsAt + secCycles)
  .next { (s.bump { off := Reg.EV_OPSEC, lo := 0, w := 32 } 1) with ev := { s.ev with opsAt := s.ev.opsAt + secCycles } }

/-- LIFE_SAVE: every `save_s` seconds the tray appends an entry. -/
def execLifeSave (s : State) : Host.Outcome State Fault Refusal :=
  let n := s.get Reg.EV_LIFE_CFG_save_s
  .next (if s.tray && s.ev.lifeV && n != 0 then (s.passTo (s.ev.saveAt + n * secCycles)).lifeAppend else s)

/-! ### The flash copy (R495) -/

/-- The slot of record `i` of those waiting for flash: they are the newest of the log. -/
def State.nvSlot (s : State) (i : Nat) : Nat := slotOf s.logN s.logM (s.ev.count - s.ev.nvPage.length + i)

/-- The records of the waiting page that share its 256 bytes with the first. -/
def State.nvRun (s : State) : List EvRec :=
  (s.ev.nvPage.zipIdx.takeWhile fun x => s.nvSlot x.2 / 8 == s.nvSlot 0 / 8).map fun x => x.1

/-- NV_PAGE_PROGRAM: the page is programmed, full or 10 ms after its first record; a circulating sector is erased just
before its first page. While a flash operation or an erase after a clear runs, the page waits.
[DESIGN CHOICE, unsafe: log entry 41] -/
def State.nvProgram (s : State) : State :=
  match s.nvRun with
  | [] => s
  | r :: rs =>
    let slot := s.nvSlot 0
    let er := if s.logN ≤ slot ∧ slot % 128 = 0 then [(s.nvAddr slot, ([] : List Byte), 1)] else []
    let bs := (r :: rs).flatMap EvRec.bytes
    { s with ev := { s.ev with nvPage := s.ev.nvPage.drop (rs.length + 1), nvAt := s.cyc } }.flQueue
      (er ++ [(s.nvAddr slot, bs, 1)])

def execNvPageProgram (s : State) : Host.Outcome State Fault Refusal :=
  if s.active = false ∨ s.nvRun = [] ∨ s.nvClearing = true then .next s
  else
    let s := if s.nvRun.length = 8 then s else s.passTo (s.ev.nvAt + 10 * msCycles)
    .next s.nvProgram

/-- `EV_NV_LAG`: records not yet in flash. -/
def State.nvLag (s : State) : Nat :=
  s.ev.nvPage.length +
    (s.ev.nvQueue.filter fun e => e.2.2 == 1).foldl (fun n e => n + e.2.1.length / 32) 0 +
    (match s.fl.op with | some (_, _, bs, 1) => bs.length / 32 | _ => 0)

/-- The slots of the flash log that hold anything. -/
def State.nvSlots (s : State) : List Nat :=
  let base := s.get Reg.EV_NV_AREA_sector * 4096
  ((s.fl.bytes.filter fun e => decide (base ≤ e.1 ∧ e.1 < base + 512 * 4096)).map fun e => (e.1 - base) / 32).eraseDups

/-- The first record of `boot` that equals `r` in the reports to re-offer takes its `seq` (R493, R495). -/
def reseq (old new : EvRec) : List EvRec → List EvRec
  | [] => []
  | r :: rs => if r = old then new :: rs else r :: reseq old new rs

/-- LOG_REBUILD: valid records of the flash go back to their slots, the next slot follows the highest valid `seq`, and
the boot holding area is appended. -/
def State.logRebuild (s : State) : State :=
  let base := s.get Reg.EV_NV_AREA_sector * 4096
  let slots := if s.get Reg.EV_NV_AREA_en = 1 then s.nvSlots else []
  let good := slots.filterMap fun k =>
    let b := s.flBytes (base + 32 * k) 32
    if crc32c (b.take 28) = field b 28 4 then some (k, b) else none
  let s := good.foldl (fun t (k, b) => t.logPut k b) s
  let n := good.foldl (fun m (_, b) => max m (field b 24 4 + 1)) 0
  let boot := s.ev.boot
  let s := { s with ev := { s.ev with count := n, rebuilt := true, boot := [] } }
  boot.foldl (fun t r =>
    let r' := { r with seq := t.nextSeq }
    { (t.logAppend r') with ev := { (t.logAppend r').ev with reoffer := reseq r r' (t.logAppend r').ev.reoffer } }) s

def execLogRebuild (s : State) : Host.Outcome State Fault Refusal :=
  .next (if s.active && s.tray && !s.ev.rebuilt && !s.ho.first then s.logRebuild else s)

end Sys2Proof.Machine
end

