-- ==== Sys2Proof/Machine/Images.lean ====
section
/-! DEFINITION. Steward images (R523–R532): the checks of an image, secure boot from ROM, the image loader, the swap of
banks, the flash command, and the steward's timer, watchdog and record registers. -/

namespace Sys2Proof.Machine

def State.setSt (s : State) (f : Steward → Steward) : State := { s with st := f s.st }

def State.setHart (s : State) (f : Hart → Hart) : State := s.setSt fun t => { t with hart := f t.hart }

/-- Bytes of an instruction bank (R512). -/
def State.imSize (s : State) : Nat := if s.tray then 524288 else 131072

def State.imBank (s : State) (k : Nat) : ImBank := s.st.banks.getD k {}

def State.setBank (s : State) (k : Nat) (f : ImBank → ImBank) : State := s.setSt fun t => { t with banks := modAt t.banks k f }

def State.activeBank (s : State) : ImBank := s.imBank s.st.bank
def State.idleBank (s : State) : ImBank := s.imBank (1 - s.st.bank)

/-! ### The boot record and the floor (R524, R526) -/

/-- Places of the boot record's two sectors that hold anything. -/
def State.bootPlaces (s : State) : List Nat :=
  (upto 256).filter fun i => s.fl.bytes.any fun e => decide (512 * 4096 ≤ e.1) && (e.1 - 512 * 4096) / 32 == i

/-- The valid entry at a place: its bytes. -/
def State.bootEntry (s : State) (i : Nat) : Option (List Byte) :=
  let b := s.flBytes (512 * 4096 + 32 * i) 32
  if field b 0 4 = 0x54425355 ∧ crc32c (b.take 28) = field b 28 4 then some b else none

/-- The entry that stands: the valid one with the largest `seq`. -/
def State.bootRecord (s : State) : Option (List Byte) :=
  (s.bootPlaces.filterMap s.bootEntry).foldl (fun (a : Option (List Byte)) b =>
    match a with
    | none => some b
    | some x => if field x 4 4 < field b 4 4 then some b else some x) none

def State.bootField (s : State) (i w : Nat) : Nat :=
  if s.tray then (match s.bootRecord with | some b => field b i w | none => 0) else 0

/-- The floor and the disabled keys in force.
[DEDUCED, safe: log entry 143] -/
def State.secFloor (s : State) : Nat := max (s.get Reg.ST_SEC_FLOOR_floor) (s.bootField 10 2)
def State.keysOff (s : State) : Nat := s.get Reg.ST_SEC_FLOOR_koff ||| (s.bootField 9 1 % 16)

/-! ### The checks of an image (R523, R524) -/

/-- R127: the block version an image or a hoist requires. -/
def blkVerOk (v : Nat) : Bool := v / 2 ^ 16 == 3 && decide (v % 2 ^ 16 ≤ 2)

/-- The header's fields, and a length of exactly 176 + `code_len`. -/
def State.imageForm (s : State) (h : List Byte) (len : Nat) : Bool :=
  let n := field h 20 4
  field h 0 4 == 0x57545355 && field h 4 2 == 1 && field h 6 1 == s.role && field h 7 1 == 0 && field h 14 2 == 0 &&
    blkVerOk (field h 16 4) && decide (4 ≤ n) && decide (n ≤ s.imSize) && n % 4 == 0 &&
    field h 24 4 % 2 == 0 && decide (field h 24 4 < n) && field h 60 4 == 0 && len == 176 + n

/-- Judge an image: the code, and on OK the bank it makes. -/
def State.imageCheck (s : State) (bs : List Byte) (len : Nat) (nosig : Bool) : Nat × ImBank :=
  if !(s.imageForm bs len) then (0xA0, {})
  else
    let n := field bs 20 4
    let body := bs.take (64 + n)
    let sig := (bs.drop (64 + n)).take 112
    let key := field sig 0 4
    let digest := sha384 body
    if 4 ≤ key ∨ bit s.keysOff key = true then (0xA1, {})
    else if !nosig && !(sigOk sig digest) then (0xA1, {})
    else if field bs 12 2 < s.secFloor then (0xA2, {})
    else (Code.OK, { code := Mem.put [] 0 (body.drop 64), ok := true, signed := !nosig, fw := field bs 8 4, sec := field bs 12 2,
                     entry := field bs 24 4, digest := digest })

/-! ### The watchdog's count (R521) -/

/-- R521: the watchdog counts: the hart is neither in WFI nor in ROM, and the fast domain runs. -/
def State.wdRuns (s : State) : Bool :=
  s.get Reg.ST_WDOG_ms != 0 && !s.st.hart.wfi && !s.st.hart.inRom && s.active

/-- Bring the watchdog's count up to now; called before anything that starts or stops it. -/
def State.wdSync (s : State) : State :=
  s.setSt fun t => { t with wdCount := if s.wdRuns then t.wdCount + (s.cyc - t.wdAt) else t.wdCount, wdAt := s.cyc }

/-! ### Starting the hart (R528, R531) -/

/-- The hart's registers and CSRs return to their reset values, and it fetches from the active bank's entry; every
staging slot is freed (R518). -/
def State.hartStart (s : State) : State :=
  s.wdSync.setSt fun t =>
    { t with hart := { pc := 0x10000000 + (t.banks.getD t.bank {}).entry, wfi := false }, slots := [none, none, none, none], swapDue := false }

/-- The banks exchange roles at the instruction boundary; the former active bank keeps its accepted image (R531).
[DEDUCED, safe: log entry 139] -/
def State.swapBanks (s : State) : State :=
  if s.st.swapDue then
    ((s.setBank s.st.bank fun b => { b with ok := true }).setSt fun t => { t with bank := 1 - t.bank, runs := true }).hartStart
  else s

/-- A write of `ST_IM_SWAP`: only the steward and debug access, only the key, only an accepted image at the floor. -/
def State.wSwapKey (s : State) (req v : Nat) : Option State :=
  if (req = 14 ∨ req = 15) ∧ v % 2 ^ 16 = 0x3C3C ∧ s.idleBank.ok = true ∧ s.st.load.isNone = true ∧ s.secFloor ≤ s.idleBank.sec then
    some (s.setSt fun t => { t with swapDue := true })
  else none

/-! ### The loader (R530) -/

/-- The most bytes of an image that are read: a longer one fails by its length. -/
def State.imgRead (s : State) (len : Nat) : Nat := min len (176 + s.imSize)

/-- Begin to read an image from host memory (kind 0) or the fleet store (kind 1); the other sources are at hand. -/
def State.imgFetch (s : State) (l : ImLoad) (from_ n : Nat) : State :=
  let lines := linesOf (l.addr + from_) n
  if l.kind = 0 then
    (s.setSt fun t => { t with load := some { l with awaiting := lines.length } }).hostRead .imgLoad lines (from_ / 64)
  else if l.kind = 1 then
    if l.addr + from_ + n ≤ s.storeBytes then
      (s.setSt fun t => { t with load := some { l with awaiting := lines.length } }).fsAccess .imgLoad false lines (from_ / 64)
    else s.setSt fun t => { t with load := some { l with failed := some 0xA0 } }
  else s.setSt fun t => { t with load := some l }

/-- A line of the image arrives; an error ends the read with DATA_FAULT or UNCORRECTABLE. -/
def State.imgLine (s : State) (i : Nat) (bs : List Byte) (err : Option Nat) : State :=
  s.setSt fun t => { t with load := t.load.map fun l =>
    { l with awaiting := l.awaiting - 1, lines := Sparse.insert l.lines i bs,
             failed := match l.failed with | some c => some c | none => err } }

/-- The image's bytes. -/
def State.imgBytes (s : State) (l : ImLoad) : List Byte :=
  let n := s.imgRead l.len
  if l.kind = 2 then s.flBytes (l.slot * 2 ^ 20) n
  else if l.kind = 3 then s.dmem.bytes l.addr n
  else ((List.range ((n + 63) / 64)).flatMap fun i => padTo 64 (Sparse.get (fun _ => []) l.lines i)).take n

/-- A load begins: its first reads, or its end at once when the image is empty. -/
def State.imgStart (s : State) (l : ImLoad) : State :=
  if l.len = 0 then s.setSt fun t => { t with load := some l } else s.imgFetch l 0 (s.imgRead l.len)

/-- A write of `ST_IM_LOAD`. -/
def State.wImLoad (s : State) (v : Nat) : Option State :=
  let kind := bits v 29 2
  let bank := bits v 28 1
  let nosig := bit v 26
  let s' := s.wr Reg.ST_IM_LOAD (bits v 26 5 * 2 ^ 26 + (s.rd Reg.ST_IM_LOAD / 2 ^ 31) * 2 ^ 31)
  if !(bit v 31) then some s'
  else if bank = s.st.bank ∨ s.st.load.isSome = true ∨ (s.tray = false ∧ (kind = 1 ∨ kind = 2)) ∨ (nosig = true ∧ s.secAuth = false) then none
  else
    let s := (s'.put Reg.ST_IM_LOAD_go 1).setBank bank fun b => { b with ok := false }
    let s := s.setSt fun t => { t with imBad := t.imBad.filter fun e => e.1 != bank }
    let addr := s.rd Reg.ST_IM_SRC_LO + 2 ^ 32 * s.get Reg.ST_IM_SRC_HI_addr_hi
    let len := s.rd Reg.ST_IM_LEN
    let addr := if kind = 3 then addr % 2 ^ 32 - addr % 8 else addr - addr % 64
    let bad := kind = 3 && lostIn s.st.dmBad addr len
    let l : ImLoad := { bank := bank, kind := kind, nosig := nosig, addr := addr, len := len, slot := bits v 27 1,
                        failed := if bad then some Code.UNCORRECTABLE else none }
    some (s.imgStart l)

/-- A load ends: its code; on OK the bank holds the image. -/
def State.imgJudge (s : State) (l : ImLoad) : Nat × ImBank :=
  if l.len = 0 then (Code.ZERO, {})
  else
    match l.failed with
    | some c => (c, {})
    | none => s.imageCheck (s.imgBytes l) l.len l.nosig

/-- IMAGE_LOAD_END for a load of `ST_IM_LOAD`; while the flash is busy a load from it waits. -/
def State.imageLoadEnd (s : State) : State :=
  match s.st.load with
  | none => s
  | some l =>
    if l.awaiting ≠ 0 ∨ s.stage = 3 ∨ (l.kind = 2 ∧ s.fl.op.isSome = true) then s
    else
      let r := s.imgJudge l
      let s := (s.put Reg.ST_IM_LOAD_go 0).put Reg.ST_IM_STAT_code r.1
      let s := (s.setSt fun t => { t with load := none }).need
      let s := if r.1 = Code.DATA_FAULT ∨ r.1 = Code.UNCORRECTABLE then s.fault r.1 Unit_.firmware 0 0 else s
      if r.1 = Code.OK then s.setBank l.bank fun _ => r.2 else s

def execImageLoadEnd (s : State) : Host.Outcome State Fault Refusal := .next (if s.active then s.imageLoadEnd else s)

/-! ### ROM boot (R528) -/

def State.setBoot (s : State) (f : RomBoot → RomBoot) : State := s.setSt fun t => { t with boot := f t.boot }

/-- Start an attempt on a slot: in die role its header is read first, to learn its length. -/
def State.bootTry (s : State) (slot : Nat) : State :=
  let s := s.setBoot fun b => { b with slot := slot, phase := 2 }
  let l : ImLoad := { bank := 0, kind := if s.tray then 2 else 0, nosig := false, len := 64, slot := slot, addr :=
    (if slot = 0 then s.get Reg.ST_BOOT_A_LO_addr_lo else s.get Reg.ST_BOOT_B_LO_addr_lo) * 64 +
      2 ^ 32 * (if slot = 0 then s.get Reg.ST_BOOT_A_HI_addr_hi else s.get Reg.ST_BOOT_B_HI_addr_hi) }
  s.imgFetch l 0 64

/-- A start-up step fails (R116). -/
def State.bootFailed (s : State) (code : Nat) : State :=
  ((s.put Reg.PM_BOOT_failed 1).put Reg.PM_BOOT_fail_code code).fault Code.BOOT_FAIL Unit_.power 0 code

/-- An attempt ends with a code: success starts the hart, failure tries the other slot, then the boot fails. -/
def State.bootEnd (s : State) (code : Nat) (img : ImBank) : State :=
  let b := s.st.boot
  let s := s.setSt fun t => { t with load := none }
  let s := s.put (if b.slot = 0 then Reg.ST_BOOT_code_a else Reg.ST_BOOT_code_b) code
  let s := if code = Code.DATA_FAULT ∨ code = Code.UNCORRECTABLE then s.fault code Unit_.firmware 0 0 else s
  if code = Code.OK then
    let s := (s.put Reg.ST_BOOT_slot b.slot).put Reg.ST_BOOT_valid 1
    ((s.setBank 0 fun _ => img).setSt fun t => { t with bank := 0, runs := true, boot := { t.boot with phase := 4 } }).hartStart
  else if b.second then
    ((s.put Reg.ST_BOOT_valid 0).setBoot fun b => { b with phase := 4, code := 0xA3 }).setHart (fun h => { h with wfi := true, inRom := true, mie := 0 })
      |>.bootFailed 0xA3
  else (s.setBoot fun b => { b with second := true }).bootTry (1 - b.slot)

/-- One advance of ROM boot.
[DEDUCED, unsafe: log entry 141] -/
def State.bootStep (s : State) : State :=
  match s.st.boot.phase, s.st.load with
  | 0, _ =>
    let s := s.setHart fun h => { h with inRom := true, wfi := false }
    let pref := if s.tray && s.get Reg.ST_BOOT_CFG_force == 0 then s.bootField 8 1 % 2 else s.get Reg.ST_BOOT_CFG_prefer
    if !s.tray && s.get Reg.ST_BOOT_CFG_go == 0 then s.setBoot fun b => { b with phase := 1, slot := pref } else s.bootTry pref
  | 1, _ => if s.get Reg.ST_BOOT_CFG_go = 1 then s.bootTry s.st.boot.slot else s
  | 2, some l =>
    if l.awaiting ≠ 0 ∨ (l.kind = 2 ∧ s.fl.op.isSome = true) then s
    else
      match l.failed with
      | some c => s.bootEnd c {}
      | none =>
        let h := s.imgBytes l
        let n := 176 + field h 20 4
        if s.imageForm h n then (s.setBoot fun b => { b with phase := 3 }).imgFetch { l with len := n } 64 (n - 64)
        else s.bootEnd 0xA0 {}
  | 3, some l =>
    if l.awaiting ≠ 0 then s
    else
      let r := s.imgJudge l
      s.bootEnd r.1 r.2
  | _, _ => s

/-- ROM_BOOT: boot goes on as far as what has been read allows, both slots included; once it has ended it stays ended until
the next fast-domain reset.
[DEDUCED, safe: log entry 223] -/
def State.romBoot (s : State) : State :=
  if s.active ∧ s.stage = 3 then s.bootStep.bootStep.bootStep.bootStep.bootStep else s

def execRomBoot (s : State) : Host.Outcome State Fault Refusal := .next s.romBoot

/-- A write of `ST_BOOT_CFG`: a waiting ROM boot proceeds once `go` reads 1. -/
def State.wBootCfg (s : State) (v : Nat) : State :=
  let s := s.wr Reg.ST_BOOT_CFG (v % 8)
  if s.st.boot.phase = 1 then s.romBoot else s

/-! ### Registers (R520–R522, R529, R534) -/

/-- A write of `ST_SEC_FLOOR`: raise only; outside the steward it needs `sec_auth`. -/
def State.wSecFloor (s : State) (req v : Nat) : Option State :=
  if req ≠ 14 ∧ s.secAuth = false then none
  else
    let s := s.put Reg.ST_SEC_FLOOR_koff (s.get Reg.ST_SEC_FLOOR_koff ||| bits v 16 4)
    some (s.put Reg.ST_SEC_FLOOR_floor (max (s.get Reg.ST_SEC_FLOOR_floor) (v % 2 ^ 16)))

/-- A write of `ST_FL_CMD`: the operation runs ahead of the recorder's next one.
[DEDUCED, safe: log entry 142] -/
def State.wFlCmd (s : State) (v : Nat) : Option State :=
  if !s.tray then some s
  else
    let go := s.get Reg.ST_FL_CMD_go
    let s' := s.wr Reg.ST_FL_CMD (go * 2 ^ 31 + bits v 30 1 * 2 ^ 30 + s.get Reg.ST_FL_CMD_status * 2 ^ 16 + v % 2 ^ 14)
    if !(bit v 31) then some s'
    else if 513 < bits v 4 10 ∨ go = 1 then none
    else
      let sect := bits v 4 10
      let op := if bit v 30 then (sect * 4096 + 256 * (v % 16), s.dmem.bytes (256 * s.get Reg.ST_FL_SRC_offset) 256, 0)
        else (sect * 4096, ([] : List Byte), 0)
      some ({ (s'.put Reg.ST_FL_CMD_go 1) with ev := { s'.ev with nvQueue := op :: s'.ev.nvQueue } }.flPump)

/-- A write of `ST_EV_PUT` (R522). -/
def State.wEvPut (s : State) (v : Nat) : State :=
  s.record 6 (v % 256) Unit_.firmware (bits v 8 8) (s.rd Reg.ST_EV_ARG)

/-- R520: `mip.MTIP`: fleet time minus `ST_TMR`, as a signed difference, is 0 or more. -/
def State.mtip (s : State) : Bool := s.get Reg.ST_TMR_CTRL_en == 1 && decide (subMod 64 s.fleet (s.rd64 Reg.ST_TMR_LO) < 2 ^ 63)

/-- R511: `mip`. -/
def State.mip (s : State) : Nat := 2 ^ 11 * b2n s.stewLine + 2 ^ 7 * b2n s.mtip

/-- STEWARD_TIMER (R520): fleet time reaches `ST_TMR`. -/
def State.stewardTimer (s : State) : State :=
  if s.get Reg.ST_TMR_CTRL_en = 1 then s.passToFleet (s.rd64 Reg.ST_TMR_LO) else s

def execStewardTimer (s : State) : Host.Outcome State Fault Refusal := .next (if s.active then s.stewardTimer else s)

/-- A write of `ST_WDOG_KICK` restarts the count. -/
def State.wdKick (s : State) : State := s.setSt fun t => { t with wdCount := 0, wdAt := s.cyc }

/-- STEWARD_WATCHDOG: the count reaches `ms`.
[DEDUCED, safe: log entry 144] -/
def State.wdExpire (s : State) : State :=
  let s := s.wdSync
  if s.wdRuns then
    let s := s.passTo (s.cyc + (s.get Reg.ST_WDOG_ms * msCycles - s.st.wdCount))
    let s := ((s.bump Reg.ST_FAULTS_wdog 1).fault 0xA4 Unit_.firmware 0 0).wdKick
    if s.get Reg.ST_WDOG_restart = 1 then s.hartStart else s
  else s

def execStewardWatchdog (s : State) : Host.Outcome State Fault Refusal := .next s.wdExpire

/-! ### Views (R534) -/

/-- The active bank holds a poisoned codeword (R515).
[DEDUCED, safe: log entry 145] -/
def State.imPoison (s : State) : Bool := s.st.imBad.any fun e => e.1 == s.st.bank

def State.rStStatus (s : State) : Nat :=
  b2n s.st.hart.inRom * 2 ^ 31 + b2n s.st.hart.wfi * 2 ^ 30 + b2n s.imPoison * 2 ^ 29 + b2n (!s.st.dmBad.isEmpty) * 2 ^ 28 +
    (s.st.slots.zipIdx.foldl (fun n (x, i) => n + (if x.isSome then 2 ^ (8 + i) else 0)) 0) + s.st.bank

def State.rFwVer (s : State) : Nat := if s.st.runs then s.activeBank.fw else 0
def State.rFwSec (s : State) : Nat := s.secFloor * 2 ^ 16 + (if s.st.runs then s.activeBank.sec else 0)

def State.rImStat (s : State) : Nat :=
  let b := s.idleBank
  b2n (s.st.load.isSome && s.stage != 3) * 2 ^ 31 + b2n b.ok * 2 ^ 30 + b2n (b.ok && b.signed) * 2 ^ 29 +
    s.get Reg.ST_IM_STAT_code * 2 ^ 16 + (if b.ok then b.sec else 0)

def State.rImVer (s : State) : Nat := if s.idleBank.ok then s.idleBank.fw else 0

def State.rDigest (s : State) (k : Nat) : Nat := if s.st.runs then field s.activeBank.digest (4 * k) 4 else 0

end Sys2Proof.Machine
end

