-- ==== Sys2Proof/Machine/Coder.lean ====
section
/-! DEFINITION. The growing-dictionary code of R472: codes, widths, the encoder and the decoder, and an engine's state
image (R475). A dictionary lists its learned entries from 257 on, each as (prefix code, byte). -/

namespace Sys2Proof.Machine

/-- A learned dictionary. -/
abbrev Dict := List (Nat × Nat)

/-- Entries held, the 256 bytes and END included. -/
def Dict.size (d : Dict) : Nat := 257 + d.length

/-- Width of a code read while the decoder holds `n` entries. -/
def codeWidth (n : Nat) : Nat := min 14 (max 9 (Nat.log2 n + 1))

/-- The code of string `p` followed by byte `c`. -/
def Dict.code? (d : Dict) (p c : Nat) : Option Nat := (d.findIdx? fun e => e.1 == p && e.2 == c).map fun i => 257 + i

/-- Learn an entry, while there is room. -/
def Dict.learn (d : Dict) (p c : Nat) : Dict := if Dict.size d < 16384 then d ++ [(p, c)] else d

/-- The encoder within a segment: the string matched so far, and the codes emitted, (value, width), newest first. -/
structure Enc where
  dict : Dict
  cur  : Option Nat := none
  out  : List (Nat × Nat) := []

/-- Emit a code at the decoder's width. -/
def Enc.emit (e : Enc) (k : Nat) : Enc :=
  let n := if e.out.isEmpty then Dict.size e.dict else Dict.size e.dict - 1
  { e with out := (k, codeWidth n) :: e.out }

def Enc.byte (e : Enc) (c : Nat) : Enc :=
  match e.cur with
  | none => { e with cur := some c }
  | some p =>
    match Dict.code? e.dict p c with
    | some k => { e with cur := some k }
    | none =>
      let e := e.emit p
      { e with dict := Dict.learn e.dict p c, cur := some c }

/-- The last string, and END: by then the decoder has learned every entry that the encoder has, so END has the width of
all of them.
[DEDUCED, unsafe: log entry 221] -/
def Enc.finish (e : Enc) : Enc :=
  let e := match e.cur with
    | some p => e.emit p
    | none => e
  { e with out := (256, codeWidth (Dict.size e.dict)) :: e.out }

/-- Codes packed least significant bit first: value and bit count. -/
def packCodes : List (Nat × Nat) → Nat × Nat
  | [] => (0, 0)
  | (k, w) :: cs =>
    let r := packCodes cs
    (k + 2 ^ w * r.1, w + r.2)

/-- Encode one segment: the coded bytes and the dictionary after it. -/
def encodeSeg (d : Dict) (raw : List Byte) : List Byte × Dict :=
  let e := (raw.foldl (fun (e : Enc) b => e.byte b.toNat) { dict := d }).finish
  let r := packCodes e.out.reverse
  (leBytes ((r.2 + 7) / 8) r.1, e.dict)

/-- The string of a code, last byte first. -/
def Dict.string (d : Dict) : Nat → Nat → List Nat
  | 0, _ => []
  | f + 1, k =>
    if k < 256 then [k]
    else
      match d[k - 257]? with
      | some (p, c) => c :: Dict.string d f p
      | none => []

def Dict.bytes (d : Dict) (k : Nat) : List Nat := (Dict.string d (d.length + 1) k).reverse

/-- Decode codes from the bit string `v` of `nbits` bits; `none` is `fail`. -/
def decodeCodes (v nbits : Nat) : Nat → Nat → Dict → Option Nat → List Nat → Option (List Nat × Dict)
  | 0, _, _, _, _ => none
  | f + 1, pos, d, prev, out =>
    let n := Dict.size d
    let w := codeWidth n
    if nbits < pos + w then none
    else
      let k := bits v pos w
      if k = 256 then some (out, d)
      else
        let str := if k < n then some (Dict.bytes d k)
          else if k = n then prev.map fun p => Dict.bytes d p ++ (Dict.bytes d p).take 1
          else none
        match str with
        | none => none
        | some x =>
          let d := match prev with | some p => Dict.learn d p (x.headD 0) | none => d
          decodeCodes v nbits f (pos + w) d (some k) (out ++ x)

/-- Decode one segment of `rawlen` bytes. -/
def decodeSeg (d : Dict) (coded : List Byte) (rawlen : Nat) : Option (List Byte × Dict) :=
  match decodeCodes (leNat coded) (8 * coded.length) (coded.length + 1) 0 d none [] with
  | some (bs, d') => if bs.length = rawlen then some (bs.map (BitVec.ofNat 8), d') else none
  | none => none

/-- Bytes of an engine's dictionary image: entry k in four bytes, its prefix code in the low half, then its byte. -/
def Dict.image (d : Dict) : List Byte :=
  padTo 65536 (leBytes 1028 0 ++ d.flatMap fun e => leBytes 2 e.1 ++ leBytes 2 e.2)

/-- The dictionary of `n` entries in an image. -/
def Dict.ofImage (bs : List Byte) (n : Nat) : Dict :=
  (List.range (min n 16384 - 257)).map fun i => (field bs (1028 + 4 * i) 2, field bs (1030 + 4 * i) 2 % 256)

end Sys2Proof.Machine
end

