-- ==== Sys2Proof/Machine/Receiver.lean ====
section
/-! DEFINITION. The segment receiver of a tray (R470, R471, R476–R478): contexts, chunks, decoding and the receive
ring. -/

namespace Sys2Proof.Machine

def State.setDc (s : State) (f : Dumping → Dumping) : State := { s with dc := f s.dc }

def State.coder (s : State) (k : Nat) : Coder := s.dc.coders.getD k {}

def State.setCoder (s : State) (k : Nat) (f : Coder → Coder) : State :=
  s.setDc fun d => { d with coders := modAt d.coders k f }

/-- Engines of the role (R456). -/
def State.engines (s : State) : Nat := if s.tray then 4 else 1

/-- An engine serves no dump and moves no image (R469, R475). -/
def State.engineIdle (s : State) (k : Nat) : Bool :=
  (s.coder k).image.isNone && !(s.dc.jobs.any fun j => j.engine == some k)

/-! ### The segment header (R470) -/

def segKind (h : List Byte) : Nat := field h 0 1
def segRawLen (h : List Byte) : Nat := field h 2 2
def segCodeLen (h : List Byte) : Nat := field h 4 2
def segCrc (h : List Byte) : Nat := field h 28 4

/-! ### The receive ring (R478) -/

/-- A received segment as it is stored. -/
structure RxStored where
  ident  : Nat
  level  : Nat
  stream : Nat
  segno  : Nat
  head   : List Byte
  bad    : Bool
  gap    : Bool
  raw    : Bool
  vfail  : Bool
  data   : List Byte

/-- The record's bytes: a 64-byte header, then the raw bytes padded to a multiple of 64. -/
def RxStored.bytes (r : RxStored) (fleet : Nat) : List Byte :=
  let body := padTo ((r.data.length + 63) / 64 * 64) r.data
  let flags := b2n r.bad + 2 * b2n r.gap + 4 * b2n r.raw + 8 * b2n r.vfail
  let h := leBytes 3 (r.ident % 2 ^ 17 + 2 ^ 17 * (r.level % 4)) ++ leBytes 1 r.stream ++ leBytes 4 r.segno ++ leBytes 8 fleet ++
    padTo 36 r.head ++ leBytes 1 flags ++ leBytes 3 0 ++ leBytes 4 (64 + body.length)
  h ++ leBytes 4 (crc32c h) ++ body

/-- Write a segment's record; a stored end segment raises source 44 and writes notice entry 20. -/
def State.rxWrite (s : State) (r : RxStored) : State :=
  let bs := r.bytes s.fleet
  (s.fsRing (s.get Reg.DC_RX_AREA_base * 2 ^ 20) (s.get Reg.DC_RX_AREA_size * 2 ^ 20) (s.rd Reg.DC_RX_WR) (s.rd Reg.DC_RX_RD) bs).elim
    (s.bump Reg.DC_RX_LOST_count 1) fun t =>
      let t := t.incr Reg.DC_RX_WR bs.length
      if segKind r.head = 6 then (t.raise 44).notice 20 else t

/-! ### Chunks (R471, R476, R477) -/

def chunkStream (p : List Byte) : Nat := field p 16 1
def chunkFlags (p : List Byte) : Nat := field p 17 1
def chunkLen (p : List Byte) : Nat := field p 18 1
def chunkNo (p : List Byte) : Nat := field p 19 1
def chunkSeg (p : List Byte) : Nat := field p 20 4
def chunkData (p : List Byte) : List Byte := (p.drop 24).take (min 36 (chunkLen p))
def chunkKey (p : List Byte) : Nat × Nat × Nat := (penIdent p, penLevel p, chunkStream p)

def State.ctx? (s : State) (slot : Nat) : Option RxCtx := s.dc.ctxs.find? fun c => c.slot == slot

def State.setCtx (s : State) (slot : Nat) (f : RxCtx → RxCtx) : State :=
  s.setDc fun d => { d with ctxs := d.ctxs.map fun c => if c.slot == slot then f c else c }

/-- The lowest free context slot. -/
def State.ctxFree (s : State) : Option Nat :=
  (upto (min 1024 (s.get Reg.DC_RX_CFG_ctx))).find? fun k => (s.ctx? k).isNone

/-- A chunk is accepted into context `c`; with the `last` one its segment is ready to be decoded.
[DEDUCED, unsafe: log entry 135] -/
def State.chunkAccept (s : State) (c : RxCtx) (p : List Byte) : State :=
  let fl := chunkFlags p
  let c' := if chunkNo p = 0 then { c with flags := fl, head := padTo 36 (chunkData p), body := [], broken := false }
    else { c with body := c.body ++ chunkData p }
  let c' := { c' with segno := chunkSeg p, chunk := chunkNo p, ended := bit fl 0, at_ := s.cyc }
  let s := s.setCtx c.slot fun _ => if bit fl 0 then { c' with gap := false } else c'
  if bit fl 0 then
    s.setDc fun d => { d with ready := d.ready ++ [{ slot := c.slot, segno := c'.segno, flags := c'.flags, head := c'.head,
                                                     body := c'.body, gap := c'.gap }] }
  else s

/-- The chunk is not later than the last one accepted (R477 rule 1). A chunk 0 with `reset` of another segment is none. -/
def RxCtx.isDup (c : RxCtx) (p : List Byte) : Bool :=
  if chunkSeg p = c.segno then decide (chunkNo p ≤ c.chunk)
  else !(later 32 (chunkSeg p) c.segno) && !(chunkNo p == 0 && bit (chunkFlags p) 2)

/-- The chunk is the next one (R477 rule 2). -/
def RxCtx.isNext (c : RxCtx) (p : List Byte) : Bool :=
  (chunkSeg p == c.segno && chunkNo p == c.chunk + 1 && !c.ended) ||
  (chunkNo p == 0 && chunkSeg p == (c.segno + 1) % 2 ^ 32)

/-- A chunk of a known stream. -/
def State.chunkKnown (s : State) (c : RxCtx) (p : List Byte) : State :=
  let fresh := chunkNo p == 0 && bit (chunkFlags p) 2
  let s := s.setCtx c.slot fun c => { c with at_ := s.cyc }
  if c.isDup p then s.bump Reg.DC_RX_ERR_dup 1
  else if fresh || (!c.broken && c.isNext p) then s.chunkAccept c p
  else (s.bump Reg.DC_RX_ERR_broken 1).setCtx c.slot fun c => { c with broken := true, gap := true, body := [] }

/-- A chunk consumed at a tray. -/
def State.chunkReceive (s : State) (p : List Byte) : State :=
  match s.dc.ctxs.find? fun c => c.key == chunkKey p with
  | some c => s.chunkKnown c p
  | none =>
    match s.ctxFree with
    | some slot =>
      if chunkNo p == 0 && bit (chunkFlags p) 2 then
        let c : RxCtx := { slot := slot, key := chunkKey p, segno := chunkSeg p, chunk := 0, at_ := s.cyc }
        (s.setDc fun d => { d with ctxs := d.ctxs ++ [c] }).chunkAccept c p
      else s.bump Reg.DC_RX_ERR_nocontext 1
    | none => s.bump Reg.DC_RX_ERR_nocontext 1

/-! ### Decoding (R476, R478) -/

/-- The engine that decodes for context `slot`: the idle one that holds it, else the lowest-numbered idle one. -/
def State.decoder (s : State) (slot : Nat) : Option Nat :=
  let idle := (upto s.engines).filter s.engineIdle
  match idle.find? fun k => (s.coder k).ctx == some slot with
  | some k => some k
  | none => idle.head?

/-- A context's place in `DC_CTX_AREA`. -/
def State.ctxAddr (s : State) (slot : Nat) : Nat := s.get Reg.DC_CTX_AREA_base * 2 ^ 20 + 65600 * slot

/-- The 65,600 bytes of a context's decoder state. -/
def RxCtx.image (c : RxCtx) : List Byte :=
  let h := Dict.image c.dict ++ padTo 60 (leBytes 4 (Dict.size c.dict) ++ leBytes 4 c.segno)
  h ++ leBytes 4 (crc32c h)

/-- Load a context into an engine: the one it holds is saved to its place first.
[DESIGN CHOICE, safe: log entry 137] -/
def State.ctxLoad (s : State) (k slot : Nat) : State :=
  if (s.coder k).ctx = some slot then s
  else
    let s := match (s.coder k).ctx.bind s.ctx? with
      | some c => s.fsWrite .store (s.ctxAddr c.slot) c.image
      | none => s
    let s := s.fsAccess .store false (linesOf (s.ctxAddr slot) 65600) 0
    s.setDc fun d => { d with coders := d.coders.zipIdx.map fun (c, i) =>
      if i = k then { c with ctx := some slot } else if c.ctx = some slot then { c with ctx := none } else c }

/-- The raw bytes of a complete segment and the dictionary after it; `none` is a failed decode or check.
[DEDUCED, safe: log entry 138] -/
def segDecode (g : RxSeg) (dict : Dict) : Option (List Byte × Dict) :=
  let d0 := if bit g.flags 2 then [] else dict
  let n := segRawLen g.head
  let coded := g.body.take (segCodeLen g.head)
  let r := if n = 0 then some ([], d0)
    else if bit g.flags 1 then (if coded.length = n then some (coded, d0) else none)
    else decodeSeg d0 coded n
  match r with
  | some (raw, d) => if (if n = 0 then 0 else crc32c raw) = segCrc g.head then some (raw, d) else none
  | none => none

/-- SEGMENT_STORE for segment `g` in engine `k`.
[DEDUCED, unsafe: log entry 136] -/
def State.segStore (s : State) (k : Nat) (g : RxSeg) : State :=
  match s.ctx? g.slot with
  | none => s
  | some c =>
    let s := s.ctxLoad k g.slot
    let r := segDecode g c.dict
    let rec_ : RxStored := { ident := c.key.1, level := c.key.2.1, stream := c.key.2.2, segno := g.segno, head := g.head, bad := r.isNone,
                             gap := g.gap, raw := bit g.flags 1, vfail := bit g.flags 3, data := (r.map (·.1)).getD [] }
    match r with
    | some (_, d) => (s.setCtx g.slot fun c => { c with dict := d }).rxWrite rec_
    | none =>
      let s := (s.fault 0x84 Unit_.dumps k 0).bump Reg.DC_RX_ERR_decode 1
      -- segments of the stream behind the failed one, up to one that starts afresh, fall to the break
      let rest := s.dc.ready.filter fun x => x.slot == g.slot
      let drop := rest.takeWhile fun x => !(bit x.flags 2)
      let s := (s.bump Reg.DC_RX_ERR_broken drop.length).setDc fun d => { d with ready := d.ready.filter fun x =>
        !(x.slot == g.slot && drop.any fun y => y.segno == x.segno) }
      let goesOn := rest.length != drop.length || (!c.ended && !c.broken && bit c.flags 2)
      let s := s.setCtx g.slot fun c =>
        if goesOn then { c with dict := [], gap := true } else { c with dict := [], gap := true, broken := true, body := [] }
      s.rxWrite rec_

/-- SEGMENT_STORE. -/
def State.segmentStore (s : State) : State :=
  match s.dc.ready with
  | [] => s
  | g :: gs =>
    match s.decoder g.slot with
    | none => s
    | some k => ((s.setDc fun d => { d with ready := gs }).segStore k g).need

def execSegmentStore (s : State) : Host.Outcome State Fault Refusal := .next (if s.active then s.segmentStore else s)

/-- CONTEXT_IDLE_FREE (R476): `idle_ms` without a chunk; 0 keeps contexts. -/
def State.ctxIdleFree (s : State) (slot : Nat) : State :=
  let ms := s.get Reg.DC_RX_CFG_idle_ms
  match s.ctx? slot with
  | some c =>
    if ms = 0 ∨ s.dc.ready.any (fun g => g.slot == slot) then s
    else
      (s.passTo (c.at_ + ms * msCycles)).setDc fun d => { d with
        ctxs := d.ctxs.filter fun c => c.slot != slot
        coders := d.coders.map fun k => if k.ctx = some slot then { k with ctx := none } else k }
  | none => s

def execContextIdleFree (context : Fin 1024) (s : State) : Host.Outcome State Fault Refusal := .next (if s.active then s.ctxIdleFree context.val else s)

/-- A commit set `DC_RX_CFG.ctx` to 0: no decoding (R482). -/
def State.rxSwap (s : State) : State :=
  let n := min 1024 (s.get Reg.DC_RX_CFG_ctx)
  s.setDc fun d => { d with ctxs := d.ctxs.filter fun c => decide (c.slot < n), ready := d.ready.filter fun g => decide (g.slot < n) }

/-- A word of the fleet store window: bytes the block has not written are unknown to it and read 0 (R478). -/
def State.rFsWin (s : State) (off : Nat) : Nat :=
  let b := 32768 * s.get Reg.DC_FS_PAGE_page + off % 32768
  if b < s.storeBytes then s.fs.nat b 4 else 0

end Sys2Proof.Machine
end

