-- ==== Sys2Proof/Machine/Sensors.lean ====
section
/-! DEFINITION. Sensors, the tray's input bus, the PMBus master and the throttle request (R83–R85, R109–R115), all in
the always-on domain. -/

namespace Sys2Proof.Machine

/-! ### Throttle (R85, R115) -/

/-- A demand and its source code: 0 none, 1 sensor warn, 2 sensor crit, 3 input bus, 4 firmware. -/
def demandMax (a b : Nat × Nat) : Nat × Nat := if a.1 < b.1 then b else a

/-- The level sensor `n` demands. -/
def State.sensorDemand (s : State) (n : Nat) : Nat × Nat :=
  let k := s.get (Reg.PM_SN_CFG_n_kind n)
  let st := s.get (Reg.PM_SN_VAL_n_state n)
  if k = 0 ∨ 5 < k then (0, 0)
  else if st = 1 then (s.get (Reg.PM_SN_CFG_n_thr_warn n), 1)
  else if st = 2 then (s.get (Reg.PM_SN_CFG_n_thr_crit n), 2)
  else (0, 0)

/-- R115: the highest level demanded by any source. -/
def State.demand (s : State) : Nat × Nat :=
  let sens := (upto 256).foldl (fun a n => demandMax a (s.sensorDemand n)) (0, 0)
  let v := s.get Reg.PM_VIN_state
  let bus := if !s.tray then 0 else if v = 1 then s.get Reg.PM_PB_CFG_thr_uv_warn
    else if v = 2 then s.get Reg.PM_PB_CFG_thr_uv_crit else 0
  demandMax (demandMax sens (bus, 3)) (s.get Reg.PM_THR_FW_level, 4)

/-- The level last requested, counting one that waits for a handshake to end. -/
def State.thrWanted (s : State) : Nat := s.thr.newest.getD s.thr.level

/-- R85 step 1, or the newest level kept until step 4. -/
def State.thrRequest (s : State) (level : Nat) : State :=
  if s.thr.busy then { s with thr := { s.thr with newest := some level } }
  else { s with thr := { s.thr with level := level, req := true, busy := true, since := s.cyc, lateRec := false } }

/-- R115: a rise of the demand takes effect at once; a fall begins to be timed. -/
def State.thrStep (s : State) : State :=
  let d := s.demand
  let s := s.put Reg.PM_THR_src (if d.1 = 0 then 0 else d.2)
  if s.thrWanted < d.1 then { s with thr := { s.thr with lowSince := none } }.thrRequest d.1
  else if d.1 = s.thrWanted then { s with thr := { s.thr with lowSince := none } }
  else
    match s.thr.lowSince with
    | some _ => s
    | none => { s with thr := { s.thr with lowSince := some s.cyc } }

/-- THROTTLE_FALL_TIMER (R115): after 1 ms below, the request falls to the highest level demanded then. -/
def State.thrFall (s : State) : State :=
  match s.thr.lowSince with
  | none => s
  | some c =>
    let s := s.passTo (c + msCycles)
    { s with thr := { s.thr with lowSince := none } }.thrRequest s.demand.1

def execThrottleFallTimer (s : State) : Host.Outcome State Fault Refusal := .next (if s.aonUp then s.thrFall else s)

/-- THROTTLE_ACK (R85 step 3). -/
def execThrottleAck (s : State) : Host.Outcome State Fault Refusal :=
  .next (if s.aonUp && s.thr.busy && s.thr.req then { s with thr := { s.thr with req := false } } else s)

/-- THROTTLE_ACK_RELEASE (R85 step 4): the newest level kept is issued. -/
def State.thrRelease (s : State) : State :=
  if s.thr.busy && !s.thr.req then
    let s' := { s with thr := { s.thr with busy := false, newest := none } }
    match s.thr.newest with
    | some l => s'.thrRequest l
    | none => s'
  else s

def execThrottleAckRelease (s : State) : Host.Outcome State Fault Refusal := .next (if s.aonUp then s.thrRelease else s)

/-- THROTTLE_ACK_LATE (R85): 100 µs after step 1. -/
def execThrottleAckLate (s : State) : Host.Outcome State Fault Refusal :=
  .next (if s.aonUp && s.thr.busy && s.thr.req && !s.thr.lateRec then
      let s := s.passTo (s.thr.since + 100 * usCycles)
      { s with thr := { s.thr with lateRec := true } }.faultAon Code.PORT_PROTOCOL Unit_.power 0 0
    else s)

/-- THROTTLE_GRANT (R85, R115): a grant that differs from the request is counted and recorded. -/
def State.thrGrant (s : State) (level : Nat) : State :=
  let s := { s with thr := { s.thr with grant := level, tog := !s.thr.tog } }
  if level = s.thr.level then s
  else ((s.bump Reg.PM_THR_DIFF_count 1).recordAon 3 0x03 Unit_.power 0 level).raise 36

def execThrottleGrant (level : BitVec 3) (s : State) : Host.Outcome State Fault Refusal :=
  .next (if s.aonUp then s.thrGrant level.toNat else s)

/-! ### Sensors (R109, R110, R111) -/

/-- R110: the next state of a sensor: 0 normal, 1 warn, 2 crit; 3 is never read. -/
def sensorNext (cur : Nat) (v warn crit hyst : Int) : Nat :=
  if crit ≤ v then 2
  else if cur = 2 then (if v < warn - hyst then 0 else if v < crit - hyst then 1 else 2)
  else if cur = 1 then (if v < warn - hyst then 0 else 1)
  else if warn ≤ v then 1 else 0

/-- SENSOR_READING. -/
def State.sensorRead (s : State) (n v : Nat) : State :=
  let k := s.get (Reg.PM_SN_CFG_n_kind n)
  let s := s.put (Reg.PM_SN_VAL_n_value n) v
  if k = 0 ∨ 5 < k then s
  else
    let cur := s.get (Reg.PM_SN_VAL_n_state n)
    let new := sensorNext cur (toSigned 16 v) (toSigned 16 (s.get (Reg.PM_SN_THR_n_warn n)))
      (toSigned 16 (s.get (Reg.PM_SN_THR_n_crit n))) (s.get (Reg.PM_SN_CFG_n_hyst n))
    let s := s.put (Reg.PM_SN_VAL_n_state n) new
    if new = cur % 3 then s
    else
      let s := (s.recordAon 3 0x01 Unit_.power n new).raise 36
      let s := if new = 2 then (s.put Reg.PM_FAULT_sensor_crit 1).faultAon Code.SENSOR_CRIT Unit_.power n 0 else s
      s.thrStep

def execSensorReading (id : BitVec 8) (value : BitVec 16) (s : State) : Host.Outcome State Fault Refusal :=
  .next (if s.aonUp then s.sensorRead id.toNat value.toNat else s)

/-- DROOP_REPORT (R111).
[DEDUCED, safe: log entry 34] -/
def execDroopReport (monitor : Fin 16) (s : State) : Host.Outcome State Fault Refusal :=
  .next (if s.aonUp then s.bump { off := Reg.PM_DROOP_k monitor.val, lo := 0, w := 32 } 1 else s)

/-! ### The input bus (R112, R113) -/

/-- R112: LINEAR11 in millivolts, truncated toward zero, or `none` outside 0–64 V. -/
def linear11 (w : Nat) : Option Nat :=
  let e := toSigned 5 (bits w 11 5)
  let m := toSigned 11 (bits w 0 11)
  let num := if 0 ≤ e then m * 2 ^ e.toNat else m
  let den : Int := if 0 ≤ e then 1 else 2 ^ (-e).toNat
  if m < 0 ∨ 64 * den < num then none else some (divTrunc (num * 1000) den).toNat

/-- R113: the state entered from normal. -/
def vinEnter (mv warn crit : Nat) : Nat := if mv < crit then 2 else if mv < warn then 1 else 0

/-- R113: 0 normal, 1 warn, 2 crit, 3 over.
[DEDUCED, safe: log entry 193] -/
def vinNext (cur mv warn crit ov hyst : Nat) : Nat :=
  if ov ≤ mv then 3
  else if cur = 3 then (if mv + hyst < ov then vinEnter mv warn crit else 3)
  else if cur = 1 then (if mv < crit then 2 else if warn + hyst ≤ mv then 0 else 1)
  else if cur = 2 then (if warn + hyst ≤ mv then 0 else if crit + hyst ≤ mv then 1 else 2)
  else vinEnter mv warn crit

/-- A READ_VIN word is in.
[DESIGN CHOICE, safe: log entry 192] -/
def State.vinTake (s : State) (w : Nat) : State :=
  match linear11 w with
  | none => (s.put Reg.PM_FAULT_sensor_range 1).faultAon Code.SENSOR_RANGE Unit_.power 0 0
  | some mv =>
    let cur := s.get Reg.PM_VIN_state
    let new := vinNext cur mv (s.get Reg.PM_VIN_LIM_uv_warn) (s.get Reg.PM_VIN_LIM_uv_crit)
      (s.get Reg.PM_VIN_OV_ov_warn) (s.get Reg.PM_VIN_OV_hyst)
    let s := ((s.put Reg.PM_VIN_mv mv).put Reg.PM_VIN_valid 1).put Reg.PM_VIN_state new
    if new = cur then s
    else
      let s := (s.recordAon 3 0x02 Unit_.power 0 new).raise 36
      let s := if new = 3 then (s.put Reg.PM_FAULT_vin_over 1).faultAon Code.VIN_OVER Unit_.power 0 0
        else if new = 0 then s
        else (s.put Reg.PM_FAULT_vin_under 1).faultAon Code.VIN_UNDER Unit_.power 0 0
      s.thrStep

/-! ### The PMBus master (R84, R114) -/

/-- The command codes the block issues (R84). -/
def pmbusCodes : List Nat := [0x00, 0x03, 0x20, 0x79, 0x88, 0x8B, 0x8C, 0x8D, 0x96]

/-- Start the next transaction on an idle bus: the alert response first, then the poll, then firmware's (R114, R120), which
sends PAGE before its command where `PM_PB_CMD.page_en` asks for it (R122). -/
def State.pbStart (s : State) : State :=
  match s.pb.cur with
  | some _ => s
  | none =>
    if s.pb.alertDue then { s with pb := { s.pb with cur := some .alert, alertDue := false, tries := 0, addr := 0x0C, code := 0 } }
    else if s.pb.vinDue then
      { s with pb := { s.pb with cur := some .vin, vinDue := false, tries := 0, addr := s.get Reg.PM_PB_CFG_vin_addr, code := 0x88 } }
    else if s.pb.fwDue then
      let page := s.get Reg.PM_PB_CMD_page_en == 1
      { s with pb := { s.pb with cur := some .fw, fwDue := false, tries := 0, addr := s.get Reg.PM_PB_CMD_addr, paging := page
                                 code := if page then 0x00 else s.get Reg.PM_PB_CMD_code } }
    else s

/-- VIN_POLL (R112). -/
def State.vinPoll (s : State) : State :=
  let us := s.get Reg.PM_PB_CFG_poll_us
  if s.tray && s.get Reg.PM_PB_CFG_vin_en == 1 && us != 0 then
    let s := s.passTo s.pb.pollAt
    ({ s with pb := { s.pb with vinDue := true, pollAt := s.cyc + us * usCycles } }).pbStart
  else s

def execVinPoll (s : State) : Host.Outcome State Fault Refusal := .next (if s.aonUp then s.vinPoll else s)

/-- A write of `PM_PB_CMD`: refused for a command code outside R84's; `go` starts a transaction. -/
def State.wPbCmd (s : State) (v : Nat) : Option State :=
  if !s.tray then some s
  else if !(pmbusCodes.contains (bits v 8 8)) then none
  else
    let was := s.get Reg.PM_PB_CMD_go
    let s := (s.wr Reg.PM_PB_CMD (v % 2 ^ 32)).put Reg.PM_PB_CMD_go was
    let s := (putReserved s)
    if bit v 18 && was == 0 then
      some ({ ((s.put Reg.PM_PB_CMD_go 1).put Reg.PM_PB_RSP_done 0) with pb := { s.pb with fwDue := true } }).pbStart
    else some s
where
  /-- Reserved bits read 0 (R15). -/
  putReserved (s : State) : State :=
    s.wr Reg.PM_PB_CMD (putBits (putBits (s.rd Reg.PM_PB_CMD) 7 1 0) 20 4 0)

/-- The end of a transaction with status `code` and its data. -/
def State.pbDone (s : State) (k : PbKind) (code data : Nat) : State :=
  let s := { s with pb := { s.pb with cur := none, paging := false } }
  let s := if code = 0 then s
    else (s.put Reg.PM_FAULT_pmbus 1).faultAon code Unit_.power 0 (s.pb.addr + 2 ^ 8 * s.pb.code)
  let s := match k with
    | .vin => if code = 0 then s.vinTake data else s.put Reg.PM_VIN_valid 0
    | .alert => if code = 0 then { s with pb := { s.pb with alertRsp := data % 256 } } else s
    | .fw =>
      let d := if s.get Reg.PM_PB_CMD_word = 1 then data else data % 256
      let s := ((s.put Reg.PM_PB_RSP_status code).put Reg.PM_PB_RSP_done 1).put Reg.PM_PB_CMD_go 0
      if code = 0 then s.put Reg.PM_PB_RSP_data (if s.pb.code = 0x03 then 0 else d) else s
  s.pbStart

/-- PMBUS_TRANSACTION_END (R84): a failed transaction is retried up to 3 times. A PAGE that succeeds is followed by its
command at once; one that fails ends firmware's command (R122).
[DEDUCED, safe: log entry 35] -/
def State.pbEnd (s : State) (a : PbEnd) : State :=
  match s.pb.cur with
  | none => s
  | some k =>
    match a with
    | .ok data =>
      if s.pb.paging then { s with pb := { s.pb with paging := false, tries := 0, code := s.get Reg.PM_PB_CMD_code } }
      else s.pbDone k 0 data.toNat
    | .noAck => retry s k Code.PMBUS_FAIL
    | .timeout => retry s k Code.PMBUS_FAIL
    | .badPec => retry s k Code.PMBUS_PEC
where
  retry (s : State) (k : PbKind) (code : Nat) : State :=
    if s.pb.tries < 3 then { s with pb := { s.pb with tries := s.pb.tries + 1 } } else s.pbDone k code 0

def execPmbusTransactionEnd (answer : PbEnd) (s : State) : Host.Outcome State Fault Refusal := .next (if s.aonUp then s.pbEnd answer else s)

/-- PMBUS_ALERT (R84): `pb_alert_n` is low. -/
def execPmbusAlert (s : State) : Host.Outcome State Fault Refusal :=
  .next (if s.aonUp && s.tray then ({ s with pb := { s.pb with alertDue := true } }).pbStart else s)

/-- A write of `PM_THR_FW`. -/
def State.wThrFw (s : State) (v : Nat) : State := (s.put Reg.PM_THR_FW_level v).thrStep

end Sys2Proof.Machine
end

