-- ==== Sys2Proof/Machine/View.lean ====
section
/-! DEFINITION. The register window as it reads (R10, R11, R14): the holders of the fast clock (R98) and, for every
offset, the word a read returns before the side effects of the read. -/

namespace Sys2Proof.Machine

/-! ### Holders of the fast clock (R98) -/

/-- A queue is not empty: a command is pending, or one is in flight, and no wait stands; a wait is woken by its own trigger
(R98, R164, R183).
[DEDUCED, safe: log entry 50] -/
def State.queueBusy (s : State) (q : Nat) : Bool :=
  let u := s.queue q
  u.flights.any (fun f => !f.standing) || (u.pend != 0 && !u.flights.any Flight.standing)

/-- A pennant or frame is in flight. -/
def State.halyardBusy (s : State) : Bool :=
  s.hl.lanes.any (fun l => !l.unacked.isEmpty || l.queues.any fun c => !c.isEmpty) ||
  s.hl.assocs.any (fun a => !a.unacked.isEmpty || a.queues.any fun c => !c.isEmpty) || !s.hl.locals.isEmpty

/-- `t` is a moment of fleet time at most 400 AON cycles ahead. -/
def State.soon (s : State) (t : Nat) : Bool := s.reached t || decide (s.cyclesTo t ≤ 400)

/-- Moments of fleet time that the fast clock must run for: a sampling plan, a WAIT_TIME, a pending strike, a pulse with `fine`, the
steward's timer, or an overdue scrub pass (R98, R183, R214, R232, R501, R520). Other timers wait for the next wake (R20). -/
def State.dueTimes (s : State) : List Nat :=
  ((upto 16).filter s.planFires).map s.planNext ++
  (s.queues.flatMap fun u => (u.flights.filter fun f => f.standing && cmdOp f.cmd == 0x0A).map fun f => field f.cmd 8 8) ++
  (s.tb.strikes.map fun k => k.at_) ++
  ((upto 4).filterMap fun k => if s.get (Reg.TB_PLS_CTRL_k_fine k) = 1 then (s.pulse k).next else none) ++
  (if s.get Reg.ST_TMR_CTRL_en = 1 then [s.rd64 Reg.ST_TMR_LO] else []) ++
  (if s.get Reg.EV_SCRUB_max_s = 0 ∨ s.get Reg.EV_SCRUB_cycles = 0 ∨ s.ev.scrubLate = true then [] else [(s.ev.passAt + s.get Reg.EV_SCRUB_max_s * 1000 * msTicks) % 2 ^ 64])

/-- One of them is due within 400 AON cycles. -/
def State.dueSoon (s : State) : Bool := s.dueTimes.any s.soon

/-- The work holder of R98, R142, R164, R227, R463, R501 and R511. -/
def State.holdWork (s : State) : Bool :=
  (upto 16).any s.queueBusy || s.halyardBusy || s.red.entries.any (fun e => decide (2 ≤ e.state)) || !s.red.results.isEmpty ||
  s.ho.ld.busy || s.ho.phase != 0 || s.fabricHolds || !s.cf.banks.isEmpty || !s.cf.waiting.isEmpty || s.cf.snapWait != 0 ||
  s.xc.lanes.any (fun l => l.job.isSome || !l.jobs.isEmpty) || s.xc.arb.isSome || !s.sc.jobs.isEmpty ||
  !s.dc.jobs.isEmpty || !s.dc.ready.isEmpty || s.dc.coders.any (fun c => c.image.isSome) ||
  s.traceHolds || s.ev.scrubLate || !s.ev.intake.isEmpty || s.pw.sramInit || !s.st.hart.wfi || s.mip &&& s.st.hart.mie != 0 || s.st.load.isSome ||
  !s.fsp.out.isEmpty || !s.fsp.want.isEmpty || !s.host.want.isEmpty || s.dueSoon

def State.holdReg (s : State) : Bool := decide (s.cyc < s.pw.regHold)
/-- A host read is outstanding (R70); one that a reset lost is not, since its response is discarded (R118). -/
def State.holdRead (s : State) : Bool := s.host.out.any fun r => r.owner != .gone || r.idx != 1
def State.holdCtrl (s : State) : Bool := s.get Reg.PM_CTRL_stay_awake == 1

/-- Some holder of R98 is active. -/
def State.held (s : State) : Bool := s.holdReg || s.tapsEnabled || s.holdRead || s.holdCtrl || s.holdWork

/-- The `pm_fclk_req` output: it rises in cycle `reqAt` (R100). -/
def State.reqOut (s : State) : Bool := s.pw.req && decide (s.pw.reqAt ≤ s.cyc)

def PState.code : PState → Nat
  | .sleep => 1
  | .waking => 2
  | .active => 3
  | .stopping => 4
  | _ => 0

/-- `PM_STATE`. -/
def State.rPmState (s : State) : Nat :=
  2 ^ 12 * b2n s.holdWork + 2 ^ 11 * b2n s.holdCtrl + 2 ^ 10 * b2n s.holdRead + 2 ^ 9 * b2n s.tapsEnabled + 2 ^ 8 * b2n s.holdReg +
    2 ^ 5 * b2n s.pw.ack + 2 ^ 4 * b2n s.reqOut + s.pw.st.code

/-- `PM_THR`. -/
def State.rPmThr (s : State) : Nat := 2 ^ 9 * s.demand.2 + 2 ^ 8 * b2n s.thr.busy + 2 ^ 4 * s.thr.grant + s.thr.level

/-! ### Views of the hoist (R159) -/

def State.rHoStatus (s : State) : Nat :=
  2 ^ 16 * (256 - min 256 s.ho.ld.feed.length) + s.rd Reg.HO_STATUS % 2 ^ 16 / 2 ^ 8 * 2 ^ 8 + 8 * b2n (s.ho.phase == 2) +
    4 * b2n (s.ho.phase != 0) + 2 * b2n s.ho.ld.busy

/-- The shadow differs from the live copy: in a field, or in entries placed and not yet committed. -/
def State.dirty (s : State) : Bool := !s.changedOffs.isEmpty || s.ho.placedQ != 0

def State.rHoShadow (s : State) : Nat := s.rd Reg.HO_SHADOW % 2 ^ 31 + 2 ^ 31 * b2n s.dirty

/-- The earliest pending `from_epoch` (R17); 0 while none is pending. -/
def earliestEpoch : List PendCopy → Nat
  | [] => 0
  | p :: ps => ps.foldl (fun e q => if later 32 e q.from_ then q.from_ else e) p.from_

/-! ### The event log window (R508) -/

/-- The log named by `EV_WIN_SEL.src`: its byte at `b` of a word. -/
def State.rLogWin (s : State) (off : Nat) : Nat :=
  let b := 32768 * s.get Reg.EV_WIN_SEL_page + off % 32768
  let src := s.get Reg.EV_WIN_SEL_src
  if src = 0 then
    if 32 * (s.logN + s.logM) ≤ b then 0
    else if s.tray then s.fs.nat (s.logBase + b) 4 else s.ev.log.nat b 4
  else if s.tray ∧ src ≤ 8 ∧ b < 524288 then s.fs.nat (s.get Reg.EV_MIR_AREA_base * 2 ^ 20 + 524288 * (src - 1) + b) 4
  else 0

def State.rEvStatus (s : State) : Nat :=
  2 ^ 31 * b2n s.ev.frzAt.isSome + 2 ^ 30 * b2n (decide (s.logN + s.logM ≤ s.ev.count)) + 2 ^ 29 * b2n s.nvClearing +
    2 ^ 28 * b2n s.ev.lifeV + 2 ^ 16 * s.ev.intake.length + s.ev.nvBad.length

/-- `DC_STATUS`: decoding is done within SEGMENT_STORE, so `dec` shows no engine between commands. -/
def State.rDcStatus (s : State) : Nat :=
  let hang := s.dc.jobs.any fun j => j.kind == 2 && j.engine.isSome
  let busy := (upto 4).foldl (fun n k => n + (if decide (k < s.engines) && !(s.engineIdle k) then 2 ^ k else 0)) 0
  2 ^ 31 * b2n hang + 2 ^ 8 * (s.dc.jobs.filter fun j => j.engine.isSome).length + busy

/-! ### The window -/

/-- Words of the `GL_` to `TB_` pages that are not plain registers. -/
def State.viewAon (s : State) (off : Nat) : Option Nat :=
  if off = Reg.GL_ROLE then some (b2n s.tray)
  else if off = Reg.GL_BUILD then
    some (2 ^ 13 * b2n s.tray + 2 ^ 12 + (if s.tray then 0 else 2 ^ 5 * min 8 s.linkTaps + min 16 s.memTaps))
  else if off = Reg.PM_STATE then some s.rPmState
  else if off = Reg.PM_BOOT then
    some (if s.pw.st = .fastReset ∧ s.stage = 0 ∧ s.reqOut = true then putBits (s.rd off) 0 4 1 else s.rd off)
  else if off = Reg.PM_THR then some s.rPmThr
  else if off = Reg.HO_STATUS then some s.rHoStatus
  else if off = Reg.HO_SHADOW then some s.rHoShadow
  else if off = Reg.HO_PENDING then some s.ho.pend.length
  else if off = Reg.HO_PEND_EPOCH then some (earliestEpoch s.ho.pend)
  else if off = Reg.QE_STATUS then some s.queueStatus
  else if 0x4400 ≤ off ∧ off < 0x4800 then
    let q := (off - 0x4400) / 64
    if off = Reg.QE_Qn_HEAD q then some (2 ^ 8 * (s.queue q).bank + (s.queue q).head)
    else if off = Reg.QE_Qn_TAIL q then some (s.queue q).tail
    else if off = Reg.QE_Qn_SWAP q then some (2 ^ 16 * b2n (s.queue q).swap.isSome + s.rd off % 2 ^ 16)
    else if off = Reg.QE_Qn_STATE q then some (s.queueStateWord q)
    else none
  else if off = Reg.IC_STATUS then
    some (2 ^ 31 * b2n s.hostLine + 2 ^ 30 * b2n s.stewLine + s.highest fun _ => true)
  else if off = Reg.IC_INFO then some s.srcCount
  else if off = Reg.IC_CLAIM_H then some (s.highest s.enHost)
  else if off = Reg.IC_CLAIM_S then some (s.highest s.enStew)
  else if off = Reg.TB_RAW_LO then some (s.raw % 2 ^ 32)
  else if off = Reg.TB_RAW_HI then some (s.raw / 2 ^ 32)
  else if off = Reg.TB_NOW_LO then some (s.fleet % 2 ^ 32)
  else if off = Reg.TB_NOW_HI then some (s.fleet / 2 ^ 32)
  else if off = Reg.TB_ALIGN then some (putBits (s.rd off) 7 1 (b2n s.active))
  else if off = Reg.TB_STRIKE_PEND then some s.tb.strikes.length
  else if 0x8100 ≤ off ∧ off < 0x8180 then
    let k := (off - 0x8100) / 32
    if off = Reg.TB_PLS_NEXT_LO_k k then some ((s.pulse k).next.getD 0 % 2 ^ 32)
    else if off = Reg.TB_PLS_NEXT_HI_k k then some ((s.pulse k).next.getD 0 / 2 ^ 32)
    else none
  else none

/-- Words of the counters, checks and scoring pages. -/
def State.viewChecks (s : State) (off : Nat) : Option Nat :=
  if off = Reg.CF_STATUS then some s.fabricStatus
  else if 0x13000 ≤ off ∧ off < 0x13400 ∧ off % 16 ≠ 0 then
    let h := (off - 0x13000) / 16
    let m := s.mon h
    if off % 16 = 4 then some (min m.depth (2 ^ 32 - 1))
    else if off % 16 = 8 then some (min m.max (2 ^ 32 - 1))
    else some (min m.delay (2 ^ 32 - 1))
  else if 0x18000 ≤ off ∧ off < 0x1A000 then
    let k := (off - 0x18000) / 8
    if off % 8 = 0 then some (s.evValue k % 2 ^ 32)
    else some (s.evValue k / 2 ^ 32 + 2 ^ 16 * b2n (bit s.cf.evWrap k) + 2 ^ 17 * b2n (bit s.cf.evSat k) + 2 ^ 18 * b2n (bit s.cf.evGap k))
  else if 0x1A000 ≤ off ∧ off < 0x1A400 then
    let b := (off - 0x1A000) / 8
    if off % 8 = 0 then some (s.btValue b % 2 ^ 32)
    else some (s.btValue b / 2 ^ 32 + 2 ^ 16 * b2n (bit s.cf.btWrap b) + 2 ^ 17 * b2n (bit s.cf.btSat b))
  else if off = Reg.CK_STATUS then some s.tapStatus
  else if off = Reg.CK_TRK_PEAK then some (max (s.rd off) s.ck.trackers.length)
  else if off = Reg.CK_RCP_STAT then some (s.rd off / 2 ^ 16 * 2 ^ 16 + s.rcpUsed)
  else if 0x22000 ≤ off ∧ off < 0x22200 ∧ off % 64 = 0x0C then some (s.linkState ((off - 0x22000) / 64))
  else if off = Reg.XC_STATUS then some s.checkerStatus
  else if 0x30300 ≤ off ∧ off < 0x30380 then
    some (if off % 8 = 0 then s.rTaintStep ((off - 0x30300) / 8) else s.rTaintState ((off - 0x30300) / 8))
  else if off = Reg.SC_STATUS then some s.scoreStatus
  else none

/-- Words of the halyard, reduction and analytics pages. -/
def State.viewFleet (s : State) (off : Nat) : Option Nat :=
  if off = Reg.HL_STATUS then some s.rHlStatus
  else if off = Reg.HL_ASSOC then some s.rHlAssoc
  else if 0x50100 ≤ off ∧ off < 0x50200 ∧ off % 16 = 0 then some (s.rLaneState ((off - 0x50100) / 16))
  else if 0x50200 ≤ off ∧ off < 0x50280 ∧ off % 32 = 4 then some (s.rPortState ((off - 0x50200) / 32))
  else if 0x50800 ≤ off ∧ off < 0x50BC0 ∧ off % 16 = 0 then some (min 0xFFFF (s.queueDepth ((off - 0x50800) / 16)))
  else if 0x50800 ≤ off ∧ off < 0x50BC0 ∧ off % 16 = 4 then some (max (s.rd off) (s.queueDepth ((off - 0x50800) / 16)))
  else if 0x58000 ≤ off ∧ off < 0x5C000 then some (s.rAssocEntry ((off - 0x58000) / 4))
  else if off = Reg.RD_STATUS then some s.rRedStatus
  else if 0x60100 ≤ off ∧ off < 0x60500 then
    some (if off % 8 = 0 then s.rRtag ((off - 0x60100) / 8) else s.rRtagT ((off - 0x60100) / 8))
  else if 0x60800 ≤ off ∧ off < 0x67000 then
    let base := off - off % 256
    if off % 256 = 0x28 then some (s.rEntryState base)
    else if off % 256 = 0x2C then some (s.rEntryEpoch base)
    else if off % 256 = 0x30 then some (s.rEntryOpen base)
    else none
  else if off = Reg.FA_STATUS then some (s.rd off / 8 * 8 + s.faLevels)
  else if 0xF4000 ≤ off ∧ off < 0xF6000 ∧ s.faDuty 0 = false then some 0
  else if 0xF6000 ≤ off ∧ off < 0xF8000 ∧ s.faDuty 1 = false then some 0
  else if 0xF8000 ≤ off ∧ off < 0xFA000 ∧ s.faDuty 2 = false then some 0
  else none

/-- Words of the trace, dump, recorder and steward pages. -/
def State.viewService (s : State) (off : Nat) : Option Nat :=
  if off = Reg.TR_STATUS then some s.rTrStatus
  else if off = Reg.DC_STATUS then some s.rDcStatus
  else if off = Reg.DC_NEXT_ID then some s.dc.nextId
  else if off = Reg.DC_RX_CTX then some s.dc.ctxs.length
  else if off = Reg.EV_STATUS then some s.rEvStatus
  else if off = Reg.EV_WR then some (s.ev.count % 2 ^ 32)
  else if off = Reg.EV_NEXT then some (slotOf s.logN s.logM s.ev.count)
  else if off = Reg.EV_NV_LAG then some (min s.nvLag (2 ^ 17 - 1))
  else if off = Reg.EV_MIRROR then some (putBits (s.rd off) 0 1 1)
  else if off = Reg.ST_STATUS then some s.rStStatus
  else if off = Reg.ST_FW_VER then some s.rFwVer
  else if off = Reg.ST_FW_SEC then some s.rFwSec
  else if off = Reg.ST_IM_STAT then some s.rImStat
  else if off = Reg.ST_IM_VER then some s.rImVer
  else if 0xA0100 ≤ off ∧ off < 0xA0130 then some (s.rDigest ((off - 0xA0100) / 4))
  else none

/-- The memory windows, by offset: those of R10's last row and those within pages. -/
def State.viewWindow (s : State) (off : Nat) : Option Nat :=
  if 0xC0000 ≤ off ∧ off < 0xD0000 then some (s.rRing (off - 0xC0000))
  else if 0xD0000 ≤ off ∧ off < 0xD8000 then
    some (if s.tray then 0 else field (s.rcp ((off - 0xD0000) / 16)).bytes (off % 16) 4)
  else if 0xE0000 ≤ off ∧ off < 0xF0000 then some (s.rSampleWin (off - 0xE0000))
  else if 0xF0000 ≤ off ∧ s.tray = false then some (if off < 0xF0080 then field s.fa.mail (off - 0xF0000) 4 else 0)
  else if 0x48000 ≤ off ∧ off < 0x50000 then some (s.rScoreWin (off - 0x48000))
  else if 0x78000 ≤ off ∧ off < 0x80000 then some (s.rTrWin (off - 0x78000))
  else if 0x88000 ≤ off ∧ off < 0x90000 then some (if s.tray then s.rFsWin (off - 0x88000) else 0)
  else if 0x98000 ≤ off ∧ off < 0xA0000 then some (s.rLogWin (off - 0x98000))
  else none

/-- Lanes 2–15 and queues 6–59 of the halyard page are absent in die role (R431). -/
def State.absentLane (s : State) (off : Nat) : Bool :=
  !s.tray && ((decide (0x50120 ≤ off) && decide (off < 0x50200)) || (decide (0x50860 ≤ off) && decide (off < 0x50BC0)))

/-- The word a read of byte offset `off` shows (R11): 0 where nothing is.
[DESIGN CHOICE, unsafe: log entry 21] -/
def State.view (s : State) (off : Nat) : Nat :=
  match s.viewWindow off with
  | some v => v
  | none =>
    match s.reg? off with
    | none => 0
    | some d =>
      if s.absentLane off then 0
      else
        match s.viewAon off with
        | some v => v
        | none =>
          match s.viewChecks off with
          | some v => v
          | none =>
            match s.viewFleet off with
            | some v => v
            | none =>
              match s.viewService off with
              | some v => v
              | none => s.rd off &&& (2 ^ 32 - 1 - d.wo % 2 ^ 32)

end Sys2Proof.Machine
end

