-- ==== Sys2Proof/Machine/Dumps.lean ====
section
/-! DEFINITION. Dumps, the hang dump, segments and the compression engines (R465–R475). -/

namespace Sys2Proof.Machine

/-- Requests of an owner that is gone: those outstanding are answered, which is consumed (R92), those without a tag are
dropped. -/
def ReqPort.abandon (p : ReqPort) (o : Owner) : ReqPort :=
  { out := p.out.map fun r => if r.owner = o then { r with owner := .gone, idx := 0 } else r, want := p.want.filter fun w => w.owner != o }

def State.abandon (s : State) (o : Owner) : State := { s with host := s.host.abandon o, fsp := s.fsp.abandon o }

/-! ### What a dump sends (R465–R467) -/

/-- The part is read from host memory, block by block. -/
def DumpPart.reads (p : DumpPart) : Bool := p.skind == 0 || p.skind == 1 || p.skind == 3

/-- The lines of the block under way: 64 of data, and the trailer's where the layout has one. -/
def DumpPart.lines (p : DumpPart) : List Nat :=
  ((upto 64).map fun i => p.base + 64 * i) ++
    (if p.skind = 0 ∧ p.layout = 0 then [p.base + 4096] else if p.skind = 0 ∧ p.layout = 1 then [p.tbase] else [])

/-- The rest of the part after one segment. -/
def DumpPart.next (p : DumpPart) : DumpPart :=
  { p with n := p.n - 1, base := p.base + p.step, tbase := p.tbase + 64, lim := if p.skind = 4 then p.lim else (p.lim + 1) % 2 ^ 40 }

/-- R465: the lowest-numbered entry with that name. -/
def State.dumpEntry (s : State) (name : Nat) : Option Nat :=
  (upto 64).find? fun e => s.get (Reg.DC_DL_CFG_e_count e) != 0 && s.rd64 (Reg.DC_DL_NAME_LO_e e) == name

/-- The block address in two registers. -/
def State.addrAt (s : State) (lo : Nat) : Nat := s.rd lo / 64 * 64 + 2 ^ 32 * (s.rd (lo + 4) % 2 ^ 20)

/-- The tensor of dump-list entry `e`, `blocks` of it at most. -/
def State.tensorPart (s : State) (e blocks : Nat) : DumpPart :=
  let layout := s.get (Reg.DC_DL_CFG_e_layout e)
  { skind := 0, base := s.addrAt (Reg.DC_DL_BASE_LO_e e), step := if layout = 0 then 4352 else 4096
    n := min blocks (s.get (Reg.DC_DL_CFG_e_count e)), lim := s.rd (Reg.DC_DL_IDX_e e) + 2 ^ 32 * s.get (Reg.DC_DL_CFG_e_idx_hi e)
    layout := layout, tbase := s.addrAt (Reg.DC_DL_TBASE_LO_e e) }

/-- A 4 KiB page of the register window that holds a register or a memory window in the role.
[DEDUCED, unsafe: log entry 157] -/
def State.pagePresent (s : State) (off : Nat) : Bool :=
  (s.viewWindow off).isSome || (regPage off).any fun d =>
    s.hasReg d && decide (d.base < off + 4096) && decide (off ≤ d.base + d.s1 * (d.c1 - 1) + d.s2 * (d.c2 - 1))

/-- The sections of a hang dump of `n` hang-list entries, in order (R467).
[DEDUCED, safe: log entry 155] -/
def State.hangParts (s : State) (n : Nat) : List DumpPart :=
  let pages := if s.get Reg.DC_HANG_regs = 1 then
      ((upto 176).filter fun p => s.pagePresent (4096 * p)).map fun p => { skind := 2, base := 4096 * p, step := 0, n := 1 : DumpPart }
    else []
  let lists := (upto (min n 32)).map fun h =>
    { skind := 3, base := s.addrAt (Reg.DC_HL_LO_h h), step := 4096, n := s.rd (Reg.DC_HL_LEN_h h) : DumpPart }
  let sbuf := if s.get Reg.DC_HANG_sbuf = 1 then [{ skind := 5, base := 0, step := 4096, n := 128 : DumpPart }] else []
  let first := s.tr.first.getD (s.tr.count - s.traceN)
  let trace := if s.get Reg.DC_HANG_trace = 1 then
      [{ skind := 4, base := first, step := 128, n := (s.tr.count - first + 127) / 128, lim := s.tr.count : DumpPart }]
    else []
  (pages ++ lists ++ sbuf ++ trace).filter fun p => p.n != 0

/-! ### Service (R468, R469) -/

def State.dumpOn (s : State) (k : Nat) : Option DumpJob := s.dc.jobs.find? fun j => j.engine == some k

def State.setDump (s : State) (k : Nat) (f : DumpJob → DumpJob) : State :=
  s.setDc fun d => { d with jobs := d.jobs.map fun j => if j.engine = some k then f j else j }

/-- A hang dump runs. -/
def State.hangRuns (s : State) : Bool := s.dc.jobs.any fun j => j.kind == 2 && j.engine.isSome

/-- A line of the dump's block has come; in die role a line of framed space passes through the combiner (R270).
[DEDUCED, safe: log entry 159] -/
def State.dumpTap (s : State) (a : Nat) (bs : List Byte) : State :=
  if s.tray then s
  else
    match s.regionOf a with
    | none => s
    | some r =>
      match s.sectorAt r ((a - s.rgBase r) / 256) ((a - s.rgBase r) % 256 / 32) with
      | some (d, f, _) => s.readMasterLine 3 d f a bs
      | none => s

def State.dumpLine (s : State) (k a idx : Nat) (bs : List Byte) (err : Bool) : State :=
  let s := s.setDump k fun j =>
    { j with awaiting := j.awaiting - 1, ferr := j.ferr || err, lines := if err then j.lines else Sparse.insert j.lines idx bs }
  if err then s else s.dumpTap a bs

/-- Read the next block, if the next segment is one. -/
def State.dumpRead (s : State) (k : Nat) : State :=
  match s.dumpOn k with
  | none => s
  | some j =>
    match j.parts with
    | p :: _ =>
      if p.reads then
        (s.setDump k fun j => { j with awaiting := p.lines.length, lines := [], ferr := false }).hostRead (.dump k) p.lines 0
      else s
    | [] => s

/-- The dump's bound has passed. -/
def State.dumpLate (s : State) (j : DumpJob) : Bool := s.reached ((j.at_ + j.bound * msTicks) % 2 ^ 64)

/-- What a dump past its bound still sends before its end segment: the block that it has read. -/
def DumpJob.lastBlock (j : DumpJob) : List DumpPart :=
  match j.parts with
  | p :: _ => if p.reads && j.awaiting == 0 && (!j.lines.isEmpty || j.ferr) then [{ p with n := 1 }] else []
  | [] => []

/-- No further block is read: the end segment is next. -/
def State.dumpCut (s : State) (k : Nat) : State :=
  (s.setDump k fun j =>
    let ps := j.lastBlock
    { j with parts := ps, partial_ := true, awaiting := 0, lines := if ps.isEmpty then [] else j.lines, ferr := j.ferr && !ps.isEmpty }).abandon (.dump k)

/-- Every dump's end (R469). -/
def State.dumpEnded (s : State) (cut : Bool) : State :=
  let s := s.bump Reg.DC_DUMPS_ended 1
  let s := if cut then s.bump Reg.DC_DUMPS_partial 1 else s
  ((s.raise 44).notice 20).need

/-- Work is abandoned by a hang dump that halts (R468): a dump in service, and a CHECK with a tile in progress.
[DEDUCED, unsafe: log entry 149] -/
def State.dumpAbandon (s : State) (k : Nat) : State :=
  match s.dumpOn k with
  | none => s
  | some j =>
    let s := (s.abandon (.dump k)).setDc fun d => { d with jobs := d.jobs.filter fun x => x.engine != some k }
    let s := s.dumpEnded false
    match j.q with
    | some (q, seq) => s.finish q seq { code := 0x83 }
    | none => s

/--
[DEDUCED, safe: log entry 150] -/
def State.checkAbandon (s : State) (l : Nat) : State :=
  match (s.xlane l).job, (s.xlane l).tile with
  | some j, some _ =>
    let s := s.abandon (.tile l)
    let s := match s.xc.arb with
      | some a => if a.lane = l then
          ((s.abandon (.tile (1 - l))).setXlane (1 - l) fun x => { x with read := x.read.filter fun r => !r.again }).setXc fun c =>
            { c with arb := none }
        else s
      | none => s
    let s := (s.setXc fun c => { c with arbQ := c.arbQ.filter fun n => n != l }).setXlane l fun x =>
      { x with job := none, tile := none, read := none, prim := none }
    s.finish j.q j.seq { code := 0x83, res := j.words }
  | _, _ => s

/-- Issue stops in every queue as if it had taken a fault (R468, R190); one that is HALTED already shows the new status. -/
def State.haltAll (s : State) : State :=
  (upto 16).foldl (fun t q =>
    if (t.queue q).halted then t.put (Reg.QE_Qn_FAULT_status q) 0x83
    else (t.haltQueue q ((t.queue q).head % 128) (t.queue q).bank 0x83).raise (17 + q)) s

/-- Halting at step 1 of a hang dump on engine `k` (R468). -/
def State.dumpHalt (s : State) (k : Nat) : State :=
  let s := s.traceHalt.haltAll
  let s := (s.checkAbandon 0).checkAbandon 1
  ((upto 4).filter fun i => i != k).foldl State.dumpAbandon s

/-- The strike sequence advances for the hang dump's own latch (R217, R467). -/
def State.nextStrike (s : State) : State := { s with tb := { s.tb with strikeSeq := (s.tb.strikeSeq + 1) % 2 ^ 16 } }

/-- Every unit of the role latches at once (R467). -/
def State.hangLatch (s : State) : State := s.latchUnits s.unitMask s.tb.strikeSeq (s.trayId % 2 ^ 14) false false

/-- Step 1 of a hang dump on engine `k` (R467): the latch of every unit, and the halt.
[DEDUCED, safe: log entry 147] -/
def State.hangBegin (s : State) (k : Nat) : State :=
  let t := s.nextStrike.hangLatch
  (if t.get Reg.DC_HANG_halt = 1 then t.dumpHalt k else t).setCoder k fun c => { c with fresh := true }

/-- The same dump as `j`, waiting. -/
def DumpJob.waits (j x : DumpJob) : Bool := x.engine.isNone && x.q == j.q && x.at_ == j.at_

/-- `j` in service on engine `k`. -/
def DumpJob.begun (j : DumpJob) (k dumpid : Nat) (halted : Bool) (parts : List DumpPart) : DumpJob :=
  { j with engine := some k, dumpid := dumpid, halted := halted, parts := parts }

/-- A dump takes engine `k`: its identity and, for a hang dump, step 1 and its sections. -/
def State.dumpStart (s : State) (k : Nat) (j : DumpJob) : State :=
  let s := if j.kind = 2 then s.hangBegin k else s
  let j' := j.begun k s.dc.nextId (j.kind == 2 && s.get Reg.DC_HANG_halt == 1) (if j.kind = 2 then s.hangParts j.step else j.parts)
  let s := s.setDc fun d => { d with nextId := (d.nextId + 1) % 2 ^ 16, jobs := d.jobs.map fun x => if j.waits x then j' else x }
  if s.dumpLate j' then s.dumpCut k else s.dumpRead k

/-- Waiting dumps take idle engines in order of issue, but not while a commit's drain holds new work (R142). -/
def State.dumpPump : Nat → State → State
  | 0, s => s
  | n + 1, s =>
    if s.drainHas 0x11 then s
    else
      match s.dc.jobs.find? (fun j => j.engine.isNone), (upto s.engines).find? s.engineIdle with
      | some j, some k => State.dumpPump n (s.dumpStart k j)
      | _, _ => s

/-- DUMP's work (R465–R467, R469). The parts of a tensor or region are those of the generation at issue. -/
def State.runDump (s : State) (q : Nat) (f : Flight) : State :=
  let kind := field f.cmd 24 1
  let name := field f.cmd 8 8
  let blocks := field f.cmd 20 4
  let j : DumpJob := { q := some (q, f.seq), kind := kind, at_ := f.at_, bound := s.get Reg.DC_BOUND_ms, cfg := s.rd Reg.DC_CFG,
                       name := name, step := field f.cmd 16 4 }
  let go := fun (j : DumpJob) => State.dumpPump 8 (s.setDc fun d => { d with jobs := d.jobs ++ [j] })
  if kind = 0 then
    match s.dumpEntry name with
    | none => s.finish q f.seq { code := 0x80 }
    | some e =>
      if s.get (Reg.DC_DL_CFG_e_layout e) = 3 then s.finish q f.seq { code := 0x80 }
      else go { j with parts := [s.tensorPart e blocks] }
  else if kind = 1 then
    if name % 64 ≠ 0 ∨ 2 ^ 52 < name + 4096 * blocks then s.finish q f.seq { code := Code.QE_BAD_CMD }
    else go { j with parts := [{ skind := 1, base := name, step := 4096, n := blocks }] }
  else if kind = 2 ∧ blocks ≤ 32 then go { j with step := blocks }
  else s.finish q f.seq { code := Code.QE_BAD_CMD }

/-- DUMP. -/
def execDump (q : Fin 16) (s : State) : Host.Outcome State Fault Refusal := .next (s.issue q.val (some 0x05) State.runDump)

/-- A write of `DC_HANG_GO` (R467): `none` is refused.
[DEDUCED, safe: log entry 148] -/
def State.wHangGo (s : State) (v : Nat) : Option State :=
  if v ≠ 0xC3C3 then some s
  else if s.hangRuns then none
  else
    let j : DumpJob := { q := none, kind := 2, at_ := s.fleet, bound := s.get Reg.DC_BOUND_ms, cfg := s.rd Reg.DC_CFG
                         step := min 32 (s.get Reg.DC_HANG_n) }
    some (State.dumpPump 8 (s.setDc fun d => { d with jobs := d.jobs ++ [j] }))

/-! ### Segments (R470–R474) -/

/-- What a segment holds before it is coded. -/
structure Seg where
  skind  : Nat
  flags  : Nat := 0
  raw    : List Byte := []
  where_ : Nat := 0
  index  : Nat := 0
  step   : Nat := 0
  count  : Nat := 0

/-- The 36 bytes of the segment header (R470).
[DEDUCED, safe: log entry 153] -/
def Seg.header (g : Seg) (codelen dumpid : Nat) : List Byte :=
  leBytes 1 g.skind ++ leBytes 1 g.flags ++ leBytes 2 g.raw.length ++ leBytes 2 codelen ++ leBytes 2 dumpid ++ leBytes 8 g.where_ ++
    leBytes 5 g.index ++ leBytes 3 0 ++ leBytes 4 g.step ++ leBytes 4 (if g.raw.isEmpty then 0 else crc32c g.raw) ++ leBytes 4 g.count

/-- The next segment of a dump. -/
def State.segOf (s : State) (j : DumpJob) : Seg :=
  let halt := 8 * b2n j.halted
  match j.parts with
  | [] => { skind := 6, flags := 4 * b2n j.partial_ + halt, index := j.sent, count := j.sent + 1 }
  | p :: _ =>
    let line := fun (i : Nat) => Sparse.get (fun _ => List.replicate 64 (0 : Byte)) j.lines i
    let data := (upto 64).flatMap line
    let flags := 2 * b2n j.ferr + halt
    if p.skind = 0 then
      let tr := line 64
      let gone := p.layout != 2 &&
        !(trailerMagic tr && field tr 8 8 == j.name && field tr 16 5 == p.lim % 2 ^ 40 && field tr 24 4 == j.step)
      let g : Seg := { skind := 0, flags := flags, where_ := j.name, index := p.lim, step := j.step }
      if gone then { g with flags := g.flags + 1 } else { g with raw := if p.layout = 2 then data else data ++ tr }
    else if p.skind = 2 then
      { skind := 2, flags := halt, raw := (upto 1024).flatMap (fun i => leBytes 4 (s.view (p.base + 4 * i))), where_ := p.base
        index := j.sent }
    else if p.skind = 4 then
      { skind := 4, flags := halt, where_ := 32 * (p.base % s.traceN), index := j.sent
        raw := (upto (min 128 (p.lim - p.base))).flatMap fun i => s.tr.buf.bytes (32 * ((p.base + i) % s.traceN)) 32 }
    else if p.skind = 5 then { skind := 5, flags := halt, raw := s.cf.sbuf.bytes p.base 4096, where_ := p.base, index := j.sent }
    else { skind := p.skind, flags := flags, raw := data, where_ := p.base, index := j.sent }

/-- A segment as engine `k` sends it: chunk flags, coded bytes, the engine after it, and whether the self-check failed. -/
def segCode (c : Coder) (cfg : Nat) (raw : List Byte) : Nat × List Byte × Coder × Bool :=
  let n := cfg % 2 ^ 16
  let reset := c.fresh || (n != 0 && decide (n ≤ c.since))
  let d0 := if reset then [] else c.dict
  let since := if reset then 1 else c.since + 1
  let fl := 4 * b2n reset
  if raw.isEmpty then (fl, [], { c with dict := d0, since := since, fresh := false }, false)
  else
    let r := encodeSeg d0 raw
    if c.bad then (fl + 10, raw, { c with dict := d0, since := since, fresh := true, bad := false }, true)
    else if bit cfg 16 = false ∨ raw.length ≤ r.1.length then
      (fl + 2, raw, { c with dict := d0, since := since, fresh := true }, false)
    else (fl, r.1, { c with dict := r.2, since := since, fresh := false }, false)

/-- Bytes 16–59 of a chunk (R471). -/
def chunkPay (stream flags len chunk segno : Nat) (data : List Byte) : List Byte :=
  leBytes 1 stream ++ leBytes 1 flags ++ leBytes 1 len ++ leBytes 1 chunk ++ leBytes 4 segno ++ padTo 36 data

/-- The payloads of a segment's chunks, in order. -/
def segChunks (stream flags segno : Nat) (head body : List Byte) : List (List Byte) :=
  let n := (body.length + 35) / 36
  (upto (n + 1)).map fun i =>
    let fl := flags + b2n (i == n)
    if i = 0 then chunkPay stream fl 36 0 segno head
    else
      let d := (body.drop (36 * (i - 1))).take 36
      chunkPay stream fl d.length i segno d

def State.chunkOffer (s : State) (pay : List Byte) : Offer :=
  { func := 15, unit := Unit_.dumps, level := if s.tray then s.duty else 0, pay := pay }

/-- The sink of the instance's own segments is itself (R384, R469).
[DEDUCED, unsafe: log entry 154] -/
def State.ownSink (s : State) : Bool :=
  let o := s.chunkOffer []
  match s.offerType o with
  | some (_, sink) => s.tray && s.offerRoute o sink == some [.here]
  | none => false

/-- The rest of a segment's chunks go up while they are admitted.
[DEDUCED, unsafe: log entry 152] -/
def State.sendChunks (s : State) : List (List Byte) → State
  | [] => s
  | p :: ps =>
    let r := s.offer (s.chunkOffer p)
    if r.1 = Code.OK then State.sendChunks r.2 ps else r.2

/-- The dump's tallies after a segment, and the part that is next. -/
def DumpJob.sentOne (j : DumpJob) (g : Seg) (coded : Nat) (vfail : Bool) : DumpJob :=
  let block := g.skind == 0 || g.skind == 1 || g.skind == 3
  { j with sent := j.sent + 1, withData := j.withData + b2n (block && !g.raw.isEmpty), gone := j.gone + b2n (bit g.flags 0)
           raw := j.raw + g.raw.length, coded := j.coded + coded, vfails := j.vfails + b2n vfail, lines := [], ferr := false
           parts := match j.parts with
             | [] => []
             | p :: ps => if p.n ≤ 1 then ps else p.next :: ps }

/-- Result words of a DUMP (R469). -/
def DumpJob.words (j : DumpJob) (k : Nat) : List Nat :=
  let cap := 2 ^ 32 - 1
  [j.sent, j.withData, j.gone, min cap j.raw, min cap j.coded, j.dumpid + 2 ^ 16 * k, j.vfails, 0]

/-- The dump's end segment has gone up: the DUMP completes and the engine takes the next. -/
def State.dumpEnd (s : State) (k : Nat) (j : DumpJob) : State :=
  let codes := (if j.gone = 0 then [] else [0x81]) ++ (if j.vfails = 0 then [] else [0x82]) ++ (if j.partial_ then [Code.DEADLINE_MISS] else [])
  let main := firstCode codes
  let s := (s.setDc fun d => { d with jobs := d.jobs.filter fun x => x.engine != some k }).dumpEnded j.partial_
  let s := match j.q with
    | some (q, seq) =>
      let s := (codes.filter fun c => c != main && c != 0x82).foldl (fun t c => t.record (if isFault c then 0 else 1) c Unit_.dumps q 0) s
      s.finish q seq { code := main, silent := main == 0x82, res := j.words k, arg := s.sinceFleet ((j.at_ + j.bound * msTicks) % 2 ^ 64) / usTicks }
    | none => if j.partial_ then s.deadline Unit_.dumps k (s.sinceFleet ((j.at_ + j.bound * msTicks) % 2 ^ 64)) else s
  State.dumpPump 8 s

/-- SEGMENT_SEND for engine `k` (R469): the next segment, once its block is read and there is room for its pennants. -/
def State.segmentSend (s : State) (k : Nat) : State :=
  match s.dumpOn k with
  | none => s
  | some j0 =>
    let s := if !j0.partial_ && !j0.parts.isEmpty && s.dumpLate j0 then s.dumpCut k else s
    let j := (s.dumpOn k).getD j0
    if j.awaiting ≠ 0 then s
    else
      let g := s.segOf j
      let segno := s.rd (Reg.DC_ENG_SEG_k k)
      let own := s.ownSink
      let (fl, body, coder, vfail) := segCode (s.coder k) j.cfg g.raw
      if !own && decide (s.srcCap < s.hl.srcC + 64 * ((body.length + 35) / 36 + 1)) then s
      else
        let r := if own then
            (Code.OK, s.rxWrite { ident := s.ident, level := s.duty, stream := k, segno := segno, head := g.header g.raw.length j.dumpid
                                  bad := false, gap := false, raw := true, vfail := false, data := g.raw })
          else
            match segChunks k fl segno (g.header body.length j.dumpid) body with
            | [] => (Code.OK, s)
            | p :: ps =>
              let r := s.offer (s.chunkOffer p)
              if r.1 = Code.OK then (Code.OK, State.sendChunks r.2 ps) else r
        let sent := r.1 == Code.OK
        let coded := if own then 0 else body.length
        let s := r.2
        let s := if sent && vfail && !own then (s.fault 0x82 Unit_.dumps k 0).bump Reg.DC_VFAIL_count 1 else s
        let s := if sent then
            let s := if own then s else s.setCoder k fun _ => coder
            (((s.wr (Reg.DC_ENG_SEG_k k) ((segno + 1) % 2 ^ 32)).incr64 Reg.DC_RAW_LO g.raw.length).incr64 Reg.DC_CODED_LO coded).incr64
              Reg.DC_SEGS_LO 1
          else s
        let j' := if sent then j.sentOne g coded (vfail && !own)
          else { j with parts := (match j.parts with | [] => [] | p :: ps => if p.n ≤ 1 then ps else p.next :: ps), lines := [], ferr := false }
        let s := s.setDump k fun _ => j'
        if g.skind = 6 then s.dumpEnd k j' else s.dumpRead k

/-- SEGMENT_SEND. -/
def execSegmentSend (engine : Fin 4) (s : State) : Host.Outcome State Fault Refusal :=
  .next (if s.active then s.segmentSend engine.val else s)

/-- DUMP_BOUND (R469): the bound of the queue's dump in service passes.
[DEDUCED, safe: log entry 151] -/
def State.dumpBound (s : State) (q : Nat) : State :=
  match s.dc.jobs.find? fun j => (match j.q with | some (n, _) => n == q | none => false) && j.engine.isSome && !j.partial_ with
  | none => s
  | some j =>
    match j.engine with
    | none => s
    | some k => (s.passToFleet ((j.at_ + j.bound * msTicks) % 2 ^ 64)).dumpCut k

def execDumpBound (q : Fin 16) (s : State) : Host.Outcome State Fault Refusal := .next (if s.active then s.dumpBound q.val else s)

/-! ### Engine images (R475) -/

/-- The image: the dictionary, then `size`, the next `segno`, the segments since the last reset, and the CRC.
[DESIGN CHOICE, safe: log entry 134]
[DEDUCED, safe: log entry 158] -/
def State.coderImage (s : State) (k : Nat) : List Byte :=
  let c := s.coder k
  let d := if c.fresh then [] else c.dict
  let h := Dict.image d ++ padTo 60 (leBytes 4 (Dict.size d) ++ leBytes 4 (s.rd (Reg.DC_ENG_SEG_k k)) ++ leBytes 4 (if c.fresh then 0 else c.since))
  h ++ leBytes 4 (crc32c h)

def State.imageAddr (s : State) (k : Nat) : Nat := s.addrAt (Reg.DC_ENG_LO_k k)

def State.imageInStore (s : State) (k : Nat) : Bool := s.get (Reg.DC_ENG_HI_k_kind k) == 1

/-- A write of `DC_ENG_CTRL_k`: `reset`, else `save`, else `restore`; refused while the engine is busy. -/
def State.wEngCtrl (s : State) (k v : Nat) : Option State :=
  if v % 8 = 0 then some s
  else if s.engines ≤ k then some s
  else if s.engineIdle k = false then none
  else if bit v 2 then some (s.setCoder k fun c => { c with dict := [], since := 0, fresh := true, bad := false })
  else
    let a := s.imageAddr k
    if bit v 0 then
      let bs := s.coderImage k
      let s := if s.imageInStore k then s.fsWrite .store (a % 2 ^ 35) bs
        else (upto 1025).foldl (fun t i => t.hostWrite (a + 64 * i) ((bs.drop (64 * i)).take 64)) s
      some ((s.setCoder k fun c => { c with image := some false, awaiting := 0 }).put (Reg.DC_ENG_CTRL_k_save k) 1)
    else
      let s := ((s.setCoder k fun c => { c with image := some true, awaiting := 1025, lines := [], ferr := false }).put
        (Reg.DC_ENG_CTRL_k_restore k) 1).put (Reg.DC_ENG_CTRL_k_done_bad k) 0
      if s.imageInStore k then
        let lines := linesOf (a % 2 ^ 35) 65600
        let short := lines.any fun l => decide (s.storeBytes < l + 64)
        some ((s.setCoder k fun c => { c with awaiting := (lines.filter fun l => decide (l + 64 ≤ s.storeBytes)).length, ferr := short }).fsAccess
          (.dump k) false lines 0)
      else some (s.hostRead (.dump k) (linesOf a 65600) 0)

/-- A write of `DC_ENG_HI_k`: kinds 2 and 3, and 1 in die role, are refused (R482). -/
def State.wEngHi (s : State) (k v : Nat) : Option State :=
  let kind := bits v 30 2
  if kind ≥ 2 ∨ (kind = 1 ∧ s.tray = false) then none else some (s.wr (Reg.DC_ENG_HI_k k) (v &&& 0xC00FFFFF))

/-- A line of a restored image has come. -/
def State.imageLine (s : State) (k idx : Nat) (bs : List Byte) (err : Bool) : State :=
  s.setCoder k fun c => { c with awaiting := c.awaiting - 1, ferr := c.ferr || err
                                 lines := if err then c.lines else Sparse.insert c.lines idx bs }

/-- ENGINE_IMAGE_DONE for engine `k`. -/
def State.imageDone (s : State) (k : Nat) : State :=
  let c := s.coder k
  match c.image with
  | none => s
  | some false => (s.setCoder k fun c => { c with image := none }).put (Reg.DC_ENG_CTRL_k_save k) 0 |> State.dumpPump 8
  | some true =>
    if c.awaiting ≠ 0 then s
    else
      let bs := (upto 1025).flatMap fun i => Sparse.get (fun _ => List.replicate 64 (0 : Byte)) c.lines i
      let ok := !c.ferr && crc32c (bs.take 65596) == field bs 65596 4
      let s := s.put (Reg.DC_ENG_CTRL_k_restore k) 0
      let s := if ok then
          (s.setCoder k fun _ => { dict := Dict.ofImage bs (field bs 65536 4), since := field bs 65544 4, fresh := field bs 65544 4 == 0 }).wr
            (Reg.DC_ENG_SEG_k k) (field bs 65540 4)
        else
          ((s.setCoder k fun _ => {}).put (Reg.DC_ENG_CTRL_k_done_bad k) 1).fault 0x85 Unit_.dumps k 0
      State.dumpPump 8 s

/-- ENGINE_IMAGE_DONE. -/
def execEngineImageDone (engine : Fin 4) (s : State) : Host.Outcome State Fault Refusal :=
  .next (if s.active then s.imageDone engine.val else s)

/-- A line for engine `k`: of the image it restores, else of the dump it serves. -/
def State.engineLine (s : State) (k a idx : Nat) (bs : List Byte) (err : Bool) : State :=
  if (s.coder k).image = some true then s.imageLine k idx bs err else s.dumpLine k a idx bs err

end Sys2Proof.Machine
end

