-- ==== Sys2Proof/Machine/HoistLoad.lean ====
section
/-! DEFINITION. The hoist loader: an image's header, directory, records and signature, and the load from host memory, the
fleet store or the feed (R127–R138). -/

namespace Sys2Proof.Machine

def State.setLd (s : State) (f : Loader → Loader) : State := { s with ho := { s.ho with ld := f s.ho.ld } }

/-! ### Header and directory (R127–R129, R134) -/

/-- R127, R134: every check of the header; the codes of those that fail.
[DEDUCED, safe: log entry 173] -/
def State.headerCodes (s : State) (h : List Byte) (len : Nat) : List Nat :=
  let kind := field h 7 1
  let gen := field h 8 2
  let live := s.get Reg.HO_LIVE_gen
  let blk := field h 12 4
  (if field h 0 4 = 0x54534855 ∧ field h 4 2 = 1 ∧ kind ≤ 1 ∧ field h 24 4 = len ∧ field h 22 2 ≤ 20 ∧
      field h 21 1 < 4 ∧ field h 28 4 = 0 then [] else [Code.HOIST_FORMAT]) ++
  (if field h 6 1 = s.role ∧ (s.tray || !(bit (field h 21 1) 1)) = true then [] else [Code.HOIST_ROLE]) ++
  (if blk / 2 ^ 16 = s.rd Reg.GL_VERSION / 2 ^ 16 ∧ blk % 2 ^ 16 ≤ s.rd Reg.GL_VERSION % 2 ^ 16 ∧
      field h 16 4 ≤ s.rFwVer then [] else [Code.HOIST_FW]) ++
  (if s.genLive && !(later 16 gen live) then [Code.GEN_STALE] else []) ++
  (if kind = 1 ∧ !(s.genLive && field h 10 2 == live) then [Code.GEN_STALE] else [])

/-- A directory entry (R128). -/
structure HSec where
  id   : Nat
  flags : Nat
  zero : Bool
  off  : Nat
  size : Nat
  crc  : Nat

def hoistSec (img : List Byte) (i : Nat) : HSec :=
  let e := img.drop (32 + 16 * i)
  { id := field e 0 1, flags := field e 1 1, zero := field e 2 2 == 0, off := field e 4 4, size := field e 8 4, crc := field e 12 4 }

def hoistSecs (img : List Byte) : List HSec := (upto (field img 22 2)).map (hoistSec img)

/-- Section IDs in ascending order, each once. -/
def risingIds : List Nat → Bool
  | [] => true
  | [_] => true
  | a :: b :: r => decide (a < b) && risingIds (b :: r)

/-- Sections absent from the instance's role (R129); section 0x0C holds nothing for a die (R408).
[DEDUCED, safe: log entry 176] -/
def State.secAbsent (s : State) (x : HSec) : Bool :=
  if s.tray then x.id == 0x06 || x.id == 0x07 else x.id == 0x0D || x.id == 0x14 || (x.id == 0x0C && x.size != 0)

/-- R128, R129: the codes of a directory. -/
def State.dirCodes (s : State) (img : List Byte) (len : Nat) : List Nat :=
  let es := hoistSecs img
  let lo := 32 + 16 * es.length
  let ok := decide (lo + 112 ≤ len) && risingIds (es.map fun e => e.id) &&
    (es.all fun e => decide (1 ≤ e.id ∧ e.id ≤ 0x14) && decide (e.flags < 2) && e.zero && e.size % 8 == 0 &&
      (e.size == 0 || (e.off % 8 == 0 && decide (lo ≤ e.off) && decide (e.off + e.size + 112 ≤ len)))) &&
    disjointSpans (es.map fun e => (e.off, e.size))
  (if ok then [] else [Code.HOIST_FORMAT]) ++ (if es.any s.secAbsent then [Code.HOIST_ROLE] else [])

/-! ### Records (R130, R132) -/

/-- The register at `off` is one that section `sec` carries. -/
def carries (sec off : Nat) : Bool := match findReg off with | some d => d.sec == sec && hoistMask d != 0 | none => false

/-- WRITE and FILL: the word for each offset into the shadow; a register that the role does not have stays as it is. -/
def State.hoistWords (s : State) (w0 : Nat) : List Nat → State
  | [] => s
  | w :: ws => ((s.setShadow (4 * w0) w)).hoistWords (w0 + 1) ws

/-- A placed section's table: entries and bytes of an entry. -/
def State.placedTable (s : State) (sec : Nat) : Option (Nat × Nat) :=
  if sec = 0x08 then some (10240, 16)
  else if sec = 0x09 then some (s.nodeCount, 16)
  else if sec = 0x0A then some (2048, 16)
  else if sec = 0x0E then some (2048, 32)
  else none

/-- R132, R166: an entry that a live descriptor references, or one of a queue with a swap pending.
[DEDUCED, safe: log entry 196] -/
def State.placedLive (s : State) (sec e : Nat) : Bool :=
  if sec = 0x08 then s.get Reg.SC_FS_CFG_bank == e / 5120
  else if sec = 0x09 then (upto 8).any fun m =>
    let d := s.model m
    d.trees != 0 && decide (d.base ≤ e) && decide (e < d.base + d.span)
  else if sec = 0x0A then s.get Reg.SC_PT_CFG_bank == e / 1024
  else (s.queue (e / 128)).swap.isSome

/-- One entry into its table. -/
def State.placeEntry (s : State) (sec e : Nat) (bs : List Byte) : State :=
  if sec = 0x08 then { s with sc := { s.sc with front := s.sc.front.put (16 * e) bs, tabBad := stillLost s.sc.tabBad (16 * e) 16 } }
  else if sec = 0x09 then { s with sc := { s.sc with nodes := s.sc.nodes.put (16 * e) bs, nodeBad := stillLost s.sc.nodeBad (16 * e) 16 } }
  else if sec = 0x0A then { s with sc := { s.sc with prob := s.sc.prob.put (16 * e) bs, tabBad := stillLost s.sc.tabBad (frontBytes + 16 * e) 16 } }
  else
    let q := e / 128
    let a := ringAddr (1 - (s.queue q).bank) q (e % 128)
    { s with rings := s.rings.put a bs, ev := { s.ev with ringBad := s.ev.ringBad.filter fun k => k != a / 32 },
             ho := { s.ho with placedQ := if bit s.ho.placedQ q then s.ho.placedQ else s.ho.placedQ + 2 ^ q } }

/-- `n` entries of `size` bytes from entry `e` on. -/
def State.placeAll (s : State) (sec size : Nat) : Nat → Nat → List Byte → State
  | 0, _, _ => s
  | n + 1, e, bs => (s.placeEntry sec e (bs.take size)).placeAll sec size n (e + 1) (bs.drop size)

/-- The first `n` bytes are there and zeros pad them to a multiple of 8. -/
def recordFits (bs : List Byte) (n : Nat) : Bool :=
  let m := (n + 7) / 8 * 8
  decide (m ≤ bs.length) && ((bs.take m).drop n).all (fun b => b == 0)

/-- One record of a section at the head of `bs`, which holds at least 8 bytes: the state after it and the bytes behind
it, or the code it fails with.
[DEDUCED, unsafe: log entry 175] -/
def State.hoistRecord (s : State) (sec : Nat) (bs : List Byte) : Nat ⊕ (State × List Byte) :=
  let w := field bs 0 4
  let kind := w / 2 ^ 28
  let first := w % 2 ^ 28
  let n := field bs 4 4
  let body := bs.drop 8
  let inWindow := decide (first + n ≤ 2 ^ 18)
  let inSec := inWindow && (upto n).all fun i => carries sec (4 * (first + i))
  if kind = 0 then
    if n = 0 then .inr (s, body)
    else if !(inSec && recordFits body (4 * n)) then .inl Code.HOIST_FORMAT
    else .inr (s.hoistWords first ((upto n).map fun i => field body (4 * i) 4), body.drop ((4 * n + 7) / 8 * 8))
  else if kind = 1 then
    if !(recordFits body 4) then .inl Code.HOIST_FORMAT
    else if n = 0 then .inr (s, body.drop 8)
    else if !inSec then .inl Code.HOIST_FORMAT
    else .inr (s.hoistWords first (List.replicate n (field body 0 4)), body.drop 8)
  else if kind = 2 then
    match s.placedTable sec with
    | none => .inl Code.HOIST_FORMAT
    | some (count, size) =>
      if n = 0 then .inr (s, body)
      else if count < first + n then .inl Code.REFUSED_FULL
      else if !(recordFits body (size * n)) then .inl Code.HOIST_FORMAT
      else if (upto n).any fun i => s.placedLive sec (first + i) then .inl Code.HOIST_LIVE
      else .inr (s.placeAll sec size n first body, body.drop (size * n))
  else .inl Code.HOIST_FORMAT

/-- The records of a section's body; `fuel` bounds their number. -/
def hoistRecords (sec : Nat) : Nat → State → List Byte → State × Option Nat
  | 0, s, _ => (s, none)
  | k + 1, s, bs =>
    if bs.isEmpty then (s, none)
    else if bs.length < 8 then (s, some Code.HOIST_FORMAT)
    else
      match s.hoistRecord sec bs with
      | .inl c => (s, some c)
      | .inr (t, rest) => hoistRecords sec k t rest

/-- R128 `replace`: the section's shadow fields return to their reset values. -/
def State.eraseSection (s : State) (sec : Nat) : State :=
  let keep := fun (e : Nat × Word) => match findReg e.1 with | some d => d.sec != sec | none => true
  { s with shadow := s.shadow.filter keep, ho := { s.ho with placedQ := if sec = 0x0E then 0 else s.ho.placedQ } }

/-- A section: its records in order, then its CRC (R134).
[DEDUCED, unsafe: log entry 183] -/
def State.applySection (s : State) (full : Bool) (x : HSec) (img : List Byte) : State × Option Nat :=
  let s := if !full && bit x.flags 0 then s.eraseSection x.id else s
  if x.size = 0 then (s, none)
  else
    let body := (img.drop x.off).take x.size
    let r := hoistRecords x.id x.size s body
    match r.2 with
    | some c => (r.1, some c)
    | none => (r.1, if crc32c body = x.crc then none else some Code.HOIST_FORMAT)

/-! ### The load as it advances (R134, R135) -/

/-- The load is decided: the code of R47, which others applied, and whether the shadow is tainted. -/
def State.fateOf (s : State) (cs : List Nat) (taints : Bool) : State :=
  let c := firstCode cs
  s.setLd fun l => { l with fate := some (c, cs.filter (fun d => d != c), taints) }

/-- A full image starts from reset values (R134); nothing written or placed before it is part of the next commit.
[DEDUCED, unsafe: log entry 182] -/
def State.shadowReset (s : State) : State := { s with shadow := [], ho := { s.ho with placedQ := 0, direct := false } }

/-- The remaining lines of an image in memory. -/
def State.readRest (s : State) : State :=
  let l := s.ho.ld
  let lines := ((linesOf l.addr l.len).drop 1)
  if l.kind = 0 then s.hostRead .hoist lines 1
  else if l.kind = 1 then s.fsAccess .hoist false lines 1
  else s

/-- Header stage.
[DEDUCED, safe: log entry 174] -/
def State.loadHeader (s : State) : State :=
  let l := s.ho.ld
  let taint := s.get Reg.HO_SHADOW_taint
  if taint ≠ 0 ∧ 8 ≤ l.got.length ∧ field l.got 7 1 = 1 then s.fateOf [taint] false
  else if l.got.length < 32 then if l.len ≤ l.got.length then s.fateOf [Code.HOIST_FORMAT] false else s
  else
    match s.headerCodes l.got l.len with
    | [] =>
      let s := s.setLd fun d => { d with hdr := true }
      (if field l.got 7 1 = 0 then s.shadowReset else s).readRest
    | cs => s.fateOf cs false

/-- Directory stage.
[DEDUCED, unsafe: log entry 177] -/
def State.loadDir (s : State) : State :=
  let l := s.ho.ld
  let need := 32 + 16 * field l.got 22 2
  if l.got.length < min need l.len then s
  else
    match s.dirCodes l.got l.len with
    | [] => s.setLd fun d => { d with dir := true }
    | cs => s.fateOf cs true

/-- The next section, once its body is in. -/
def State.loadSection (s : State) : State :=
  let l := s.ho.ld
  match (hoistSecs l.got)[l.done]? with
  | none => s
  | some x =>
    if x.size ≠ 0 ∧ l.got.length < x.off + x.size then s
    else
      let r := s.applySection (field l.got 7 1 == 0) x l.got
      let t := r.1.setLd fun d => { d with done := d.done + 1 }
      match r.2 with
      | some c => t.fateOf [c] true
      | none => t

/-- R131, R136: the digest of the bytes before the signature block, and the signature. -/
def State.loadSig (s : State) : State :=
  let l := s.ho.ld
  if l.got.length < l.len ∨ l.done < field l.got 22 2 then s
  else
    let digest := sha384 (l.got.take (l.len - 112))
    let blk := l.got.drop (l.len - 112)
    let s := (upto 12).foldl (fun t k => t.wr (Reg.HO_DIGEST_k k) (field digest (4 * k) 4)) s
    let key := field blk 0 4
    let ok := sigOk blk digest
    -- a hoist that names no hoist key fails, required signature or not (R131)
    if !(decide (4 ≤ key ∧ key ≤ 7)) ∨ (s.get Reg.HO_CTRL_require_sig = 1 ∧ !ok) then s.fateOf [Code.HOIST_SIG] true
    else { s with ho := { s.ho with imgSigned := ok } }.fateOf [Code.OK] false

/-- One stage forward, when its bytes are in.
[DEDUCED, safe: log entry 178] -/
def State.loadStep (s : State) : State :=
  let l := s.ho.ld
  if !l.busy || l.fate.isSome then s
  else if !l.hdr then s.loadHeader
  else if !l.dir then s.loadDir
  else if l.done < field l.got 22 2 then s.loadSection
  else s.loadSig

/-- Every stage the bytes taken so far allow: header, directory, at most 20 sections, signature. -/
def loadRun : Nat → State → State
  | 0, s => s
  | k + 1, s => loadRun k s.loadStep

/--
[DEDUCED, safe: log entry 180] -/
def State.loadGo (s : State) : State := loadRun 24 s

/-! ### The end of a load (R134–R136, R144) -/

/-- A load completes with code `c`; `others` are the codes R47 passed over.
[DEDUCED, safe: log entry 179] -/
def State.loadEnd (s : State) (c : Nat) (others : List Nat) (taints : Bool) : State :=
  let l := s.ho.ld
  let gen := if 10 ≤ l.got.length then field l.got 8 2 else 0
  let s := s.abandon .hoist
  let s := ((s.put Reg.HO_RESULT_load_code c).put Reg.HO_STATUS_last c).put Reg.HO_LOAD_go 0
  let s :=
    if c = Code.OK then
      let s := ((s.put Reg.HO_SHADOW_image 1).put Reg.HO_SHADOW_image_gen gen).put Reg.HO_SHADOW_taint 0
      { s with ho := { s.ho with imgFmt := field l.got 20 1, imgFlags := field l.got 21 1 } }
    else if taints then (s.put Reg.HO_SHADOW_taint c).put Reg.HO_SHADOW_image 0
    else s
  let s := { s with ho := { s.ho with ld := {} } }
  let s := s.raise 33
  let s := others.foldl (fun t d => t.refusal d Unit_.hoist 0 0) s
  let s := (if isFault c then s.fault c Unit_.hoist 0 0 else s).need
  s.record 4 0x01 Unit_.hoist 0 (gen + c * 2 ^ 16)

/-- HOIST_LOAD_END: a load that is decided completes. -/
def execHoistLoadEnd (s : State) : Host.Outcome State Fault Refusal :=
  .next (match s.ho.ld.fate with
    | some (c, others, taints) => if s.active then s.loadEnd c others taints else s
    | none => s)

/-! ### The start (R134, R137, R138, R148) -/

/-- A load, a commit or a discard asked for during a commit: HOIST_BUSY, counted with the refused writes of the shadow that
it would have changed (R48, R148).
[DEDUCED, safe: log entry 186] -/
def State.refuseBusy (s : State) : State := (s.bump Reg.HO_REFUSALS_shadow 1).refusal Code.HOIST_BUSY Unit_.hoist 0 0

/-- A write of `HO_LOAD`; false is `rp_resp` 1. -/
def State.wHoLoad (s : State) (v : Nat) : State × Bool :=
  if !(bit v 0) then (s, true)
  else if s.ho.phase ≠ 0 then (s.refuseBusy, false)
  else if s.ho.ld.busy then (s, true)
  else
    let len := s.rd Reg.HO_SRC_LEN
    let kind := s.get Reg.HO_SRC_HI_kind
    let addr := s.rd Reg.HO_SRC_LO / 64 * 64 + s.get Reg.HO_SRC_HI_addr_hi * 2 ^ 32
    let s := (s.setLd fun _ => { busy := true, kind := kind, addr := addr, len := len, lastAt := s.cyc }).put Reg.HO_LOAD_go 1
    if len = 0 then (s.loadEnd Code.ZERO [] false, true)
    else if 2 ^ 24 < len ∨ kind = 3 ∨ (kind = 1 ∧ (!s.tray ∨ s.storeBytes < addr + len)) then
      (s.loadEnd Code.HOIST_FORMAT [] false, true)
    else if kind = 0 then (s.hostRead .hoist [addr] 0, true)
    else if kind = 1 then (s.fsAccess .hoist false [addr] 0, true)
    else (s, true)

/-! ### Image bytes: lines and fed words (R134, R137) -/

/-- Lines that have come in order join the image; `fuel` bounds their number. -/
def absorbLines : Nat → Loader → Loader
  | 0, l => l
  | k + 1, l =>
    match l.lines.find? fun e => e.1 == l.got.length / 64 with
    | none => l
    | some (i, bs) =>
      absorbLines k { l with got := l.got ++ (padTo 64 bs).take (l.len - l.got.length), lines := Sparse.erase l.lines i }

/-- Line `i` of the image, or a failed read with its code (R134). -/
def State.hoistLine (s : State) (i : Nat) (bs : List Byte) (err : Bool) : State :=
  let l := s.ho.ld
  if !l.busy || l.fate.isSome then s
  else if err then s.fateOf [if l.kind = 0 then Code.DATA_FAULT else Code.UNCORRECTABLE] l.hdr
  else (s.setLd fun d => absorbLines (d.lines.length + 1) { d with lines := Sparse.insert d.lines i bs }).loadGo

/-- A write of `HO_FEED`: taken at once while the image is short of its length, else kept in the feed; false is
`rp_resp` 1.
[DEDUCED, safe: log entry 181] -/
def State.wHoFeed (s : State) (v : Nat) : State × Bool :=
  let l := s.ho.ld
  if !l.busy ∨ l.kind ≠ 2 then (s, false)
  else if l.fate.isNone ∧ l.got.length < l.len then
    ((s.setLd fun d => { d with got := d.got ++ (leBytes 4 v).take (d.len - d.got.length), lastAt := s.cyc }).loadGo, true)
  else if l.feed.length < 256 then (s.setLd fun d => { d with feed := d.feed ++ [v], lastAt := s.cyc }, true)
  else (s, false)

/-- FEED_TIMEOUT (R137): 10 ms without a word end the load with HOIST_FORMAT and taint the shadow. -/
def execFeedTimeout (s : State) : Host.Outcome State Fault Refusal :=
  let l := s.ho.ld
  .next (if s.active && l.busy && l.kind == 2 && l.fate.isNone then (s.passTo (l.lastAt + 10 * msCycles)).loadEnd Code.HOIST_FORMAT [] true else s)

end Sys2Proof.Machine
end

