-- ==== Sys2Proof/Machine/Commit.lean ====
section
/-! DEFINITION. Commits, direct writes and epoch switches: the check, the drain, the swap and the copy-back, and the work
that runs again after them (R124–R126, R140–R153, R157). -/

namespace Sys2Proof.Machine

def State.setHo (s : State) (f : Hoist → Hoist) : State := { s with ho := f s.ho }

/-! ### Check (R126, R135, R141, R142, R144) -/

/-- Sections with a changed field, one bit each. -/
def State.changedSections (s : State) : Nat :=
  s.changedOffs.foldl (fun m o => match findReg o with
    | some d => if bit m d.sec then m else m + 2 ^ d.sec
    | none => m) 0

/-- The end of a commit, successful or not, but for its effects (R144, R159). -/
def State.commitOver (s : State) (c : Nat) : State :=
  let gen := s.ho.gen
  let s := ((s.setHo fun h => { h with phase := 0, changed := 0, flagCfgChanged := false, swapQ := 0 }).put Reg.HO_RESULT_commit_code c).put
    Reg.HO_RESULT_commit_gen gen
  let s := ((s.put Reg.HO_STATUS_last c).put Reg.HO_COMMIT_go 0).bump (if c = Code.OK then Reg.HO_COMMITS_ok else Reg.HO_COMMITS_failed) 1
  let s := if isFault c then s.fault c Unit_.hoist 0 0 else s
  ((s.record 4 0x02 Unit_.hoist 0 (gen + c * 2 ^ 16)).notice 22).need

/-- A commit fails; `bundle` is the lowest that failed. -/
def State.commitFail (s : State) (c bundle : Nat) : State :=
  ((s.put Reg.HO_FAIL_code c).put Reg.HO_FAIL_bundle bundle).commitOver c

/-- Generation checks of a commit (R126, R142). -/
def State.genCodes (s : State) (gen : Nat) : List Nat :=
  (if s.genLive && !(later 16 gen (s.get Reg.HO_LIVE_gen)) then [Code.GEN_STALE] else []) ++
  (if s.get Reg.HO_SHADOW_image = 1 ∧ gen ≠ s.get Reg.HO_SHADOW_image_gen then [Code.GEN_STALE] else [])

/-- Queues that swap banks at this commit (R166). -/
def State.queueSwaps (s : State) (q : Nat) : Bool := bit s.ho.placedQ q || s.shDiffers (Reg.QE_Qn_PROG q)

/-- The checks have passed: the drain begins (R142). A queue that has a swap by register pending makes that one first
(R166). -/
def State.drainBegin (s : State) : State :=
  let flagCfg := s.changedOffs.any fun o => (bundlesOf o).contains 0x0E0000
  let secs := s.changedSections
  let swaps := (upto 16).filter s.queueSwaps
  let s := s.setHo fun h => { h with phase := 1, drainAt := s.cyc, changed := secs, flagCfgChanged := flagCfg
                                     swapQ := swaps.foldl (fun n q => n + 2 ^ q) 0 }
  { s with queues := (s.queues.zipIdx.map fun ((u, q) : Queue × Nat) => { u with hoistSwap := swaps.contains q && u.swap.isNone }) }

/-- A commit's check phase. -/
def State.commitCheck (s : State) (gen : Nat) : State :=
  let taint := s.get Reg.HO_SHADOW_taint
  if taint ≠ 0 then s.commitFail taint 0
  else
    let fails := s.failing
    let cs := s.genCodes gen ++ fails.flatMap fun f => f.2
    if cs.isEmpty then s.drainBegin
    else
      let s := fails.foldl (fun t f => f.2.foldl (fun u c => u.refusal c Unit_.hoist 0 f.1) t) s
      s.commitFail (firstCode cs) (match fails with | f :: _ => f.1 | [] => 0)

/-- A write of `HO_COMMIT`; false is `rp_resp` 1 (R148). -/
def State.wHoCommit (s : State) (v : Nat) : State × Bool :=
  let gen := v % 2 ^ 16
  if !(bit v 16) then (s.put Reg.HO_COMMIT_gen gen, true)
  else if s.ho.phase ≠ 0 then (s.refuseBusy, false)
  else
    let s := ((s.put Reg.HO_COMMIT_gen gen).put Reg.HO_COMMIT_go 1).setHo fun h => { h with gen := gen }
    (if s.ho.ld.busy then s.commitFail Code.HOIST_BUSY 0 else s.commitCheck gen, true)

/-! ### Drain (R142, R143, R166) -/

/-- Section `n` has no work in progress of its own beside the commands of the queues: the time base's exchange, the
fabric's latches, the checker's tiles and arbitration, the scoring engine's vectors, the dumps in service. -/
def State.sectionIdle (s : State) (n : Nat) : Bool :=
  if n = 3 then s.tb.exch.isNone
  else if n = 4 ∨ n = 5 then s.cf.banks.isEmpty && s.cf.waiting.isEmpty && s.cf.snapWait == 0
  else if n = 7 then s.xc.lanes.all (fun l => l.job.isNone && l.jobs.isEmpty) && s.xc.arb.isNone
  else if n = 8 ∨ n = 9 ∨ n = 10 then s.sc.jobs.isEmpty
  else if n = 0x0D then s.red.entries.all fun e => !(e.folding && s.readsOut e.base)
  else if n = 0x11 then s.dc.jobs.all (fun j => j.engine.isNone) && s.dc.coders.all (fun c => c.image.isNone)
  else true

/-- Work in progress in the changed subsystems has completed (R142), and every queue that swaps stands at its boundary
(R166). A DUMP that waits for an engine is held there.
[DEDUCED, safe: log entry 156] -/
def State.drained (s : State) : Bool :=
  (s.queues.zipIdx.all fun ((u, q) : Queue × Nat) =>
    (u.flights.all fun f => f.held || f.done.isSome || f.standing || cmdOp f.cmd == 0x05 ||
      s.ho.changed &&& opSections (cmdOp f.cmd) == 0) &&
    (!(bit s.ho.swapQ q) || (u.hoistSwap && u.atBoundary))) &&
  ((upto 32).all fun n => !(bit s.ho.changed n) || s.sectionIdle n)

/-- The AON cycle in which the drain times out. -/
def State.drainLimit (s : State) : Nat := s.ho.drainAt + s.get Reg.HO_DRAIN_TO_us * usCycles

/-- A held command runs (R142, R157). -/
def State.runHeld (s : State) (q : Nat) (f : Flight) : State :=
  match cmdOp f.cmd with
  | 0x01 => s.issueCycle.runSample q f
  | 0x02 => s.issueCycle.runSnapshot q f
  | 0x03 => s.runScore q f
  | 0x04 => s.runCheck q f
  | 0x05 => s.runDump q f
  | 0x06 => s.runSend q f
  | 0x07 => s.runWaitFlag q f
  | 0x08 => State.runFlag true s q f
  | 0x09 => State.runFlag false s q f
  | _ => s

/-- Held work is released: each held command starts under the generation now live, in queue order (R142, R145). -/
def State.releaseHeld (s : State) : State :=
  (upto 16).foldl (fun t q =>
    let hs := (t.queue q).flights.filter fun f => f.held
    let gen := t.get Reg.HO_LIVE_gen
    let t := t.setQueue q fun u => { u with flights := (u.flights.map fun (f : Flight) => (if f.held then { f with held := false, gen := gen } else f)) }
    hs.foldl (fun u f => (match u.flight? q f.seq with | some g => if g.done.isNone then u.runHeld q g else u | none => u)) t) s

/-- COMMIT_DRAIN_TIMEOUT: nothing becomes live, and held work runs under the old generation (R143). -/
def execCommitDrainTimeout (s : State) : Host.Outcome State Fault Refusal :=
  .next (if s.active = false ∨ s.ho.phase ≠ 1 ∨ (s.drained = true ∧ s.cyc ≤ s.drainLimit) then s
    else
      let s := s.passTo s.drainLimit
      let s := { s with queues := (s.queues.map fun (u : Queue) => { u with hoistSwap := false }) }
      let s := s.commitFail Code.HOIST_DRAIN 0
      State.dumpPump 8 (s.releaseHeld.planSwap fun _ => false))

/-! ### Swap (R142, R146, R149, R153, R166) -/

/-- The version that goes live: an image's, else the one that is live (R146). -/
def State.newFmt (s : State) : Nat := if s.get Reg.HO_SHADOW_image = 1 then s.ho.imgFmt else s.get Reg.HO_LIVE_fmt_ver

/-- R153: the N−1 table after a commit of an image, taken from the type table that is live before it.
[DEDUCED, safe: log entry 199] -/
def State.keptTypes (s : State) : Option (Nat × Sparse Word) :=
  if s.get Reg.HO_SHADOW_image = 0 then s.ho.prevTypes
  else
    let old := s.get Reg.HO_LIVE_fmt_ver
    let new := s.ho.imgFmt
    if !s.tray || !(bit s.ho.imgFlags 0) then none
    else if s.genLive && new == (old + 1) % 256 then
      some (old, s.regs.filter fun e => decide (0x5C000 ≤ e.1) && decide (e.1 < 0x60000))
    else if new = old then s.ho.prevTypes
    else none

/-- R142, R146, R159: `HO_LIVE`, `GL_PLACE.valid`, the image's attributes and the N−1 table. -/
def State.nameLive (s : State) (types : Option (Nat × Sparse Word)) : State :=
  let image := s.get Reg.HO_SHADOW_image = 1
  let direct := s.ho.direct || (!image && s.get Reg.HO_LIVE_direct == 1)
  let s := (if image then ((s.put Reg.HO_LIVE_signed (b2n s.ho.imgSigned)).put Reg.HO_LIVE_fmt_ver s.ho.imgFmt).setHo (fun h => { h with flags := h.imgFlags }) else s)
  let s := ((s.put Reg.HO_LIVE_direct (b2n direct)).put Reg.HO_LIVE_gen s.ho.gen).put Reg.HO_LIVE_valid 1
  (s.put Reg.GL_PLACE_valid 1).setHo fun h => { h with prevTypes := types }

/-- R149, R151, R416: the pending copy of a changed entry; a FREE entry with valid content goes PENDING. -/
def State.pendEntry (s : State) (gen base : Nat) (words : Sparse Word) : State :=
  let c : Content := { from_ := 0, stamp := gen, words := words }
  let p : PendCopy := { base := base, stamp := gen, from_ := c.word 0x1C, words := words.map fun e => (e.1, e.2.toNat) }
  if (s.pendOf base).any fun o => o.from_ == p.from_ && o.words == p.words then s
  else
    let s := s.setHo fun h => { h with pend := (insertBy (fun a b => decide (a.base < b.base)) p (h.pend.filter fun o => o.base != base)) }
    if (s.entry? base).isNone then
      let en : Entry := { base := base, state := 1, cont := [], next := p.from_ }
      s.setRed fun r => { r with entries := (insertBy (fun a b => decide (a.base < b.base)) en r.entries) }
    else s

/-- The shadow goes live, but for entries that switch at an epoch (R142, R149); answers the registers that changed. -/
def State.goLiveAll (s : State) : State × List Nat :=
  let t := s.asLive
  let pends := if s.tray then entryBases.filter (s.entryPends t) else []
  let offs := s.changedOffs.filter fun o => match entryOfReg o with | some b => !(pends.contains b) | none => true
  let gen := s.ho.gen
  let words := pends.map fun b => (b, t.entryWords b)
  let s := offs.foldl State.goLive s
  (words.foldl (fun u e => u.pendEntry gen e.1 e.2) s, offs)

/-- Queues whose swap boundary the drain waited for change banks (R166). -/
def State.swapQueues (s : State) : State :=
  { s with queues := (s.queues.zipIdx.map fun ((u, q) : Queue × Nat) =>
      if u.hoistSwap then u.swapTo (s.get (Reg.QE_Qn_PROG_count q)) (s.get (Reg.QE_Qn_PROG_loop q) == 1) else u) }

/-- What the subsystems do when fields of theirs change live: plans arm or latch their held trigger, frame tracking of a
changed region ends, the time base aligns anew, pulses are set up, demands and polls follow. -/
def State.follow (s old : State) (touched : Nat → Bool) : State :=
  let s := s.planSwap touched
  let s := if s.tray then s else s.tapsSwap old touched
  let s := if ([Reg.TB_PARENT, Reg.TB_SYNC_CFG, Reg.TB_LIMITS, Reg.TB_LAT_LANE, Reg.TB_LAT_EN].any touched) then s.timeCommit else s
  let s := (upto 4).foldl (fun t k => if (upto 5).any fun i => touched (Reg.TB_PLS_AT_LO_k k + 4 * i) then t.pulseArm k else t) s
  let s := if touched Reg.PM_PB_CFG then
      { s with pb := { s.pb with pollAt := s.cyc + s.get Reg.PM_PB_CFG_poll_us * usCycles } } else s
  s.thrStep.rxSwap

/-- The part of the swap that concerns work: associations, the edges of waits recomputed from those `old` had, dumps and
checks (R180, R379). -/
def State.followWork (s old : State) (flagCfg first : Bool) : State :=
  let s := (s.faCommit first).assocRefresh.portsMoved old.portList
  let s := if flagCfg then old.edgesMoved s else s
  State.dumpPump 8 s.checkerPump

/-- R185 from `s` to `t`: a queue that enters Plovbaez mode, or that its swap leaves EMPTY, has a clear running rank. -/
def State.plovEntered (s t : State) : State :=
  (upto 16).foldl (fun u q =>
    if u.plovQueue q && !(s.plovQueue q) then u.setQueue q fun x => { x with rank := none } else u.clearRank q) t

/-- The swap phase: one fast cycle.
[DEDUCED, safe: log entry 36]
[DEDUCED, safe: log entry 43] -/
def State.commitSwap (s : State) : State :=
  let old := s
  let flagCfg := s.ho.flagCfgChanged
  let first := s.ho.first
  let s := s.tickBuckets
  let r := s.goLiveAll
  let s := (s.plovEntered (r.1.nameLive s.keptTypes).swapQueues).setHo fun h =>
    { h with phase := 2, first := false, changed := 0, flagCfgChanged := false, placedQ := 0, swapQ := 0 }
  -- every word of the live copy has been written again (R124, R502)
  let s := { s with ev := { s.ev with cfgBad := 0 } }
  ((s.follow old fun o => r.2.contains o).releaseHeld).followWork old flagCfg first

/-- COMMIT_SWAP. -/
def execCommitSwap (s : State) : Host.Outcome State Fault Refusal :=
  .next (if s.active && s.ho.phase == 1 && s.drained && decide (s.cyc ≤ s.drainLimit) then s.commitSwap else s)

/-! ### Copy-back and discard (R135, R142, R144) -/

/-- COPY_BACK_DONE.
[DEDUCED, safe: log entry 184] -/
def State.copyBackDone (s : State) : State :=
  let s := (s.copyBack.put Reg.HO_SHADOW_image 0).setHo fun h => { h with direct := false }
  (s.raise 34).commitOver Code.OK

def execCopyBackDone (s : State) : Host.Outcome State Fault Refusal :=
  .next (if s.active && s.ho.phase == 2 then s.copyBackDone else s)

/-- A discard: live into shadow, or reset values when no generation is live.
[DEDUCED, safe: log entry 197] -/
def State.discard (s : State) : State :=
  let s := if s.genLive then s.copyBack else s.shadowReset
  ((s.put Reg.HO_SHADOW_taint 0).put Reg.HO_SHADOW_image 0).setHo fun h => { h with direct := false, placedQ := 0 }

/-- A write of `HO_CTRL`; false is `rp_resp` 1 (R135, R136, R148).
[DEDUCED, safe: log entry 198] -/
def State.wHoCtrl (s : State) (v : Nat) : State × Bool :=
  if bit v 1 && s.ho.phase != 0 then (s.refuseBusy, false)
  else if bit v 1 && s.ho.ld.busy then (s.bump Reg.HO_REFUSALS_shadow 1, false)
  else if !(bit v 2) && s.get Reg.HO_CTRL_require_sig == 1 && !s.secAuth then (s, false)
  else
    let s := s.put Reg.HO_CTRL_require_sig (bits v 2 1)
    (if bit v 1 then s.discard else s, true)

/-! ### Direct writes (R146–R148) -/

/-- The word of a register with the bits of `m` replaced by those of `v`. -/
def maskIn (old m v : Nat) : Nat := (old &&& (2 ^ 32 - 1 - m)) ||| (v &&& m)

/-- The SH bits of the register at `off`. -/
def shBits (off : Nat) : Nat := match findReg off with | some d => d.sh | none => 0

/-- R147: an SH write that goes live. `ws` is the register written, or both halves of a pair (R12).
[DEDUCED, safe: log entry 187] -/
def State.liveWrite (s : State) (ws : List (Nat × Nat)) : State × Bool :=
  if s.ho.phase ≠ 0 then (s.bump Reg.HO_REFUSALS_live 1, false)
  else if ws.any fun w => !(bundlesOf w.1).isEmpty then
    ((s.bump Reg.HO_REFUSALS_live 1).refusal Code.HOIST_LIVE Unit_.hoist 0 0, false)
  else
    let same := ws.all fun w => maskIn (s.rd w.1) (shBits w.1) w.2 == s.rd w.1
    let t := (ws.foldl (fun t w => t.wr w.1 (maskIn (t.rd w.1) (shBits w.1) w.2)) s).put Reg.HO_LIVE_direct 1
    let t := if same then t else t.follow s fun o => ws.any fun w => w.1 == o
    (t.record 4 0x03 Unit_.hoist 0 (t.get Reg.HO_LIVE_gen), true)

/-- R146: an SH write that sets the shadow. -/
def State.shadowWrite (s : State) (req : Nat) (ws : List (Nat × Nat)) : State × Bool :=
  if !(bit (s.rd Reg.HO_WRITERS) req) || s.ho.phase != 0 then (s.bump Reg.HO_REFUSALS_shadow 1, false)
  else ((ws.foldl (fun t w => t.swr w.1 (maskIn (t.srd w.1) (shBits w.1) w.2)) s).setHo fun h => { h with direct := true }, true)

/-- A write to SH fields by requester `req`; false is `rp_resp` 1. -/
def State.shWrite (s : State) (req : Nat) (ws : List (Nat × Nat)) : State × Bool :=
  if bit (s.rd Reg.HO_LIVE_SEL) req then s.liveWrite ws else s.shadowWrite req ws

/-! ### Epoch switches (R149, R152, R416) -/

/-- The registers of an entry take its new content; a shadow word that agreed with the live one follows it. -/
def State.entryLive (s : State) (base : Nat) (c : Content) : State :=
  (entryRegs base).foldl (fun t (o, r) =>
    let same := !(t.shDiffers r)
    let m := t.shMask r
    let v := c.word o
    let t := t.wr r (maskIn (t.rd r) m v)
    if same then t.setShadow r v else t) s

/-- The pending copy of the entry at `base` becomes live.
[DEDUCED, unsafe: log entry 185] -/
def State.epochSwitch (s : State) (p : PendCopy) : State :=
  let c := p.content
  let old := match s.entry? p.base with | some en => (match en.now with | some k => some k.tag | none => none) | none => none
  let s := (s.entryLive p.base c).setHo fun h => { h with pend := h.pend.filter fun o => o.base != p.base }
  let s := s.setEntry p.base fun en =>
    if c.valid then { en with state := 2, cont := c :: en.cont } else { en with state := 3, retireAt := some p.from_ }
  let s := if c.valid && old != some c.tag then s.faNewTag p.base else s
  let s := if c.valid || (s.red.results.any fun r => r.base == p.base) then s else s.endEpoch p.base
  s.record 4 0x04 Unit_.hoist 0 p.stamp

/-- EPOCH_SWITCH: the epoch `from_epoch` of the job begins, by the content that gives its epochs now. -/
def execEpochSwitch (base : BitVec 20) (s : State) : Host.Outcome State Fault Refusal :=
  .next (match (if s.active then s.pendOf base.toNat else none) with
    | none => s
    | some p =>
      let now := match s.entry? p.base with | some en => en.now.getD p.content | none => p.content
      (s.passToFleet (epochStart now.t0 now.len s.fleet p.from_)).epochSwitch p)

end Sys2Proof.Machine
end

