-- ==== Sys2Proof/Machine/Reset.lean ====
section
/-! DEFINITION. Resets and the supplies: what a reset of the fast domain keeps (R118), the always-on reset (R100, R116),
the warm-reset key (R119), and the start-up stage with its join pennant (R116, R388, R493). -/

namespace Sys2Proof.Machine

/-! ### The fast domain's reset (R118) -/

/-- Registers outside the always-on pages that a reset of the fast domain keeps: the life counters (R487) and the boot
configuration (R527).
[DEDUCED, unsafe: log entry 22] -/
def keptRegs : List Nat :=
  [Reg.EV_OPSEC, Reg.EV_PCC, Reg.EV_LIFE_OPS, Reg.EV_LIFE_PCC, Reg.ST_BOOT_CFG, Reg.ST_BOOT_A_LO, Reg.ST_BOOT_A_HI, Reg.ST_BOOT_B_LO,
   Reg.ST_BOOT_B_HI, Reg.ST_SEC_FLOOR]

/-- What a register holds after a reset of the fast domain: on the always-on pages all but the SH fields, which return
to their reset values; `GL_DUTY` and `GL_PLACE` return to 0. -/
def keptWord (off old : Nat) : Option Nat :=
  if off = Reg.GL_DUTY ∨ off = Reg.GL_PLACE then none
  else if off < 0x2000 ∨ (0x6000 ≤ off ∧ off < 0x7000) ∨ (0x8000 ≤ off ∧ off < 0x9000) then
    match findReg off with
    | some d => some (maskIn old d.sh (resetOf off))
    | none => none
  else if keptRegs.contains off then some old
  else none

/-- The registers after a reset of the fast domain. -/
def State.keptFile (s : State) : Sparse Word :=
  s.regs.foldl (fun m e =>
    match keptWord e.1 e.2.toNat with
    | some v => Sparse.set resetWord m e.1 (BitVec.ofNat 32 v)
    | none => m) []

/-- Requests outstanding at a reset keep their tags until they are answered (R70); the rest are dropped. -/
def ReqPort.lose (p : ReqPort) : ReqPort := { out := p.out.map fun (r : Req) => { r with owner := .gone, idx := 1 } }

/-- The always-on part of the block and what lies outside it, with the fast domain at its reset values. -/
def State.fastCleared (s : State) : State :=
  { State.reset with
    role := s.role, memTaps := s.memTaps, linkTaps := s.linkTaps, cyc := s.cyc, secAuth := s.secAuth, tpLp := s.tpLp
    regs := s.keptFile, queues := s.queues.map fun _ => ({} : Queue)
    holds := s.holds, rsps := s.rsps, waiting := s.waiting, dbg := s.dbg, pw := s.pw, thr := s.thr, pb := s.pb
    notices := s.notices, free := s.free, pending := s.pending, fs := s.fs, ev := {} }

/-- The parts of the time base, the counters, the recorder and the ports that live on. -/
def State.fastKept (s t : State) : State :=
  { t with
    tb := { s.tb with exch := none, window := [], strikes := [], struck := [], pulses := s.tb.pulses.map fun (p : Pulse) => { p with next := none } }
    cf := { bt := s.cf.bt, btWrap := s.cf.btWrap, btSat := s.cf.btSat, btHist := s.cf.btHist }
    ev := { holding := s.ev.holding, lifeOps := s.ev.lifeOps, lifePcc := s.ev.lifePcc, lifeV := s.ev.lifeV, opsAt := s.ev.opsAt
            saveAt := s.ev.saveAt, lifeAt := s.ev.lifeAt }
    tr := { held := s.tr.held, lpFall := s.tr.lpFall }
    hl := { linkUp := s.hl.linkUp, out := s.hl.out, lanes := s.hl.lanes.map fun (l : Lane) => { lock := l.lock } }
    host := s.host.lose, fsp := s.fsp.lose
    fl := { s.fl with op := s.fl.op.map fun (o : Bool × Nat × List Byte × Nat) => (o.1, o.2.1, o.2.2.1, 4) } }

/-- A reset that comes while a wake is under way abandons it: the request stays up, and no WAKE_LATE is recorded for it
(R120). A request that the reset itself raises is timed (R97). -/
def State.wakeAbandoned (s : State) : Bool := s.pw.req && !s.pw.ack && (s.pw.st == .waking || s.pw.quiet)

/-- Causes of `PM_RESET_CAUSE`: bit 1 the pin, bit 2 the key. What a failed start-up step left in `PM_BOOT` is kept, as
every field of the page that is not SH is (R118).
[DESIGN CHOICE, unsafe: log entry 24] -/
def State.fastReset (s : State) (cause : Nat) : State :=
  let s := s.aonEdge
  let warm := s.get Reg.PM_BOOT_warm_count
  let failed := s.rd Reg.PM_BOOT &&& 0xFF10
  let hadReq := s.pw.req
  let quiet := s.wakeAbandoned
  let t := s.fastKept s.fastCleared
  let t := { t with pw := { t.pw with st := .fastReset, req := true, reqAt := if hadReq then t.pw.reqAt else t.cyc, need := false,
                                      lateDue := false, quiet := quiet, sramInit := false, regHold := 0 } }
  let t := t.wr Reg.PM_RESET_CAUSE cause
  let t := t.wr Reg.PM_BOOT (satAdd (2 ^ 16 - 1) warm 1 * 2 ^ 16 + failed + 1)
  (t.recordAon 5 0x02 Unit_.power 0 0).thrStep

/-- FAST_RESET_ASSERT. -/
def execFastResetAssert (s : State) : Host.Outcome State Fault Refusal :=
  .next (if s.pw.fastRst then s
    else if s.aonUp then
      let t := s.fastReset 2
      { t with pw := { t.pw with fastRst := true, fastAt := t.cyc, orderChk := false, intF := false } }
    else { s with pw := { s.pw with fastRst := true } })

/-- R119: a write of `PM_WARM`; the key asserts internal group F in the AON cycle after the response. -/
def State.wWarm (s : State) (v : Nat) : State :=
  if v ≠ 0xA5A5 then s
  else
    let t := (s.passTo (s.cyc + 1)).fastReset 4
    { t with pw := { t.pw with intF := true, intFAt := t.cyc } }

/-! ### The always-on reset and the supplies (R100, R116) -/

/-- Everything in reset: the pins, what lies outside the block and the commands waiting stay. -/
def State.aonCleared (s : State) (st : PState) : State :=
  { State.reset with
    role := s.role, memTaps := s.memTaps, linkTaps := s.linkTaps, secAuth := s.secAuth, tpLp := s.tpLp
    queues := s.queues.map fun _ => ({} : Queue)
    pw := { st := st, aonRst := true, fastRst := s.pw.fastRst, laneRst := s.pw.laneRst, portRst := s.pw.portRst, ack := s.pw.ack }
    hl := { linkUp := s.hl.linkUp, out := s.hl.out, lanes := s.hl.lanes.map fun (l : Lane) => { lock := l.lock } }
    notices := s.notices, fs := s.fs, fl := { bytes := s.fl.bytes }, host := s.host.lose, fsp := s.fsp.lose
    free := s.free, pending := s.pending, ev := {} }

/-- POWER_ON. -/
def execPowerOn (s : State) : Host.Outcome State Fault Refusal :=
  .next (if s.pw.st = .off then s.aonCleared .aonReset else s)

/-- POWER_OFF. -/
def execPowerOff (s : State) : Host.Outcome State Fault Refusal :=
  .next (let t := s.aonCleared .off
         { t with pw := { st := .off, aonRst := true }, host := {}, fsp := {} })

/-- AON_RESET_ASSERT: every access in progress is abandoned. -/
def execAonResetAssert (s : State) : Host.Outcome State Fault Refusal :=
  .next (if s.pw.st = .off then s else s.aonCleared .aonReset)

/-- R116 step 3: AON_UP.
[DEDUCED, safe: log entry 31]
[DESIGN CHOICE, safe: log entry 32]
[DESIGN CHOICE, unsafe: log entry 191] -/
def State.aonRelease (s : State) (cfgRole : Bool) : State :=
  let t := s.aonCleared .fastReset
  { t with role := b2n cfgRole, pw := { t.pw with aonRst := false, req := true, reqAt := 16 }, ev := State.reset.ev }

/-- AON_RESET_RELEASE. -/
def execAonResetRelease (cfgRole : Bool) (s : State) : Host.Outcome State Fault Refusal :=
  .next (if s.pw.st = .aonReset then s.aonRelease cfgRole else s)

/-! ### Stages and the join (R116, R388, R493) -/

/-- The join pennant's bytes 16–59 (R388). -/
def State.joinPay (s : State) : List Byte :=
  leBytes 4 (s.rd Reg.GL_VERSION) ++ leBytes 2 (s.get Reg.HO_LIVE_gen) ++ leBytes 1 (s.rd Reg.PM_RESET_CAUSE % 8) ++
  leBytes 1 (s.get Reg.HO_LIVE_fmt_ver) ++ leBytes 2 (s.get Reg.PM_BOOT_warm_count) ++ leBytes 2 0 ++
  (upto 8).flatMap fun k => leBytes 4 (s.rd (Reg.HO_DIGEST_k k))

/-- JOINED: the join pennant, its LIFE record, and the fault reports that waited. -/
def State.join (s : State) : State :=
  let s := (s.offer { func := 2, unit := Unit_.power, level := (if s.tray then s.duty else 0), pay := s.joinPay }).2
  let s := s.record 5 0x03 Unit_.recorder 0 0
  let rs := s.ev.reoffer
  rs.foldl (fun t r => t.offerReport r) { s with ev := { s.ev with reoffer := [] } }

/-- A write of `PM_BOOT`: the steward sets stages 4–8; every other write is refused.
[DESIGN CHOICE, safe: log entry 194] -/
def State.wPmBoot (s : State) (req v : Nat) : State × Bool :=
  let g := v % 16
  if req ≠ 14 ∨ g < 4 ∨ 8 < g then (s, false)
  else
    let s := s.put Reg.PM_BOOT_stage g
    (if g = 8 then s.join else s, true)

/-! ### The warm-reset release waits for the acknowledge (R119) -/

/-- Internal group F has been asserted for 16 AON cycles and the acknowledge is seen. -/
def State.intFDone (s : State) : State :=
  let s := s.passTo (s.pw.intFAt + 16)
  if s.pw.ack then { s with pw := { s.pw with intF := false } } else s

end Sys2Proof.Machine
end

