-- ==== Sys2Proof/Machine/Deliver.lean ====
section
/-! DEFINITION. Pennants that reach their consumer: the check of their age (R396), the subsystem that their function
names at a tray and at a die (R384, R385), the steward's copy (R519), the mirror and the fault ring (R494, R496), and the
commands that bring pennants and blocks in and out. -/

namespace Sys2Proof.Machine

/-! ### Lateness (R396) -/

/-- A late class A or B pennant is counted, and recorded at most once per millisecond per class.
[DEDUCED, safe: log entry 89] -/
def State.lateness (s : State) (pen : List Byte) : State :=
  let c := penClass pen
  let us := s.pathBound c (penIdent pen) (penLevel pen)
  if 2 ≤ c ∨ s.penAge pen ≤ ((100 * us : Nat) : Int) then s
  else
    let s := s.bump (if c = 0 then Reg.HL_LATE_a else Reg.HL_LATE_b) 1
    let again := match s.hl.lateRec.getD c none with | some a => decide (a + msCycles ≤ s.cyc) | none => true
    if again then
      { s with hl := { s.hl with lateRec := modAt s.hl.lateRec c fun _ => some s.cyc } }.deadline Unit_.halyard 0 (usTicks * s.pastBound pen us)
    else s

/-! ### Consumers of a tray (R323, R384, R496) -/

/-- A fault report at the root of the fleet: into the fault ring, and source 35. -/
def State.faultRing (s : State) (pen : List Byte) : State :=
  ((s.fsRing (s.get Reg.EV_FR_AREA_base * 2 ^ 20) (s.get Reg.EV_FR_AREA_size * 2 ^ 20) (s.rd Reg.EV_FR_WR) (s.rd Reg.EV_FR_RD)
      (padTo 64 pen)).elim (s.bump Reg.EV_FR_LOST_count 1) fun t => t.incr Reg.EV_FR_WR 64).raise 35

/-- A pennant with `fan` set in place of `addr`, and its CRC. -/
def asFan (pen : List Byte) : List Byte :=
  let b := field pen 0 2
  let h := leBytes 2 (b % 2 ^ 14 + 2 ^ 15) ++ (pen.take 60).drop 2
  h ++ leBytes 4 (crc32c h)

/-- R323: the masthead forwards a `wide` taint to every die of the job.
[DEDUCED, safe: log entry 96] -/
def State.forwardWide (s : State) (pen : List Byte) : State :=
  s.enqueueAll 0 { pen := asFan pen, ver := s.get Reg.HO_LIVE_fmt_ver, src := .copy, at_ := s.fleet } (s.fanDests (penJob pen) .own)

/-- R419: a result at a tray that holds no entry of its job; it is discarded.
[DEDUCED, safe: log entry 219] -/
def State.unowned (s : State) (f : Nat) (pen : List Byte) : Bool :=
  s.tray && f == 14 && (s.entryOf entryBases (penJob pen)).isNone

/-- The subsystem of a tray that a function names.
[DEDUCED, unsafe: log entry 95]
[DEDUCED, safe: log entry 112] -/
def State.trayConsumes (s : State) (f : Nat) (l : Local) : State :=
  if f = 13 then s.takePart l.pen
  else if f = 4 then s.forwardWide l.pen
  else if f = 7 ∧ penLevel l.pen = 0 ∧ penIdent l.pen / 8 = s.trayId ∧ s.faRuns 0 = true then s.dieDrained (penIdent l.pen % 8)
  else if f = 9 ∧ penLevel l.pen = 0 ∧ penIdent l.pen / 8 = s.trayId ∧ s.faRuns 0 = true then s.dieFit (penIdent l.pen % 8) l.pen
  else if f = 10 then s.strikeReceive l.pen
  else if f = 12 then s.faultRing l.pen
  else if f = 15 then s.chunkReceive l.pen
  else if s.unowned f l.pen then s.orphan
  else s

/-- The subsystem of a die that a function names (R385). -/
def State.dieConsumesPen (s : State) (f : Nat) (l : Local) : State :=
  if f = 4 then s.taintReceived l.pen
  else if f = 6 then s.jack false
  else if f = 8 then s.jackRelease
  else if f = 10 then s.strikeReceive l.pen
  else if f = 11 then s.paceReceived l.pen
  else s

/-- The steward is the consumer: firmware's own types, and results at a die. -/
def State.stewardOwns (s : State) (f : Nat) : Bool := f == 0 || (f == 14 && !s.tray)

/-- A pennant at its consumer.
[DEDUCED, safe: log entry 98] -/
def State.consume (s : State) (l : Local) : State :=
  let f := typFunc l.typ
  let s := s.lateness l.pen
  let s := if s.tray then s.trayConsumes f l else s.dieConsumesPen f l
  let s := if (s.stewardOwns f || typStew l.typ) && !(s.unowned f l.pen) then s.stewardRx l.pen 0 l.via l.at_ else s
  s.dropEntry (penClass l.pen) { pen := l.pen, ver := 0, src := l.src, at_ := l.at_ }

/-- Every pennant waiting for a consumer here, and those that consuming adds; `fuel` bounds their number.
[DESIGN CHOICE, safe: log entry 75] -/
def consumeAll : Nat → State → State
  | 0, s => s
  | k + 1, s =>
    match s.hl.locals with
    | [] => s
    | l :: ls => consumeAll k ({ s with hl := { s.hl with locals := ls } }.consume l)

/-- Consumers and the analytics' observation of what passed, while the fast domain runs. -/
def State.settle (s : State) : State :=
  if s.active then consumeAll 64 (State.observeSeen 64 (consumeAll 256 s)) else s

/-! ### Commands -/

/-- An arrival reaches the fast domain. -/
def State.arrival (s : State) : Arrival → State
  | .block n b t => s.laneReceive n t b
  | .frame p b e t => s.frameReceive p t b e
  | .lock n up => if up then s.laneStart n true else s.laneLockLoss n
  | .link p up => s.linkChange p up

/-- What was held at the crossings is taken in order once the fast domain runs (R22, R108). -/
def State.takeArrived (s : State) : State := s.hl.arrived.foldl State.arrival { s with hl := { s.hl with arrived := [] } }

/-- LANE_BLOCK_RECEIVE: a block of 72 bytes (R369). It is work for the fast domain. -/
def execLaneBlockReceive (lane : Fin 16) (block : List Byte) (s : State) : Host.Outcome State Fault Refusal :=
  if block.length = 72 then
    .next (if !(s.laneAlive lane.val) then s
      else if s.active then (s.need.laneReceive lane.val s.fleet block).settle
      else s.hold (.block lane.val block s.fleet))
  else .refused .illFormed

/-- ETHERNET_FRAME_RECEIVE. -/
def execEthernetFrameReceive (port : Fin 4) (frame : List Byte) (fcsErr : Bool) (s : State) : Host.Outcome State Fault Refusal :=
  .next (if !(s.portAlive port.val) then s
    else if s.active then (s.need.frameReceive port.val s.fleet frame fcsErr).settle
    else s.hold (.frame port.val frame fcsErr s.fleet))

/-- EGRESS_BOUNDARY. With the fast clock stopped a lane's own clock runs on, and the lane sends idle codewords (R55, R77). -/
def execEgressBoundary (egress : Fin 20) (s : State) : Host.Outcome State Fault Refusal :=
  .next (if s.active then (s.need.egressBoundary egress.val).settle
    else if s.laneAlive egress.val then s.sendOut egress.val (laneBlock (controlBlock 0 []))
    else s)

end Sys2Proof.Machine
end

