-- ==== Sys2Proof/Machine/Protect.lean ====
section
/-! DEFINITION. Memory protection and the flash: the scrubber and what an uncorrectable codeword does (R499–R502, R515),
and the end of a flash operation (R88, R495). -/

namespace Sys2Proof.Machine

/-! ### The memories of R502 -/

/-- Codewords of 32 bytes in memory `m` (R44, R123, R473).
[DESIGN CHOICE, unsafe: log entry 37] -/
def State.codewords (s : State) (m : Nat) : Nat :=
  match m with
  | 0 => if s.tray then 8192 else 4096
  | 1 => if s.tray then 8192 else 4096
  | 2 => 4096
  | 3 => if s.tray then 131072 else 65536
  | 4 => 6144
  | 5 => 16384
  | 6 => if s.tray then 0 else 4096
  | 7 => 8192
  | 8 => if s.tray then 8192 else 2048
  | 9 => if s.tray then 262144 else 65536
  | 10 => if s.tray then 0 else 16384
  | _ => if s.tray then 65536 else 16384

/-- Codewords of one instruction bank (R511). -/
def State.bankWords (s : State) : Nat := if s.tray then 16384 else 4096

/-- 32 bytes of a memory lost: they read zero. -/
def Mem.lose (m : Mem) (k : Nat) : Mem := m.zero (32 * k) 32

/-! ### Consequences (R502, R515) -/

/-- A lost codeword of the live configuration: the section that holds it takes no new work. Which section that is, is
a free value. -/
def State.loseLive (s : State) : State :=
  let sec := 1 + s.drawn 5 % 20
  let s := s.draw.fault Code.EV_CFG_BAD Unit_.hoist sec 0
  { s with ev := { s.ev with cfgBad := if bit s.ev.cfgBad sec then s.ev.cfgBad else s.ev.cfgBad + 2 ^ sec } }

/-- A lost codeword of the combiner holds a tracker or a recipient entry; which, is a free value. -/
def State.loseTap (s : State) : State :=
  let k := s.drawn 12
  let s := s.draw
  match s.ck.trackers[k]? with
  | some t => s.endTracker 1 t
  | none => s.rcpRestart

/-- The queues that hold pennants: of an association or a lane, its number and the class. -/
def State.holders (s : State) : List (Bool × Nat × Nat) :=
  ((upto 16).flatMap fun n => ([0, 1, 2].filter fun c => !((s.lane n).queues.getD c []).isEmpty).map fun c => (false, n, c)) ++
    s.hl.assocs.flatMap fun a => ([0, 1, 2].filter fun c => !(a.queues.getD c []).isEmpty).map fun c => (true, a.peer, c)

/-- A lost codeword of the halyard's buffers holds the oldest pennant of a queue; which queue, is a free value.
[DEDUCED, unsafe: log entry 224] -/
def State.loseBuffer (s : State) : State :=
  let hs := s.holders
  let k := s.drawn 8 % max 1 hs.length
  let s := s.draw
  match hs[k]? with
  | none => s
  | some (false, n, c) =>
    match (s.lane n).queues.getD c [] with
    | [] => s
    | e :: _ =>
      let s := (s.setLane n fun l => { l with queues := modAt l.queues c fun q => q.drop 1 }).dropEntry c e
      if c < 2 then s.giveUp e n (laneBound c) else s
  | some (true, p, c) =>
    match ((s.assoc? p).map fun a => a.queues.getD c []).getD [] with
    | [] => s
    | e :: _ =>
      let s := (s.setAssoc p fun a => { a with queues := modAt a.queues c fun q => q.drop 1 }).dropEntry c e
      if c < 2 then s.giveUp e 0 (hopBound c false) else s

/-- The trace buffer's codeword reads as a loss marker. -/
def State.loseTrace (s : State) (k : Nat) : State :=
  s.setTr fun t => { t with buf := t.buf.put (32 * k) ({ kind := 5, time := 0, data := 0xFFFFFFFF : TraceRec }.bytes) }

/-- A lost codeword of the steward's memories is poisoned (R515). -/
def State.loseSteward (s : State) (k : Nat) : State :=
  let n := s.bankWords
  if k < 2 * n then
    let b := k / n
    let i := k % n
    let s := s.setSt fun t => { t with imBad := if t.imBad.contains (b, i) then t.imBad else t.imBad ++ [(b, i)] }
    let s := s.setBank b fun x => { x with code := x.code.lose i, ok := x.ok && b == s.st.bank }
    match s.st.load with
    | some l => if l.bank = b ∧ b ≠ s.st.bank then s.setSt fun t => { t with load := some { l with failed := some Code.UNCORRECTABLE } } else s
    | none => s
  else
    let i := k - 2 * n
    { s.setSt (fun t => { t with dmBad := nowLost t.dmBad i }) with dmem := s.dmem.lose i }

/-- Codeword `k` of memory `m` cannot be corrected: it is rewritten as zeros, recorded, and has R502's consequence. -/
def State.loseCodeword (s : State) (m k : Nat) : State :=
  let s := (s.bump Reg.EV_UNC_count 1).fault Code.UNCORRECTABLE Unit_.recorder m k
  match m with
  | 0 => s.loseLive
  | 1 => (s.put Reg.HO_SHADOW_taint Code.UNCORRECTABLE)
  | 2 => { s with rings := s.rings.lose k, ev := { s.ev with ringBad := nowLost s.ev.ringBad k } }
  | 3 => { s with sc := { s.sc with nodes := s.sc.nodes.lose k, nodeBad := nowLost s.sc.nodeBad k } }
  | 4 =>
    let c := { s.sc with tabBad := nowLost s.sc.tabBad k }
    { s with sc := if k < 5120 then { c with front := c.front.lose k } else { c with prob := c.prob.lose (k - 5120) } }
  | 5 => s.setCf fun c => { c with sbuf := c.sbuf.lose k, sbufBad := nowLost c.sbufBad k }
  | 6 => s.loseTap
  | 7 => s.loseBuffer
  | 8 => s.setCoder (k / 2048) fun c => { c with bad := true }
  | 9 => s.loseTrace k
  | 10 => { s with ev := { s.ev with log := s.ev.log.lose k } }
  | _ => s.loseSteward k

/-- R499: a corrected codeword is counted; the first of a second in each memory is recorded.
[DEDUCED, safe: log entry 39] -/
def State.corrected (s : State) (m : Nat) : State :=
  let s := s.bump Reg.EV_CORR_count 1
  let sec := s.cyc / secCycles
  let s := if s.ev.corrSec = sec then s else { s with ev := { s.ev with corr := [], corrSec := sec } }
  let n := Sparse.get (fun _ => 0) s.ev.corr m
  let s := { s with ev := { s.ev with corr := Sparse.set (fun _ => 0) s.ev.corr m (n + 1) } }
  if n = 0 then s.record 2 0x01 Unit_.recorder m 1 else s

/-! ### The scrubber (R500, R501) -/

/-- The first memory from `m` on that has codewords, and whether the walk passed its end. -/
def State.scrubFrom (s : State) (m : Nat) : Nat × Bool :=
  match ((upto 12).drop m).find? fun i => s.codewords i != 0 with
  | some i => (i, false)
  | none => (0, true)

/-- The next codeword; a pass ends behind the last of memory 11. -/
def State.scrubNext (s : State) : State :=
  let m := s.ev.scrubMem
  if s.ev.scrubPos + 1 < s.codewords m then { s with ev := { s.ev with scrubPos := s.ev.scrubPos + 1 } }
  else
    let r := s.scrubFrom (m + 1)
    let s := { s with ev := { s.ev with scrubMem := r.1, scrubPos := 0 } }
    if r.2 then { s.bump Reg.EV_PASSES_count 1 with ev := { s.ev with passAt := s.fleet, scrubLate := false } } else s

/-- SCRUB_STEP: one codeword, `cycles` fast cycles after the last.
[DESIGN CHOICE, safe: log entry 38]
[DESIGN CHOICE, unsafe: log entry 40] -/
def execScrubStep (found : Codeword) (s : State) : Host.Outcome State Fault Refusal :=
  let n := s.get Reg.EV_SCRUB_cycles
  .next (if s.active && n != 0 then
      let s := s.passTo (s.ev.scrubAt + (n + 15) / 16)
      let s := { s with ev := { s.ev with scrubAt := s.cyc } }
      let m := s.ev.scrubMem
      let k := s.ev.scrubPos
      (match found with
       | .clean => s
       | .corrected => s.corrected m
       | .uncorrectable => s.loseCodeword m k).scrubNext
    else s)

/-- SCRUB_LATE: no pass within `max_s`, recorded once; with scrubbing off there is none. -/
def execScrubLate (s : State) : Host.Outcome State Fault Refusal :=
  let n := s.get Reg.EV_SCRUB_max_s
  .next (if s.active && n != 0 && s.get Reg.EV_SCRUB_cycles != 0 && !s.ev.scrubLate then
      let s := s.passToFleet ((s.ev.passAt + n * 1000 * msTicks) % 2 ^ 64)
      { s with ev := { s.ev with scrubLate := true } }.fault Code.EV_SCRUB_LATE Unit_.recorder 0 0
    else s)

/-! ### The end of a flash operation (R88, R495) -/

/-- The operation's effect on the device. -/
def State.flEffect (s : State) (erase : Bool) (a : Nat) (bs : List Byte) : State :=
  { s with fl := { s.fl with bytes := if erase then flErase s.fl.bytes a else flProgram s.fl.bytes a bs, op := none } }

/-- The steward's command ends with `code`. -/
def State.flCmdEnd (s : State) (code : Nat) : State := (s.put Reg.ST_FL_CMD_go 0).put Reg.ST_FL_CMD_status code

/-- FLASH_OPERATION_END: READ STATUS shows the busy bit clear. -/
def execFlashOperationEnd (s : State) : Host.Outcome State Fault Refusal :=
  .next (match s.fl.op with
    | none => s
    | some (erase, a, bs, who) =>
      let s := s.flEffect erase a bs
      let s := if who = 0 then s.flCmdEnd Code.OK else { s with ev := { s.ev with nvRetry := false } }
      s.flPump)

/-- R495: a log sector that failed twice is bad and skipped; a page goes to the next good sector. -/
def State.nvFail (s : State) (erase : Bool) (a : Nat) (bs : List Byte) : State :=
  let n := a / 4096 - s.get Reg.EV_NV_AREA_sector
  let s := { s with ev := { s.ev with nvRetry := false, nvBad := if s.ev.nvBad.contains n then s.ev.nvBad else s.ev.nvBad ++ [n] } }
  let s := s.faultAon Code.EV_NV_FAIL Unit_.recorder 0 n
  if erase then s
  else
    match (upto 512).find? fun k => decide (n < k) && !(s.ev.nvBad.contains k) with
    | some k => { s with ev := { s.ev with nvQueue := ((s.get Reg.EV_NV_AREA_sector + k) * 4096 + a % 4096, bs, 1) :: s.ev.nvQueue } }
    | none => s

/-- A flash operation is still busy at its bound: 5 ms for a program, 500 ms for an erase.
[DEDUCED, safe: log entry 42] -/
def State.flTimeout (s : State) (erase : Bool) (a : Nat) (bs : List Byte) (who : Nat) : State :=
  let s := { s with fl := { s.fl with op := none } }
  if who = 0 then ((s.flCmdEnd Code.FLASH_TIMEOUT).faultAon Code.FLASH_TIMEOUT Unit_.firmware 0 0).flPump
  else if who = 1 ∨ who = 3 then
    if s.ev.nvRetry then (s.nvFail erase a bs).flPump
    else { s with ev := { s.ev with nvRetry := true } }.flStart erase a bs who
  else if who = 2 then (s.faultAon Code.FLASH_TIMEOUT Unit_.recorder 0 0).flPump
  else s.flPump

/-- FLASH_BUSY_TIMEOUT. -/
def execFlashBusyTimeout (s : State) : Host.Outcome State Fault Refusal :=
  .next (match s.fl.op with
    | none => s
    | some (erase, a, bs, who) => (s.passTo (s.fl.since + (if erase then 500 else 5) * msCycles)).flTimeout erase a bs who)

end Sys2Proof.Machine
end

