-- ==== Sys2Proof/Machine/Responses.lean ====
section
/-! DEFINITION. Responses of the host read master and of the fleet store, handed to the engine that asked (R70, R87, R92,
R118, R134, R310, R410, R466). -/

namespace Sys2Proof.Machine

/-- The request with this tag leaves the list. -/
def ReqPort.answer (p : ReqPort) (tag tags : Nat) : ReqPort :=
  ReqPort.pump tags (p.want.length) { p with out := p.out.filter fun r => r.tag != tag }

/-- R70: an unexpected tag is discarded and recorded.
[DEDUCED, safe: log entry 45] -/
def State.badTag (s : State) : State := s.faultAon Code.PORT_PROTOCOL Unit_.power 0 0

/-- The slot of the state area at a store address, among the parts held for an entry. -/
def State.slotAt (s : State) (base addr : Nat) : Nat :=
  match s.red.parts.find? fun p => p.base == base && s.partAddr p.slot == addr with | some p => p.slot | none => 0

/-- A host line, or a failed read of one, at its owner. A failed read of a DUMP or of an engine's image is recorded with
DATA_FAULT (R70); the DUMP's own status stays one of R469's. -/
def State.hostLineTo (s : State) (r : Req) (bs : List Byte) (err : Bool) : State :=
  match r.owner with
  | .hoist => s.hoistLine r.idx bs err
  | .tile l => s.tileLine l r.addr r.idx bs err
  | .dump k => (if err then s.fault Code.DATA_FAULT Unit_.dumps k 0 else s).engineLine k r.addr r.idx bs err
  | .imgLoad => s.imgLine r.idx bs (if err then some Code.DATA_FAULT else none)
  | .gone => if r.idx = 1 then s.badTag else if err then s.fault Code.DATA_FAULT Unit_.dumps 0 0 else s
  | _ => s

/-- A fleet-store response at its owner; writes are answered too. An error of a write that no owner waits for is
recorded. -/
def State.storeLineTo (s : State) (r : Req) (bs : List Byte) (err : Bool) : State :=
  match r.owner with
  | .hoist => s.hoistLine r.idx bs err
  | .dump k => (if err then s.fault Code.UNCORRECTABLE Unit_.dumps k 0 else s).engineLine k r.addr r.idx bs err
  | .imgLoad => s.imgLine r.idx bs (if err then some Code.UNCORRECTABLE else none)
  | .held base => s.heldResponse base (s.slotAt base r.addr) r.write err
  | .fa => (s.faReload r.idx bs err).faRun
  | .gone => if r.idx = 1 then s.badTag else if err then s.fault Code.UNCORRECTABLE Unit_.dumps 0 0 else s
  | _ => if err then s.fault Code.UNCORRECTABLE Unit_.recorder 0 0 else s

/-- HOST_READ_RESPONSE. Outside ACTIVE the port's group is in reset, or no read is outstanding (R55, R98). -/
def execHostReadResponse (tag : BitVec 10) (data : List Byte) (err : Bool) (s : State) : Host.Outcome State Fault Refusal :=
  if data.length ≠ 64 then .refused .illFormed
  else
    .next (match s.host.out.find? fun r => r.tag == tag.toNat with
      | none => if s.active then s.badTag else s
      | some r => if s.active then ({ s with host := s.host.answer tag.toNat 1024 }.need.hostLineTo r data err).settle else s)

/-- FLEET_STORE_RESPONSE. -/
def execFleetStoreResponse (tag : BitVec 8) (data : List Byte) (err : Bool) (s : State) : Host.Outcome State Fault Refusal :=
  if data.length ≠ 64 then .refused .illFormed
  else
    .next (match s.fsp.out.find? fun r => r.tag == tag.toNat with
      | none => if s.active then s.badTag else s
      | some r => if s.active then ({ s with fsp := s.fsp.answer tag.toNat 256 }.need.storeLineTo r data err).settle else s)

end Sys2Proof.Machine
end

