-- ==== Sys2Proof/Machine/Bus.lean ====
section
/-! DEFINITION. Register accesses: 64-bit pairs (R12, R13), reads with side effects (R14, R193, R205), writes by register
(R14, R60), and who is answered when (R58–R62, R90, R99, R120). -/

namespace Sys2Proof.Machine

/-! ### 64-bit pairs (R12, R13) -/

/-- The low halves of the pairs, as `base + s1*i + s2*j`: the `_LO`/`_HI` pairs of the pages whose chapters say that their
pairs follow R12.
[DEDUCED, safe: log entry 12] -/
def pairRows : List (Nat × Nat × Nat × Nat × Nat) :=
  [(0x08000, 8, 3, 0, 1), (0x08050, 0, 1, 0, 1), (0x08064, 0, 1, 0, 1), (0x08100, 32, 4, 8, 2), (0x08118, 32, 4, 0, 1),
   (0x08200, 16, 4, 0, 1),
   (0x10010, 0, 1, 0, 1), (0x10024, 0, 1, 0, 1), (0x12008, 64, 16, 0, 1), (0x12020, 64, 16, 0, 1), (0x18000, 8, 1024, 0, 1),
   (0x1A000, 8, 128, 0, 1),
   (0x20020, 0, 1, 0, 1), (0x20030, 0, 1, 0, 1), (0x20048, 8, 2, 0, 1), (0x21008, 64, 16, 8, 4), (0x22010, 64, 8, 8, 3),
   (0x24000, 32, 64, 0, 1), (0x24010, 32, 64, 0, 1), (0x26004, 64, 4, 0, 1), (0x26010, 64, 4, 8, 4),
   (0x30040, 0, 1, 0, 1), (0x30100, 64, 2, 8, 4), (0x30200, 32, 2, 0, 1),
   (0x04010, 0, 1, 0, 1), (0x40018, 8, 5, 0, 1), (0x40110, 32, 8, 0, 1),
   (0x50060, 8, 4, 0, 1),
   (0x60020, 8, 2, 0, 1), (0x60804, 256, 2, 0, 1), (0x61004, 256, 32, 0, 1), (0x63004, 256, 64, 0, 1), (0x60848, 256, 2, 16, 8),
   (0x61048, 256, 32, 16, 8), (0x63048, 256, 64, 16, 8),
   (0xF0024, 12, 2, 0, 1), (0xF0108, 16, 8, 0, 1),
   (0x70018, 0, 1, 0, 1), (0x70100, 32, 8, 8, 2), (0x70200, 32, 4, 8, 2),
   (0x80020, 8, 3, 0, 1), (0x80104, 32, 4, 0, 1), (0x81000, 32, 64, 8, 3), (0x82000, 16, 32, 0, 1),
   (0xA0018, 8, 2, 0, 1), (0xA0034, 0, 1, 0, 1), (0xA0054, 0, 1, 0, 1)]

/-- `off` is the low half of a pair. -/
def lowHalf (off : Nat) : Bool :=
  pairRows.any fun (b, s1, c1, s2, c2) => (RegDef.mk b s1 c1 s2 c2 0 0 0 0 0 0 0 0 false).covers off

/-- `off` is the high half of a pair. -/
def highHalf (off : Nat) : Bool := decide (4 ≤ off) && lowHalf (off - 4)

/-- The holding registers of requester `req`. -/
def State.holding (s : State) (req : Nat) : Holding := Sparse.get (fun _ => {}) s.holds req

def State.setHolding (s : State) (req : Nat) (f : Holding → Holding) : State :=
  { s with holds := Sparse.set (fun _ => {}) s.holds req (f (s.holding req)) }

/-! ### Reads -/

/-- RC fields go back to their reset value after a read (R14). -/
def State.readCleared (s : State) (d : RegDef) (off : Nat) : State :=
  if d.rc = 0 then s else s.wr off (maskIn (s.rd off) d.rc (resetOf off))

/-- What a read does besides answering: claims (R193), capture stamps marked read (R205), RC fields. -/
def State.readEffect (s : State) (off : Nat) : State :=
  match s.reg? off with
  | none => s
  | some d =>
    if off = Reg.IC_CLAIM_H then (if s.highest s.enHost = 0 then s else s.unpend (s.highest s.enHost))
    else if off = Reg.IC_CLAIM_S then (if s.highest s.enStew = 0 then s else s.unpend (s.highest s.enStew))
    else if 0x8200 ≤ off ∧ off < 0x8240 ∧ off % 16 = 0 then s.capRead ((off - 0x8200) / 16)
    else s.readCleared d off

/-- The trace page is read and written with the FIFO drained up to now (R460). -/
def State.catchUp (s : State) (off : Nat) : State :=
  if 0x70000 ≤ off ∧ off < 0x80000 ∧ s.active = true then s.traceCatch else s

/-- A read by requester `req`. -/
def State.busRead (s : State) (req off : Nat) : Nat × State :=
  let s := s.catchUp off
  let v := s.view off
  if highHalf off then
    match (s.holding req).rd with
    | some (lo, h) => if lo + 4 = off then (h, s.setHolding req fun x => { x with rd := none }) else (v, s.readEffect off)
    | none => (v, s.readEffect off)
  else if lowHalf off && (s.reg? off).isSome then
    (v, (s.setHolding req fun x => { x with rd := some (off, s.view (off + 4)) }).readEffect off)
  else (v, s.readEffect off)

/-! ### Writes by register -/

/-- The outcome of a write that may be refused. -/
def State.orRefuse (s : State) : Option State → State × Bool
  | some t => (t, true)
  | none => (s, false)

/-- A plain write: RW fields take the value, W1C fields clear (R14, R15). -/
def State.plainWrite (s : State) (d : RegDef) (off v : Nat) : State :=
  if d.rw = 0 ∧ d.w1c = 0 then s
  else
    let x := maskIn (s.rd off) d.rw v
    s.wr off (x &&& (2 ^ 32 - 1 - (v &&& d.w1c)))

/-- Always-on pages: registers whose writes do more. -/
def State.writeAon (s : State) (req off v : Nat) : Option (State × Bool) :=
  if off = Reg.PM_CTRL then
    let t := s.put Reg.PM_CTRL_stay_awake (v % 2)
    some (if v % 2 = 1 then t.need else t, true)
  else if off = Reg.PM_BOOT then some (s.wPmBoot req v)
  else if off = Reg.PM_WARM then some (s.wWarm v, true)
  else if off = Reg.PM_THR_FW then some (s.wThrFw v, true)
  else if off = Reg.PM_PB_CMD then some (s.orRefuse (s.wPbCmd v))
  else if off = Reg.IC_DOORBELL then some (s.doorbell (v % 2 ^ 11) (req != 14 && req != 15), true)
  else if off = Reg.TB_OFF_LO ∨ off = Reg.TB_OFF_HI then some (if s.servo then (s, false) else (s.wr off v, true))
  else if off = Reg.TB_RATE then some (s.orRefuse (s.wRate v))
  else if off = Reg.TB_CTRL then some (s.wTbCtrl v, true)
  else if off = Reg.TB_TOD_NS then some (s.orRefuse (s.wTod v))
  else none

/-- The hoist's and the queues' pages. -/
def State.writeQueues (s : State) (req off v : Nat) : Option (State × Bool) :=
  if off = Reg.HO_CTRL then some (s.wHoCtrl v)
  else if off = Reg.HO_WRITERS ∨ off = Reg.HO_LIVE_SEL then (if req = 14 then none else some (s, false))
  else if off = Reg.HO_LOAD then some (s.wHoLoad v)
  else if off = Reg.HO_FEED then some (s.wHoFeed v)
  else if off = Reg.HO_COMMIT then some (s.wHoCommit v)
  else if off = Reg.QE_PRED_SET then some (s.wPredSet v, true)
  else if off = Reg.QE_PRED_CLR then some (s.wPredClr v, true)
  else if off = Reg.QE_FLAG_SET then some (s.orRefuse (s.wFlagExt v true))
  else if off = Reg.QE_FLAG_CLR then some (s.orRefuse (s.wFlagExt v false))
  else if 0x4400 ≤ off ∧ off < 0x4800 then
    let q := (off - 0x4400) / 64
    if off = Reg.QE_Qn_TAIL q then some ((s.wTail q v).1, !(s.wTail q v).2)
    else if off = Reg.QE_Qn_SWAP q then some (s.orRefuse (s.wSwap q v))
    else if off = Reg.QE_Qn_CTRL q then some (s.wQctrl q v, true)
    else none
  else none

/-- Counters, checks, reduction, analytics and trace. -/
def State.writeWork (s : State) (off v : Nat) : Option (State × Bool) :=
  if 0x12000 ≤ off ∧ off < 0x12400 ∧ off % 64 = 0x18 then some (s.wAreaRd ((off - 0x12000) / 64) v, true)
  else if off = Reg.XC_YJ_CTRL then some (s.wDrained v, true)
  else if off = Reg.RD_TS_EXCL then some (s.wTsExcl v, true)
  else if off = Reg.FA_QB_ADD then some (s.wSpares v, true)
  else if off = Reg.TR_CTRL then some (s.wTrCtrl v, true)
  else if off = Reg.DC_HANG_GO then some (s.orRefuse (s.wHangGo v))
  else if 0x80100 ≤ off ∧ off < 0x80180 then
    let k := (off - 0x80100) / 32
    if off = Reg.DC_ENG_CTRL_k k then some (s.orRefuse (s.wEngCtrl k v))
    else if off = Reg.DC_ENG_HI_k k then some (s.orRefuse (s.wEngHi k v))
    else none
  else none

/-- The recorder's and the steward's pages. -/
def State.writeService (s : State) (req off v : Nat) : Option (State × Bool) :=
  if off = Reg.EV_CTRL then some (s.wFreeze v, true)
  else if off = Reg.EV_CLEAR then some (s.orRefuse (s.wClear v))
  else if off = Reg.EV_LIFE_OPS then some (s.orRefuse (s.wLife false v))
  else if off = Reg.EV_LIFE_PCC then some (s.orRefuse (s.wLife true v))
  else if off = Reg.ST_BOOT_CFG then some (s.wBootCfg v, true)
  else if off = Reg.ST_SEC_FLOOR then some (s.orRefuse (s.wSecFloor req v))
  else if off = Reg.ST_IM_LOAD then some (s.orRefuse (s.wImLoad v))
  else if off = Reg.ST_IM_SWAP then some (s.orRefuse (s.wSwapKey req v))
  else if off = Reg.ST_WDOG then some (s.wdSync.wr off (v &&& 0x8000FFFF), true)
  else if off = Reg.ST_WDOG_KICK then some (s.wdKick, true)
  else if off = Reg.ST_EV_PUT then some (s.wEvPut v, true)
  else if off = Reg.ST_FL_CMD then some (s.orRefuse (s.wFlCmd v))
  else none

/-- A register whose write does more than set its fields. -/
def State.specialWrite (s : State) (req off v : Nat) : Option (State × Bool) :=
  if off < 0x2000 ∨ (0x6000 ≤ off ∧ off < 0x10000) then s.writeAon req off v
  else if off < 0x6000 then s.writeQueues req off v
  else if off < 0x90000 ∨ 0xC0000 ≤ off then s.writeWork off v
  else s.writeService req off v

/-- A write of one register that is present; false is `rp_resp` 1. -/
def State.regWrite (s : State) (req : Nat) (d : RegDef) (off v : Nat) : State × Bool :=
  match s.specialWrite req off v with
  | some r => r
  | none =>
    if d.sh = 0 then (s.plainWrite d off v, true)
    else
      let r := s.shWrite req [(off, v)]
      if r.2 then (r.1.plainWrite d off v, true) else r

/-- Whether a write of the high half would be refused by its register's rule (R60): it is then refused and not held.
[DESIGN CHOICE, unsafe: log entry 13] -/
def State.highRefused (s : State) (req : Nat) (d : RegDef) (off v : Nat) : Option State :=
  if off = Reg.TB_OFF_HI then (if s.servo then some s else none)
  else if 0x80100 ≤ off ∧ off < 0x80180 then (if (s.wEngHi ((off - 0x80100) / 32) v).isNone then some s else none)
  else if d.sh = 0 then none
  else
    let r := s.shWrite req [(off, v)]
    if r.2 then none else some r.1

/-- Both halves of a pair in one cycle (R12): judged once; a refused write changes neither half. -/
def State.pairWrite (s : State) (req : Nat) (d : RegDef) (lo v h : Nat) : State × Bool :=
  if d.sh ≠ 0 then s.shWrite req [(lo, v), (lo + 4, h)]
  else
    let r := s.regWrite req d lo v
    if r.2 then
      match s.reg? (lo + 4) with
      | some e => r.1.regWrite req e (lo + 4) h
      | none => r
    else r

/-- A write into a memory window: the queue rings take it, the others are read-only (R161, R162, R244, R277, R362, R400,
R441, R464, R480, R508).
[DEDUCED, safe: log entry 20] -/
def State.windowWrite (s : State) (off v : Nat) : Option (State × Bool) :=
  if 0xC0000 ≤ off ∧ off < 0xD0000 then some (s.orRefuse (s.wRing (off - 0xC0000) v))
  else if (0xD0000 ≤ off ∧ off < 0xD8000 ∧ s.tray = false) ∨ (0xE0000 ≤ off ∧ off < 0xF0000) ∨
      (0xF0000 ≤ off ∧ off < 0xF0080 ∧ s.tray = false) ∨ (0x48000 ≤ off ∧ off < 0x50000) ∨ (0x78000 ≤ off ∧ off < 0x80000) ∨
      (0x88000 ≤ off ∧ off < 0x90000 ∧ s.tray = true) ∨ (0x98000 ≤ off ∧ off < 0xA0000) ∨
      (0x58000 ≤ off ∧ off < 0x5C000 ∧ s.tray = true) then some (s, false)
  else none

/-- A write of a register by requester `req`, with the halves of pairs held and committed. -/
def State.heldWrite (s : State) (req : Nat) (d : RegDef) (off v : Nat) : State × Bool :=
  if highHalf off then
    match s.highRefused req d off v with
    | some t => (t, false)
    | none => (s.setHolding req fun x => { x with wr := some (off - 4, v) }, true)
  else
    match (if lowHalf off then (s.holding req).wr else none) with
    | some (lo, h) =>
      if lo = off then
        let r := s.pairWrite req d off v h
        if r.2 then (r.1.setHolding req fun x => { x with wr := none }, true) else r
      else s.regWrite req d off v
    | none => s.regWrite req d off v

/-- A write by requester `req`; false is `rp_resp` 1. -/
def State.busWrite (s : State) (req off v : Nat) : State × Bool :=
  let s := s.catchUp off
  match s.windowWrite off v with
  | some r => r
  | none =>
    match s.reg? off with
    | none => (s, true)
    | some d => s.heldWrite req d off v

/-! ### Accesses (R58–R62, R90) -/

/-- Answered in every power state: the `GL_`, `PM_`, `IC_` and `TB_` pages up to the next listed offset, and the bunting
registers: the routing, whose live copy the always-on domain holds, and the counts (R10, R59, R123, R230).
[DEDUCED, safe: log entry 14] -/
def aonPage (off : Nat) : Bool :=
  decide (off < 0x2000) || (decide (0x6000 ≤ off) && decide (off < 0x10000)) || (decide (0x15000 ≤ off) && decide (off < 0x15200)) ||
  (decide (0x1A000 ≤ off) && decide (off < 0x1A400))

/-- A write to SH fields (R59, R62, R123). -/
def State.writesSh (s : State) (a : Access) : Bool :=
  a.write && (match s.reg? a.off with | some d => d.sh != 0 | none => false)

/-- The access needs the fast clock (R59).
[DEDUCED, safe: log entry 18] -/
def State.needsFast (s : State) (a : Access) : Bool := !(aonPage a.off) || s.writesSh a

/-- A debug access has completed (R89, R90).
[DEDUCED, safe: log entry 17] -/
def State.debugDone (s : State) (a : Access) (data : Nat) (refused : Bool) : State :=
  if s.dbg.discard then { s with dbg := { s.dbg with discard := false, status := 0 } }
  else { s with dbg := { s.dbg with lastOff := a.off, rdata := data, status := if refused then 2 else 0 } }

/-- The response of an access (R58); a port access with `rp_src` 14 or 15 is answered apart from the internal requesters. -/
def State.respond (s : State) (a : Access) (data : Nat) (refused : Bool) : State :=
  let k := if a.port && decide (14 ≤ a.req) then a.req + 16 else a.req
  let s := { s with rsps := Sparse.insert s.rsps k { req := a.req, data := data, refused := refused } }
  if a.req == 15 && !a.port then s.debugDone a data refused else s

/-- R62: the hold of `pm_fclk_req` after an access to a fast page on the register port, or a write to an SH field. -/
def State.holdAfter (s : State) (a : Access) : State :=
  if s.active && ((a.port && !(aonPage a.off)) || s.writesSh a) then
    { s with pw := { s.pw with regHold := s.cyc + 1000, idleFrom := s.cyc } }
  else s

/-- The access is performed and answered.
[DESIGN CHOICE, unsafe: log entry 16] -/
def State.perform (s : State) (a : Access) : State :=
  if a.port && decide (14 ≤ a.req) then s.respond a 0 true
  else if a.write then
    let r := s.busWrite a.req a.off a.val
    -- a swap of banks takes effect at the hart's next boundary: every command finds the hart at one (R531)
    (r.1.lapWatch.holdAfter a).swapBanks.respond a 0 (!r.2)
  else
    let r := s.busRead a.req a.off
    (r.2.holdAfter a).respond a r.1 false

/-- A debug access while `sec_auth` is 0: status 0b11 and no effect (R90); the result of one whose register was reset is
discarded. -/
def State.debugDenied (s : State) (a : Access) : State :=
  if s.dbg.discard then { s with dbg := { s.dbg with discard := false, status := 3 } }
  else { s with dbg := { s.dbg with lastOff := a.off, status := 3 } }

/-- An access is performed, unless it is a debug access without authorisation (R90). -/
def State.performAllowed (s : State) (a : Access) : State :=
  if a.req == 15 && !a.port && !s.secAuth then s.debugDenied a else s.perform a

/-- The accesses that wait for the fast clock are performed in order: debug access before the register port (R61). -/
def State.performWaiting (s : State) : State :=
  s.waiting.foldl State.performAllowed { s with waiting := [] }

/-- A debug access waits for its response (R90). -/
def State.debugBusy (s : State) : Bool := s.waiting.any fun a => !a.port

/-- An access arrives. The port takes one at a time; the steward has one only while it runs; debug access needs
`sec_auth`, and is ignored while the last one is busy.
[DESIGN CHOICE, safe: log entry 5] -/
def State.access (s : State) (a : Access) : State :=
  if !s.aonUp || (a.req == 14 && !a.port && !s.active) then s
  else if a.req == 15 && !a.port && s.debugBusy then s
  else if a.req == 15 && !a.port && !s.secAuth then s.debugDenied a
  else if a.port && s.waiting.any fun w => w.port then { s with waiting := s.waiting ++ [a] }
  else if s.needsFast a && !s.active && !(a.port && decide (14 ≤ a.req)) then
    if a.port then { s with waiting := s.waiting ++ [a] }.need
    else { s with waiting := a :: s.waiting, dbg := { s.dbg with status := 1 } }.need
  else s.perform a

/-- A read or write by `who` at byte offset `off`. -/
def State.readBy (s : State) (who : Who) (off : Nat) : State :=
  s.access { req := Who.num who, port := Who.isPort who, write := false, off := off, val := 0 }

def State.writeBy (s : State) (who : Who) (off v : Nat) : State :=
  s.access { req := Who.num who, port := Who.isPort who, write := true, off := off, val := v }

/-! ### Commands -/

/-- Byte offset of a word offset (R58). -/
def byteOff (addr : BitVec 18) : Nat := 4 * addr.toNat

/-- REGISTER_WRITE. -/
def execRegisterWrite (who : Who) (addr : BitVec 18) (data : Word) (s : State) : Host.Outcome State Fault Refusal :=
  .next (s.writeBy who (byteOff addr) data.toNat)

/-- READ_CLEAR: a read, which clears RC fields. -/
def execReadClear (who : Who) (addr : BitVec 18) (s : State) : Host.Outcome State Fault Refusal := .next (s.readBy who (byteOff addr))

/-- PAIR_LOW_READ. -/
def execPairLowRead (who : Who) (addr : BitVec 18) (s : State) : Host.Outcome State Fault Refusal := .next (s.readBy who (byteOff addr))

/-- PAIR_HIGH_READ. -/
def execPairHighRead (who : Who) (addr : BitVec 18) (s : State) : Host.Outcome State Fault Refusal := .next (s.readBy who (byteOff addr))

/-- PAIR_HIGH_WRITE. -/
def execPairHighWrite (who : Who) (addr : BitVec 18) (data : Word) (s : State) : Host.Outcome State Fault Refusal :=
  .next (s.writeBy who (byteOff addr) data.toNat)

/-- PAIR_LOW_WRITE. -/
def execPairLowWrite (who : Who) (addr : BitVec 18) (data : Word) (s : State) : Host.Outcome State Fault Refusal :=
  .next (s.writeBy who (byteOff addr) data.toNat)

/-- SHADOW_WRITE. -/
def execShadowWrite (who : Who) (addr : BitVec 18) (data : Word) (s : State) : Host.Outcome State Fault Refusal :=
  .next (s.writeBy who (byteOff addr) data.toNat)

/-- LIVE_WRITE. -/
def execLiveWrite (who : Who) (addr : BitVec 18) (data : Word) (s : State) : Host.Outcome State Fault Refusal :=
  .next (s.writeBy who (byteOff addr) data.toNat)

/-- WARM_RESET_KEY (R119). -/
def execWarmResetKey (who : Who) (data : Word) (s : State) : Host.Outcome State Fault Refusal := .next (s.writeBy who Reg.PM_WARM data.toNat)

/-- BOOT_GO (R527). -/
def execBootGo (who : Who) (data : Word) (s : State) : Host.Outcome State Fault Refusal := .next (s.writeBy who Reg.ST_BOOT_CFG data.toNat)

/-- PM_BOOT_STAGE_WRITE (R122). -/
def execPmBootStageWrite (who : Who) (data : Word) (s : State) : Host.Outcome State Fault Refusal := .next (s.writeBy who Reg.PM_BOOT data.toNat)

/-- RING_SLOT_WRITE (R161): `addr` is the word offset within the ring window. -/
def execRingSlotWrite (who : Who) (addr : BitVec 14) (data : Word) (s : State) : Host.Outcome State Fault Refusal :=
  .next (s.writeBy who (0xC0000 + 4 * addr.toNat) data.toNat)

/-- QUEUE_DOORBELL (R163). -/
def execQueueDoorbell (who : Who) (q : Fin 16) (data : Word) (s : State) : Host.Outcome State Fault Refusal :=
  .next (s.writeBy who (Reg.QE_Qn_TAIL q.val) data.toNat)

/-- SWAP_REQUEST (R165). -/
def execSwapRequest (who : Who) (q : Fin 16) (data : Word) (s : State) : Host.Outcome State Fault Refusal :=
  .next (s.writeBy who (Reg.QE_Qn_SWAP q.val) data.toNat)

/-- QUEUE_RESUME (R178). -/
def execQueueResume (who : Who) (q : Fin 16) (s : State) : Host.Outcome State Fault Refusal := .next (s.writeBy who (Reg.QE_Qn_CTRL q.val) 1)

/-- QUEUE_RESET (R178). -/
def execQueueReset (who : Who) (q : Fin 16) (s : State) : Host.Outcome State Fault Refusal := .next (s.writeBy who (Reg.QE_Qn_CTRL q.val) 2)

/-- PRED_SET (R172). -/
def execPredSet (who : Who) (data : Word) (s : State) : Host.Outcome State Fault Refusal := .next (s.writeBy who Reg.QE_PRED_SET data.toNat)

/-- PRED_CLR (R172). -/
def execPredClr (who : Who) (data : Word) (s : State) : Host.Outcome State Fault Refusal := .next (s.writeBy who Reg.QE_PRED_CLR data.toNat)

/-- FLAG_SET_EXTERNAL (R179). -/
def execFlagSetExternal (who : Who) (data : Word) (s : State) : Host.Outcome State Fault Refusal :=
  .next (s.writeBy who Reg.QE_FLAG_SET data.toNat)

/-- FLAG_CLR_EXTERNAL (R179). -/
def execFlagClrExternal (who : Who) (data : Word) (s : State) : Host.Outcome State Fault Refusal :=
  .next (s.writeBy who Reg.QE_FLAG_CLR data.toNat)

/-- DOORBELL (R191). -/
def execDoorbell (who : Who) (data : Word) (s : State) : Host.Outcome State Fault Refusal := .next (s.writeBy who Reg.IC_DOORBELL data.toNat)

/-- CLAIM_HOST (R193). -/
def execClaimHost (who : Who) (s : State) : Host.Outcome State Fault Refusal := .next (s.readBy who Reg.IC_CLAIM_H)

/-- CLAIM_STEWARD (R193). -/
def execClaimSteward (who : Who) (s : State) : Host.Outcome State Fault Refusal := .next (s.readBy who Reg.IC_CLAIM_S)

/-- HOIST_LOAD (R134). -/
def execHoistLoad (who : Who) (s : State) : Host.Outcome State Fault Refusal := .next (s.writeBy who Reg.HO_LOAD 1)

/-- HOIST_FEED_WORD (R137). -/
def execHoistFeedWord (who : Who) (data : Word) (s : State) : Host.Outcome State Fault Refusal := .next (s.writeBy who Reg.HO_FEED data.toNat)

/-- HOIST_COMMIT (R141). -/
def execHoistCommit (who : Who) (data : Word) (s : State) : Host.Outcome State Fault Refusal := .next (s.writeBy who Reg.HO_COMMIT data.toNat)

/-- HOIST_DISCARD (R135): `discard` is written with `require_sig` as it stands. -/
def execHoistDiscard (who : Who) (s : State) : Host.Outcome State Fault Refusal :=
  .next (s.writeBy who Reg.HO_CTRL (2 + 4 * s.get Reg.HO_CTRL_require_sig))

/-- REQUIRE_SIG_WRITE (R136). -/
def execRequireSigWrite (who : Who) (data : Word) (s : State) : Host.Outcome State Fault Refusal := .next (s.writeBy who Reg.HO_CTRL data.toNat)

/-- RATE_WRITE (R204). -/
def execRateWrite (who : Who) (data : Word) (s : State) : Host.Outcome State Fault Refusal := .next (s.writeBy who Reg.TB_RATE data.toNat)

/-- OFFSET_STEP (R204): the write of `TB_OFF_LO` that commits the pair. -/
def execOffsetStep (who : Who) (data : Word) (s : State) : Host.Outcome State Fault Refusal := .next (s.writeBy who Reg.TB_OFF_LO data.toNat)

/-- TOD_ARM (R211). -/
def execTodArm (who : Who) (data : Word) (s : State) : Host.Outcome State Fault Refusal := .next (s.writeBy who Reg.TB_TOD_NS data.toNat)

/-- HOLD_WRITE (R212). -/
def execHoldWrite (who : Who) (data : Word) (s : State) : Host.Outcome State Fault Refusal := .next (s.writeBy who Reg.TB_CTRL data.toNat)

/-- DRAINED_WRITE (R328). -/
def execDrainedWrite (who : Who) (data : Word) (s : State) : Host.Outcome State Fault Refusal := .next (s.writeBy who Reg.XC_YJ_CTRL data.toNat)

/-- SPARES_ADD. -/
def execSparesAdd (who : Who) (data : Word) (s : State) : Host.Outcome State Fault Refusal := .next (s.writeBy who Reg.FA_QB_ADD data.toNat)

/-- PMBUS_FW_COMMAND (R114). -/
def execPmbusFwCommand (who : Who) (data : Word) (s : State) : Host.Outcome State Fault Refusal := .next (s.writeBy who Reg.PM_PB_CMD data.toNat)

/-- TRACE_ARM (R460). -/
def execTraceArm (who : Who) (data : Word) (s : State) : Host.Outcome State Fault Refusal := .next (s.writeBy who Reg.TR_CTRL data.toNat)

/-- TRACE_TRIGGER_WRITE (R461). -/
def execTraceTriggerWrite (who : Who) (data : Word) (s : State) : Host.Outcome State Fault Refusal := .next (s.writeBy who Reg.TR_CTRL data.toNat)

/-- TRACE_OFF (R460). -/
def execTraceOff (who : Who) (data : Word) (s : State) : Host.Outcome State Fault Refusal := .next (s.writeBy who Reg.TR_CTRL data.toNat)

/-- HANG_DUMP_KEY (R467). -/
def execHangDumpKey (who : Who) (data : Word) (s : State) : Host.Outcome State Fault Refusal := .next (s.writeBy who Reg.DC_HANG_GO data.toNat)

/-- ENGINE_SAVE (R475). -/
def execEngineSave (who : Who) (engine : Fin 4) (data : Word) (s : State) : Host.Outcome State Fault Refusal :=
  .next (s.writeBy who (Reg.DC_ENG_CTRL_k engine.val) data.toNat)

/-- ENGINE_RESTORE (R475). -/
def execEngineRestore (who : Who) (engine : Fin 4) (data : Word) (s : State) : Host.Outcome State Fault Refusal :=
  .next (s.writeBy who (Reg.DC_ENG_CTRL_k engine.val) data.toNat)

/-- ENGINE_RESET (R475). -/
def execEngineReset (who : Who) (engine : Fin 4) (data : Word) (s : State) : Host.Outcome State Fault Refusal :=
  .next (s.writeBy who (Reg.DC_ENG_CTRL_k engine.val) data.toNat)

/-- LOG_FREEZE (R488). -/
def execLogFreeze (who : Who) (data : Word) (s : State) : Host.Outcome State Fault Refusal := .next (s.writeBy who Reg.EV_CTRL data.toNat)

/-- LOG_CLEAR (R489). -/
def execLogClear (who : Who) (data : Word) (s : State) : Host.Outcome State Fault Refusal := .next (s.writeBy who Reg.EV_CLEAR data.toNat)

/-- LIFE_BASE_WRITE (R487). -/
def execLifeBaseWrite (who : Who) (pcc : Bool) (data : Word) (s : State) : Host.Outcome State Fault Refusal :=
  .next (s.writeBy who (if pcc then Reg.EV_LIFE_PCC else Reg.EV_LIFE_OPS) data.toNat)

/-- WDOG_KICK (R521). -/
def execWdogKick (who : Who) (data : Word) (s : State) : Host.Outcome State Fault Refusal := .next (s.writeBy who Reg.ST_WDOG_KICK data.toNat)

/-- FIRMWARE_RECORD (R522). -/
def execFirmwareRecord (who : Who) (data : Word) (s : State) : Host.Outcome State Fault Refusal := .next (s.writeBy who Reg.ST_EV_PUT data.toNat)

/-- IMAGE_LOAD (R530). -/
def execImageLoad (who : Who) (data : Word) (s : State) : Host.Outcome State Fault Refusal := .next (s.writeBy who Reg.ST_IM_LOAD data.toNat)

/-- IMAGE_SWAP (R531). -/
def execImageSwap (who : Who) (data : Word) (s : State) : Host.Outcome State Fault Refusal := .next (s.writeBy who Reg.ST_IM_SWAP data.toNat)

/-- FLASH_COMMAND (R529). -/
def execFlashCommand (who : Who) (data : Word) (s : State) : Host.Outcome State Fault Refusal := .next (s.writeBy who Reg.ST_FL_CMD data.toNat)

/-- SEC_FLOOR_WRITE (R527). -/
def execSecFloorWrite (who : Who) (data : Word) (s : State) : Host.Outcome State Fault Refusal :=
  .next (s.writeBy who Reg.ST_SEC_FLOOR data.toNat)

end Sys2Proof.Machine
end

