-- ==== Sys2Proof/Machine/Power.lean ====
section
/-! DEFINITION. The wake handshake and the power states (R95–R101, R120), start-up (R116, R119), and debug access
(R89, R90). -/

namespace Sys2Proof.Machine

def State.setPw (s : State) (f : Power → Power) : State := { s with pw := f s.pw }

/-! ### Leaving and entering ACTIVE -/

/-- The fast domain is gated: what counts fast-domain time stops here. -/
def State.gate (s : State) (st : PState) : State := (s.aonEdge.wdSync.traceCatch).setPw fun p => { p with st := st }

/-- Faults of the wake that are recorded once the fast domain runs (R97, R101). -/
def State.wakeFaults (s : State) : State :=
  let loss := s.pw.lossDue
  let late := s.pw.lateDue
  let s := s.setPw fun p => { p with lossDue := false, lateDue := false }
  let s := if loss then s.fault Code.CLOCK_LOSS Unit_.power 0 0 else s
  if late then s.fault Code.WAKE_LATE Unit_.power 0 0 else s

/-- The first cycle in which the fast domain runs: what waited for it happens (R59, R68, R73, R490). -/
def State.ungate (s : State) : State :=
  let s := s.wdSync
  let s := (s.setPw fun p => { p with st := .active, need := false, quiet := false, idleFrom := s.cyc }).setTr fun t => { t with drainAt := s.cyc }
  ((s.unhold.wakeFaults.tapsReturn.traceWake.takeArrived).performWaiting).settle

/-- Start-up after a reset of the fast domain (R116 step 6). -/
def State.startUp (s : State) : State :=
  let s := (s.put Reg.PM_BOOT_stage 2).setPw fun p => { p with sramInit := true }
  let s := { s with ev := { s.ev with passAt := s.fleet } }
  s.rcpRestart.ungate

/-- Start-up runs once both resets of the fast domain are released with the acknowledge seen high (R100, R119). -/
def State.startIf (s : State) : State :=
  if s.pw.st == .fastReset && s.pw.ack && !s.pw.fastRst && !s.pw.intF then s.startUp else s

/-! ### The wake handshake -/

/-- FAST_CLOCK_NEED. -/
def execFastClockNeed (s : State) : Host.Outcome State Fault Refusal := .next s.need

/-- The earliest of the times the fast clock must run for. -/
def State.firstDue (s : State) : Option Nat :=
  match s.dueTimes with
  | [] => none
  | t :: ts => some (ts.foldl (fun a b => if s.cyclesTo b < s.cyclesTo a then b else a) t)

/-- DUE_WAKE: 400 AON cycles ahead of the next due time (R98). -/
def State.dueWake (s : State) : State :=
  if s.pw.st == .sleep || s.pw.st == .stopping then
    match s.firstDue with
    | none => s
    | some t => (s.passTo (s.cyc + s.cyclesTo t - 400)).need
  else s

def execDueWake (s : State) : Host.Outcome State Fault Refusal := .next s.dueWake

/-- A wake ends: the fast domain runs in the cycle after the acknowledge is seen (R96, R100). -/
def State.wakeEnd (s : State) : State :=
  let s := s.passTo (s.cyc + 1)
  let took := min (2 ^ 16 - 1) (s.cyc - s.pw.needAt)
  let s := s.bump Reg.PM_WAKES_count 1
  let s := s.put Reg.PM_WAKE_MAX_cycles (max (s.get Reg.PM_WAKE_MAX_cycles) took)
  s.ungate

/-- The acknowledge is seen high, at the earliest 3 cycles after the request rose (R95).
[DEDUCED, safe: log entry 26] -/
def State.ackRise (s : State) : State :=
  if s.pw.ack || !s.pw.req then s
  else if s.pw.st == .waking then ((s.passTo (s.pw.reqAt + 3)).setPw fun p => { p with ack := true }).wakeEnd
  else if s.pw.st == .fastReset then ((s.passTo (s.pw.reqAt + 3)).setPw fun p => { p with ack := true }).startIf
  else s

def execFclkAckRise (s : State) : Host.Outcome State Fault Refusal := .next s.ackRise

/-- A clock loss (R100, R101).
[DEDUCED, safe: log entry 30] -/
def State.clockLoss (s : State) : State :=
  let taps := s.tapsEnabled
  let s := (s.gate .waking).put Reg.PM_FAULT_clock_loss 1
  (s.setPw fun p => { p with ack := false, lossDue := true, needAt := s.cyc, reqAt := s.cyc }).setCk fun c => { c with stopped := taps }

/-- The acknowledge is seen low. -/
def State.ackFall (s : State) : State :=
  if !s.pw.ack then s
  else
    match s.pw.st with
    | .stopping =>
      let s := (s.passTo (s.pw.reqAt + 3)).setPw fun p => { p with ack := false }
      if s.pw.need then s.setPw fun p => { p with st := .waking, req := true, reqAt := s.cyc + 1 }
      else s.setPw fun p => { p with st := .sleep }
    | .active => s.clockLoss
    | _ => s.setPw fun p => { p with ack := false }

def execFclkAckFall (s : State) : Host.Outcome State Fault Refusal := .next s.ackFall

/-- WAKE_LATE_TIMER (R97).
[DEDUCED, safe: log entry 27] -/
def State.wakeLate (s : State) : State :=
  if s.pw.req && !s.pw.ack && !s.pw.lateDue && !s.pw.quiet && (s.pw.st == .waking || s.pw.st == .fastReset) then
    ((s.passTo (s.pw.reqAt + 366)).put Reg.PM_FAULT_wake_late 1).setPw fun p => { p with lateDue := true }
  else s

def execWakeLateTimer (s : State) : Host.Outcome State Fault Refusal := .next s.wakeLate

/-- The fast domain has work pending or in progress, so it is not idle (R98). -/
def State.working (s : State) : Bool := s.holdRead || s.holdWork

/-- FAST_CLOCK_RELEASE: no holder is active, and the fast domain has been idle for `PM_IDLE_HOLD` cycles (R98).
[DEDUCED, unsafe: log entry 28] -/
def State.clockRelease (s : State) : State :=
  if !s.active then s
  else if s.working then s.need
  else if s.tapsEnabled || s.holdCtrl then s
  else
    let t := s.passTo (max (s.pw.idleFrom + s.get Reg.PM_IDLE_HOLD_cycles) s.pw.regHold)
    if t.held then s.need
    else (t.gate .stopping).setPw fun p => { p with req := false, reqAt := t.cyc, need := false }

def execFastClockRelease (s : State) : Host.Outcome State Fault Refusal := .next s.clockRelease

/-! ### Start-up -/

/-- FAST_RESET_RELEASE. -/
def State.fastRelease (s : State) : State := (s.judgeOrder.setPw fun p => { p with fastRst := false }).startIf

def execFastResetRelease (s : State) : Host.Outcome State Fault Refusal := .next s.fastRelease

/-- WARM_RESET_RELEASE (R119). -/
def execWarmResetRelease (s : State) : Host.Outcome State Fault Refusal :=
  .next (if s.pw.st == .fastReset && s.pw.intF then s.intFDone.startIf else s)

/-- SRAM_INIT_DONE: on to ROM boot.
[DESIGN CHOICE, unsafe: log entry 29] -/
def execSramInitDone (s : State) : Host.Outcome State Fault Refusal :=
  .next (if s.active && s.pw.sramInit then ((s.setPw fun p => { p with sramInit := false }).put Reg.PM_BOOT_stage 3).need else s)

/-! ### Time on an empty queue -/

/-- One AON cycle with no command: the idle time of R98 runs while the fast domain has no work, the order of the resets is judged,
a change of lap is seen (R220), and pennants reach their consumers. -/
def State.idle (s : State) : State :=
  let s := s.passTo (s.cyc + 1)
  let s := if s.active && s.working then s.need else s
  s.judgeOrder.lapWatch.settle

/-! ### Debug access (R74, R89, R90) -/

/-- SEC_AUTH_CHANGE. -/
def execSecAuthChange (level : Bool) (s : State) : Host.Outcome State Fault Refusal := .next { s with secAuth := level }

/-- DEBUG_SHIFT_DR. -/
def execDebugShiftDr (tdi : Bool) (s : State) : Host.Outcome State Fault Refusal :=
  .next { s with dbg := { s.dbg with tdo := bit s.dbg.dr 0, dr := s.dbg.dr / 2 + b2n tdi * 2 ^ 53 } }

/-- What Capture-DR takes: operation 0, the last access's offset, read data and status. -/
def Debug.captured (d : Debug) : Nat := d.status * 2 ^ 52 + d.rdata * 2 ^ 20 + d.lastOff

/-- DEBUG_CAPTURE_DR. -/
def execDebugCaptureDr (s : State) : Host.Outcome State Fault Refusal :=
  .next { s with dbg := { s.dbg with dr := s.dbg.captured } }

/-- The access in the debug data register, as requester 15; none for operations 0 and 3. -/
def Debug.issued (d : Debug) : Option Access :=
  let op := d.dr % 4
  if op = 1 ∨ op = 2 then some { req := 15, port := false, write := op == 2, off := 4 * bits d.dr 2 18, val := bits d.dr 20 32 } else none

/-- DEBUG_UPDATE_DR. -/
def execDebugUpdateDr (s : State) : Host.Outcome State Fault Refusal :=
  .next (match s.dbg.issued with | some a => s.access a | none => s)

/-- DEBUG_RESET: the register clears; an access under way completes, and its result is discarded. -/
def execDebugReset (s : State) : Host.Outcome State Fault Refusal :=
  .next { s with dbg := { s.dbg with dr := 0, tdo := false, discard := s.debugBusy } }

end Sys2Proof.Machine
end

