-- ==== Sys2Proof/Machine/Rv32.lean ====
section
/-! DEFINITION. Encodings of RV32IMC and Zicsr (R510) as the RISC-V specifications define them: the fields of a 32-bit
instruction, its immediates, the expansion of a compressed instruction, and the arithmetic of OP and M. -/

namespace Sys2Proof.Machine

/-! ### Fields and immediates -/

def rvOp (w : Nat) : Nat := bits w 0 7
def rvRd (w : Nat) : Nat := bits w 7 5
def rvF3 (w : Nat) : Nat := bits w 12 3
def rvRs1 (w : Nat) : Nat := bits w 15 5
def rvRs2 (w : Nat) : Nat := bits w 20 5
def rvF7 (w : Nat) : Nat := bits w 25 7

/-- A `w`-bit two's complement value as a word. -/
def sext (w n : Nat) : Word := BitVec.ofInt 32 (toSigned w n)

def immI (w : Nat) : Word := sext 12 (bits w 20 12)
def immS (w : Nat) : Word := sext 12 (bits w 7 5 + 2 ^ 5 * bits w 25 7)
def immB (w : Nat) : Word := sext 13 (2 * bits w 8 4 + 2 ^ 5 * bits w 25 6 + 2 ^ 11 * bits w 7 1 + 2 ^ 12 * bits w 31 1)
def immU (w : Nat) : Word := BitVec.ofNat 32 (2 ^ 12 * bits w 12 20)
def immJ (w : Nat) : Word := sext 21 (2 * bits w 21 10 + 2 ^ 11 * bits w 20 1 + 2 ^ 12 * bits w 12 8 + 2 ^ 20 * bits w 31 1)

/-! ### Encoders for the expansion -/

def encR (f7 rs2 rs1 f3 rd op : Nat) : Nat := op + 2 ^ 7 * rd + 2 ^ 12 * f3 + 2 ^ 15 * rs1 + 2 ^ 20 * rs2 + 2 ^ 25 * f7
def encI (imm rs1 f3 rd op : Nat) : Nat := op + 2 ^ 7 * rd + 2 ^ 12 * f3 + 2 ^ 15 * rs1 + 2 ^ 20 * (imm % 2 ^ 12)
def encS (imm rs2 rs1 f3 op : Nat) : Nat :=
  op + 2 ^ 7 * bits imm 0 5 + 2 ^ 12 * f3 + 2 ^ 15 * rs1 + 2 ^ 20 * rs2 + 2 ^ 25 * bits imm 5 7
def encB (imm rs2 rs1 f3 : Nat) : Nat :=
  0x63 + 2 ^ 7 * bits imm 11 1 + 2 ^ 8 * bits imm 1 4 + 2 ^ 12 * f3 + 2 ^ 15 * rs1 + 2 ^ 20 * rs2 + 2 ^ 25 * bits imm 5 6 +
    2 ^ 31 * bits imm 12 1
def encJ (imm rd : Nat) : Nat :=
  0x6F + 2 ^ 7 * rd + 2 ^ 12 * bits imm 12 8 + 2 ^ 20 * bits imm 11 1 + 2 ^ 21 * bits imm 1 10 + 2 ^ 31 * bits imm 20 1

/-- The low `w` bits of the sign extension of an `n`-bit field, for an encoder. -/
def sx (n w v : Nat) : Nat := ofSigned w (toSigned n v)

/-! ### Compressed instructions -/

/-- Quadrant 0. -/
def expandC0 (c : Nat) : Option Nat :=
  let rd := 8 + bits c 2 3
  let rs := 8 + bits c 7 3
  let off := 2 ^ 3 * bits c 10 3 + 2 ^ 2 * bits c 6 1 + 2 ^ 6 * bits c 5 1
  let addi := 2 ^ 4 * bits c 11 2 + 2 ^ 6 * bits c 7 4 + 2 ^ 2 * bits c 6 1 + 2 ^ 3 * bits c 5 1
  match bits c 13 3 with
  | 0 => if addi = 0 then none else some (encI addi 2 0 rd 0x13)
  | 2 => some (encI off rs 2 rd 0x03)
  | 6 => some (encS off rd rs 2 0x23)
  | _ => none

/-- C.J and C.JAL's offset. -/
def offCJ (c : Nat) : Nat :=
  sx 12 21 (2 ^ 11 * bits c 12 1 + 2 ^ 4 * bits c 11 1 + 2 ^ 8 * bits c 9 2 + 2 ^ 10 * bits c 8 1 + 2 ^ 6 * bits c 7 1 + 2 ^ 7 * bits c 6 1 +
    2 * bits c 3 3 + 2 ^ 5 * bits c 2 1)

/-- C.BEQZ and C.BNEZ's offset. -/
def offCB (c : Nat) : Nat :=
  sx 9 13 (2 ^ 8 * bits c 12 1 + 2 ^ 3 * bits c 10 2 + 2 ^ 6 * bits c 5 2 + 2 * bits c 3 2 + 2 ^ 5 * bits c 2 1)

/-- Quadrant 1's arithmetic on the eight popular registers. -/
def expandC1Alu (c : Nat) : Option Nat :=
  let rs := 8 + bits c 7 3
  let rt := 8 + bits c 2 3
  let sh := bits c 2 5
  match bits c 10 2 with
  | 0 => if bit c 12 then none else some (encR 0 sh rs 5 rs 0x13)
  | 1 => if bit c 12 then none else some (encR 0x20 sh rs 5 rs 0x13)
  | 2 => some (encI (sx 6 12 (2 ^ 5 * bits c 12 1 + sh)) rs 7 rs 0x13)
  | _ =>
    if bit c 12 then none
    else
      match bits c 5 2 with
      | 0 => some (encR 0x20 rt rs 0 rs 0x33)
      | 1 => some (encR 0 rt rs 4 rs 0x33)
      | 2 => some (encR 0 rt rs 6 rs 0x33)
      | _ => some (encR 0 rt rs 7 rs 0x33)

/-- Quadrant 1. -/
def expandC1 (c : Nat) : Option Nat :=
  let rd := bits c 7 5
  let n := 2 ^ 5 * bits c 12 1 + bits c 2 5
  let sp := 2 ^ 9 * bits c 12 1 + 2 ^ 4 * bits c 6 1 + 2 ^ 6 * bits c 5 1 + 2 ^ 7 * bits c 3 2 + 2 ^ 5 * bits c 2 1
  match bits c 13 3 with
  | 0 => some (encI (sx 6 12 n) rd 0 rd 0x13)
  | 1 => some (encJ (offCJ c) 1)
  | 2 => some (encI (sx 6 12 n) 0 0 rd 0x13)
  | 3 =>
    if rd = 2 then (if sp = 0 then none else some (encI (sx 10 12 sp) 2 0 2 0x13))
    else if n = 0 then none
    else some (0x37 + 2 ^ 7 * rd + 2 ^ 12 * sx 6 20 n)
  | 4 => expandC1Alu c
  | 5 => some (encJ (offCJ c) 0)
  | 6 => some (encB (offCB c) 0 (8 + bits c 7 3) 0)
  | _ => some (encB (offCB c) 0 (8 + bits c 7 3) 1)

/-- Quadrant 2. -/
def expandC2 (c : Nat) : Option Nat :=
  let rd := bits c 7 5
  let rs2 := bits c 2 5
  match bits c 13 3 with
  | 0 => if bit c 12 then none else some (encR 0 rs2 rd 1 rd 0x13)
  | 2 => if rd = 0 then none else some (encI (2 ^ 5 * bits c 12 1 + 2 ^ 2 * bits c 4 3 + 2 ^ 6 * bits c 2 2) 2 2 rd 0x03)
  | 4 =>
    if bit c 12 then
      (if rs2 ≠ 0 then some (encR 0 rs2 rd 0 rd 0x33) else if rd = 0 then some 0x00100073 else some (encI 0 rd 0 1 0x67))
    else (if rs2 ≠ 0 then some (encR 0 rs2 0 0 rd 0x33) else if rd = 0 then none else some (encI 0 rd 0 0 0x67))
  | 6 => some (encS (2 ^ 2 * bits c 9 4 + 2 ^ 6 * bits c 7 2) rs2 2 2 0x23)
  | _ => none

/-- The 32-bit instruction a compressed one stands for; none is illegal. -/
def expandC (c : Nat) : Option Nat :=
  match c % 4 with
  | 0 => expandC0 c
  | 1 => expandC1 c
  | _ => expandC2 c

/-! ### Arithmetic -/

/-- OP and OP-IMM without M: `alt` is bit 30. -/
def rvAlu (f3 : Nat) (alt : Bool) (a b : Word) : Word :=
  match f3 with
  | 0 => if alt then a - b else a + b
  | 1 => a <<< (b.toNat % 32)
  | 2 => if a.slt b then 1 else 0
  | 3 => if a.ult b then 1 else 0
  | 4 => a ^^^ b
  | 5 => if alt then a.sshiftRight (b.toNat % 32) else a >>> (b.toNat % 32)
  | 6 => a ||| b
  | _ => a &&& b

/-- M: a division by 0 answers −1 with remainder `a`; the quotient of the most negative number by −1 is itself. -/
def rvMul (f3 : Nat) (a b : Word) : Word :=
  match f3 with
  | 0 => a * b
  | 1 => BitVec.ofInt 32 (a.toInt * b.toInt / 2 ^ 32)
  | 2 => BitVec.ofInt 32 (a.toInt * b.toNat / 2 ^ 32)
  | 3 => BitVec.ofNat 32 (a.toNat * b.toNat / 2 ^ 32)
  | 4 => if b = 0 then BitVec.allOnes 32 else BitVec.ofInt 32 (Int.tdiv a.toInt b.toInt)
  | 5 => if b = 0 then BitVec.allOnes 32 else BitVec.ofNat 32 (a.toNat / b.toNat)
  | 6 => if b = 0 then a else BitVec.ofInt 32 (Int.tmod a.toInt b.toInt)
  | _ => if b = 0 then a else BitVec.ofNat 32 (a.toNat % b.toNat)

/-- Whether a branch is taken; none for the two reserved codes. -/
def rvBranch (f3 : Nat) (a b : Word) : Option Bool :=
  match f3 with
  | 0 => some (a == b)
  | 1 => some (a != b)
  | 4 => some (a.slt b)
  | 5 => some (!(a.slt b))
  | 6 => some (a.ult b)
  | 7 => some (!(a.ult b))
  | _ => none

/-- OP: base, `alt` forms of ADD and SRL, and M; none is illegal. -/
def rvOpR (f7 f3 : Nat) (a b : Word) : Option Word :=
  if f7 = 0 then some (rvAlu f3 false a b)
  else if f7 = 1 then some (rvMul f3 a b)
  else if f7 = 0x20 ∧ (f3 = 0 ∨ f3 = 5) then some (rvAlu f3 true a b)
  else none

/-- OP-IMM; shifts take their amount from the low five bits under an exact upper field. -/
def rvOpI (w : Nat) (a : Word) : Option Word :=
  let f3 := rvF3 w
  let f7 := rvF7 w
  if f3 = 1 then (if f7 = 0 then some (rvAlu 1 false a (immI w)) else none)
  else if f3 = 5 then
    (if f7 = 0 then some (rvAlu 5 false a (immI w)) else if f7 = 0x20 then some (rvAlu 5 true a (immI w)) else none)
  else some (rvAlu f3 false a (immI w))

end Sys2Proof.Machine
end

