-- ==== Sys2Proof/Machine/Steward.lean ====
section
/-! DEFINITION. The steward processor (R510–R518): its registers and CSRs, traps, its memory map with poisoned codewords and
the register window, one instruction of RV32IMC with Zicsr, and Xbospen. -/

namespace Sys2Proof.Machine

/-! ### Registers, CSRs, traps (R510, R511) -/

def State.hart (s : State) : Hart := s.st.hart

def State.xreg (s : State) (r : Nat) : Word := if r = 0 then 0 else s.hart.xs.getD r 0

/-- Write a register; x0 discards. -/
def State.setX (s : State) (r : Nat) (v : Word) : State :=
  if r = 0 then s else s.setHart fun h => { h with xs := modAt h.xs r fun _ => v }

/-- Go to `pc`; the watchdog does not count in ROM (R521). -/
def State.goto (s : State) (pc : Nat) : State :=
  let s := if s.hart.inRom == decide (pc % 2 ^ 32 < 0x10000) then s else s.wdSync
  s.setHart fun h => { h with pc := pc % 2 ^ 32, inRom := decide (pc % 2 ^ 32 < 0x10000) }

/-- The instruction retires. -/
def State.retire (s : State) : State := s.setHart fun h => { h with minstret := (h.minstret + 1) % 2 ^ 64 }

/-- Take a trap: `mepc`, `mcause`, `mtval`, the interrupt enable saved and cleared, and the pc at the vector; interrupts of
a vectored base go to base + 4·cause. -/
def State.trapTo (s : State) (interrupt : Bool) (cause tval : Nat) : State :=
  let h := s.hart
  let base := h.mtvec / 4 * 4
  let s := s.setHart fun h => { h with mepc := h.pc, mcause := cause + (if interrupt then 2 ^ 31 else 0), mtval := tval % 2 ^ 32
                                       mpie := h.mie_, mie_ := false }
  s.goto (base + if interrupt && h.mtvec % 4 == 1 then 4 * cause else 0)

/-- An exception whose `mtval` the RISC-V specification lets be its value or 0: which is free. -/
def State.trapVal (s : State) (cause v : Nat) : State := s.draw.trapTo false cause (if s.drawn 1 = 0 then 0 else v)

/-- `mstatus`: MIE, MPIE, and MPP fixed at machine mode. -/
def Hart.mstatus (h : Hart) : Nat := 0x1800 + 2 ^ 7 * b2n h.mpie + 2 ^ 3 * b2n h.mie_

/-- A CSR's value; none where there is no such CSR. `mcycle` counts steward cycles, which the model does not: it is free.
[DESIGN CHOICE, safe: log entry 161]
[DEDUCED, unsafe: log entry 162] -/
def State.csr? (s : State) (n : Nat) : Option Nat :=
  let h := s.hart
  if n = 0x300 then some h.mstatus
  else if n = 0x301 then some 0x40801104
  else if n = 0x304 then some h.mie
  else if n = 0x305 then some h.mtvec
  else if n = 0x340 then some h.mscratch
  else if n = 0x341 then some h.mepc
  else if n = 0x342 then some h.mcause
  else if n = 0x343 then some h.mtval
  else if n = 0x344 then some s.mip
  else if n = 0xB00 ∨ n = 0xB80 then some (s.drawn 32)
  else if n = 0xB02 then some (h.minstret % 2 ^ 32)
  else if n = 0xB82 then some (h.minstret / 2 ^ 32)
  else if n = 0xF13 then some (s.rd Reg.GL_VERSION)
  else if n = 0x310 ∨ n = 0x320 ∨ (0x323 ≤ n ∧ n < 0x340) ∨ (0xB03 ≤ n ∧ n < 0xB20) ∨ (0xB83 ≤ n ∧ n < 0xBA0) ∨ n = 0xF11 ∨ n = 0xF12 ∨
      n = 0xF14 ∨ n = 0xF15 then some 0
  else none

/-- A write of a CSR: only the fields that machine mode alone leaves writable. -/
def State.setCsr (s : State) (n v : Nat) : State :=
  if n = 0x300 then s.setHart fun h => { h with mie_ := bit v 3, mpie := bit v 7 }
  else if n = 0x304 then s.setHart fun h => { h with mie := v &&& 0x880 }
  else if n = 0x305 then s.setHart fun h => { h with mtvec := v / 4 * 4 + (if v % 4 < 2 then v % 4 else h.mtvec % 4) }
  else if n = 0x340 then s.setHart fun h => { h with mscratch := v }
  else if n = 0x341 then s.setHart fun h => { h with mepc := v / 2 * 2 }
  else if n = 0x342 then s.setHart fun h => { h with mcause := v }
  else if n = 0x343 then s.setHart fun h => { h with mtval := v }
  else if n = 0xB02 then s.setHart fun h => { h with minstret := h.minstret / 2 ^ 32 * 2 ^ 32 + v }
  else if n = 0xB82 then s.setHart fun h => { h with minstret := h.minstret % 2 ^ 32 + 2 ^ 32 * v }
  else s

/-! ### Memory (R512, R513, R515) -/

/-- A memory access of the hart: its value, or the exception it raises. -/
inductive HartAcc where
  | ok (v : Nat)
  | trap (cause : Nat)
deriving DecidableEq, Repr

/-- ROM bytes. -/
def romBytes (a n : Nat) : List Byte := (upto n).map fun i => Config.romByte (a + i)

/-- A poisoned codeword of the data memory lies in the range. -/
def State.dmPoisoned (s : State) (a n : Nat) : Bool :=
  lostIn s.st.dmBad a n

def State.poisonTrap (s : State) : State := s.bump Reg.ST_FAULTS_poison 1

/-- Two bytes of an instruction. -/
def State.fetchHalf (s : State) (a : Nat) : State × HartAcc :=
  if a + 2 ≤ 0x10000 then (s, .ok (leNat (romBytes a 2)))
  else if 0x10000000 ≤ a ∧ a + 2 ≤ 0x10000000 + s.imSize then
    let o := a - 0x10000000
    if s.st.imBad.contains (s.st.bank, o / 32) then (s.poisonTrap, .trap 1) else (s, .ok (s.activeBank.code.nat o 2))
  else (s, .trap 1)

/-- The first access that the block refuses since `refused` was last cleared (R513). -/
def State.noteRefused (s : State) (off : Nat) : State :=
  if s.get Reg.ST_ACC_refused = 1 then s else (s.put Reg.ST_ACC_refused 1).put Reg.ST_ACC_offset off

/-- A record of a load or store on the trace unit (R457). -/
def stewTrace (wr : Bool) (a n v : Nat) : TraceIn :=
  { steward := true, kind := if wr then 1 else 0, addr := BitVec.ofNat 52 a, data := BitVec.ofNat 64 v, size := BitVec.ofNat 4 n
    priv := true, sec := false }

/-- A load from the register window (R514). -/
def State.windowLoad (s : State) (off : Nat) : State × HartAcc := ((s.busRead 14 off).2, .ok (s.busRead 14 off).1)

/-- A load of `n` bytes. -/
def State.loadMem (s : State) (a n : Nat) : State × HartAcc :=
  if a % n ≠ 0 then (s, .trap 4)
  else if a + n ≤ 0x10000 then (s, .ok (leNat (romBytes a n)))
  else if 0x10000000 ≤ a ∧ a + n ≤ 0x10000000 + s.imSize then (s, .ok (s.activeBank.code.nat (a - 0x10000000) n))
  else if 0x20000000 ≤ a ∧ a + n ≤ 0x20000000 + s.dmemSize then
    if s.dmPoisoned (a - 0x20000000) n then (s.poisonTrap, .trap 5) else (s, .ok (s.dmem.nat (a - 0x20000000) n))
  else if 0x40000000 ≤ a ∧ a < 0x40100000 ∧ n = 4 then
    s.windowLoad (a - 0x40000000)
  else (s, .trap 5)

/-- A store of `n` bytes.
[DESIGN CHOICE, unsafe: log entry 140] -/
def State.storeMem (s : State) (a n v : Nat) : State × HartAcc :=
  if a % n ≠ 0 then (s, .trap 6)
  else if 0x20000000 ≤ a ∧ a + n ≤ 0x20000000 + s.dmemSize then (s.dmWrite (a - 0x20000000) (leBytes n v), .ok 0)
  else if 0x40000000 ≤ a ∧ a < 0x40100000 ∧ n = 4 then
    let r := s.busWrite 14 (a - 0x40000000) v
    ((if r.2 then r.1 else r.1.noteRefused (a - 0x40000000)), .ok 0)
  else (s, .trap 7)

/-- A data access as the hart makes it: it waits out a stall of the trace unit, and is traced when it completes.
[DEDUCED, safe: log entry 163]
[DEDUCED, safe: log entry 165] -/
def State.dataAccess (s : State) (wr : Bool) (a n v : Nat) : State × HartAcc :=
  let s := s.traceWait
  let r := if wr then s.storeMem a n v else s.loadMem a n
  match r.2 with
  | .ok x => (r.1.traceRecord (stewTrace wr a n (if wr then v % 2 ^ (8 * n) else x)), r.2)
  | .trap _ => r

/-! ### Xbospen (R516–R518) -/

def State.slot? (s : State) (i : Nat) : Option Staged := s.st.slots.getD i none

def State.setSlot (s : State) (i : Nat) (x : Option Staged) : State := s.setSt fun t => { t with slots := modAt t.slots i fun _ => x }

/-- `pn.open`. -/
def State.pnOpen (s : State) (a b : Nat) : State × Nat :=
  match (upto 4).find? fun i => (s.slot? i).isNone with
  | none => (s, 2 ^ 32 - 1)
  | some i => (s.setSlot i (some { b01 := a % 2 ^ 16, job := b % 2 ^ 12, pay := List.replicate 44 0 }), i)

/-- `pn.put`. -/
def State.pnPut (s : State) (a b : Nat) : State × Nat :=
  match s.slot? (a % 4) with
  | none => (s, 1)
  | some x =>
    let w := bits a 4 4
    if 10 < w then (s, 1)
    else (s.setSlot (a % 4) (some { x with pay := x.pay.take (4 * w) ++ leBytes 4 b ++ x.pay.drop (4 * w + 4) }), 0)

/-- `pn.drop`. -/
def State.pnDrop (s : State) (a : Nat) : State × Nat :=
  match s.slot? (a % 4) with
  | none => (s, 1)
  | some _ => (s.setSlot (a % 4) none, 0)

/-- `pn.send` (R517): offered exactly as a SEND is. -/
def State.pnSend (s : State) (a : Nat) : State × Nat :=
  match s.slot? (a % 4) with
  | none => (s, Code.QE_BAD_CMD)
  | some x =>
    let s := s.setSlot (a % 4) none
    let b := x.b01
    if bits b 12 2 = 3 ∨ (bit b 14 && bit b 15) = true ∨ (bit b 15 && !s.tray) = true then (s, Code.QE_BAD_CMD)
    else
      let fn := typFunc (s.typeOf false (b % 2 ^ 12))
      let p := s.offer { func := fn, b01 := some b, unit := Unit_.firmware, level := if s.tray then s.duty else 0, job := x.job, pay := x.pay }
      ((if p.1 = Code.OK ∧ fn = 9 ∧ !s.tray then p.2.notice 21 else p.2), p.1)

/-- `db.ring`. -/
def State.dbRing (s : State) (a : Nat) : State × Nat :=
  let n := a % 2 ^ 11
  (s.doorbell n false, if n = 0 ∨ s.srcCount ≤ n then 2 else if s.srcPending n then 1 else 0)

/-- `tm.rd`. -/
def State.tmRd (s : State) (a : Nat) : State × Nat :=
  if a % 2 = 0 then (s.setSt fun t => { t with tmHigh := s.fleet / 2 ^ 32 }, s.fleet % 2 ^ 32) else (s, s.st.tmHigh)

/-- One Xbospen action by `funct3`; none is illegal. -/
def State.xbospen (s : State) (f3 a b : Nat) : Option (State × Nat) :=
  match f3 with
  | 0 => some (s.pnOpen a b)
  | 1 => some (s.pnPut a b)
  | 2 => some (s.pnDrop a)
  | 3 => some (s.pnSend a)
  | 4 => some (s.dbRing a)
  | 5 => some (s.tmRd a)
  | _ => none

/-! ### One instruction -/

/-- Illegal instruction. -/
def State.illegal (s : State) (w : Nat) : State := s.trapVal 2 w

/-- Write `rd`, go on after `len` bytes, retire. -/
def State.result (s : State) (w len : Nat) (v : Word) : State := ((s.setX (rvRd w) v).goto (s.hart.pc + len)).retire

/-- The steward was reset by its own store.
[DEDUCED, safe: log entry 167] -/
def State.hartGone (s : State) : Bool := !s.active || !s.st.runs

/-- Loads. -/
def State.rvLoad (s : State) (w len : Nat) : State :=
  let f3 := rvF3 w
  if f3 = 3 ∨ 6 ≤ f3 then s.illegal w
  else
    let n := 2 ^ (f3 % 4)
    let a := (s.xreg (rvRs1 w) + immI w).toNat
    let r := s.dataAccess false a n 0
    match r.2 with
    | .trap c => r.1.trapVal c a
    | .ok v => r.1.result w len (if f3 < 3 then sext (8 * n) v else BitVec.ofNat 32 v)

/-- Stores. -/
def State.rvStore (s : State) (w len : Nat) : State :=
  let f3 := rvF3 w
  if 3 ≤ f3 then s.illegal w
  else
    let n := 2 ^ f3
    let a := (s.xreg (rvRs1 w) + immS w).toNat
    let r := s.dataAccess true a n (s.xreg (rvRs2 w)).toNat
    match r.2 with
    | .trap c => r.1.trapVal c a
    | .ok _ => if r.1.hartGone then r.1 else (r.1.goto (s.hart.pc + len)).retire

/-- Zicsr: the old value to `rd`; a set or clear with no operand bits named does not write. -/
def State.rvCsr (s : State) (w len : Nat) : State :=
  let f3 := rvF3 w
  let n := bits w 20 12
  let src := if f3 < 4 then (s.xreg (rvRs1 w)).toNat else rvRs1 w
  let writes := f3 % 4 == 1 || rvRs1 w != 0
  match s.csr? n with
  | none => s.illegal w
  | some old =>
    if writes && n / 2 ^ 10 == 3 then s.illegal w
    else
      let v := if f3 % 4 = 1 then src else if f3 % 4 = 2 then old ||| src else old &&& (2 ^ 32 - 1 - src)
      let s := if n = 0xB00 ∨ n = 0xB80 then s.draw else s
      let t := (s.setX (rvRd w) (BitVec.ofNat 32 old)).goto (s.hart.pc + len)
      -- a write of `minstret` takes the place of the count of its own instruction
      if writes && (n == 0xB02 || n == 0xB82) then t.setCsr n v
      else (if writes then t.setCsr n v else t).retire

/-- SYSTEM. -/
def State.rvSystem (s : State) (w len : Nat) : State :=
  if rvF3 w = 0 then
    if w = 0x00000073 then s.trapTo false 11 0
    else if w = 0x00100073 then s.trapVal 3 s.hart.pc
    else if w = 0x30200073 then
      ((s.setHart fun h => { h with mie_ := h.mpie, mpie := true }).goto s.hart.mepc).retire
    else if w = 0x10500073 then
      let s := (s.goto (s.hart.pc + len)).retire
      if s.mip &&& s.hart.mie = 0 then s.wdSync.setHart fun h => { h with wfi := true } else s
    else s.illegal w
  else if rvF3 w = 4 then s.illegal w
  else s.rvCsr w len

/-- Xbospen: `funct7` must be 0. A commit that drains the halyard's fields holds `pn.send`: the hart waits at it (R142). -/
def State.rvCustom (s : State) (w len : Nat) : State :=
  if rvF7 w ≠ 0 then s.illegal w
  else if rvF3 w = 3 ∧ (s.drainHas 0x0B || s.drainHas 0x13) = true then s
  else
    match s.xbospen (rvF3 w) (s.xreg (rvRs1 w)).toNat (s.xreg (rvRs2 w)).toNat with
    | none => s.illegal w
    | some (t, v) => t.result w len (BitVec.ofNat 32 v)

/-- Execute the 32-bit instruction `w`, which took `len` bytes of code. -/
def State.rvExec (s : State) (w len : Nat) : State :=
  let pc := BitVec.ofNat 32 s.hart.pc
  let a := s.xreg (rvRs1 w)
  let b := s.xreg (rvRs2 w)
  match rvOp w with
  | 0x37 => s.result w len (immU w)
  | 0x17 => s.result w len (pc + immU w)
  | 0x6F => ((s.setX (rvRd w) (pc + BitVec.ofNat 32 len)).goto (pc + immJ w).toNat).retire
  | 0x67 =>
    if rvF3 w = 0 then ((s.setX (rvRd w) (pc + BitVec.ofNat 32 len)).goto ((a + immI w).toNat / 2 * 2)).retire else s.illegal w
  | 0x63 =>
    match rvBranch (rvF3 w) a b with
    | none => s.illegal w
    | some t => (s.goto (if t then (pc + immB w).toNat else s.hart.pc + len)).retire
  | 0x03 => s.rvLoad w len
  | 0x23 => s.rvStore w len
  | 0x13 => match rvOpI w a with | some v => s.result w len v | none => s.illegal w
  | 0x33 => match rvOpR (rvF7 w) (rvF3 w) a b with | some v => s.result w len v | none => s.illegal w
  | 0x0F => if rvF3 w = 0 then (s.goto (s.hart.pc + len)).retire else s.illegal w
  | 0x73 => s.rvSystem w len
  | 0x0B => s.rvCustom w len
  | _ => s.illegal w

/-- Fetch and execute at the pc. -/
def State.rvStep (s : State) : State :=
  let pc := s.hart.pc
  let r := s.fetchHalf pc
  match r.2 with
  | .trap c => r.1.trapVal c pc
  | .ok lo =>
    if lo % 4 ≠ 3 then
      match expandC lo with
      | some w => r.1.rvExec w 2
      | none => r.1.illegal lo
    else
      let q := r.1.fetchHalf ((pc + 2) % 2 ^ 32)
      match q.2 with
      | .trap c => q.1.trapVal c (pc + 2)
      | .ok hi => q.1.rvExec (lo + 2 ^ 16 * hi) 4

/-- Interrupts that may be taken: MEI before MTI. -/
def State.interrupt? (s : State) : Option Nat :=
  let m := s.mip &&& s.hart.mie
  if !s.hart.mie_ || m == 0 then none else if bit m 11 then some 11 else some 7

/-- The hart issues: it runs an image, the fast domain runs, and it is not waiting (R511). -/
def State.issues (s : State) : Bool :=
  s.active && s.st.runs && (!s.hart.wfi || s.mip &&& s.hart.mie != 0)

/-- A waiting hart goes on.
[DEDUCED, safe: log entry 164] -/
def State.wakeHart (s : State) : State := if s.hart.wfi then s.wdSync.setHart fun h => { h with wfi := false } else s

/-- One step of the hart: an interrupt's entry or one instruction; a swap takes effect at the boundary (R531).
[DESIGN CHOICE, unsafe: log entry 160] -/
def State.stewardStep (s : State) : State :=
  let s := s.wakeHart
  match s.interrupt? with
  | some c => (s.trapTo true c 0).swapBanks
  | none => s.rvStep.swapBanks

/-- STEWARD_INSTRUCTION. -/
def execStewardInstruction (s : State) : Host.Outcome State Fault Refusal :=
  .next (if s.issues then s.need.stewardStep else s)

/-- One Xbospen instruction in the hart's stream: 4 bytes of code with these registers.
[DESIGN CHOICE, unsafe: log entry 166] -/
def State.xbospenRow (s : State) (f3 : Nat) (rd rs1 rs2 : BitVec 5) : State :=
  if s.issues then (s.wakeHart.rvExec (encR 0 rs2.toNat rs1.toNat f3 rd.toNat 0x0B) 4).swapBanks else s

/-- PN_OPEN. -/
def execPnOpen (rd rs1 rs2 : BitVec 5) (s : State) : Host.Outcome State Fault Refusal := .next (s.xbospenRow 0 rd rs1 rs2)

/-- PN_PUT. -/
def execPnPut (rd rs1 rs2 : BitVec 5) (s : State) : Host.Outcome State Fault Refusal := .next (s.xbospenRow 1 rd rs1 rs2)

/-- PN_DROP. -/
def execPnDrop (rd rs1 rs2 : BitVec 5) (s : State) : Host.Outcome State Fault Refusal := .next (s.xbospenRow 2 rd rs1 rs2)

/-- PN_SEND. -/
def execPnSend (rd rs1 rs2 : BitVec 5) (s : State) : Host.Outcome State Fault Refusal := .next (s.xbospenRow 3 rd rs1 rs2)

/-- DB_RING. -/
def execDbRing (rd rs1 rs2 : BitVec 5) (s : State) : Host.Outcome State Fault Refusal := .next (s.xbospenRow 4 rd rs1 rs2)

/-- TM_RD. -/
def execTmRd (rd rs1 rs2 : BitVec 5) (s : State) : Host.Outcome State Fault Refusal := .next (s.xbospenRow 5 rd rs1 rs2)

end Sys2Proof.Machine
end

