-- ==== Sys2Proof/Machine/Dispatch.lean ====
section
/-! DEFINITION. The dispatch: one arm per command, each one direct call of that command's meaning. -/

namespace Sys2Proof.Machine

def exec (i : Instr) (s : State) : Host.Outcome State Fault Refusal :=
  match i with
  | .powerOn => Sys2Proof.Machine.execPowerOn s
  | .powerOff => Sys2Proof.Machine.execPowerOff s
  | .aonResetAssert => Sys2Proof.Machine.execAonResetAssert s
  | .aonResetRelease cfgRole => Sys2Proof.Machine.execAonResetRelease cfgRole s
  | .fastResetAssert => Sys2Proof.Machine.execFastResetAssert s
  | .fastResetRelease => Sys2Proof.Machine.execFastResetRelease s
  | .laneReset lane assert => Sys2Proof.Machine.execLaneReset lane assert s
  | .portReset port assert => Sys2Proof.Machine.execPortReset port assert s
  | .fastClockNeed => Sys2Proof.Machine.execFastClockNeed s
  | .dueWake => Sys2Proof.Machine.execDueWake s
  | .fclkAckRise => Sys2Proof.Machine.execFclkAckRise s
  | .fclkAckFall => Sys2Proof.Machine.execFclkAckFall s
  | .wakeLateTimer => Sys2Proof.Machine.execWakeLateTimer s
  | .fastClockRelease => Sys2Proof.Machine.execFastClockRelease s
  | .warmResetKey who data => Sys2Proof.Machine.execWarmResetKey who data s
  | .warmResetRelease => Sys2Proof.Machine.execWarmResetRelease s
  | .sramInitDone => Sys2Proof.Machine.execSramInitDone s
  | .romBoot => Sys2Proof.Machine.execRomBoot s
  | .bootGo who data => Sys2Proof.Machine.execBootGo who data s
  | .pmBootStageWrite who data => Sys2Proof.Machine.execPmBootStageWrite who data s
  | .registerWrite who addr data => Sys2Proof.Machine.execRegisterWrite who addr data s
  | .readClear who addr => Sys2Proof.Machine.execReadClear who addr s
  | .pairLowRead who addr => Sys2Proof.Machine.execPairLowRead who addr s
  | .pairHighRead who addr => Sys2Proof.Machine.execPairHighRead who addr s
  | .pairHighWrite who addr data => Sys2Proof.Machine.execPairHighWrite who addr data s
  | .pairLowWrite who addr data => Sys2Proof.Machine.execPairLowWrite who addr data s
  | .shadowWrite who addr data => Sys2Proof.Machine.execShadowWrite who addr data s
  | .liveWrite who addr data => Sys2Proof.Machine.execLiveWrite who addr data s
  | .debugUpdateDr => Sys2Proof.Machine.execDebugUpdateDr s
  | .debugCaptureDr => Sys2Proof.Machine.execDebugCaptureDr s
  | .debugReset => Sys2Proof.Machine.execDebugReset s
  | .secAuthChange level => Sys2Proof.Machine.execSecAuthChange level s
  | .eventInputCount levels => Sys2Proof.Machine.execEventInputCount levels s
  | .gapCount => Sys2Proof.Machine.execGapCount s
  | .buntingIncrement incs => Sys2Proof.Machine.execBuntingIncrement incs s
  | .hostQueueMonitor levels => Sys2Proof.Machine.execHostQueueMonitor levels s
  | .planLatch plan => Sys2Proof.Machine.execPlanLatch plan s
  | .latchBankDrain => Sys2Proof.Machine.execLatchBankDrain s
  | .sample q => Sys2Proof.Machine.execSample q s
  | .snapshot q => Sys2Proof.Machine.execSnapshot q s
  | .strikeLatch => Sys2Proof.Machine.execStrikeLatch s
  | .score q => Sys2Proof.Machine.execScore q s
  | .scoreVectorDone q => Sys2Proof.Machine.execScoreVectorDone q s
  | .scoreBound q => Sys2Proof.Machine.execScoreBound q s
  | .check q => Sys2Proof.Machine.execCheck q s
  | .tileSummary lane => Sys2Proof.Machine.execTileSummary lane s
  | .recomputeDone lane => Sys2Proof.Machine.execRecomputeDone lane s
  | .knownAnswerDone => Sys2Proof.Machine.execKnownAnswerDone s
  | .checkBound q => Sys2Proof.Machine.execCheckBound q s
  | .dump q => Sys2Proof.Machine.execDump q s
  | .send q => Sys2Proof.Machine.execSend q s
  | .waitFlag q => Sys2Proof.Machine.execWaitFlag q s
  | .waitFlagSatisfied q => Sys2Proof.Machine.execWaitFlagSatisfied q s
  | .cycleDetected q => Sys2Proof.Machine.execCycleDetected q s
  | .waitFlagTimeout q => Sys2Proof.Machine.execWaitFlagTimeout q s
  | .setFlag q => Sys2Proof.Machine.execSetFlag q s
  | .clearFlag q => Sys2Proof.Machine.execClearFlag q s
  | .waitTime q => Sys2Proof.Machine.execWaitTime q s
  | .waitTimeReached q => Sys2Proof.Machine.execWaitTimeReached q s
  | .fence q => Sys2Proof.Machine.execFence q s
  | .commandCompletion q slot => Sys2Proof.Machine.execCommandCompletion q slot s
  | .plovWatchdog q => Sys2Proof.Machine.execPlovWatchdog q s
  | .ringSlotWrite who addr data => Sys2Proof.Machine.execRingSlotWrite who addr data s
  | .queueDoorbell who q data => Sys2Proof.Machine.execQueueDoorbell who q data s
  | .swapRequest who q data => Sys2Proof.Machine.execSwapRequest who q data s
  | .queueBankSwap q => Sys2Proof.Machine.execQueueBankSwap q s
  | .queueResume who q => Sys2Proof.Machine.execQueueResume who q s
  | .queueReset who q => Sys2Proof.Machine.execQueueReset who q s
  | .predSet who data => Sys2Proof.Machine.execPredSet who data s
  | .predClr who data => Sys2Proof.Machine.execPredClr who data s
  | .flagSetExternal who data => Sys2Proof.Machine.execFlagSetExternal who data s
  | .flagClrExternal who data => Sys2Proof.Machine.execFlagClrExternal who data s
  | .doorbell who data => Sys2Proof.Machine.execDoorbell who data s
  | .claimHost who => Sys2Proof.Machine.execClaimHost who s
  | .claimSteward who => Sys2Proof.Machine.execClaimSteward who s
  | .hoistLoad who => Sys2Proof.Machine.execHoistLoad who s
  | .hoistLoadEnd => Sys2Proof.Machine.execHoistLoadEnd s
  | .hoistFeedWord who data => Sys2Proof.Machine.execHoistFeedWord who data s
  | .feedTimeout => Sys2Proof.Machine.execFeedTimeout s
  | .hoistCommit who data => Sys2Proof.Machine.execHoistCommit who data s
  | .commitSwap => Sys2Proof.Machine.execCommitSwap s
  | .commitDrainTimeout => Sys2Proof.Machine.execCommitDrainTimeout s
  | .copyBackDone => Sys2Proof.Machine.execCopyBackDone s
  | .hoistDiscard who => Sys2Proof.Machine.execHoistDiscard who s
  | .requireSigWrite who data => Sys2Proof.Machine.execRequireSigWrite who data s
  | .epochSwitch base => Sys2Proof.Machine.execEpochSwitch base s
  | .rateWrite who data => Sys2Proof.Machine.execRateWrite who data s
  | .offsetStep who data => Sys2Proof.Machine.execOffsetStep who data s
  | .todArm who data => Sys2Proof.Machine.execTodArm who data s
  | .ppsEdge tick => Sys2Proof.Machine.execPpsEdge tick s
  | .captureEdge input tick => Sys2Proof.Machine.execCaptureEdge input tick s
  | .pulseFire output => Sys2Proof.Machine.execPulseFire output s
  | .syncExchangeStart => Sys2Proof.Machine.execSyncExchangeStart s
  | .syncExchangeLost => Sys2Proof.Machine.execSyncExchangeLost s
  | .syncMiss => Sys2Proof.Machine.execSyncMiss s
  | .holdWrite who data => Sys2Proof.Machine.execHoldWrite who data s
  | .lapChange => Sys2Proof.Machine.execLapChange s
  | .memoryTapBeat tap granules drop => Sys2Proof.Machine.execMemoryTapBeat tap granules drop s
  | .memoryTapDrop tap => Sys2Proof.Machine.execMemoryTapDrop tap s
  | .trackerAgeOut region frame wr => Sys2Proof.Machine.execTrackerAgeOut region frame wr s
  | .linkTapBeat tap ingress sof eof data peer err drop => Sys2Proof.Machine.execLinkTapBeat tap ingress sof eof data peer err drop s
  | .taintEntryExpire entry => Sys2Proof.Machine.execTaintEntryExpire entry s
  | .drainedWrite who data => Sys2Proof.Machine.execDrainedWrite who data s
  | .drainLateTimer => Sys2Proof.Machine.execDrainLateTimer s
  | .laneTrainStart lane lock => Sys2Proof.Machine.execLaneTrainStart lane lock s
  | .announceTimer lane => Sys2Proof.Machine.execAnnounceTimer lane s
  | .laneBlockReceive lane block => Sys2Proof.Machine.execLaneBlockReceive lane block s
  | .laneLockLoss lane => Sys2Proof.Machine.execLaneLockLoss lane s
  | .laneReplayTimeout lane => Sys2Proof.Machine.execLaneReplayTimeout lane s
  | .laneRetrainTimer lane => Sys2Proof.Machine.execLaneRetrainTimer lane s
  | .egressBoundary egress => Sys2Proof.Machine.execEgressBoundary egress s
  | .ethernetFrameReceive port frame fcsErr => Sys2Proof.Machine.execEthernetFrameReceive port frame fcsErr s
  | .ethernetLinkChange port up => Sys2Proof.Machine.execEthernetLinkChange port up s
  | .associationRto peer => Sys2Proof.Machine.execAssociationRto peer s
  | .associationAnnounce peer => Sys2Proof.Machine.execAssociationAnnounce peer s
  | .ackTimer peer => Sys2Proof.Machine.execAckTimer peer s
  | .refusalSummary => Sys2Proof.Machine.execRefusalSummary s
  | .epochFold base => Sys2Proof.Machine.execEpochFold base s
  | .resultPublish => Sys2Proof.Machine.execResultPublish s
  | .retiredTagExpire place => Sys2Proof.Machine.execRetiredTagExpire place s
  | .cubeTokenRefill cube => Sys2Proof.Machine.execCubeTokenRefill cube s
  | .sparesAdd who data => Sys2Proof.Machine.execSparesAdd who data s
  | .admitTimeReached slot => Sys2Proof.Machine.execAdmitTimeReached slot s
  | .satWindowEnd => Sys2Proof.Machine.execSatWindowEnd s
  | .levelSatWindow => Sys2Proof.Machine.execLevelSatWindow s
  | .sensorReading id value => Sys2Proof.Machine.execSensorReading id value s
  | .droopReport monitor => Sys2Proof.Machine.execDroopReport monitor s
  | .vinPoll => Sys2Proof.Machine.execVinPoll s
  | .pmbusFwCommand who data => Sys2Proof.Machine.execPmbusFwCommand who data s
  | .pmbusTransactionEnd answer => Sys2Proof.Machine.execPmbusTransactionEnd answer s
  | .pmbusAlert => Sys2Proof.Machine.execPmbusAlert s
  | .throttleFallTimer => Sys2Proof.Machine.execThrottleFallTimer s
  | .throttleAck => Sys2Proof.Machine.execThrottleAck s
  | .throttleAckRelease => Sys2Proof.Machine.execThrottleAckRelease s
  | .throttleAckLate => Sys2Proof.Machine.execThrottleAckLate s
  | .throttleGrant level => Sys2Proof.Machine.execThrottleGrant level s
  | .hostReadResponse tag data err => Sys2Proof.Machine.execHostReadResponse tag data err s
  | .fleetStoreResponse tag data err => Sys2Proof.Machine.execFleetStoreResponse tag data err s
  | .flashOperationEnd => Sys2Proof.Machine.execFlashOperationEnd s
  | .flashBusyTimeout => Sys2Proof.Machine.execFlashBusyTimeout s
  | .traceRecord r => Sys2Proof.Machine.execTraceRecord r s
  | .lowPowerEntry => Sys2Proof.Machine.execLowPowerEntry s
  | .lowPowerExit => Sys2Proof.Machine.execLowPowerExit s
  | .traceArm who data => Sys2Proof.Machine.execTraceArm who data s
  | .traceTriggerWrite who data => Sys2Proof.Machine.execTraceTriggerWrite who data s
  | .traceOff who data => Sys2Proof.Machine.execTraceOff who data s
  | .hangDumpKey who data => Sys2Proof.Machine.execHangDumpKey who data s
  | .segmentSend engine => Sys2Proof.Machine.execSegmentSend engine s
  | .dumpBound q => Sys2Proof.Machine.execDumpBound q s
  | .engineSave who engine data => Sys2Proof.Machine.execEngineSave who engine data s
  | .engineRestore who engine data => Sys2Proof.Machine.execEngineRestore who engine data s
  | .engineReset who engine data => Sys2Proof.Machine.execEngineReset who engine data s
  | .engineImageDone engine => Sys2Proof.Machine.execEngineImageDone engine s
  | .segmentStore => Sys2Proof.Machine.execSegmentStore s
  | .contextIdleFree context => Sys2Proof.Machine.execContextIdleFree context s
  | .logRecordWrite => Sys2Proof.Machine.execLogRecordWrite s
  | .overflowMarker => Sys2Proof.Machine.execOverflowMarker s
  | .logFreeze who data => Sys2Proof.Machine.execLogFreeze who data s
  | .freezeTimeout => Sys2Proof.Machine.execFreezeTimeout s
  | .logClear who data => Sys2Proof.Machine.execLogClear who data s
  | .lifeBaseWrite who pcc data => Sys2Proof.Machine.execLifeBaseWrite who pcc data s
  | .opsecTick => Sys2Proof.Machine.execOpsecTick s
  | .lifeSave => Sys2Proof.Machine.execLifeSave s
  | .nvPageProgram => Sys2Proof.Machine.execNvPageProgram s
  | .logRebuild => Sys2Proof.Machine.execLogRebuild s
  | .scrubStep found => Sys2Proof.Machine.execScrubStep found s
  | .scrubLate => Sys2Proof.Machine.execScrubLate s
  | .stewardInstruction => Sys2Proof.Machine.execStewardInstruction s
  | .pnOpen rd rs1 rs2 => Sys2Proof.Machine.execPnOpen rd rs1 rs2 s
  | .pnPut rd rs1 rs2 => Sys2Proof.Machine.execPnPut rd rs1 rs2 s
  | .pnDrop rd rs1 rs2 => Sys2Proof.Machine.execPnDrop rd rs1 rs2 s
  | .pnSend rd rs1 rs2 => Sys2Proof.Machine.execPnSend rd rs1 rs2 s
  | .dbRing rd rs1 rs2 => Sys2Proof.Machine.execDbRing rd rs1 rs2 s
  | .tmRd rd rs1 rs2 => Sys2Proof.Machine.execTmRd rd rs1 rs2 s
  | .stewardTimer => Sys2Proof.Machine.execStewardTimer s
  | .stewardWatchdog => Sys2Proof.Machine.execStewardWatchdog s
  | .wdogKick who data => Sys2Proof.Machine.execWdogKick who data s
  | .firmwareRecord who data => Sys2Proof.Machine.execFirmwareRecord who data s
  | .imageLoad who data => Sys2Proof.Machine.execImageLoad who data s
  | .imageLoadEnd => Sys2Proof.Machine.execImageLoadEnd s
  | .imageSwap who data => Sys2Proof.Machine.execImageSwap who data s
  | .flashCommand who data => Sys2Proof.Machine.execFlashCommand who data s
  | .secFloorWrite who data => Sys2Proof.Machine.execSecFloorWrite who data s
  | .debugShiftDr tdi => Sys2Proof.Machine.execDebugShiftDr tdi s
  | .unknownOpcode q => Sys2Proof.Machine.execUnknownOpcode q s
  | .queuedPennantBound lane => Sys2Proof.Machine.execQueuedPennantBound lane s
  | .mtErrReportTimeout region frame wr => Sys2Proof.Machine.execMtErrReportTimeout region frame wr s
  | .lifeBlockReadEnd => Sys2Proof.Machine.execLifeBlockReadEnd s

end Sys2Proof.Machine
end

