-- ==== Sys2Proof/Machine/Step.lean ====
section
/-! DEFINITION. One step: the command at the front of the queue runs with the queue's rest; on an empty queue an AON cycle
passes. -/

namespace Sys2Proof.Machine

/-- Take the command at the front of the queue and run it; with none waiting, one AON cycle goes by.
[DESIGN CHOICE, safe: log entry 2]
[DESIGN CHOICE, unsafe: log entry 3]
[DESIGN CHOICE, unsafe: log entry 189] -/
def step (s : State) : Host.Outcome State Fault Refusal :=
  match s.pending with
  | [] => .next s.idle
  | c :: cs => exec c { s with pending := cs }

/-- The command that a table word spells, at the front of the queue; no row of the table has bits, so none does. -/
def State.withFetchWord (s : State) (nbits w : Nat) : State :=
  match Sys2Proof.decodeTableWord nbits w with
  | some c => { s with pending := c :: s.pending }
  | none => s

end Sys2Proof.Machine
end

