-- ==== Sys2Proof/Safety.lean ====
section
/-! DEFINITION. What counts as a safe step and a sound state, when an access is answered and a queued command starts: the terms
the statements use. -/

namespace Sys2Proof.Machine

/-- The state's memories are in canonical form, so equal contents are equal data. -/
def State.wf (s : State) : Bool :=
  Sparse.wf resetWord s.regs && Sparse.wf resetWord s.shadow && Memory.wf s.rings && Memory.wf s.fs && Memory.wf s.dmem

/-- What every run keeps: one of the two roles (R1), sixteen queues (R160) and sixteen halyard lanes (R57). -/
def State.sound (s : State) : Prop := s.role ≤ 1 ∧ s.queues.length = 16 ∧ s.hl.lanes.length = 16

/-- A step that goes on: no fault, no refusal. -/
def State.goesOn (s : State) : Prop := ∃ t, step s = .next t

/-! ### Accesses -/

/-- An access by `who` is performed at once: the fast clock runs, no access waits, the port names a requester below 14, and
a debug access has `sec_auth` (R59–R61, R90). -/
def State.ready (s : State) (who : Who) : Prop :=
  s.active = true ∧ s.waiting = [] ∧ (Who.isPort who = true → Who.num who < 14) ∧ (who = .debug → s.secAuth = true)

/-- The last answer to requester `who` (R58). -/
def State.answerTo (s : State) (who : Who) : Rsp := Sparse.get (fun _ => { req := 16, data := 0, refused := true }) s.rsps (Who.num who)

/-- The state without what answering an access changes: the answers, the debug data register's side, and the register-access
holder of R62. -/
def State.unanswered (s : State) : State :=
  { s with rsps := [], dbg := {}, pw := { s.pw with regHold := 0, idleFrom := 0 } }

/-- The command completes as an access of `who` answered with `data`, or refused, that leaves the state `u`. -/
def Answers (c : Instr) (s : State) (who : Who) (data : Nat) (refused : Bool) (u : State) : Prop :=
  ∃ t, exec c s = .next t ∧ t.answerTo who = { req := Who.num who, data := data, refused := refused } ∧ t.unanswered = u.unanswered

/-- A write is taken and leaves the state `u`, with a change of lap recorded (R220) and any image swap that stands carried out
(R531). -/
def Writes (c : Instr) (s : State) (who : Who) (u : State) : Prop := Answers c s who 0 false u.lapWatch.swapBanks

/-- A write is refused with `rp_resp` 1 and leaves the state `u`. -/
def Refuses (c : Instr) (s : State) (who : Who) (u : State) : Prop := Answers c s who 0 true u.lapWatch.swapBanks

/-- A write of `d` by a ready requester to a present register at `off` with SH fields only: no window, no rule of its own, no
half of a pair (R14, R146). -/
def State.shPlain (s : State) (who : Who) (off : Nat) (d : Word) : Prop :=
  s.ready who ∧ (off < 0x70000 ∨ 0x80000 ≤ off) ∧ s.windowWrite off d.toNat = none ∧
    (∃ r, s.reg? off = some r ∧ r.sh ≠ 0 ∧ r.rw = 0 ∧ r.w1c = 0) ∧ s.specialWrite (Who.num who) off d.toNat = none ∧
    lowHalf off = false ∧ highHalf off = false

/-! ### Queued commands -/

/-- The command `c` in slot `slot` heads queue `q`, may issue, and starts its work: no code ends it at issue, and no commit's
drain holds it. -/
def State.starts (s : State) (q slot : Nat) (c : List Byte) : Prop :=
  s.issuable q = some (slot, c) ∧ s.precheck q slot c = none ∧ s.drainHolds c = false

/-- Queue `q` has a command in flight from slot `slot` whose work has ended with `code`. -/
def State.ended (s : State) (q slot code : Nat) : Prop :=
  ∃ f ∈ (s.queue q).flights, f.slot = slot ∧ ∃ d, f.done = some d ∧ d.code = code

/-- Queue `q` has a wait standing in slot `slot` (R177, R180). -/
def State.waits (s : State) (q slot : Nat) : Prop := ∃ f ∈ (s.queue q).flights, f.slot = slot ∧ f.standing = true

/-! ### Resets -/

/-- Every register, queue, ring, log and access of `t` is at its reset state; the fleet store, the flash contents, the tap ports
built and the commands waiting are those of `s` (R100, R116). -/
def State.blankedTo (s t : State) : Prop :=
  (∀ off, t.rd off = State.reset.rd off) ∧ (∀ q, t.queue q = {}) ∧ t.rings = [] ∧ t.dmem = [] ∧ t.waiting = [] ∧ t.ev.log = [] ∧
    t.fs = s.fs ∧ t.fl.bytes = s.fl.bytes ∧ t.memTaps = s.memTaps ∧ t.linkTaps = s.linkTaps ∧ t.pending = s.pending

/-- The fast domain of `t` is reset with the cause `cause` noted (R118, R119, R122). -/
def State.fastCleanedTo (s : State) (cause : Nat) (t : State) : Prop :=
  t.pw.st = .fastReset ∧ t.pw.req = true ∧ t.rd Reg.PM_RESET_CAUSE = cause ∧ t.get Reg.PM_BOOT_stage = 1 ∧
    t.get Reg.PM_BOOT_warm_count = satAdd (2 ^ 16 - 1) (s.get Reg.PM_BOOT_warm_count) 1 ∧ t.rd Reg.GL_DUTY = 0 ∧ t.rd Reg.GL_PLACE = 0 ∧
    (∀ q, t.queue q = {}) ∧ t.rings = [] ∧ t.dmem = [] ∧ t.cf.bt = s.cf.bt ∧ t.fs = s.fs ∧ t.role = s.role ∧ t.pending = s.pending

/-! ### What a command leaves alone -/

/-- Registers outside `offs` read as before. -/
def State.regsBut (s t : State) (offs : List Nat) : Prop := ∀ off, off ∉ offs → t.rd off = s.rd off

end Sys2Proof.Machine
end

