-- ==== Sys2Proof/Certificates/Slice0/Obligations.lean ====
section
/-! DEFINITION. The statements for the provers. -/

open Sys2Proof Sys2Proof.Machine

/-- A step runs the command at the front of the queue. For every command c and state s whose queue begins with c, step s is exec
of c on s with the queue's rest. (That commands wait in a queue is the model's form: log entry 2.) -/
def Obligations.StepRunsTheFrontCommand : Prop :=
  ∀ (c : Instr) (cs : List Instr) (s : State), s.pending = c :: cs → step s = exec c { s with pending := cs }

/-- With no command waiting, one AON cycle passes. On an empty queue step answers a next state: the AON cycle count goes up by
one, work of the fast domain keeps its clock, the order of the resets is judged, a change of lap is seen, and pennants reach
their consumers. The idle cycle is the model's choice: log entry 3. -/
def Obligations.EmptyQueuePassesOneCycle : Prop :=
  ∀ s : State, s.pending = [] →
    step s = .next (State.settle (State.lapWatch (State.judgeOrder
      (if ({ s with cyc := s.cyc + 1 }).active = true ∧ ({ s with cyc := s.cyc + 1 }).working = true
        then ({ s with cyc := s.cyc + 1 }).need else { s with cyc := s.cyc + 1 }))))

/-- The state after reset has a legal role, sixteen queues and sixteen lanes. State.reset satisfies State.sound: its role is 0 or
1, it has sixteen queues and sixteen halyard lanes; and its memories are in canonical form. -/
def Obligations.ResetIsSound : Prop :=
  State.reset.sound ∧ State.reset.wf = true

/-- Every step keeps a legal role, sixteen queues and sixteen lanes. For every state that is sound (role 0 or 1, sixteen queues,
sixteen halyard lanes), reachable or not, whatever command waits: if step answers a next state, that state is sound. -/
def Obligations.EveryStepKeepsTheMachineSound : Prop :=
  ∀ s t : State, s.sound → step s = .next t → t.sound

/-- The release of aon_rst_n takes the role from its tie-off, and no other step changes the role, the ports built or the commands
behind the first. For every state s in the always-on reset, AON_RESET_RELEASE with a tie-off completes with that role. For
every state s, whatever its first command: if step answers t, then t has the tap ports of s and the queue of s without its
first command; and unless that first command was AON_RESET_RELEASE, t has the role of s. -/
def Obligations.OnlyTheAlwaysOnResetSetsTheRole : Prop :=
  (∀ (s : State) (r : Bool), s.pw.st = .aonReset → ∃ t, exec (.aonResetRelease r) s = .next t ∧ t.role = if r then 1 else 0) ∧
  (∀ s t : State, step s = .next t →
    t.memTaps = s.memTaps ∧ t.linkTaps = s.linkTaps ∧ t.pending = s.pending.tail ∧
    ((∀ r, s.pending.head? ≠ some (.aonResetRelease r)) → t.role = s.role))

/-- No word spells a command, as the table gives no row any bits. The command table gives its rows no bits, so decodeTableWord
answers none for every word and withFetchWord leaves the state alone. -/
def Obligations.TableWordsSpellNoCommand : Prop :=
  ∀ (s : State) (n w : Nat), decodeTableWord n w = none ∧ s.withFetchWord n w = s

/-- Every command completes but a lane block not of 72 bytes and a response not of 64 bytes. exec answers a next state for every
command and state, except LANE_BLOCK_RECEIVE with a block that is not 72 bytes and HOST_READ_RESPONSE or FLEET_STORE_RESPONSE
with data that are not 64 bytes: those spell no block (R369) and no line (R70, R87), and are refused as ill-formed. No
command faults. -/
def Obligations.OnlyBlocksOfTheWrongLengthAreRefused : Prop :=
  ∀ (c : Instr) (s : State),
    (∃ t, exec c s = .next t) ∨
    (exec c s = .refused .illFormed ∧
      ((∃ n b, c = .laneBlockReceive n b ∧ b.length ≠ 72) ∨ (∃ g b e, c = .hostReadResponse g b e ∧ b.length ≠ 64) ∨
       (∃ g b e, c = .fleetStoreResponse g b e ∧ b.length ≠ 64)))

/-- POWER_ON, POWER_OFF and AON_RESET_ASSERT clear the block, and AON_RESET_RELEASE takes the role and begins FAST_RESET.
POWER_ON from off, POWER_OFF from any state and AON_RESET_ASSERT from any powered state complete: the block is in AON_RESET
(or off), every register reads its reset value, every queue, the rings, the log and the waiting accesses are gone; what lies
outside the block stays: fleet store, flash contents, tie-offs and the waiting commands. From AON_RESET, AON_RESET_RELEASE
completes: the role is the tie-off's, the power state is FAST_RESET, the clock request is up from AON cycle 16, every
register has its reset value, and the LIFE record of the power-on waits in the holding FIFO. -/
def Obligations.SuppliesAndTheAlwaysOnReset : Prop :=
  ((∀ s : State, s.pw.st = .off → ∃ t, exec .powerOn s = .next t ∧ t.pw.st = .aonReset ∧ s.blankedTo t ∧ t.role = s.role) ∧
  (∀ s : State, ∃ t, exec .powerOff s = .next t ∧ t.pw.st = .off ∧ s.blankedTo t ∧ t.role = s.role) ∧
  (∀ s : State, s.pw.st ≠ .off → ∃ t, exec .aonResetAssert s = .next t ∧ t.pw.st = .aonReset ∧ s.blankedTo t ∧ t.role = s.role)) ∧
  (∀ (s : State) (r : Bool), s.pw.st = .aonReset →
    ∃ t, exec (.aonResetRelease r) s = .next t ∧ t.role = (if r then 1 else 0) ∧ t.pw.st = .fastReset ∧ t.pw.req = true ∧
      t.pw.reqAt = 16 ∧ t.pw.aonRst = false ∧ s.blankedTo t ∧ t.ev.holding.map (fun r => (r.cls, r.code)) = [(5, 0x01)])

/-- FAST_RESET_ASSERT and the PM_WARM key reset the fast domain and note the cause and the count. While the always-on domain is
up, FAST_RESET_ASSERT (pin not yet asserted), and WARM_RESET_KEY with the word 0x0000_A5A5, complete: FAST_RESET,
PM_RESET_CAUSE bit 1 for the pin and bit 2 for the key, PM_BOOT at stage 1 with its count of warm resets one higher (it stops
at 65535), GL_DUTY and GL_PLACE 0, queues, rings, commands in flight and steward memory cleared; role, AON cycle count of the
bunting, fleet store, notices and waiting commands stay. A write of PM_WARM without the key changes nothing. -/
def Obligations.FastResetClearsTheFastDomain : Prop :=
  (∀ s : State, s.pw.fastRst = false → s.aonUp = true → ∃ t, exec .fastResetAssert s = .next t ∧ t.pw.fastRst = true ∧
    s.fastCleanedTo 2 t) ∧
  (∀ (s : State) (who : Who) (d : Word), s.ready who → d.toNat = 0xA5A5 → ∃ t, exec (.warmResetKey who d) s = .next t ∧
    t.answerTo who = { req := Who.num who, data := 0, refused := false } ∧ t.pw.intF = true ∧ s.fastCleanedTo 4 t) ∧
  (∀ (s : State) (who : Who) (d : Word), s.ready who → d.toNat ≠ 0xA5A5 → Writes (.warmResetKey who d) s who s)

/-- FAST_RESET_RELEASE and WARM_RESET_RELEASE end the reset and start the block up; LANE_RESET and PORT_RESET set and clear their
bits. With the order of the resets judged, FAST_RESET_RELEASE clears the pin; WARM_RESET_RELEASE passes to 16 AON cycles
after the key's assertion and, with the acknowledge seen high, ends internal group F. When the last of the two goes with the
acknowledge high, start-up (R116 step 6) runs: the fast domain is ACTIVE at stage 2, with the memories being initialised;
otherwise nothing else changes. While fast_rst_n is not asserted: releasing the reset of a lane of the role clears its bit
and changes nothing else; asserting it while the lane is DOWN with nothing queued sets the bit and leaves the lane at its
reset state but for its lock input; a tray port's reset sets or clears the bit of the port, and registers, command queues and
lanes stay. A lane or port that the role lacks has no reset: nothing changes. -/
def Obligations.ResetReleasesAndLooseResets : Prop :=
  ((∀ s : State, s.pw.orderChk = true → ∃ u : State, u = { s with pw := { s.pw with fastRst := false } } ∧
    exec .fastResetRelease s = .next (if s.pw.st = .fastReset ∧ s.pw.ack = true ∧ s.pw.intF = false then u.startUp else u)) ∧
  (∀ s : State, s.pw.orderChk = true → s.pw.st = .fastReset → s.pw.ack = true → s.pw.intF = false → s.waiting = [] → s.hl.arrived = [] →
    s.hl.locals = [] → s.hl.seen = [] → ∃ t, exec .fastResetRelease s = .next t ∧ t.pw.fastRst = false ∧ t.active = true ∧
      t.get Reg.PM_BOOT_stage = 2 ∧ t.pw.sramInit = true ∧ t.cyc = s.cyc) ∧
  (∀ s : State, s.pw.st = .fastReset → s.pw.intF = true → s.pw.ack = true → s.pw.fastRst = false → s.waiting = [] → s.hl.arrived = [] →
    s.hl.locals = [] → s.hl.seen = [] → ∃ t, exec .warmResetRelease s = .next t ∧ t.pw.intF = false ∧ t.active = true ∧
      t.get Reg.PM_BOOT_stage = 2 ∧ t.pw.sramInit = true ∧ t.cyc = max s.cyc (s.pw.intFAt + 16)) ∧
  (∀ s : State, s.pw.st = .fastReset → s.pw.intF = true → s.pw.ack = true →
    ∃ u : State, u = { s with cyc := max s.cyc (s.pw.intFAt + 16), pw := { s.pw with intF := false } } ∧
      exec .warmResetRelease s = .next (if s.pw.fastRst then u else u.startUp))) ∧
  ((∀ (s : State) (n : Fin 16), n.val < s.laneCount → s.pw.fastRst = false → exec (.laneReset n false) s =
    .next { s with pw := { s.pw with laneRst := putBits s.pw.laneRst n.val 1 0 } }) ∧
  (∀ (s : State) (n : Fin 16), n.val < s.laneCount → s.pw.fastRst = false → s.hl.lanes.length = 16 → (s.lane n.val).state = 0 →
    (s.lane n.val).queues = [[], [], []] →
    ∃ t, exec (.laneReset n true) s = .next t ∧ bit t.pw.laneRst n.val = true ∧ t.lane n.val = { lock := (s.lane n.val).lock } ∧
      t.regs = s.regs ∧ t.queues = s.queues) ∧
  (∀ (s : State) (p : Fin 4) (a : Bool), s.tray = true → s.pw.fastRst = false → ∃ t, exec (.portReset p a) s = .next t ∧
    t.pw.portRst = putBits s.pw.portRst p.val 1 (if a then 1 else 0) ∧ t.regs = s.regs ∧ t.queues = s.queues ∧
    t.hl.lanes = s.hl.lanes) ∧
  (∀ (s : State) (n : Fin 16) (a : Bool), s.laneCount ≤ n.val → exec (.laneReset n a) s = .next s) ∧
  (∀ (s : State) (p : Fin 4) (a : Bool), s.tray = false → exec (.portReset p a) s = .next s))

/-- FAST_CLOCK_NEED and DUE_WAKE start the wake, WAKE_LATE_TIMER notes a late one, FAST_CLOCK_RELEASE stops an idle fast clock.
In SLEEP a need for the fast clock goes to WAKING with the request rising in the next AON cycle and the moment of the need
kept; in ACTIVE it ends the idle time; in STOPPING it is kept until the acknowledge falls. DUE_WAKE does the same 400 AON
cycles ahead of the earliest due time, and changes nothing where nothing is due. Nothing else of the state changes. With a
request up and no acknowledge, WAKE_LATE_TIMER passes to 366 AON cycles after the request, sets PM_FAULT.wake_late and leaves
every other register; once per wake, and not for a wake that a reset abandoned (R120). FAST_CLOCK_RELEASE in ACTIVE, with no
work, no tap enabled and no holder then, passes to the end of the idle time and of the register-access holder, and goes to
STOPPING with the request down. -/
def Obligations.ClockNeedsWakeAndIdleStops : Prop :=
  ((∀ s : State, s.pw.st = .sleep → exec .fastClockNeed s = .next { s with pw :=
    { s.pw with st := .waking, req := true, need := true, needAt := s.cyc, reqAt := s.cyc + 1 } }) ∧
  (∀ s : State, s.pw.st = .active → exec .fastClockNeed s = .next { s with pw := { s.pw with idleFrom := s.cyc } }) ∧
  (∀ s : State, s.pw.st = .stopping → s.pw.need = false → exec .fastClockNeed s =
    .next { s with pw := { s.pw with need := true, needAt := s.cyc } }) ∧
  (∀ (s : State) (d c : Nat), s.pw.st = .sleep → s.firstDue = some d → c = max s.cyc (s.cyc + s.cyclesTo d - 400) →
    exec .dueWake s = .next { s with cyc := c, pw :=
      { s.pw with st := .waking, req := true, need := true, needAt := c, reqAt := c + 1 } }) ∧
  (∀ s : State, s.pw.st = .sleep → s.firstDue = none → exec .dueWake s = .next s)) ∧
  ((∀ s : State, s.pw.req = true → s.pw.ack = false → s.pw.lateDue = false → s.pw.quiet = false → s.pw.st = .waking ∨ s.pw.st = .fastReset →
    ∃ t, exec .wakeLateTimer s = .next t ∧ t.cyc = max s.cyc (s.pw.reqAt + 366) ∧ t.get Reg.PM_FAULT_wake_late = 1 ∧
      t.pw = { s.pw with lateDue := true } ∧ s.regsBut t [Reg.PM_FAULT]) ∧
  (∀ s : State, s.pw.quiet = true ∨ s.pw.lateDue = true → exec .wakeLateTimer s = .next s) ∧
  (∀ (s : State) (c : Nat), s.active = true → s.working = false → s.tapsEnabled = false → s.holdCtrl = false →
    c = max s.cyc (max (s.pw.idleFrom + s.get Reg.PM_IDLE_HOLD_cycles) s.pw.regHold) → ({ s with cyc := c }).held = false →
    ∃ t, exec .fastClockRelease s = .next t ∧ t.pw.st = .stopping ∧ t.pw.req = false ∧ t.pw.reqAt = c))

/-- FCLK_ACK_RISE and FCLK_ACK_FALL move the power state as the handshake says. A rise seen in WAKING comes at the earliest 3 AON
cycles after the request; the fast domain runs in the cycle after it, PM_WAKES counts the wake and PM_WAKE_MAX keeps the
longest time from the need. In FAST_RESET with a reset still asserted only the acknowledge is noted. A fall seen in STOPPING
ends in SLEEP, or in WAKING with the request up again where a need arose; a fall in ACTIVE is a clock loss: WAKING,
PM_FAULT.clock_loss set. -/
def Obligations.AcknowledgeEndsTheWake : Prop :=
  (∀ s : State, s.pw.st = .waking → s.pw.req = true → s.pw.ack = false → ∃ u : State, exec .fclkAckRise s = .next u.ungate ∧
    u.cyc = max s.cyc (s.pw.reqAt + 3) + 1 ∧ u.pw = { s.pw with ack := true } ∧
    u.get Reg.PM_WAKES_count = satAdd (2 ^ 32 - 1) (s.get Reg.PM_WAKES_count) 1 ∧
    u.get Reg.PM_WAKE_MAX_cycles = max (s.get Reg.PM_WAKE_MAX_cycles) (min (2 ^ 16 - 1) (u.cyc - s.pw.needAt)) ∧
    s.regsBut u [Reg.PM_WAKES, Reg.PM_WAKE_MAX]) ∧
  (∀ s : State, s.pw.st = .fastReset → s.pw.req = true → s.pw.ack = false → s.pw.fastRst = true →
    exec .fclkAckRise s = .next { s with cyc := max s.cyc (s.pw.reqAt + 3), pw := { s.pw with ack := true } }) ∧
  (∀ s : State, s.pw.st = .stopping → s.pw.ack = true → s.pw.need = false → exec .fclkAckFall s =
    .next { s with cyc := max s.cyc (s.pw.reqAt + 3), pw := { s.pw with ack := false, st := .sleep } }) ∧
  (∀ (s : State) (c : Nat), s.pw.st = .stopping → s.pw.ack = true → s.pw.need = true → c = max s.cyc (s.pw.reqAt + 3) →
    exec .fclkAckFall s = .next { s with cyc := c, pw := { s.pw with ack := false, st := .waking, req := true, reqAt := c + 1 } }) ∧
  (∀ s : State, s.pw.st = .active → s.pw.ack = true → ∃ t, exec .fclkAckFall s = .next t ∧ t.pw.st = .waking ∧
    t.pw.ack = false ∧ t.pw.lossDue = true ∧ t.get Reg.PM_FAULT_clock_loss = 1)

/-- SRAM_INIT_DONE moves to stage 3, and the steward moves PM_BOOT through stages 4 to 7; every other requester is refused. While
the SRAM initialisation of start-up is under way, SRAM_INIT_DONE ends it with PM_BOOT at stage 3 and no other register
changed; the idle time of the fast domain begins. PM_BOOT_STAGE_WRITE by the steward with a stage of 4 to 7 sets that stage;
a stage outside 4 to 8, or any other requester, is refused and changes nothing. -/
def Obligations.StartUpStagesAdvance : Prop :=
  (∀ s : State, s.active = true → s.pw.sramInit = true → ∃ t, exec .sramInitDone s = .next t ∧ t.get Reg.PM_BOOT_stage = 3 ∧
    t.pw = { s.pw with sramInit := false, idleFrom := s.cyc } ∧ s.regsBut t [Reg.PM_BOOT] ∧ t = { s with pw := t.pw, regs := t.regs }) ∧
  (∀ (s : State) (d : Word), s.ready .steward → 4 ≤ d.toNat % 16 → d.toNat % 16 ≤ 7 →
    Writes (.pmBootStageWrite .steward d) s .steward (s.put Reg.PM_BOOT_stage (d.toNat % 16))) ∧
  (∀ (s : State) (who : Who) (d : Word), s.ready who → who ≠ .steward ∨ d.toNat % 16 < 4 ∨ 8 < d.toNat % 16 →
    Refuses (.pmBootStageWrite who d) s who s)

/-- REGISTER_WRITE sets RW bits, clears W1C bits written 1, and leaves every other bit and register; an absent register ignores
it. A write by a ready requester of a present register without SH fields or a rule of its own, and no half of a pair, is
answered with data 0 and not refused: each RW bit takes the written bit, each W1C bit written 1 clears, every other bit of
the register and every other register stays, and so does all else in the state. A write where no register is present is
answered the same and changes nothing. -/
def Obligations.PlainWritesSetTheirFields : Prop :=
  (∀ (s : State) (who : Who) (a : BitVec 18) (d : Word) (r : RegDef), s.ready who →
    (byteOff a < 0x70000 ∨ 0x80000 ≤ byteOff a) → s.windowWrite (byteOff a) d.toNat = none → s.reg? (byteOff a) = some r →
    r.sh = 0 → s.specialWrite (Who.num who) (byteOff a) d.toNat = none → lowHalf (byteOff a) = false → highHalf (byteOff a) = false →
    ∃ u, Writes (.registerWrite who a d) s who u ∧ u = { s with regs := u.regs } ∧ s.regsBut u [byteOff a] ∧
      ∀ b < 32, bit (u.rd (byteOff a)) b =
        ((if bit r.rw b then d.getLsbD b else bit (s.rd (byteOff a)) b) && !(bit r.w1c b && d.getLsbD b))) ∧
  (∀ (s : State) (who : Who) (a : BitVec 18) (d : Word), s.ready who → (byteOff a < 0x70000 ∨ 0x80000 ≤ byteOff a) →
    s.windowWrite (byteOff a) d.toNat = none → s.reg? (byteOff a) = none → Writes (.registerWrite who a d) s who s)

/-- READ_CLEAR answers the word the register shows, and its RC bits go back to their reset value. A read by a ready requester of
a present register that is no claim, no capture stamp and no half of a pair is answered with the word it shows, not refused.
Afterwards the register's RC bits have their reset value, every other bit of it and every other register is as before, and
nothing else of the state changes. Where no register and no window is, 0 is answered and nothing changes. -/
def Obligations.ReadsAnswerTheViewAndClearReadClearFields : Prop :=
  (∀ (s : State) (who : Who) (a : BitVec 18) (r : RegDef), s.ready who → (byteOff a < 0x70000 ∨ 0x80000 ≤ byteOff a) →
    s.reg? (byteOff a) = some r → byteOff a ≠ Reg.IC_CLAIM_H → byteOff a ≠ Reg.IC_CLAIM_S →
    ¬ (0x8200 ≤ byteOff a ∧ byteOff a < 0x8240) → lowHalf (byteOff a) = false → highHalf (byteOff a) = false →
    ∃ u, Answers (.readClear who a) s who (s.view (byteOff a)) false u ∧ u = { s with regs := u.regs } ∧ s.regsBut u [byteOff a] ∧
      ∀ b < 32, bit (u.rd (byteOff a)) b = if bit r.rc b then bit (resetOf (byteOff a)) b else bit (s.rd (byteOff a)) b) ∧
  (∀ (s : State) (who : Who) (a : BitVec 18), s.ready who → (byteOff a < 0x70000 ∨ 0x80000 ≤ byteOff a) →
    s.reg? (byteOff a) = none → s.viewWindow (byteOff a) = none → lowHalf (byteOff a) = false → highHalf (byteOff a) = false →
    Answers (.readClear who a) s who 0 false s)

/-- PAIR_LOW_READ holds the high word for PAIR_HIGH_READ, and PAIR_HIGH_WRITE is held until PAIR_LOW_WRITE commits both halves. A
read of the low half of a present pair is answered with the word it shows, and the requester's holding register takes the
high word of the same moment; the holding registers of the other requesters stay. A read of the high half by a requester that
holds the high word of that pair is answered with the held word, which is then no longer held, and nothing else changes;
without one it answers the word shown. A write of a pair's high half that its register does not refuse changes nothing but
the requester's holding register. A write of the low half by a requester that holds the high half of that pair commits both
words, each under the access codes of its register, and ends the holding; halves with no SH field and no rule of their own
take it as plain registers do. -/
def Obligations.PairsAreCoherent : Prop :=
  ((∀ (s : State) (who : Who) (a : BitVec 18), s.ready who → (byteOff a < 0x70000 ∨ 0x80000 ≤ byteOff a) →
    lowHalf (byteOff a) = true → highHalf (byteOff a) = false → (s.reg? (byteOff a)).isSome = true →
    ∃ u, Answers (.pairLowRead who a) s who (s.view (byteOff a)) false u ∧
      (u.holding (Who.num who)).rd = some (byteOff a, s.view (byteOff a + 4)) ∧
      ∀ k, k ≠ Who.num who → u.holding k = s.holding k) ∧
  (∀ (s : State) (who : Who) (a : BitVec 18) (lo h : Nat), s.ready who → (byteOff a < 0x70000 ∨ 0x80000 ≤ byteOff a) →
    highHalf (byteOff a) = true → (s.holding (Who.num who)).rd = some (lo, h) → lo + 4 = byteOff a →
    Answers (.pairHighRead who a) s who h false (s.setHolding (Who.num who) fun x => { x with rd := none })) ∧
  (∀ (s : State) (who : Who) (a : BitVec 18), s.ready who → (byteOff a < 0x70000 ∨ 0x80000 ≤ byteOff a) →
    highHalf (byteOff a) = true → (s.holding (Who.num who)).rd = none →
    Answers (.pairHighRead who a) s who (s.view (byteOff a)) false (s.readEffect (byteOff a)))) ∧
  ((∀ (s : State) (who : Who) (a : BitVec 18) (d : Word) (r : RegDef), s.ready who → (byteOff a < 0x70000 ∨ 0x80000 ≤ byteOff a) →
    s.windowWrite (byteOff a) d.toNat = none → s.reg? (byteOff a) = some r → highHalf (byteOff a) = true →
    s.highRefused (Who.num who) r (byteOff a) d.toNat = none →
    Writes (.pairHighWrite who a d) s who (s.setHolding (Who.num who) fun x => { x with wr := some (byteOff a - 4, d.toNat) })) ∧
  (∀ (s : State) (who : Who) (a : BitVec 18) (d : Word) (r e : RegDef) (h : Nat), s.ready who →
    (byteOff a < 0x70000 ∨ 0x80000 ≤ byteOff a) → s.windowWrite (byteOff a) d.toNat = none → s.reg? (byteOff a) = some r →
    s.reg? (byteOff a + 4) = some e → lowHalf (byteOff a) = true → highHalf (byteOff a) = false →
    (s.holding (Who.num who)).wr = some (byteOff a, h) → r.sh = 0 → e.sh = 0 →
    s.specialWrite (Who.num who) (byteOff a) d.toNat = none →
    (s.plainWrite r (byteOff a) d.toNat).specialWrite (Who.num who) (byteOff a + 4) h = none →
    Writes (.pairLowWrite who a d) s who (((s.plainWrite r (byteOff a) d.toNat).plainWrite e (byteOff a + 4) h).setHolding
      (Who.num who) fun x => { x with wr := none })))

/-- SHADOW_WRITE sets the shadow of an SH field, LIVE_WRITE the live copy; each is refused where R146 to R148 say. For a register
with SH fields (no pair, no rule of its own, no other code): a write by a requester that HO_LIVE_SEL does not select and
HO_WRITERS admits, with no commit in progress, sets the shadow word's SH bits and marks the shadow directly written; live
words stay. A writer not admitted, or a commit in progress, is refused, counted in HO_REFUSALS.shadow, and nothing else
changes. A live write during a commit is refused and counted in HO_REFUSALS.live; a live write of a register in a bundle is
refused with HOIST_LIVE; otherwise the live SH bits take the word, HO_LIVE.direct is set and a HOIST record is formed. -/
def Obligations.ShadowAndLiveWrites : Prop :=
  (∀ (s : State) (who : Who) (a : BitVec 18) (d : Word), s.shPlain who (byteOff a) d →
    bit (s.rd Reg.HO_LIVE_SEL) (Who.num who) = false → bit (s.rd Reg.HO_WRITERS) (Who.num who) = true → s.ho.phase = 0 →
    ∃ u, Writes (.shadowWrite who a d) s who u ∧ u = { s with shadow := u.shadow, ho := { s.ho with direct := true } } ∧
      u.srd (byteOff a) = maskIn (s.srd (byteOff a)) (shBits (byteOff a)) d.toNat ∧
      ∀ o, o ≠ byteOff a → u.srd o = s.srd o) ∧
  (∀ (s : State) (who : Who) (a : BitVec 18) (d : Word), s.shPlain who (byteOff a) d →
    bit (s.rd Reg.HO_LIVE_SEL) (Who.num who) = false → bit (s.rd Reg.HO_WRITERS) (Who.num who) = false ∨ s.ho.phase ≠ 0 →
    Refuses (.shadowWrite who a d) s who (s.bump Reg.HO_REFUSALS_shadow 1)) ∧
  (∀ (s : State) (who : Who) (a : BitVec 18) (d : Word), s.shPlain who (byteOff a) d →
    bit (s.rd Reg.HO_LIVE_SEL) (Who.num who) = true → s.ho.phase ≠ 0 →
    Refuses (.liveWrite who a d) s who (s.bump Reg.HO_REFUSALS_live 1)) ∧
  (∀ (s : State) (who : Who) (a : BitVec 18) (d : Word), s.shPlain who (byteOff a) d →
    bit (s.rd Reg.HO_LIVE_SEL) (Who.num who) = true → s.ho.phase = 0 → bundlesOf (byteOff a) ≠ [] →
    Refuses (.liveWrite who a d) s who ((s.bump Reg.HO_REFUSALS_live 1).refusal Code.HOIST_LIVE Unit_.hoist 0 0)) ∧
  (∀ (s : State) (who : Who) (a : BitVec 18) (d : Word), s.shPlain who (byteOff a) d →
    bit (s.rd Reg.HO_LIVE_SEL) (Who.num who) = true → s.ho.phase = 0 → bundlesOf (byteOff a) = [] →
    maskIn (s.rd (byteOff a)) (shBits (byteOff a)) d.toNat = s.rd (byteOff a) → byteOff a ≠ Reg.HO_LIVE →
    ∃ v : State, Writes (.liveWrite who a d) s who (v.record 4 0x03 Unit_.hoist 0 (v.get Reg.HO_LIVE_gen)) ∧
      v.get Reg.HO_LIVE_direct = 1 ∧ v.rd (byteOff a) = s.rd (byteOff a) ∧ s.regsBut v [Reg.HO_LIVE] ∧ v = { s with regs := v.regs }) ∧
  (∀ (s : State) (who : Who) (a : BitVec 18) (d : Word), s.shPlain who (byteOff a) d →
    bit (s.rd Reg.HO_LIVE_SEL) (Who.num who) = true → s.ho.phase = 0 → bundlesOf (byteOff a) = [] →
    maskIn (s.rd (byteOff a)) (shBits (byteOff a)) d.toNat ≠ s.rd (byteOff a) → byteOff a ≠ Reg.HO_LIVE →
    ∃ v : State, Writes (.liveWrite who a d) s who
        ((v.follow s fun o => byteOff a == o).record 4 0x03 Unit_.hoist 0 ((v.follow s fun o => byteOff a == o).get Reg.HO_LIVE_gen)) ∧
      v.get Reg.HO_LIVE_direct = 1 ∧ v.rd (byteOff a) = maskIn (s.rd (byteOff a)) (shBits (byteOff a)) d.toNat ∧
      s.regsBut v [byteOff a, Reg.HO_LIVE] ∧ v = { s with regs := v.regs })

/-- An access that needs a stopped fast clock waits and is a need for it, and requester numbers 14 and 15 on the port are
refused. While the always-on domain is up and the fast clock is stopped, a port write of a fast page waits, answers nobody
yet and wakes the clock; the same write of an always-on register is performed at once. A port access that names requester 14
or 15 is refused and performs nothing. -/
def Obligations.AccessesThatWait : Prop :=
  (∀ (s : State) (src : BitVec 4) (a : BitVec 18) (d : Word), s.pw.st = .sleep → s.waiting = [] → src.toNat < 14 →
    aonPage (byteOff a) = false → ∃ t, exec (.registerWrite (.port src) a d) s = .next t ∧
      t.waiting = [{ req := src.toNat, port := true, write := true, off := byteOff a, val := d.toNat }] ∧
      t.pw.st = .waking ∧ t.pw.needAt = s.cyc ∧ t.rsps = s.rsps ∧ t.regs = s.regs) ∧
  (∀ (s : State) (src : BitVec 4) (a : BitVec 18) (d : Word), s.aonUp = true → s.waiting = [] → 14 ≤ src.toNat →
    ∃ t, exec (.registerWrite (.port src) a d) s = .next t ∧ t = { s with rsps := t.rsps } ∧
      Sparse.get (fun _ => { req := 16, data := 0, refused := false }) t.rsps (src.toNat + 16) =
        { req := src.toNat, data := 0, refused := true })

/-- DEBUG_SHIFT_DR, DEBUG_CAPTURE_DR, DEBUG_RESET and SEC_AUTH_CHANGE act on the debug register; DEBUG_UPDATE_DR performs its
access. A shift moves the 54-bit register one place toward bit 0, bit 0 to TDO and TDI to bit 53; a capture takes status,
read data and offset of the last access with operation 0; the debug reset clears the register, and discards the result of an
access under way; a change of sec_auth sets the level. Nothing else changes. With operation 2 in bits [1:0], sec_auth and a
ready block, a write of the word offset in bits [19:2] with the data in bits [51:20] is performed: the status becomes 0, or 2
where it is refused, and the state is that of the write. Without sec_auth nothing is accessed and the status becomes 3 (the
offset is kept unless the result is discarded). Operations 0 and 3 change nothing. -/
def Obligations.DebugAccess : Prop :=
  (∀ s : State,
    (∀ b, exec (.debugShiftDr b) s = .next { s with dbg :=
      { s.dbg with tdo := bit s.dbg.dr 0, dr := s.dbg.dr / 2 + (if b then 2 ^ 53 else 0) } }) ∧
    exec .debugCaptureDr s = .next { s with dbg :=
      { s.dbg with dr := s.dbg.status * 2 ^ 52 + s.dbg.rdata * 2 ^ 20 + s.dbg.lastOff } } ∧
    (s.waiting = [] → exec .debugReset s = .next { s with dbg := { s.dbg with dr := 0, tdo := false, discard := false } }) ∧
    (∀ a ∈ s.waiting, a.port = false → exec .debugReset s =
      .next { s with dbg := { s.dbg with dr := 0, tdo := false, discard := true } }) ∧
    (∀ b, exec (.secAuthChange b) s = .next { s with secAuth := b })) ∧
  ((∀ (s : State), s.ready .debug → s.dbg.dr % 4 = 2 →
    ∃ t, exec .debugUpdateDr s = .next t ∧
      t.dbg.status = (if (s.busWrite 15 (4 * bits s.dbg.dr 2 18) (bits s.dbg.dr 20 32)).2 then 0 else
        if (s.busWrite 15 (4 * bits s.dbg.dr 2 18) (bits s.dbg.dr 20 32)).1.dbg.discard then 0 else 2) ∧
      t.unanswered = (s.busWrite 15 (4 * bits s.dbg.dr 2 18) (bits s.dbg.dr 20 32)).1.lapWatch.swapBanks.unanswered) ∧
  (∀ s : State, s.active = true → s.waiting = [] → s.secAuth = false → s.dbg.dr % 4 = 1 ∨ s.dbg.dr % 4 = 2 →
    exec .debugUpdateDr s = .next { s with dbg := if s.dbg.discard then { s.dbg with discard := false, status := 3 }
      else { s.dbg with status := 3, lastOff := 4 * bits s.dbg.dr 2 18 } }) ∧
  (∀ s : State, s.dbg.dr % 4 = 0 ∨ s.dbg.dr % 4 = 3 → exec .debugUpdateDr s = .next s))

/-- SET_FLAG and CLEAR_FLAG write their flag when the queue may, and end with QE_NOT_OWNER when it may not. A SET_FLAG or
CLEAR_FLAG command that starts in a queue that may write the flag it names ends with OK: that flag is 1 or 0, every other
flag and every register but QE_FLAGS_LO and QE_FLAGS_HI stay, and nothing outside the registers, the queues and the queue
last issued from changes. In a queue that may not, it ends with QE_NOT_OWNER and no register changes. -/
def Obligations.FlagCommandsSetAndClear : Prop :=
  (∀ (s : State) (q : Fin 16) (slot : Nat) (c : List Byte), s.queues.length = 16 → s.starts q.val slot c → cmdOp c = 0x08 → s.mayFlag q.val (field c 8 1) = true →
    ∃ t, exec (.setFlag q) s = .next t ∧ t.ended q.val slot Code.OK ∧ t.flag (field c 8 1) = true ∧
      (∀ g < 64, g ≠ field c 8 1 → t.flag g = s.flag g) ∧ s.regsBut t [Reg.QE_FLAGS_LO, Reg.QE_FLAGS_HI] ∧
      t = { s with regs := t.regs, queues := t.queues, lastQ := q.val }) ∧
  (∀ (s : State) (q : Fin 16) (slot : Nat) (c : List Byte), s.queues.length = 16 → s.starts q.val slot c → cmdOp c = 0x09 → s.mayFlag q.val (field c 8 1) = true →
    ∃ t, exec (.clearFlag q) s = .next t ∧ t.ended q.val slot Code.OK ∧ t.flag (field c 8 1) = false ∧
      (∀ g < 64, g ≠ field c 8 1 → t.flag g = s.flag g) ∧ s.regsBut t [Reg.QE_FLAGS_LO, Reg.QE_FLAGS_HI] ∧
      t = { s with regs := t.regs, queues := t.queues, lastQ := q.val }) ∧
  (∀ (s : State) (q : Fin 16) (slot : Nat) (c : List Byte), s.queues.length = 16 → s.starts q.val slot c → cmdOp c = 0x08 → s.mayFlag q.val (field c 8 1) = false →
    ∃ t, exec (.setFlag q) s = .next t ∧ t.ended q.val slot Code.QE_NOT_OWNER ∧ t = { s with queues := t.queues, lastQ := q.val }) ∧
  (∀ (s : State) (q : Fin 16) (slot : Nat) (c : List Byte), s.queues.length = 16 → s.starts q.val slot c → cmdOp c = 0x09 → s.mayFlag q.val (field c 8 1) = false →
    ∃ t, exec (.clearFlag q) s = .next t ∧ t.ended q.val slot Code.QE_NOT_OWNER ∧ t = { s with queues := t.queues, lastQ := q.val })

/-- WAIT_FLAG ends at once or stands, and WAIT_FLAG_SATISFIED, WAIT_FLAG_TIMEOUT and CYCLE_DETECTED end one that stands. In a
queue that does not run Plovbaez order, a WAIT_FLAG that starts ends with OK when its flag already holds the wanted value;
with bound 0 it ends with DEADLINE_MISS instead; otherwise it stands. Only the queues and the queue last issued from change.
With the fast clock running and a WAIT_FLAG f standing in the queue: when its flag holds the wanted value,
WAIT_FLAG_SATISFIED ends it with OK and only queues change. WAIT_FLAG_TIMEOUT in a native queue passes to the bound's fleet
time and ends it with DEADLINE_MISS, or with OK where the flag holds the value. When the queue's cycle is due and its walk
returns, CYCLE_DETECTED ends it with CYCLE, and QE_CYCLE is valid and names the flag and the closing queue. -/
def Obligations.FlagWaitsEndOrStand : Prop :=
  ((∀ (s : State) (q : Fin 16) (slot : Nat) (c : List Byte), s.queues.length = 16 → s.starts q.val slot c → cmdOp c = 0x07 → s.plovQueue q.val = false → s.flag (field c 8 1) = (field c 9 1 == 1) →
    ∃ t, exec (.waitFlag q) s = .next t ∧ t.ended q.val slot Code.OK ∧ t = { s with queues := t.queues, lastQ := q.val }) ∧
  (∀ (s : State) (q : Fin 16) (slot : Nat) (c : List Byte), s.queues.length = 16 → s.starts q.val slot c → cmdOp c = 0x07 → s.plovQueue q.val = false → s.flag (field c 8 1) ≠ (field c 9 1 == 1) →
    s.get (Reg.QE_Qn_BOUND_us q.val) = 0 →
    ∃ t, exec (.waitFlag q) s = .next t ∧ t.ended q.val slot Code.DEADLINE_MISS ∧ t = { s with queues := t.queues, lastQ := q.val }) ∧
  (∀ (s : State) (q : Fin 16) (slot : Nat) (c : List Byte), s.queues.length = 16 → s.starts q.val slot c → cmdOp c = 0x07 → s.plovQueue q.val = false → s.flag (field c 8 1) ≠ (field c 9 1 == 1) →
    s.get (Reg.QE_Qn_BOUND_us q.val) ≠ 0 →
    ∃ t, exec (.waitFlag q) s = .next t ∧ t.waits q.val slot ∧ t = { s with queues := t.queues, lastQ := q.val })) ∧
  ((∀ (s : State) (q : Fin 16) (f : Flight), s.queues.length = 16 → s.active = true → s.waitOf q.val = some f →
    s.flag (field f.cmd 8 1) = (field f.cmd 9 1 == 1) →
    ∃ t, exec (.waitFlagSatisfied q) s = .next t ∧ t.ended q.val f.slot Code.OK ∧ t = { s with queues := t.queues }) ∧
  (∀ (s : State) (q : Fin 16) (f : Flight), s.queues.length = 16 → s.active = true → s.waitOf q.val = some f →
    s.plovQueue q.val = false →
    ∃ t, exec (.waitFlagTimeout q) s = .next t ∧
      t.ended q.val f.slot (if s.flag (field f.cmd 8 1) = (field f.cmd 9 1 == 1) then Code.OK else Code.DEADLINE_MISS) ∧
      t = { s.passToFleet ((f.at_ + s.get (Reg.QE_Qn_BOUND_us q.val) * 1600) % 2 ^ 64) with queues := t.queues }) ∧
  (∀ (s : State) (q : Fin 16) (f : Flight) (ms : List Nat), s.queues.length = 16 → s.active = true →
    (s.queue q.val).cycleDue = true → s.waitOf q.val = some f →
    (s.setQueue q.val fun u => { u with cycleDue := false }).walk q.val 16 q.val = some ms →
    ∃ t, exec (.cycleDetected q) s = .next t ∧ t.ended q.val f.slot Code.CYCLE ∧ t.get Reg.QE_CYCLE_valid = 1 ∧
      t.get Reg.QE_CYCLE_flag = field f.cmd 8 1 % 64 ∧ t.get Reg.QE_CYCLE_closer = q.val ∧
      s.regsBut t [Reg.QE_CYCLE, Reg.QE_CYCLES] ∧ t = { s with regs := t.regs, queues := t.queues }))

/-- WAIT_TIME ends at once past its target and otherwise stands until WAIT_TIME_REACHED; FENCE and unknown opcodes end at issue.
A WAIT_TIME whose target fleet time has come ends with OK, one whose target is ahead stands. WAIT_TIME_REACHED passes to the
target and ends the wait with OK, or DEADLINE_MISS when more than 10 µs late. A FENCE that starts ends with OK. A head
command of an opcode outside 0x01 to 0x0B, neither skipped by its predicate nor lost to an uncorrectable slot, ends with
QE_BAD_CMD. Only queues and the queue last issued from, and for WAIT_TIME_REACHED the time, change. -/
def Obligations.TimedWaitsAndFences : Prop :=
  (∀ (s : State) (q : Fin 16) (slot : Nat) (c : List Byte), s.queues.length = 16 → s.starts q.val slot c → cmdOp c = 0x0A → s.reached (field c 8 8) = true →
    ∃ t, exec (.waitTime q) s = .next t ∧ t.ended q.val slot Code.OK ∧ t = { s with queues := t.queues, lastQ := q.val }) ∧
  (∀ (s : State) (q : Fin 16) (slot : Nat) (c : List Byte), s.queues.length = 16 → s.starts q.val slot c → cmdOp c = 0x0A → s.reached (field c 8 8) = false →
    ∃ t, exec (.waitTime q) s = .next t ∧ t.waits q.val slot ∧ t = { s with queues := t.queues, lastQ := q.val }) ∧
  (∀ (s : State) (q : Fin 16) (f : Flight), s.queues.length = 16 → s.active = true →
    ((s.queue q.val).flights.find? fun f => f.standing && cmdOp f.cmd == 0x0A) = some f →
    ∃ t, exec (.waitTimeReached q) s = .next t ∧ t = { s.passToFleet (field f.cmd 8 8) with queues := t.queues } ∧
      t.ended q.val f.slot (if 16000 < (s.passToFleet (field f.cmd 8 8)).sinceFleet
        (if later 64 (field f.cmd 8 8) f.at_ then field f.cmd 8 8 else f.at_) then Code.DEADLINE_MISS else Code.OK)) ∧
  (∀ (s : State) (q : Fin 16) (slot : Nat) (c : List Byte), s.queues.length = 16 → s.starts q.val slot c → cmdOp c = 0x0B →
    ∃ t, exec (.fence q) s = .next t ∧ t.ended q.val slot Code.OK ∧ t = { s with queues := t.queues, lastQ := q.val }) ∧
  (∀ (s : State) (q : Fin 16) (slot : Nat) (c : List Byte), s.queues.length = 16 → s.issuable q.val = some (slot, c) →
    cmdOp c = 0 ∨ 0x0B < cmdOp c → s.ev.ringBad.contains (ringAddr (s.queue q.val).bank q.val slot / 32) = false →
    (cmdPredEn c = false ∨ bit (s.rd Reg.QE_PRED) (cmdPred c) ≠ cmdPredInv c) →
    ∃ t, exec (.unknownOpcode q) s = .next t ∧ t.ended q.val slot Code.QE_BAD_CMD ∧ t = { s with queues := t.queues, lastQ := q.val })

/-- SAMPLE, SNAPSHOT, SCORE, CHECK, DUMP and SEND leave the queue's head for flight, start their unit's work, and have its
effect. A command of one of these six opcodes that starts is taken into flight from the head of its queue, and the work of
its unit begins on it in the same step: the next state is that of the unit's work on the queue with the command in flight,
named for each of them; a command that may not issue leaves the state alone. What the step then completes with, on operands
the command may have: a SAMPLE has a bank with its entries latched at this fleet time, or waits when none is free; a SNAPSHOT
of scope 0 ends with OK in the same step, its strike numbered, and one of scope 1, or of scope 2 with its lead, is among the
waiters of the pending strikes; a SCORE of a model with trees is in service, and of one without ends with 0x60; a CHECK reads
its first descriptor on a free lane, and stands last on a busy one; a DUMP is served by a free engine under the next dump
number, waits when none is free, and a tensor name that no entry has ends it with 0x80; a SEND ends with the code of its
pennant's admission. -/
def Obligations.WorkCommandsStartTheirUnit : Prop :=
  (∀ (s : State) (q : Fin 16) (slot : Nat) (c : List Byte), s.queues.length = 16 → s.starts q.val slot c → cmdOp c = 0x01 → exec (.sample q) s =
    .next (((s.takeHead q.val slot c false).issueCycle.runSample q.val (s.newFlight q.val slot c false)).clearRank q.val)) ∧
  (∀ (s : State) (q : Fin 16) (slot : Nat) (c : List Byte), s.queues.length = 16 → s.starts q.val slot c → cmdOp c = 0x02 → exec (.snapshot q) s =
    .next (((s.takeHead q.val slot c false).issueCycle.runSnapshot q.val (s.newFlight q.val slot c false)).clearRank q.val)) ∧
  (∀ (s : State) (q : Fin 16) (slot : Nat) (c : List Byte), s.queues.length = 16 → s.starts q.val slot c → cmdOp c = 0x03 → exec (.score q) s =
    .next (((s.takeHead q.val slot c false).runScore q.val (s.newFlight q.val slot c false)).clearRank q.val)) ∧
  (∀ (s : State) (q : Fin 16) (slot : Nat) (c : List Byte), s.queues.length = 16 → s.starts q.val slot c → cmdOp c = 0x04 → exec (.check q) s =
    .next (((s.takeHead q.val slot c false).runCheck q.val (s.newFlight q.val slot c false)).clearRank q.val)) ∧
  (∀ (s : State) (q : Fin 16) (slot : Nat) (c : List Byte), s.queues.length = 16 → s.starts q.val slot c → cmdOp c = 0x05 → exec (.dump q) s =
    .next (((s.takeHead q.val slot c false).runDump q.val (s.newFlight q.val slot c false)).clearRank q.val)) ∧
  (∀ (s : State) (q : Fin 16) (slot : Nat) (c : List Byte), s.queues.length = 16 → s.starts q.val slot c → cmdOp c = 0x06 → exec (.send q) s =
    .next (((s.takeHead q.val slot c false).runSend q.val (s.newFlight q.val slot c false)).clearRank q.val)) ∧
  (∀ (s : State) (q : Fin 16) (slot : Nat) (c : List Byte), s.queues.length = 16 → s.starts q.val slot c → (s.takeHead q.val slot c false).queue q.val = { (s.queue q.val).advance with
      flights := (s.queue q.val).flights ++ [s.newFlight q.val slot c false], seq := ((s.queue q.val).seq + 1) % 2 ^ 16,
      wdFrom := if (s.queue q.val).flights.isEmpty then s.fleet else (s.queue q.val).wdFrom }) ∧
  (∀ (s : State) (q : Fin 16), s.issuable q.val = none →
    exec (.sample q) s = .next s ∧ exec (.snapshot q) s = .next s ∧ exec (.score q) s = .next s ∧ exec (.check q) s = .next s ∧
    exec (.dump q) s = .next s ∧ exec (.send q) s = .next s) ∧
  (∀ (s : State) (q : Fin 16) (slot : Nat) (c : List Byte), s.queues.length = 16 → s.starts q.val slot c → cmdOp c = 0x01 → s.areaRefuses (field c 12 1) (recLen (8 * field c 10 2)) = false → s.bankFree = true →
    ∃ t b, exec (.sample q) s = .next t ∧ b ∈ t.cf.banks ∧ b.cmd = some (q.val, (s.queue q.val).seq) ∧ b.kind = 0 ∧ b.area = field c 12 1 ∧
      b.first = field c 8 2 ∧ b.count = field c 10 2 ∧ b.time = s.fleet ∧
      b.ents.map Prod.fst = (upto (field c 10 2)).map fun i => field c 8 2 + i) ∧
  (∀ (s : State) (q : Fin 16) (slot : Nat) (c : List Byte), s.queues.length = 16 → s.starts q.val slot c → cmdOp c = 0x01 → s.areaRefuses (field c 12 1) (recLen (8 * field c 10 2)) = false → s.bankFree = false →
    ∃ t, exec (.sample q) s = .next t ∧ t.cf.banks = s.cf.banks ∧ t.cf.waiting = s.cf.waiting ++ [(q.val, (s.queue q.val).seq)]) ∧
  (∀ (s : State) (q : Fin 16) (slot : Nat) (c : List Byte), s.queues.length = 16 → s.starts q.val slot c → cmdOp c = 0x02 → field c 8 1 = 0 →
    ∃ t, exec (.snapshot q) s = .next t ∧ t.ended q.val slot Code.OK ∧ t.tb.strikeSeq = (s.tb.strikeSeq + 1) % 2 ^ 16 ∧
      t.tb.strikes = s.tb.strikes) ∧
  (∀ (s : State) (q : Fin 16) (slot : Nat) (c : List Byte), s.queues.length = 16 → s.starts q.val slot c → cmdOp c = 0x02 → field c 8 1 ≠ 0 → s.strikeFull (field c 16 8) = false →
    (field c 8 1 = 2 → later 64 ((s.fleet + s.strikeLead) % 2 ^ 64) (field c 16 8) = false) →
    ∃ t k w, exec (.snapshot q) s = .next t ∧ k ∈ t.tb.strikes ∧ k.at_ = field c 16 8 ∧ w ∈ k.waiters ∧ w.1 = q.val ∧
      w.2.1 = (s.queue q.val).seq) ∧
  (∀ (s : State) (q : Fin 16) (slot : Nat) (c : List Byte), s.queues.length = 16 → s.starts q.val slot c → cmdOp c = 0x03 → s.get (Reg.SC_MD_CFG_m_ntrees (field c 8 1)) ≠ 0 → s.badScore c = false → s.get Reg.SC_BOUND_us ≠ 0 →
    ∃ t, exec (.score q) s = .next t ∧ t.sc.jobs = s.sc.jobs ++ [newScore q.val (s.newFlight q.val slot c false)]) ∧
  (∀ (s : State) (q : Fin 16) (slot : Nat) (c : List Byte), s.queues.length = 16 → s.starts q.val slot c → cmdOp c = 0x03 → s.get (Reg.SC_MD_CFG_m_ntrees (field c 8 1)) = 0 → ∃ t, exec (.score q) s = .next t ∧ t.ended q.val slot 0x60) ∧
  (∀ (s : State) (q : Fin 16) (slot : Nat) (c : List Byte), s.queues.length = 16 → s.starts q.val slot c → cmdOp c = 0x04 → field c 16 1 ≤ 15 → s.get (Reg.XC_HM_IN_n_a_fmt (field c 16 1)) ≠ 0 → s.get Reg.XC_BOUND_ms ≠ 0 →
    field c 18 2 ≠ 0 → s.xc.lanes = [{}, {}] → s.xc.arb = none → s.xc.arbQ = [] →
    (∀ f ∈ (s.queue q.val).flights, f.seq ≠ (s.queue q.val).seq) →
    ∃ t j, exec (.check q) s = .next t ∧ (t.xlane (field c 17 1 % 2)).job = some j ∧ j.q = q.val ∧ j.seq = (s.queue q.val).seq ∧
      j.desc = field c 8 8 ∧ j.count = field c 18 2 ∧ j.step = field c 20 4 ∧ j.idx = 1 ∧
      (t.xlane (field c 17 1 % 2)).tile = some (0, [])) ∧
  (∀ (s : State) (q : Fin 16) (slot : Nat) (c : List Byte), s.queues.length = 16 → s.starts q.val slot c → cmdOp c = 0x04 → field c 16 1 ≤ 15 → s.get (Reg.XC_HM_IN_n_a_fmt (field c 16 1)) ≠ 0 → s.get Reg.XC_BOUND_ms ≠ 0 →
    s.xc.lanes.length = 2 → (s.xlane 0).tile.isSome = true → (s.xlane 1).tile.isSome = true → s.xc.arb = none → s.xc.arbQ = [] →
    ∃ t j, exec (.check q) s = .next t ∧ (t.xlane (field c 17 1 % 2)).jobs = (s.xlane (field c 17 1 % 2)).jobs ++ [j] ∧ j.q = q.val ∧
      j.seq = (s.queue q.val).seq) ∧
  (∀ (s : State) (q : Fin 16) (slot : Nat) (c : List Byte), s.queues.length = 16 → s.starts q.val slot c → cmdOp c = 0x05 → (field c 24 1 = 0 ∧ ∃ e, s.dumpEntry (field c 8 8) = some e ∧ s.get (Reg.DC_DL_CFG_e_layout e) ≠ 3) ∨
      (field c 24 1 = 1 ∧ field c 8 8 % 64 = 0 ∧ field c 8 8 + 4096 * field c 20 4 ≤ 2 ^ 52) →
    (∀ j ∈ s.dc.jobs, j.engine ≠ none) → s.drainHas 0x11 = false → ((upto s.engines).find? s.engineIdle).isSome = true →
    ∃ t j, exec (.dump q) s = .next t ∧ j ∈ t.dc.jobs ∧ j.q = some (q.val, (s.queue q.val).seq) ∧ j.kind = field c 24 1 ∧ j.engine = (upto s.engines).find? s.engineIdle ∧
      j.dumpid = s.dc.nextId) ∧
  (∀ (s : State) (q : Fin 16) (slot : Nat) (c : List Byte), s.queues.length = 16 → s.starts q.val slot c → cmdOp c = 0x05 → (field c 24 1 = 0 ∧ ∃ e, s.dumpEntry (field c 8 8) = some e ∧ s.get (Reg.DC_DL_CFG_e_layout e) ≠ 3) ∨
      (field c 24 1 = 1 ∧ field c 8 8 % 64 = 0 ∧ field c 8 8 + 4096 * field c 20 4 ≤ 2 ^ 52) ∨ (field c 24 1 = 2 ∧ field c 20 4 ≤ 32) →
    (upto s.engines).find? s.engineIdle = none →
    ∃ t j, exec (.dump q) s = .next t ∧ t.dc.jobs = s.dc.jobs ++ [j] ∧ j.q = some (q.val, (s.queue q.val).seq) ∧ j.kind = field c 24 1 ∧
      j.engine = none) ∧
  (∀ (s : State) (q : Fin 16) (slot : Nat) (c : List Byte), s.queues.length = 16 → s.starts q.val slot c → cmdOp c = 0x05 → field c 24 1 = 0 → s.dumpEntry (field c 8 8) = none →
    ∃ t, exec (.dump q) s = .next t ∧ t.ended q.val slot 0x80) ∧
  (∀ (s : State) (q : Fin 16) (slot : Nat) (c : List Byte), s.queues.length = 16 → s.starts q.val slot c → cmdOp c = 0x06 → (if field c 17 1 = 1 then s.dmemSize else 524288) ≥ field c 12 4 + field c 16 1 →
    lostIn (if field c 17 1 = 1 then s.st.dmBad else s.cf.sbufBad) (field c 12 4) (field c 16 1) = false →
    ∃ t, exec (.send q) s = .next t ∧
      t.ended q.val slot ((s.takeHead q.val slot c false).offer ((s.takeHead q.val slot c false).sendOffer c)).1)

/-- COMMAND_COMPLETION retires a command whose work has ended, with its code shown, its predicate written and a faulted queue
halted. With the fast clock running, COMMAND_COMPLETION of a slot whose command in flight has ended with code k takes the
command out of flight; the queue shows k as its last code, and is HALTED where k is of Fault kind. PLOV_WATCHDOG of a
Plovbaez queue with commands in flight and none of them waiting for a flag passes to the watchdog's time and ends every
command that had not ended with DEADLINE_MISS. -/
def Obligations.CompletionRetiresTheCommand : Prop :=
  (∀ (s : State) (q : Fin 16) (slot : Fin 128) (f : Flight) (d : Done), s.queues.length = 16 → s.active = true →
    ((s.queue q.val).flights.find? fun f => f.slot == slot.val && f.done.isSome) = some f → f.done = some d →
    ∃ t, exec (.commandCompletion q slot) s = .next t ∧ (t.queue q.val).last = d.code ∧
      (t.queue q.val).flights = ((s.queue q.val).flights.filter fun g => g.seq != f.seq) ∧
      (isFault d.code = true → (t.queue q.val).halted = true)) ∧
  (∀ (s : State) (q : Fin 16), s.queues.length = 16 → s.active = true → s.plovQueue q.val = true → s.get Reg.QE_WDOG_us ≠ 0 →
    (s.queue q.val).flights ≠ [] → s.waitOf q.val = none →
    ∃ t, exec (.plovWatchdog q) s = .next t ∧
      t = { s.passToFleet (((s.queue q.val).wdFrom + s.get Reg.QE_WDOG_us * 1600) % 2 ^ 64) with queues := t.queues } ∧
      (t.queue q.val).flights.length = (s.queue q.val).flights.length ∧
      ∀ f ∈ (t.queue q.val).flights, ∃ d, f.done = some d ∧
        (d.code = Code.DEADLINE_MISS ∨ ∃ g ∈ (s.queue q.val).flights, g.seq = f.seq ∧ g.done = some d))

/-- RING_SLOT_WRITE, QUEUE_DOORBELL, SWAP_REQUEST and QUEUE_BANK_SWAP write the ring, the tail and the banks, or are refused. A
write of the ring window to a slot of the bank QE_WIN_SEL shows stores its four bytes, little-endian, in that slot, and is
refused for a slot that holds a pending command, or in the idle bank while a swap is requested or a commit's swap of the bank
is under way. A doorbell moves the tail of a one-shot bank with no swap pending to at most 128 commands ahead of the head,
else it is refused, counted and recorded. A swap request of 1 to 128 commands is noted, refused above 128 or while one
stands; at the boundary QUEUE_BANK_SWAP exchanges the banks with the head at 0. -/
def Obligations.RingWritesTailsAndSwaps : Prop :=
  (∀ (s : State) (who : Who) (a : BitVec 14) (d : Word), s.ready who →
    (s.wRing (4 * a.toNat) d.toNat).isSome = true →
    ∃ u, Writes (.ringSlotWrite who a d) s who u ∧ u = { s with rings := u.rings, ev := u.ev } ∧
      u.rings = s.rings.put (ringAddr (bits (s.rd Reg.QE_WIN_SEL) (4 * a.toNat / 4096 % 16) 1) (4 * a.toNat / 4096 % 16)
        (4 * a.toNat / 32 % 128) + 4 * a.toNat % 32) (leBytes 4 d.toNat)) ∧
  (∀ (s : State) (who : Who) (a : BitVec 14) (d : Word), s.ready who →
    bits (s.rd Reg.QE_WIN_SEL) (4 * a.toNat / 4096 % 16) 1 = (s.queue (4 * a.toNat / 4096 % 16)).bank →
    (s.queue (4 * a.toNat / 4096 % 16)).holdsSlot (4 * a.toNat / 32 % 128) = true → Refuses (.ringSlotWrite who a d) s who s) ∧
  (∀ (s : State) (who : Who) (a : BitVec 14) (d : Word) (q : Nat), s.ready who → q = 4 * a.toNat / 4096 % 16 →
    bits (s.rd Reg.QE_WIN_SEL) q 1 ≠ (s.queue q).bank →
    (s.queue q).swap.isSome = true ∨ (s.queue q).hoistSwap = true ∨ bit s.ho.placedQ q = true → Refuses (.ringSlotWrite who a d) s who s) ∧
  (∀ (s : State) (who : Who) (q : Fin 16) (d : Word), s.ready who → (s.queue q.val).loop = false → (s.queue q.val).swap = none →
    (s.queue q.val).hoistSwap = false → (d.toNat % 256 + 256 - (s.queue q.val).head) % 256 ≤ 128 →
    Writes (.queueDoorbell who q d) s who (s.setQueue q.val fun u => { u with tail := d.toNat % 256 })) ∧
  (∀ (s : State) (who : Who) (q : Fin 16) (d : Word), s.ready who → (s.queue q.val).loop = true ∨ (s.queue q.val).swap.isSome = true ∨
    (s.queue q.val).hoistSwap = true ∨ 128 < (d.toNat % 256 + 256 - (s.queue q.val).head) % 256 →
    Refuses (.queueDoorbell who q d) s who
      ((s.bump (Reg.QE_Qn_TALLY_refused q.val) 1).refusal Code.REFUSED_FULL Unit_.queues q.val 0)) ∧
  (∀ (s : State) (who : Who) (q : Fin 16) (d : Word), s.ready who → bit d.toNat 16 = true → (s.queue q.val).swap = none →
    (s.queue q.val).hoistSwap = false → 1 ≤ d.toNat % 256 → d.toNat % 256 ≤ 128 →
    Writes (.swapRequest who q d) s who ((s.wr (Reg.QE_Qn_SWAP q.val) (d.toNat % 2 ^ 9)).setQueue q.val fun u =>
      { u with swap := some (d.toNat % 256, bit d.toNat 8) })) ∧
  (∀ (s : State) (who : Who) (q : Fin 16) (d : Word), s.ready who → bit d.toNat 16 = true →
    (s.queue q.val).swap.isSome = true ∨ (s.queue q.val).hoistSwap = true ∨ 128 < d.toNat % 256 →
    Refuses (.swapRequest who q d) s who s) ∧
  (∀ (s : State) (q : Fin 16) (n : Nat) (l : Bool), s.active = true → (s.queue q.val).swap = some (n, l) →
    (s.queue q.val).atBoundary = true → s.queues.length = 16 →
    ∃ t, exec (.queueBankSwap q) s = .next t ∧ t = { s with queues := t.queues } ∧
      (t.queue q.val).bank = 1 - (s.queue q.val).bank ∧ (t.queue q.val).head = 0 ∧
      (t.queue q.val).tail = (if l then 0 else n) ∧ (t.queue q.val).loop = l ∧ (t.queue q.val).count = n ∧
      (t.queue q.val).swap = none ∧ ∀ k, k ≠ q.val → t.queue k = s.queue k)

/-- QUEUE_RESUME, QUEUE_RESET, PRED_SET, PRED_CLR, FLAG_SET_EXTERNAL and FLAG_CLR_EXTERNAL. A resume takes the queue out of
HALTED and changes nothing else, but that a queue which is then EMPTY has no running rank; a reset leaves the queue HALTED
with the status QE_ABORTED, a loop back at its first slot, a stream with its head at its tail. PRED_SET and PRED_CLR set and
clear the predicate bits written 1, no other. An external flag write acts on a flag whose owner is external and on no other
flag; for another owner it is refused and changes nothing. -/
def Obligations.QueueControlPredicatesAndFlags : Prop :=
  (∀ (s : State) (who : Who) (q : Fin 16), s.ready who →
    Writes (.queueResume who q) s who ((s.setQueue q.val fun u => { u with halted := false }).clearRank q.val)) ∧
  (∀ (s : State) (who : Who) (q : Fin 16), s.ready who → s.queues.length = 16 →
    ∃ u, Writes (.queueReset who q) s who u ∧ (u.queue q.val).halted = true ∧ u.get (Reg.QE_Qn_FAULT_status q.val) = Code.QE_ABORTED ∧
      ((s.queue q.val).loop = true → (u.queue q.val).head = 0) ∧
      ((s.queue q.val).loop = false → (s.queue q.val).head < 256 → (s.queue q.val).tail < 256 → (u.queue q.val).head = (s.queue q.val).tail)) ∧
  (∀ (s : State) (who : Who) (d : Word), s.ready who → ∃ u, Writes (.predSet who d) s who u ∧ u = { s with regs := u.regs } ∧
    s.regsBut u [Reg.QE_PRED] ∧ ∀ b < 32, bit (u.rd Reg.QE_PRED) b = (bit (s.rd Reg.QE_PRED) b || (decide (b < 16) && d.getLsbD b))) ∧
  (∀ (s : State) (who : Who) (d : Word), s.ready who → ∃ u, Writes (.predClr who d) s who u ∧ u = { s with regs := u.regs } ∧
    s.regsBut u [Reg.QE_PRED] ∧ ∀ b < 16, bit (u.rd Reg.QE_PRED) b = (bit (s.rd Reg.QE_PRED) b && !(d.getLsbD b))) ∧
  (∀ (s : State) (who : Who) (d : Word), s.ready who → s.get (Reg.QE_FLAG_CFG_f_owner (d.toNat % 64)) = 16 →
    ∃ u, Writes (.flagSetExternal who d) s who u ∧ u = { s with regs := u.regs } ∧ u.flag (d.toNat % 64) = true ∧
      (∀ g < 64, g ≠ d.toNat % 64 → u.flag g = s.flag g) ∧ s.regsBut u [Reg.QE_FLAGS_LO, Reg.QE_FLAGS_HI]) ∧
  (∀ (s : State) (who : Who) (d : Word), s.ready who → s.get (Reg.QE_FLAG_CFG_f_owner (d.toNat % 64)) = 16 →
    ∃ u, Writes (.flagClrExternal who d) s who u ∧ u = { s with regs := u.regs } ∧ u.flag (d.toNat % 64) = false ∧
      (∀ g < 64, g ≠ d.toNat % 64 → u.flag g = s.flag g) ∧ s.regsBut u [Reg.QE_FLAGS_LO, Reg.QE_FLAGS_HI]) ∧
  (∀ (s : State) (who : Who) (d : Word), s.ready who → s.get (Reg.QE_FLAG_CFG_f_owner (d.toNat % 64)) ≠ 16 →
    Refuses (.flagSetExternal who d) s who s ∧ Refuses (.flagClrExternal who d) s who s)

/-- DOORBELL makes a source pending, or counts a repeat or a number it may not name. A doorbell of a source in the role that is
not pending (64 or above from the port) sets its pending bit, and no other source's; one already pending is counted in
IC_COALESCED; source 0, a source outside the role or one below 64 from the port is counted in IC_DB_BAD, with nothing else
changed. -/
def Obligations.DoorbellsRaiseTheirSource : Prop :=
  (∀ (s : State) (who : Who) (d : Word) (n : Nat), s.ready who → n = d.toNat % 2 ^ 11 → 1 ≤ n → n < s.srcCount →
    (Who.num who ≠ 14 → Who.num who ≠ 15 → 64 ≤ n) → s.srcPending n = false →
    ∃ u, Writes (.doorbell who d) s who u ∧ u.srcPending n = true ∧ (∀ k < 1024, k ≠ n → u.srcPending k = s.srcPending k) ∧
      s.regsBut u [Reg.IC_PEND_k (n / 32)]) ∧
  (∀ (s : State) (who : Who) (d : Word) (n : Nat), s.ready who → n = d.toNat % 2 ^ 11 → 1 ≤ n → n < s.srcCount →
    (Who.num who ≠ 14 → Who.num who ≠ 15 → 64 ≤ n) → s.srcPending n = true →
    Writes (.doorbell who d) s who (s.bump Reg.IC_COALESCED_count 1)) ∧
  (∀ (s : State) (who : Who) (d : Word) (n : Nat), s.ready who → n = d.toNat % 2 ^ 11 →
    n = 0 ∨ s.srcCount ≤ n ∨ (Who.num who ≠ 14 ∧ Who.num who ≠ 15 ∧ n < 64) →
    Writes (.doorbell who d) s who (s.bump Reg.IC_DB_BAD_count 1))

/-- CLAIM_HOST and CLAIM_STEWARD answer the highest-numbered source pending and enabled for the claimant, and clear it, once for
both. With a source pending and enabled for the claimant, the read answers a source that is pending and enabled, and no such
source has a higher number; that source is pending no longer after it, so that neither target's next claim can take it again,
and every other pending bit, and the state beside the pending bits, is as before. With no such source the read answers 0 and
changes nothing. -/
def Obligations.ClaimsTakeTheHighestSource : Prop :=
  (∀ (s : State) (who : Who) (k : Nat), s.ready who → k < s.srcCount → k ≠ 0 → s.srcPending k = true → s.enHost k = true →
    ∃ n u, Answers (.claimHost who) s who n false u ∧ s.srcPending n = true ∧ s.enHost n = true ∧ k ≤ n ∧
      (∀ j < s.srcCount, j ≠ 0 → s.srcPending j = true → s.enHost j = true → j ≤ n) ∧ u = { s with regs := u.regs } ∧ u.srcPending n = false ∧
      (∀ j < 1024, j ≠ n → u.srcPending j = s.srcPending j) ∧ u.highest u.enHost ≠ n ∧ u.highest u.enStew ≠ n) ∧
  (∀ (s : State) (who : Who) (k : Nat), s.ready who → k < s.srcCount → k ≠ 0 → s.srcPending k = true → s.enStew k = true →
    ∃ n u, Answers (.claimSteward who) s who n false u ∧ s.srcPending n = true ∧ s.enStew n = true ∧ k ≤ n ∧
      (∀ j < s.srcCount, j ≠ 0 → s.srcPending j = true → s.enStew j = true → j ≤ n) ∧ u = { s with regs := u.regs } ∧ u.srcPending n = false ∧
      (∀ j < 1024, j ≠ n → u.srcPending j = s.srcPending j) ∧ u.highest u.enHost ≠ n ∧ u.highest u.enStew ≠ n) ∧
  (∀ (s : State) (who : Who), s.ready who →
    ((∀ k < s.srcCount, k ≠ 0 → ¬ (s.srcPending k = true ∧ s.enHost k = true)) → Answers (.claimHost who) s who 0 false s) ∧
    ((∀ k < s.srcCount, k ≠ 0 → ¬ (s.srcPending k = true ∧ s.enStew k = true)) → Answers (.claimSteward who) s who 0 false s))

/-- HOIST_LOAD begins a load or is refused during a commit, HOIST_FEED_WORD takes a fed word, and HOIST_LOAD_END and FEED_TIMEOUT
end the load. With no commit and no load in progress, a load of a non-empty image fed by register sets go and waits for its
words; a length of 0 ends it with ZERO. During a commit the write is refused, recorded HOIST_BUSY and counted in
HO_REFUSALS.shadow. A feed without a fed load is refused and changes nothing; while the load is decided a fed word is kept,
up to 256. A decided load completes with its code in HO_RESULT and go clear; the shadow is named after a complete image and
tainted after one that failed late. After 10 ms without a word a fed load ends with HOIST_FORMAT and the shadow is tainted. -/
def Obligations.LoadsBeginAndEnd : Prop :=
  (∀ (s : State) (who : Who), s.ready who → s.ho.phase = 0 → s.ho.ld.busy = false → s.get Reg.HO_SRC_HI_kind = 2 →
    1 ≤ s.rd Reg.HO_SRC_LEN → s.rd Reg.HO_SRC_LEN ≤ 2 ^ 24 →
    ∃ u, Writes (.hoistLoad who) s who u ∧ u.ho.ld.busy = true ∧ u.ho.ld.len = s.rd Reg.HO_SRC_LEN ∧ u.ho.ld.kind = 2 ∧
      u.ho.ld.got = [] ∧ u.get Reg.HO_LOAD_go = 1 ∧ s.regsBut u [Reg.HO_LOAD] ∧ u = { s with regs := u.regs, ho := u.ho }) ∧
  (∀ (s : State) (who : Who), s.ready who → s.ho.phase ≠ 0 →
    Refuses (.hoistLoad who) s who ((s.bump Reg.HO_REFUSALS_shadow 1).refusal Code.HOIST_BUSY Unit_.hoist 0 0)) ∧
  (∀ (s : State) (who : Who) (d : Word), s.ready who → s.ho.ld.busy = false ∨ s.ho.ld.kind ≠ 2 →
    Refuses (.hoistFeedWord who d) s who s) ∧
  (∀ (s : State) (who : Who) (d : Word), s.ready who → s.ho.ld.busy = true → s.ho.ld.kind = 2 → s.ho.ld.fate.isSome = true →
    s.ho.ld.feed.length < 256 →
    ∃ u, Writes (.hoistFeedWord who d) s who u ∧ u.ho.ld.feed = s.ho.ld.feed ++ [d.toNat] ∧ u = { s with ho := u.ho }) ∧
  (∀ (s : State) (c : Nat) (o : List Nat) (t : Bool), s.active = true → s.ho.ld.fate = some (c, o, t) →
    exec .hoistLoadEnd s = .next (s.loadEnd c o t)) ∧
  (∀ (s : State) (c : Nat) (o : List Nat) (t : Bool), c < 256 → s.active = true → s.ho.ld.fate = some (c, o, t) →
    ∃ u, exec .hoistLoadEnd s = .next u ∧ u.get Reg.HO_RESULT_load_code = c ∧ u.get Reg.HO_LOAD_go = 0 ∧ u.ho.ld = {} ∧
      (c = Code.OK → u.get Reg.HO_SHADOW_image = 1 ∧ u.get Reg.HO_SHADOW_taint = 0 ∧
        (10 ≤ s.ho.ld.got.length → u.get Reg.HO_SHADOW_image_gen = field s.ho.ld.got 8 2)) ∧
      (c ≠ Code.OK → t = true → u.get Reg.HO_SHADOW_image = 0 ∧ u.get Reg.HO_SHADOW_taint = c)) ∧
  (∀ s : State, s.active = true → s.ho.ld.busy = true → s.ho.ld.kind = 2 → s.ho.ld.fate = none →
    ∃ t, exec .feedTimeout s = .next t ∧ t.ho.ld.busy = false ∧ t.cyc = max s.cyc (s.ho.ld.lastAt + 1000000) ∧
      t.get Reg.HO_RESULT_load_code = Code.HOIST_FORMAT ∧ t.get Reg.HO_SHADOW_taint = Code.HOIST_FORMAT ∧
      t.get Reg.HO_SHADOW_image = 0 ∧ t.get Reg.HO_LOAD_go = 0) ∧
  (∀ (s : State) (c : Nat) (o : List Nat) (t : Bool), c < 256 →
    (s.loadEnd c o t).get Reg.HO_RESULT_load_code = c ∧ (s.loadEnd c o t).get Reg.HO_LOAD_go = 0 ∧
    (s.loadEnd c o t).ho.ld.busy = false)

/-- HOIST_COMMIT during a commit is refused, of a tainted shadow fails with its taint; HOIST_DISCARD and REQUIRE_SIG_WRITE act on
the shadow and the signature rule. A commit requested while one runs is refused, recorded HOIST_BUSY and counted; with none
running, the request takes its generation, and with a tainted shadow and no load under way it fails with the taint's code in
HO_RESULT and nothing live changed. Without the go bit only the generation is set. A discard outside a commit and a load
clears taint, image and direct marks of the shadow and is refused and counted otherwise, during a commit with HOIST_BUSY
recorded. Clearing require_sig without sec_auth is refused; setting it is not. -/
def Obligations.CommitsAreRequestedAndDecided : Prop :=
  (∀ (s : State) (who : Who) (d : Word), s.ready who → bit d.toNat 16 = true → s.ho.phase ≠ 0 →
    Refuses (.hoistCommit who d) s who ((s.bump Reg.HO_REFUSALS_shadow 1).refusal Code.HOIST_BUSY Unit_.hoist 0 0)) ∧
  (∀ (s : State) (who : Who) (d : Word), s.ready who → bit d.toNat 16 = false →
    Writes (.hoistCommit who d) s who (s.put Reg.HO_COMMIT_gen (d.toNat % 2 ^ 16))) ∧
  (∀ (s : State) (who : Who) (d : Word), s.ready who → bit d.toNat 16 = true → s.ho.phase = 0 → s.ho.ld.busy = false →
    s.get Reg.HO_SHADOW_taint ≠ 0 → ∃ v : State,
      Writes (.hoistCommit who d) s who (v.commitFail (s.get Reg.HO_SHADOW_taint) 0) ∧ v.ho.gen = d.toNat % 2 ^ 16 ∧
      v.get Reg.HO_COMMIT_go = 1 ∧ s.regsBut v [Reg.HO_COMMIT] ∧ v = { s with regs := v.regs, ho := v.ho }) ∧
  (∀ (s : State) (who : Who) (d : Word), s.ready who → bit d.toNat 16 = true → s.ho.phase = 0 → s.ho.ld.busy = false →
    s.get Reg.HO_SHADOW_taint = 0 → ∃ v : State, Writes (.hoistCommit who d) s who (v.commitCheck (d.toNat % 2 ^ 16)) ∧
      v.ho.gen = d.toNat % 2 ^ 16 ∧ v.get Reg.HO_COMMIT_go = 1 ∧ s.regsBut v [Reg.HO_COMMIT] ∧
      v = { s with regs := v.regs, ho := v.ho }) ∧
  (∀ (s : State) (who : Who), s.ready who → s.ho.phase = 0 → s.ho.ld.busy = false →
    ∃ u, Writes (.hoistDiscard who) s who u ∧ u.get Reg.HO_SHADOW_taint = 0 ∧ u.get Reg.HO_SHADOW_image = 0 ∧
      u.ho.direct = false ∧ u.ho.placedQ = 0 ∧ (s.genLive = false → u.shadow = [])) ∧
  (∀ (s : State) (who : Who), s.ready who → s.ho.phase ≠ 0 →
    Refuses (.hoistDiscard who) s who ((s.bump Reg.HO_REFUSALS_shadow 1).refusal Code.HOIST_BUSY Unit_.hoist 0 0)) ∧
  (∀ (s : State) (who : Who), s.ready who → s.ho.phase = 0 → s.ho.ld.busy = true →
    Refuses (.hoistDiscard who) s who (s.bump Reg.HO_REFUSALS_shadow 1)) ∧
  (∀ (s : State) (who : Who) (d : Word), s.ready who → bit d.toNat 1 = false → bit d.toNat 2 = true →
    Writes (.requireSigWrite who d) s who (s.put Reg.HO_CTRL_require_sig 1)) ∧
  (∀ (s : State) (who : Who) (d : Word), s.ready who → bit d.toNat 1 = false → bit d.toNat 2 = false →
    s.get Reg.HO_CTRL_require_sig = 1 → s.secAuth = false → Refuses (.requireSigWrite who d) s who s)

/-- COMMIT_SWAP, COMMIT_DRAIN_TIMEOUT, COPY_BACK_DONE and EPOCH_SWITCH carry a commit through, or end it. With the fast clock
running: in the drain phase with the work drained in time and no command held, COMMIT_SWAP makes the generation live and goes
on to the copy-back. Where the drain does not end in time, COMMIT_DRAIN_TIMEOUT ends the commit with HOIST_DRAIN and the live
generation stays. COPY_BACK_DONE ends the copy-back phase with OK in HO_RESULT, go clear and the shadow no longer marked.
EPOCH_SWITCH of an entry with a pending copy passes to the start of its epoch, the copy is pending no longer and, where it is
valid, is the entry's newest content; without one it changes nothing. -/
def Obligations.DrainsSwapsAndCopyBacks : Prop :=
  (∀ s : State, s.active = true → s.ho.phase = 1 → s.drained = true → s.cyc ≤ s.drainLimit → exec .commitSwap s = .next s.commitSwap) ∧
  (∀ s : State, s.active = true → s.ho.phase = 1 → s.drained = true → s.cyc ≤ s.drainLimit →
    (∀ q, ∀ f ∈ (s.queue q).flights, f.held = false) →
    ∃ t, exec .commitSwap s = .next t ∧ t.ho.phase = 2 ∧ t.ho.first = false ∧ t.ho.placedQ = 0 ∧
      t.get Reg.HO_LIVE_gen = s.ho.gen % 2 ^ 16 ∧ t.get Reg.HO_LIVE_valid = 1) ∧
  (∀ (s : State) (k : Option (Nat × Sparse Word)), (s.nameLive k).get Reg.HO_LIVE_gen = s.ho.gen % 2 ^ 16 ∧
    (s.nameLive k).get Reg.HO_LIVE_valid = 1 ∧ (s.nameLive k).get Reg.GL_PLACE_valid = 1) ∧
  (∀ (s : State), s.active = true → s.ho.phase = 1 → s.drained = false → ∃ v : State,
    exec .commitDrainTimeout s = .next (State.dumpPump 8 (v.releaseHeld.planSwap fun _ => false)) ∧
      v.ho.phase = 0 ∧ v.get Reg.HO_RESULT_commit_code = Code.HOIST_DRAIN ∧ v.get Reg.HO_COMMIT_go = 0 ∧
      v.rd Reg.HO_LIVE = s.rd Reg.HO_LIVE) ∧
  (∀ (s : State), s.active = true → s.ho.phase = 1 → s.drained = false → (∀ q, ∀ f ∈ (s.queue q).flights, f.held = false) →
    ∃ t, exec .commitDrainTimeout s = .next t ∧ t.ho.phase = 0 ∧ t.get Reg.HO_RESULT_commit_code = Code.HOIST_DRAIN ∧
      t.get Reg.HO_COMMIT_go = 0 ∧ t.rd Reg.HO_LIVE = s.rd Reg.HO_LIVE) ∧
  (∀ s : State, s.active = true → s.ho.phase = 2 → ∃ t, exec .copyBackDone s = .next t ∧ t.ho.phase = 0 ∧ t.ho.direct = false ∧
    t.get Reg.HO_RESULT_commit_code = Code.OK ∧ t.get Reg.HO_COMMIT_go = 0 ∧ t.get Reg.HO_SHADOW_image = 0 ∧
    t.rd Reg.HO_LIVE = s.rd Reg.HO_LIVE) ∧
  (∀ (s : State) (b : BitVec 20), s.pendOf b.toNat = none → exec (.epochSwitch b) s = .next s) ∧
  (∀ (s : State) (b : BitVec 20) (p : PendCopy), s.active = true → s.pendOf b.toNat = some p → ∃ u : State,
    exec (.epochSwitch b) s = .next (u.epochSwitch p) ∧ (∃ c, u = s.passToFleet c)) ∧
  (∀ (s : State) (b : BitVec 20) (p : PendCopy), s.active = true → s.pendOf b.toNat = some p →
    ∃ t, exec (.epochSwitch b) s = .next t ∧ t.ho.pend = s.ho.pend.filter (fun o => o.base != p.base) ∧
      (p.content.valid = true → (s.entry? p.base).isSome = true →
        ∃ en, t.entry? p.base = some en ∧ en.state = 2 ∧ en.cont.head? = some p.content)) ∧
  (∀ (s : State) (p : PendCopy), (s.epochSwitch p).ho.pend = s.ho.pend.filter (fun o => o.base != p.base))

/-- RATE_WRITE, OFFSET_STEP, TOD_ARM and HOLD_WRITE set the time base, and the servo keeps rate and offset for itself. With the
servo off, a rate written takes effect with the offset moved so that fleet time at that cycle is the same before and after,
and no other register changes; an offset written as a pair steps fleet time by the difference. With the servo on both are
refused and change nothing. A time of day below 10^9 ns in a tray is set and armed, from 10^9 on it is refused. A write of
TB_CTRL with hold 0 sets servo and hold and nothing else. -/
def Obligations.TimeRegistersStepFleetTime : Prop :=
  (∀ (s : State) (who : Who) (d : Word), s.ready who → s.servo = false →
    ∃ u, Writes (.rateWrite who d) s who u ∧ u.rd Reg.TB_RATE = d.toNat ∧ u.fleet = s.fleet ∧
      s.regsBut u [Reg.TB_RATE, Reg.TB_OFF_LO, Reg.TB_OFF_HI] ∧ u = { s with regs := u.regs }) ∧
  (∀ (s : State) (who : Who) (d : Word) (h : Nat), s.ready who → s.servo = false → h < 2 ^ 32 →
    (s.holding (Who.num who)).wr = some (Reg.TB_OFF_LO, h) →
    ∃ u, Writes (.offsetStep who d) s who u ∧ u.rd64 Reg.TB_OFF_LO = d.toNat + 2 ^ 32 * h ∧
      s.regsBut u [Reg.TB_OFF_LO, Reg.TB_OFF_HI] ∧ u.fleet = (s.fleet + (d.toNat + 2 ^ 32 * h) + (2 ^ 64 - s.rd64 Reg.TB_OFF_LO)) % 2 ^ 64) ∧
  (∀ (s : State) (who : Who) (d : Word), s.ready who → s.servo = true →
    Refuses (.rateWrite who d) s who s ∧ Refuses (.offsetStep who d) s who s) ∧
  (∀ (s : State) (who : Who) (d : Word), s.ready who → s.tray = true → d.toNat % 2 ^ 30 < 1000000000 →
    ∃ u, Writes (.todArm who d) s who u ∧ u.tb = { s.tb with todArmed := true } ∧ u.get Reg.TB_TOD_NS_ns = d.toNat % 2 ^ 30 ∧
      s.regsBut u [Reg.TB_TOD_NS] ∧ u = { s with regs := u.regs, tb := u.tb }) ∧
  (∀ (s : State) (who : Who) (d : Word), s.ready who → s.tray = true → 1000000000 ≤ d.toNat % 2 ^ 30 →
    Refuses (.todArm who d) s who s) ∧
  (∀ (s : State) (who : Who) (d : Word), s.ready who → bit d.toNat 1 = false →
    ∃ u, Writes (.holdWrite who d) s who u ∧ u.rd Reg.TB_CTRL = d.toNat % 4 ∧ s.regsBut u [Reg.TB_CTRL] ∧
      u = { s with regs := u.regs }) ∧
  (∀ (s : State) (who : Who) (d : Word), s.ready who → bit d.toNat 1 = true → s.get Reg.TB_ALIGN_state = 2 →
    ∃ v : State, Writes (.holdWrite who d) s who v.holdover ∧ v.get Reg.TB_CTRL_hold = 1 ∧ s.regsBut v [Reg.TB_CTRL])

/-- PPS_EDGE and CAPTURE_EDGE stamp fleet time, and PULSE_FIRE raises its output and sets the next due time. A PPS edge at a tray
of masthead duty stamps TB_PPS with the fleet time of the edge and, with no time of day armed, counts it as such; a die, and
a tray of another duty, ignores it. An edge of an enabled capture input stamps TB_CAP with the fleet time of the edge, counts
it, and marks the stamp unread; an unread stamp before it counts as overwritten; a disabled input changes nothing. A pulse
that is due passes to its time, to the tick with fine set, is counted and raises its output, which is to fall the width after
it rose; a one-shot has no next time, a periodic one has the next edge after now. -/
def Obligations.EdgesCapturesAndPulses : Prop :=
  (∀ (s : State) (k : BitVec 4), s.aonUp = true → s.tray = true → s.duty = 3 → s.tb.todArmed = false → ∃ t, exec (.ppsEdge k) s = .next t ∧
    t.rd64 Reg.TB_PPS_LO = s.edgeTime k.toNat ∧
    t.get Reg.TB_PPS_CNT_no_tod = satAdd (2 ^ Reg.TB_PPS_CNT_no_tod.w - 1) (s.get Reg.TB_PPS_CNT_no_tod) 1 ∧
    s.regsBut t [Reg.TB_PPS_LO, Reg.TB_PPS_HI, Reg.TB_PPS_CNT] ∧ t = { s with regs := t.regs }) ∧
  (∀ (s : State) (k : BitVec 4), s.tray = false ∨ s.duty ≠ 3 → exec (.ppsEdge k) s = .next s) ∧
  (∀ (s : State) (i : Fin 4) (k : BitVec 4), s.get (Reg.TB_CAP_CTRL_k_en i.val) = 1 → s.active = true →
    bit s.tb.capUnread i.val = false → s.get (Reg.TB_CAP_CTRL_k_irq i.val) = 0 → ∃ t, exec (.captureEdge i k) s = .next t ∧
      t.rd64 (Reg.TB_CAP_LO_k i.val) = s.edgeTime k.toNat ∧ bit t.tb.capUnread i.val = true ∧
      t.get (Reg.TB_CAP_CNT_k_edges i.val) =
        satAdd (2 ^ (Reg.TB_CAP_CNT_k_edges i.val).w - 1) (s.get (Reg.TB_CAP_CNT_k_edges i.val)) 1 ∧
      t.get (Reg.TB_CAP_CNT_k_over i.val) = s.get (Reg.TB_CAP_CNT_k_over i.val) ∧
      t.get (Reg.TB_CAP_CTRL_k_fine i.val) = 1) ∧
  (∀ (s : State) (i : Fin 4) (k : BitVec 4), s.get (Reg.TB_CAP_CTRL_k_en i.val) = 0 → exec (.captureEdge i k) s = .next s) ∧
  (∀ (s : State) (i : Fin 4) (d : Nat), (s.pulse i.val).next = some d → s.pulsePer i.val = 0 →
    s.get (Reg.TB_PLS_CTRL_k_irq i.val) = 0 → s.tb.pulses.length = 4 → ∃ t, exec (.pulseFire i) s = .next t ∧
      t.cyc = (if s.get (Reg.TB_PLS_CTRL_k_fine i.val) = 1 then s.passToFleet d else s.passToAon d).cyc ∧
      t.pulse i.val = { next := none, high := some (((if s.reached d = true then s.fleet else d) + s.pulseWidth i.val) % 2 ^ 64) } ∧
      t.get (Reg.TB_PLS_FIRED_k_fired i.val) =
        satAdd (2 ^ (Reg.TB_PLS_FIRED_k_fired i.val).w - 1) (s.get (Reg.TB_PLS_FIRED_k_fired i.val)) 1) ∧
  (∀ (s : State) (i : Fin 4) (d : Nat), (s.pulse i.val).next = some d → s.pulsePer i.val ≠ 0 → s.reached d = true →
    s.get (Reg.TB_PLS_CTRL_k_fine i.val) = 1 → s.get (Reg.TB_PLS_CTRL_k_irq i.val) = 0 → s.tb.pulses.length = 4 → ∃ t, exec (.pulseFire i) s = .next t ∧
      t.pulse i.val = { next := some ((d + (s.sinceFleet d / s.pulsePer i.val + 1) * s.pulsePer i.val) % 2 ^ 64),
                        high := some ((s.fleet + s.pulseWidth i.val) % 2 ^ 64) }) ∧
  (∀ (s : State) (i : Fin 4), (s.pulse i.val).next = none → exec (.pulseFire i) s = .next s)

/-- SYNC_EXCHANGE_START, SYNC_EXCHANGE_LOST, SYNC_MISS and LAP_CHANGE. An exchange with a parent on a lane, when the fast clock
runs and the period is not 0, begins with the next identity and is open from that cycle. A lost exchange passes to the end of
its period and is no longer open. A miss in ALIGNING or TRACKING passes to the end of the windows, counts a holdover and goes
to HOLDOVER. A lap that has changed by a step is noted, and at a masthead forms a LIFE record; else LAP_CHANGE passes to the
next lap first. -/
def Obligations.ExchangesAndMisses : Prop :=
  (∀ s : State, s.active = true → s.drainHas 3 = false → s.servo = true → s.get Reg.TB_SYNC_CFG_period_us ≠ 0 →
    s.get Reg.TB_PARENT_kind = 1 ∨ s.get Reg.TB_PARENT_kind = 2 →
    ∃ t, exec .syncExchangeStart s = .next t ∧ ∃ e, t.tb.exch = some e ∧ e.id = (s.tb.exchId + 1) % 2 ^ 16 ∧ e.t1 = none ∧
      t.tb.exchId = e.id) ∧
  (∀ (s : State) (e : Exchange), s.tb.exch = some e → ∃ t, exec .syncExchangeLost s = .next t ∧ t.tb.exch = none ∧
    t.cyc = max s.cyc (e.since + s.get Reg.TB_SYNC_CFG_period_us * 100)) ∧
  (∀ s : State, s.get Reg.TB_ALIGN_state = 2 → s.get Reg.TB_SYNC_CFG_miss ≠ 0 → s.windowUs ≠ 0 → s.freeRoot = false →
    ∃ u : State, u = s.passTo (s.tb.updAt + s.get Reg.TB_SYNC_CFG_miss * s.windowUs * 100) ∧ exec .syncMiss s = .next u.holdover) ∧
  (∀ s : State, s.get Reg.TB_ALIGN_state = 0 ∨ s.get Reg.TB_ALIGN_state = 3 → exec .syncMiss s = .next s) ∧
  (∀ s : State, s.get Reg.TB_ALIGN_state = 1 ∨ s.get Reg.TB_ALIGN_state = 2 → s.get Reg.TB_SYNC_CFG_miss ≠ 0 → s.windowUs ≠ 0 →
    s.freeRoot = false → ∃ t, exec .syncMiss s = .next t ∧ t.get Reg.TB_ALIGN_state = 3 ∧
      t.cyc = max s.cyc (s.tb.updAt + s.get Reg.TB_SYNC_CFG_miss * s.windowUs * 100) ∧
      t.get Reg.TB_EVENTS_holdovers = satAdd (2 ^ Reg.TB_EVENTS_holdovers.w - 1) (s.get Reg.TB_EVENTS_holdovers) 1) ∧
  (∀ s : State, s.lapNow ≠ s.tb.lap → s.tray = true → s.duty = 3 → ∃ t u : State, exec .lapChange s = .next t ∧
    t = u.recordAon 5 0x04 Unit_.time 0 s.lapNow ∧ u = { s with tb := u.tb } ∧ u.tb.lap = s.lapNow ∧ t.tb.lap = s.lapNow) ∧
  (∀ s : State, s.lapNow ≠ s.tb.lap → s.tray = false ∨ s.duty ≠ 3 → ∃ t, exec .lapChange s = .next t ∧
    t = { s with tb := t.tb } ∧ t.tb.lap = s.lapNow) ∧
  (∀ s : State, s.lapNow = s.tb.lap → ∃ t u : State, exec .lapChange s = .next t ∧
    u = s.passToAon (((s.fleet / 2 ^ 52 + 1) * 2 ^ 52) % 2 ^ 64) ∧ t = u.lapWatch ∧ t.tb.lap = u.lapNow)

/-- SENSOR_READING, DROOP_REPORT, VIN_POLL, PMBUS_ALERT, PMBUS_FW_COMMAND and PMBUS_TRANSACTION_END. A reading of a sensor of no
kind sets its value and nothing else; one that leaves the sensor in its state sets value and state only; one that moves it to
normal or warn forms a STATE record, raises source 36 and lets the throttle demand follow. A droop report counts in its
monitor's register, which stops at its maximum, and changes no other. A due poll of the input bus, with the master idle and
no alert due, starts a READ_VIN transaction at the configured address; an alert starts the alert response at address 0x0C. A
firmware command of a listed code with go and an idle master starts its transaction, the PAGE write first where page_en is
set; a code not listed is refused. A transaction without acknowledge is tried again, three times at most. A firmware
transaction answered with data, with nothing else due, sets PM_PB_RSP to done with status 0 and the data (its low byte for a
byte command) and clears go. An alert response keeps the alerting address. After the PAGE write of a firmware transaction its
command follows. No other register changes. -/
def Obligations.SensorsDroopsAndPmbus : Prop :=
  ((∀ (s : State) (n : BitVec 8) (v : BitVec 16), s.aonUp = true → s.get (Reg.PM_SN_CFG_n_kind n.toNat) = 0 →
    ∃ t, exec (.sensorReading n v) s = .next t ∧ t.get (Reg.PM_SN_VAL_n_value n.toNat) = v.toNat ∧
      s.regsBut t [Reg.PM_SN_VAL_n n.toNat] ∧ t = { s with regs := t.regs }) ∧
  (∀ (s : State) (n : BitVec 8) (v : BitVec 16), s.aonUp = true → 1 ≤ s.get (Reg.PM_SN_CFG_n_kind n.toNat) → s.get (Reg.PM_SN_CFG_n_kind n.toNat) ≤ 5 →
    sensorNext (s.get (Reg.PM_SN_VAL_n_state n.toNat)) (toSigned 16 v.toNat) (toSigned 16 (s.get (Reg.PM_SN_THR_n_warn n.toNat)))
      (toSigned 16 (s.get (Reg.PM_SN_THR_n_crit n.toNat))) (s.get (Reg.PM_SN_CFG_n_hyst n.toNat)) =
      s.get (Reg.PM_SN_VAL_n_state n.toNat) →
    ∃ t, exec (.sensorReading n v) s = .next t ∧ t.get (Reg.PM_SN_VAL_n_value n.toNat) = v.toNat ∧
      t.get (Reg.PM_SN_VAL_n_state n.toNat) = s.get (Reg.PM_SN_VAL_n_state n.toNat) ∧
      s.regsBut t [Reg.PM_SN_VAL_n n.toNat] ∧ t = { s with regs := t.regs }) ∧
  (∀ (s : State) (n : BitVec 8) (v : BitVec 16) (x : Nat), s.aonUp = true → 1 ≤ s.get (Reg.PM_SN_CFG_n_kind n.toNat) →
    s.get (Reg.PM_SN_CFG_n_kind n.toNat) ≤ 5 → x ≠ s.get (Reg.PM_SN_VAL_n_state n.toNat) → x < 2 →
    s.get (Reg.PM_SN_VAL_n_state n.toNat) < 3 →
    sensorNext (s.get (Reg.PM_SN_VAL_n_state n.toNat)) (toSigned 16 v.toNat) (toSigned 16 (s.get (Reg.PM_SN_THR_n_warn n.toNat)))
      (toSigned 16 (s.get (Reg.PM_SN_THR_n_crit n.toNat))) (s.get (Reg.PM_SN_CFG_n_hyst n.toNat)) = x →
    ∃ u : State, exec (.sensorReading n v) s = .next ((u.recordAon 3 0x01 Unit_.power n.toNat x).raise 36).thrStep ∧
      u.get (Reg.PM_SN_VAL_n_value n.toNat) = v.toNat ∧ u.get (Reg.PM_SN_VAL_n_state n.toNat) = x ∧
      s.regsBut u [Reg.PM_SN_VAL_n n.toNat] ∧ u = { s with regs := u.regs }) ∧
  (∀ (s : State) (k : Fin 16), s.aonUp = true → ∃ t, exec (.droopReport k) s = .next t ∧
    t.rd (Reg.PM_DROOP_k k.val) = min (2 ^ 32 - 1) (s.rd (Reg.PM_DROOP_k k.val) + 1) ∧ s.regsBut t [Reg.PM_DROOP_k k.val] ∧
    t = { s with regs := t.regs }) ∧
  (∀ s : State, s.aonUp = true → s.tray = true → s.get Reg.PM_PB_CFG_vin_en = 1 → s.get Reg.PM_PB_CFG_poll_us ≠ 0 → s.pb.cur = none →
    s.pb.alertDue = false → ∃ t, exec .vinPoll s = .next t ∧ t.pb.cur = some .vin ∧ t.pb.code = 0x88 ∧
      t.pb.addr = s.get Reg.PM_PB_CFG_vin_addr ∧ t.pb.vinDue = false ∧ t = { s with cyc := max s.cyc s.pb.pollAt, pb := t.pb } ∧
      t.pb.pollAt = t.cyc + s.get Reg.PM_PB_CFG_poll_us * 100) ∧
  (∀ s : State, s.aonUp = true → s.tray = true → s.pb.cur = none → ∃ t, exec .pmbusAlert s = .next t ∧ t.pb.cur = some .alert ∧ t.pb.addr = 0x0C ∧
    t = { s with pb := t.pb }) ∧
  (∀ (s : State) (who : Who) (d : Word), s.ready who → s.tray = true → pmbusCodes.contains (bits d.toNat 8 8) = false →
    Refuses (.pmbusFwCommand who d) s who s) ∧
  (∀ (s : State) (who : Who) (d : Word), s.ready who → s.tray = true → pmbusCodes.contains (bits d.toNat 8 8) = true →
    bit d.toNat 18 = true → s.get Reg.PM_PB_CMD_go = 0 → s.pb.cur = none → s.pb.alertDue = false → s.pb.vinDue = false →
    ∃ u, Writes (.pmbusFwCommand who d) s who u ∧ u.pb.cur = some .fw ∧ u.pb.paging = (u.get Reg.PM_PB_CMD_page_en == 1) ∧
      u.pb.code = (if u.pb.paging = true then 0 else bits d.toNat 8 8) ∧
      u.get Reg.PM_PB_CMD_go = 1 ∧ u.get Reg.PM_PB_RSP_done = 0) ∧
  (∀ (s : State) (k : PbKind), s.aonUp = true → s.pb.cur = some k → s.pb.tries < 3 → exec (.pmbusTransactionEnd .noAck) s =
    .next { s with pb := { s.pb with tries := s.pb.tries + 1 } })) ∧
  ((∀ (s : State) (v : BitVec 16), s.aonUp = true → s.pb.paging = false → s.pb.cur = some .fw → s.pb.alertDue = false → s.pb.vinDue = false → s.pb.fwDue = false →
    s.pb.code ≠ 0x03 → ∃ t, exec (.pmbusTransactionEnd (.ok v)) s = .next t ∧ t.pb.cur = none ∧ t.get Reg.PM_PB_RSP_done = 1 ∧
      t.get Reg.PM_PB_RSP_status = 0 ∧ t.get Reg.PM_PB_CMD_go = 0 ∧
      t.get Reg.PM_PB_RSP_data = (if s.get Reg.PM_PB_CMD_word = 1 then v.toNat else v.toNat % 256) ∧
      s.regsBut t [Reg.PM_PB_RSP, Reg.PM_PB_CMD]) ∧
  (∀ (s : State) (v : BitVec 16), s.aonUp = true → s.pb.paging = false → s.pb.cur = some .alert → s.pb.alertDue = false → s.pb.vinDue = false → s.pb.fwDue = false →
    exec (.pmbusTransactionEnd (.ok v)) s = .next { s with pb := { s.pb with cur := none, alertRsp := v.toNat % 256 } }) ∧
  (∀ (s : State) (v : BitVec 16) (k : PbKind), s.aonUp = true → s.pb.paging = true → s.pb.cur = some k →
    exec (.pmbusTransactionEnd (.ok v)) s =
      .next { s with pb := { s.pb with paging := false, tries := 0, code := s.get Reg.PM_PB_CMD_code } }))

/-- THROTTLE_FALL_TIMER, THROTTLE_ACK, THROTTLE_ACK_RELEASE, THROTTLE_ACK_LATE and THROTTLE_GRANT. An acknowledge with the
request up takes the request down; its release ends the handshake, and issues the newest level kept. One millisecond after
the demand fell, the request follows the highest level demanded. An acknowledge 100 µs late is noted once and recorded
PORT_PROTOCOL. A grant equal to the request only shows in the grant and its toggle; another is also counted in PM_THR_DIFF
and recorded. -/
def Obligations.TheThrottleHandshake : Prop :=
  (∀ s : State, s.aonUp = true → s.thr.busy = true → s.thr.req = true → exec .throttleAck s = .next { s with thr := { s.thr with req := false } }) ∧
  (∀ s : State, s.aonUp = true → s.thr.busy = true → s.thr.req = false → s.thr.newest = none →
    exec .throttleAckRelease s = .next { s with thr := { s.thr with busy := false, newest := none } }) ∧
  (∀ (s : State) (l : Nat), s.aonUp = true → s.thr.busy = true → s.thr.req = false → s.thr.newest = some l →
    exec .throttleAckRelease s = .next { s with thr :=
      { s.thr with busy := true, req := true, newest := none, level := l, since := s.cyc, lateRec := false } }) ∧
  (∀ (s : State) (c : Nat), s.aonUp = true → s.thr.lowSince = some c → s.thr.busy = false → ∃ t, exec .throttleFallTimer s = .next t ∧
    t.cyc = max s.cyc (c + 100000) ∧ t.thr.level = s.demand.1 ∧ t.thr.req = true ∧ t.thr.lowSince = none ∧ t.regs = s.regs) ∧
  (∀ s : State, s.aonUp = true → s.thr.busy = true → s.thr.req = true → s.thr.lateRec = false → ∃ t u : State,
    exec .throttleAckLate s = .next t ∧ t = u.faultAon Code.PORT_PROTOCOL Unit_.power 0 0 ∧ t.thr.lateRec = true ∧
    t.cyc = max s.cyc (s.thr.since + 10000) ∧ u = { s with cyc := max s.cyc (s.thr.since + 10000), thr := { s.thr with lateRec := true } }) ∧
  (∀ (s : State) (l : BitVec 3), s.aonUp = true → l.toNat = s.thr.level → exec (.throttleGrant l) s =
    .next { s with thr := { s.thr with grant := l.toNat, tog := !s.thr.tog } }) ∧
  (∀ (s : State) (l : BitVec 3), s.aonUp = true → l.toNat ≠ s.thr.level → ∃ t, exec (.throttleGrant l) s = .next t ∧ t.thr.grant = l.toNat ∧
    t.thr.tog = !s.thr.tog ∧ t.get Reg.PM_THR_DIFF_count = satAdd (2 ^ 32 - 1) (s.get Reg.PM_THR_DIFF_count) 1)

/-- EVENT_INPUT_COUNT and GAP_COUNT count what R225 to R228 say, in the state of the clock they say. In one fast cycle the levels
become the previous ones, and nothing changes outside the counter fabric; with the fast clock stopped the cycle is not seen.
A gap cycle with the fast clock stopped and a counter enabled counts one in CF_GAP and marks the enabled counters; with the
clock running, or no counter enabled, nothing changes. For every counter k with a count below 2^48: when it is enabled and
its input is high in the cycle, and low in the cycle before where it counts edges, its count goes up by one; at 2^48 - 1 it
stays there and its saturation is marked where it saturates, or it goes to 0 and its wrap is marked. Without a hit, or
disabled, the count and the marks stay. -/
def Obligations.CountersCountTheirInputs : Prop :=
  ((∀ (s : State) (v : BitVec 1024), s.active = true → ∃ t, exec (.eventInputCount v) s = .next t ∧ t.cf.prev = v.toNat ∧
    t = { s with cf := { s.cf with prev := t.cf.prev, fcyc := s.cf.fcyc + 1, ev := t.cf.ev, evWrap := t.cf.evWrap, evSat := t.cf.evSat } }) ∧
  (∀ (s : State) (v : BitVec 1024), s.active = false → exec (.eventInputCount v) s = .next s) ∧
  (∀ s : State, s.stopped = true → s.evEnabled ≠ 0 → ∃ t, exec .gapCount s = .next t ∧
    t.rd64 Reg.CF_GAP_LO = (s.rd64 Reg.CF_GAP_LO + 1) % 2 ^ 64 ∧ t.cf.evGap = s.cf.evGap ||| s.evEnabled ∧
    s.regsBut t [Reg.CF_GAP_LO, Reg.CF_GAP_LO + 4] ∧ t = { s with regs := t.regs, cf := t.cf }) ∧
  (∀ s : State, s.stopped = false ∨ s.evEnabled = 0 → exec .gapCount s = .next s)) ∧
  (∀ (s : State) (v : BitVec 1024), s.active = true → ∃ t, exec (.eventInputCount v) s = .next t ∧
    ∀ k < 1024, s.evValue k < 2 ^ 48 → ∀ hit : Bool,
      hit = (s.get (Reg.CF_XB_k_en k) == 1 && bit v.toNat (s.get (Reg.CF_XB_k_input k)) &&
        (s.get (Reg.CF_XB_k_edge k) == 0 || !(bit s.cf.prev (s.get (Reg.CF_XB_k_input k))))) →
      t.evValue k = (if hit = false then s.evValue k else if s.evValue k + 1 < 2 ^ 48 then s.evValue k + 1
        else if s.get (Reg.CF_XB_k_sat k) = 1 then 2 ^ 48 - 1 else 0) ∧
      bit t.cf.evSat k = (bit s.cf.evSat k || (hit && s.evValue k + 1 == 2 ^ 48 && s.get (Reg.CF_XB_k_sat k) == 1)) ∧
      bit t.cf.evWrap k = (bit s.cf.evWrap k || (hit && s.evValue k + 1 == 2 ^ 48 && s.get (Reg.CF_XB_k_sat k) != 1)))

/-- BUNTING_INCREMENT passes one AON cycle and adds each enabled counter its input, HOST_QUEUE_MONITOR moves enabled monitors
only. Out of the always-on reset, one bunting cycle passes one AON cycle, remembers the counts and marks it replaces for the
mirror, and adds every enabled counter the four bits of its input, which wraps at 2^48 or saturates there; a disabled counter
stays; in the reset nothing happens. A fast cycle of the strobes leaves a disabled monitor alone. In an enabled one an
enqueue without a dequeue raises the depth and the enqueue count by one, a dequeue without an enqueue from a depth above 0
lowers the depth and raises the dequeue count, both together leave the depth, and a dequeue at depth 0 marks the underrun and
is not counted. -/
def Obligations.TheBuntingAndTheMonitors : Prop :=
  (∀ (s : State) (v : BitVec 512), s.pw.aonRst = false → s.pw.st ≠ .off →
    ∃ t, exec (.buntingIncrement v) s = .next t ∧ t.cyc = s.cyc + 1 ∧ t.cf.btHist.head? = some (s.cyc + 1, s.cf.bt, s.cf.btWrap, s.cf.btSat) ∧
      t = { s with cyc := t.cyc, cf := t.cf } ∧
      ∀ b < 128, s.btValue b < 2 ^ 48 → ∀ n, n = s.btValue b + bits v.toNat (4 * s.get (Reg.CF_BTX_b_input b)) 4 →
        t.btValue b = (if s.get (Reg.CF_BTX_b_en b) ≠ 1 then s.btValue b else if n < 2 ^ 48 then n
          else if s.get (Reg.CF_BTX_b_sat b) = 1 then 2 ^ 48 - 1 else n - 2 ^ 48)) ∧
  (∀ (s : State) (v : BitVec 512), s.pw.aonRst = true ∨ s.pw.st = .off → exec (.buntingIncrement v) s = .next s) ∧
  (∀ (s : State) (v : BitVec 1024), s.active = true → ∃ t, exec (.hostQueueMonitor v) s = .next t ∧ t = { s with cf := t.cf } ∧
    ∀ h < 64, ∀ e d : Bool, e = bit v.toNat (s.get (Reg.CF_HQ_CFG_h_enq h)) → d = bit v.toNat (s.get (Reg.CF_HQ_CFG_h_deq h)) →
      (s.get (Reg.CF_HQ_CFG_h_en h) = 0 → t.mon h = s.mon h) ∧
      (s.get (Reg.CF_HQ_CFG_h_en h) = 1 → e = true → d = false → (s.mon h).depth < 2 ^ 32 - 1 →
        (t.mon h).depth = (s.mon h).depth + 1 ∧ (t.mon h).enq = (s.mon h).enq + 1 ∧ (t.mon h).deq = (s.mon h).deq) ∧
      (s.get (Reg.CF_HQ_CFG_h_en h) = 1 → e = false → d = true → 0 < (s.mon h).depth →
        (t.mon h).depth = (s.mon h).depth - 1 ∧ (t.mon h).enq = (s.mon h).enq ∧ (t.mon h).deq = (s.mon h).deq + 1) ∧
      (s.get (Reg.CF_HQ_CFG_h_en h) = 1 → e = true → d = true →
        (t.mon h).depth = (s.mon h).depth ∧ (t.mon h).enq = (s.mon h).enq + 1 ∧ (t.mon h).deq = (s.mon h).deq + 1) ∧
      (s.get (Reg.CF_HQ_CFG_h_en h) = 1 → e = false → d = true → (s.mon h).depth = 0 →
        (t.mon h).depth = 0 ∧ (t.mon h).under = true ∧ (t.mon h).deq = (s.mon h).deq))

/-- PLAN_LATCH takes a bank at the due time, or counts a miss; LATCH_BANK_DRAIN writes the oldest bank; STRIKE_LATCH fires the
first pending strike. A plan without an interval, a list or an area does nothing; one that fires passes to its due time and
sets the next one an interval later: with a bank free and an area that takes the record it has the bank, with its area, its
entry count and the fleet time of the latch, and with no bank free it counts a miss. A drain of the oldest bank takes it
away, counts a record, moves the area's WR past it and ends the SAMPLE that latched it with the record's code; with no bank
nothing happens. A pending strike is latched at its time: it is pending no longer, TB_STRIKE shows the time where its units
name the time base, a fleet-wide one is remembered as struck, and every SNAPSHOT that waited for it ends. -/
def Obligations.PlansLatchAndBanksDrain : Prop :=
  (∀ (s : State) (p : Fin 16), s.active = true → s.planFires p.val = false → exec (.planLatch p) s = .next s) ∧
  (∀ (s : State) (p : Fin 16) (u : State), s.active = true → s.planFires p.val = true → u = s.passToFleet (s.planNext p.val) →
    u.sinceFleet (s.planNext p.val) < s.planPer p.val → s.planHeld = false → ∃ v : State,
      exec (.planLatch p) s = .next (v.planLatch p.val (s.planNext p.val % 2 ^ 64)) ∧ v.cyc = u.cyc ∧
      v.planNext p.val = (s.planNext p.val + s.planPer p.val) % 2 ^ 64 ∧
      v.get (Reg.CF_PLAN_TALLY_p_missed p.val) = s.get (Reg.CF_PLAN_TALLY_p_missed p.val)) ∧
  (∀ (s : State) (p : Fin 16) (u : State), s.active = true → s.planFires p.val = true → u = s.passToFleet (s.planNext p.val) →
    u.sinceFleet (s.planNext p.val) < s.planPer p.val → s.planHeld = false → s.bankFree = true →
    s.areaRefuses p.val (recLen ((if s.get (Reg.CF_PLAN_CFG_p_kind p.val) = 1 then 16 else 8) * s.get (Reg.CF_PLAN_CFG_p_len p.val))) = false →
    ∃ t b, exec (.planLatch p) s = .next t ∧ b ∈ t.cf.banks ∧ b.plan = some p.val ∧ b.area = p.val ∧ b.time = u.fleet ∧
      b.count = s.get (Reg.CF_PLAN_CFG_p_len p.val) ∧ t.planNext p.val = (s.planNext p.val + s.planPer p.val) % 2 ^ 64) ∧
  (∀ (s : State) (p : Fin 16) (u : State), s.active = true → s.planFires p.val = true → u = s.passToFleet (s.planNext p.val) →
    u.sinceFleet (s.planNext p.val) < s.planPer p.val → s.planHeld = false → s.bankFree = false →
    ∃ t, exec (.planLatch p) s = .next t ∧ t.cf.banks = s.cf.banks ∧ t.get (Reg.CF_PLAN_TALLY_p_missed p.val) =
      satAdd (2 ^ (Reg.CF_PLAN_TALLY_p_missed p.val).w - 1) (s.get (Reg.CF_PLAN_TALLY_p_missed p.val)) 1) ∧
  (∀ (s : State) (p due : Nat), s.bankFree = false → s.planLatch p due = s.bump (Reg.CF_PLAN_TALLY_p_missed p) 1) ∧
  (∀ s : State, s.active = true → s.cf.banks = [] → exec .latchBankDrain s = .next s) ∧
  (∀ (s : State) (b : Bank) (bs : List Bank), s.active = true → s.cf.banks = b :: bs → s.cf.waiting = [] → s.cf.snapWait = 0 →
    (∀ p, b.plan = some p → p < 16) → b.area < 16 → ∃ t, exec .latchBankDrain s = .next t ∧ t.cf.banks = bs ∧
      t.get Reg.CF_RECORDS_count = satAdd (2 ^ Reg.CF_RECORDS_count.w - 1) (s.get Reg.CF_RECORDS_count) 1 ∧
      t.rd (Reg.CF_AREA_WR_p b.area) = (s.rd (Reg.CF_AREA_WR_p b.area) + b.len) % 2 ^ 32 ∧
      (∀ (q seq : Nat) (f : Flight), b.cmd = some (q, seq) → f ∈ (s.queue q).flights → f.seq = seq → f.done = none →
        t.ended q f.slot b.code)) ∧
  (∀ (s : State) (k : Strike), s.active = true → firstStrike s.tb.strikes = some k → ∃ u : State,
    exec .strikeLatch s = .next (u.strikeFire k false) ∧ u.cyc = (s.passToFleet k.at_).cyc ∧ u.regs = s.regs ∧
      u.tb.strikes = s.tb.strikes.filter (fun x => x.at_ != k.at_)) ∧
  (∀ (s : State) (k : Strike), s.active = true → firstStrike s.tb.strikes = some k → ∃ t, exec .strikeLatch s = .next t ∧
    t.tb.strikes = s.tb.strikes.filter (fun x => x.at_ != k.at_) ∧
    (bit k.units 9 = true → t.rd64 Reg.TB_STRIKE_LO = t.fleet) ∧
    (k.fleet = true → (k.at_, k.seq, k.issuer) ∈ t.tb.struck) ∧
    (∀ w ∈ k.waiters, ∀ f ∈ (s.queue w.1).flights, f.seq = w.2.1 → f.done = none → ∃ code, t.ended w.1 f.slot code)) ∧
  (∀ s : State, s.active = true → s.tb.strikes = [] → exec .strikeLatch s = .next s)

/-- SCORE_VECTOR_DONE writes the next score record of a SCORE in service, and SCORE_BOUND ends a SCORE at its bound. For the
oldest SCORE of the queue among the first four in service with more than one vector to go, SCORE_VECTOR_DONE moves it to its
next vector and counts the vector in SC_VECS; at its last vector the SCORE leaves service and its command ends. SCORE_BOUND
passes to the bound of the queue's oldest SCORE that has not ended, in service, waiting or held, takes it out of service and
ends it with DEADLINE_MISS. With none both change nothing. -/
def Obligations.ScoresAreServedAndBounded : Prop :=
  (∀ (s : State) (q : Fin 16) (j : ScoreJob), s.active = true → ((s.sc.jobs.take 4).find? fun j => j.q == q.val) = some j →
    j.next + 1 < j.count → ∃ t, exec (.scoreVectorDone q) s = .next t ∧
      t.sc.jobs = (s.sc.jobs.map fun k => if k.same j then (s.scoreVector j).2 else k) ∧ (s.scoreVector j).2.next = j.next + 1 ∧
      t.queues = s.queues ∧ t.rd64 Reg.SC_VECS_LO = (s.rd64 Reg.SC_VECS_LO + 1) % 2 ^ 64 ∧
      ∃ k ∈ t.sc.jobs, k.same j = true ∧ k.next = j.next + 1) ∧
  (∀ (s : State) (q : Fin 16) (j : ScoreJob) (f : Flight), s.active = true → ((s.sc.jobs.take 4).find? fun j => j.q == q.val) = some j →
    j.next + 1 = j.count → f ∈ (s.queue q.val).flights → f.seq = j.seq → f.done = none →
    ∃ t code, exec (.scoreVectorDone q) s = .next t ∧ t.ended q.val f.slot code ∧ (∀ k ∈ t.sc.jobs, k.same j = false)) ∧
  (∀ (s : State) (q : Fin 16), s.active = true → (∀ j ∈ s.sc.jobs, j.q ≠ q.val) → exec (.scoreVectorDone q) s = .next s) ∧
  (∀ (s : State) (q : Fin 16), s.active = true → (∀ f ∈ (s.queue q.val).flights, cmdOp f.cmd = 3 → f.done ≠ none) →
    exec (.scoreBound q) s = .next s) ∧
  (∀ (s : State) (q : Fin 16) (f : Flight) (due : Nat), s.active = true →
    ((s.queue q.val).flights.find? fun f => cmdOp f.cmd == 3 && f.done.isNone) = some f →
    due = (f.at_ + s.get Reg.SC_BOUND_us * 1600) % 2 ^ 64 → ∃ t, exec (.scoreBound q) s = .next t ∧
      t.sc.jobs = (s.sc.jobs.filter fun k => !(k.q == q.val && k.seq == f.seq)) ∧ t.cyc = (s.passToFleet due).cyc ∧
      t.ended q.val f.slot Code.DEADLINE_MISS)

/-- MEMORY_TAP_BEAT, MEMORY_TAP_DROP and LINK_TAP_BEAT act on an enabled tap of a die with the clock running, and on no other. A
beat of an enabled memory tap with no lane filled and no drop changes nothing; one with a drop acts as the drop does. A
granule outside every region counts its carried bytes as outside; a carried sector of a covered frame, the frame untracked,
opens its traversal with that sector. A drop on an enabled tap counts one drop and, with no error waiting to be reported,
leaves only traversals that lack no sector of that tap. A first beat of a link frame that is not its last, with no frame
open, opens the frame and keeps its bytes; a later one adds its bytes. On a tap that is not enabled, in a tray, or with the
clock stopped, nothing changes. -/
def Obligations.TapBeatsAndDrops : Prop :=
  (∀ (s : State) (m : Fin 16) (gs : List (Option Granule)), s.active = true → s.mtEn m.val = true → s.tray = false →
    (∀ g ∈ gs, g = none) → exec (.memoryTapBeat m gs false) s = .next s) ∧
  (∀ (s : State) (m : Fin 16) (gs : List (Option Granule)), (∀ g ∈ gs, g = none) →
    exec (.memoryTapBeat m gs true) s = exec (.memoryTapDrop m) s) ∧
  (∀ (s : State) (m : Fin 16), s.active = true → s.mtEn m.val = true → s.tray = false → s.ck.trackers = [] →
    exec (.memoryTapDrop m) s = .next (s.bump (Reg.CK_MT_EVT_m_drops m.val) 1)) ∧
  (∀ (s : State) (m : Fin 16), s.active = true → s.mtEn m.val = true → s.tray = false → (∀ x ∈ s.ck.trackers, x.err = none) →
    ∃ t, exec (.memoryTapDrop m) s = .next t ∧
      t.get (Reg.CK_MT_EVT_m_drops m.val) = satAdd (2 ^ (Reg.CK_MT_EVT_m_drops m.val).w - 1) (s.get (Reg.CK_MT_EVT_m_drops m.val)) 1 ∧
      ∀ x ∈ t.ck.trackers, x ∈ s.ck.trackers ∧ s.lacks m.val [] x = false) ∧
  (∀ (s : State) (m : Fin 16) (g : Granule), s.active = true → s.mtEn m.val = true → s.tray = false → g.err = false →
    s.regionOf (g.gaddr.toNat * 256) = none → ∃ t, exec (.memoryTapBeat m [some g] false) s = .next t ∧
      t.rd64 (Reg.CK_MT_OUT_LO_m m.val) = (s.rd64 (Reg.CK_MT_OUT_LO_m m.val) + 32 * (carriedOf g).length) % 2 ^ 64 ∧
      t = { s with regs := t.regs }) ∧
  (∀ (s : State) (m : Fin 16) (g : Granule) (r d f j k : Nat), s.active = true → s.mtEn m.val = true → s.tray = false → g.err = false →
    s.regionOf (g.gaddr.toNat * 256) = some r → carriedOf g = [k] →
    s.sectorAt r ((g.gaddr.toNat * 256 - s.rgBase r) / 256) k = some (d, f, j) → s.dirOn d g.wr = true →
    s.misrouted m.val (g.gaddr.toNat * 256) r = false → s.get Reg.CK_TRK_AGE_us ≠ 0 → s.blindFrame d f = false → s.ck.trackers = [] →
    ∃ t x, exec (.memoryTapBeat m [some g] false) s = .next t ∧ t.ck.trackers = [x] ∧ x.region = d ∧ x.frame = f ∧ x.wr = g.wr ∧
      x.firstAt = s.cyc ∧ x.secs = [(j, ((padTo 256 g.data).drop (32 * k)).take 32)] ∧ x.bytes = [(m.val, 32)]) ∧
  (∀ (s : State) (m : Fin 16) (gs : List (Option Granule)) (b : Bool), s.active = false ∨ s.mtEn m.val = false ∨ s.tray = true →
    exec (.memoryTapBeat m gs b) s = .next s) ∧
  (∀ (s : State) (l : Fin 8) (i : Bool) (d : List Byte) (p : BitVec 17) (e : Bool), s.active = true → s.ltEn l.val = true →
    s.tray = false → s.ck.links.length = 16 → (s.link (2 * l.val + if i then 1 else 0)).opened = false →
    ∃ t, exec (.linkTapBeat l i true false d p e false) s = .next t ∧
      (t.link (2 * l.val + if i then 1 else 0)).cur = d.take 32 ∧ (t.link (2 * l.val + if i then 1 else 0)).opened = true ∧
      (t.link (2 * l.val + if i then 1 else 0)).bad = (s.link (2 * l.val + if i then 1 else 0)).bad ∧ t.regs = s.regs ∧
      ∀ k, k ≠ 2 * l.val + (if i then 1 else 0) → t.link k = s.link k) ∧
  (∀ (s : State) (l : Fin 8) (i : Bool) (d : List Byte) (p : BitVec 17) (e : Bool), s.active = true → s.ltEn l.val = true →
    s.tray = false → s.ck.links.length = 16 → (s.link (2 * l.val + if i then 1 else 0)).opened = true → d ≠ [] →
    ∃ t, exec (.linkTapBeat l i false false d p e false) s = .next t ∧
      (t.link (2 * l.val + if i then 1 else 0)).cur = (s.link (2 * l.val + if i then 1 else 0)).cur ++ d.take 32 ∧
      t = { s with ck := t.ck }) ∧
  (∀ (s : State) (l : Fin 8) (i a b : Bool) (d : List Byte) (p : BitVec 17) (e c : Bool),
    s.active = false ∨ s.ltEn l.val = false ∨ s.tray = true → exec (.linkTapBeat l i a b d p e c) s = .next s)

/-- TRACKER_AGE_OUT, MT_ERR_REPORT_TIMEOUT, TAINT_ENTRY_EXPIRE and DRAIN_LATE_TIMER act at their own times. The age-out of a
frame's oldest traversal in a direction passes to the end of its age and ends each of that frame and direction that is then
as old, uncovered by age and counted so; with none nothing changes. An error that waits for its frame passes to 2 µs after it
and is reported as the last fault. A taint entry passes to the end of its hold and is free. A drain not done in its time
passes to that time and is marked late and recorded, once. -/
def Obligations.TraversalsTaintsAndTheJackEndInTime : Prop :=
  (∀ (s : State) (r : Fin 64) (f : BitVec 52) (w : Bool) (x : Tracker), s.active = true →
    (s.ck.trackers.find? fun t => t.region == r.val && t.frame == f.toNat && t.wr == w) = some x → ∃ u : State,
      u.cyc = max s.cyc (x.firstAt + s.get Reg.CK_TRK_AGE_us * 100) ∧ u.regs = s.regs ∧ u.ck = s.ck ∧
      exec (.trackerAgeOut r f w) s = .next
        ((u.ck.trackers.filter fun t => (t.region == r.val && t.frame == f.toNat && t.wr == w) &&
          decide (t.firstAt + s.get Reg.CK_TRK_AGE_us * 100 ≤ u.cyc)).foldl (fun v t => v.endTracker 2 t) u)) ∧
  (∀ (s : State) (r : Fin 64) (f : BitVec 52) (w : Bool) (x : Tracker) (old : List Tracker), s.active = true →
    (s.ck.trackers.find? fun t => t.region == r.val && t.frame == f.toNat && t.wr == w) = some x →
    (∀ t ∈ s.ck.trackers, t.err = none) → old = (s.ck.trackers.filter fun t => (t.region == r.val && t.frame == f.toNat && t.wr == w) &&
      decide (t.firstAt + s.get Reg.CK_TRK_AGE_us * 100 ≤ max s.cyc (x.firstAt + s.get Reg.CK_TRK_AGE_us * 100))) →
    ∃ t, exec (.trackerAgeOut r f w) s = .next t ∧ t.cyc = max s.cyc (x.firstAt + s.get Reg.CK_TRK_AGE_us * 100) ∧
      (∀ y ∈ t.ck.trackers, y ∈ s.ck.trackers ∧ y ∉ old) ∧ old ≠ [] ∧
      t.get (Reg.CK_UNC_c_count 2) = satAdd (2 ^ (Reg.CK_UNC_c_count 2).w - 1) (s.get (Reg.CK_UNC_c_count 2)) old.length) ∧
  (∀ (s : State) (r : Fin 64) (f : BitVec 52) (w : Bool), s.active = true →
    (∀ t ∈ s.ck.trackers, ¬ (t.region = r.val ∧ t.frame = f.toNat ∧ t.wr = w)) →
    exec (.trackerAgeOut r f w) s = .next s ∧ exec (.mtErrReportTimeout r f w) s = .next s) ∧
  (∀ (s : State) (r : Fin 64) (f : BitVec 52) (w : Bool) (x : Tracker) (m c : Nat), s.active = true →
    (s.ck.trackers.find? fun t => t.region == r.val && t.frame == f.toNat && t.wr == w && t.err.isSome && !t.told) = some x →
    x.err = some (m, c) → ∃ (u : State) (y : FrameFault), exec (.mtErrReportTimeout r f w) s = .next (u.frameFault y) ∧
      u.cyc = max s.cyc (c + 200) ∧ y.code = Code.DATA_FAULT ∧ y.tap = m ∧ y.inward = w ∧ y.region = r.val ∧
      u.ck.trackers = (s.ck.trackers.map fun t => if t.same x then { x with told := true } else t)) ∧
  (∀ (s : State) (r : Fin 64) (f : BitVec 52) (w : Bool) (x : Tracker) (m c : Nat), s.active = true →
    (s.ck.trackers.find? fun t => t.region == r.val && t.frame == f.toNat && t.wr == w && t.err.isSome && !t.told) = some x →
    x.err = some (m, c) → ∃ t, exec (.mtErrReportTimeout r f w) s = .next t ∧ t.cyc = max s.cyc (c + 200) ∧
      t.rd Reg.CK_LAST_SRC / 2 ^ 24 = Code.DATA_FAULT ∧ t.rd Reg.CK_LAST_SRC / 2 ^ 16 % 256 = r.val) ∧
  (∀ (s : State) (e : Fin 16) (x : TaintEntry), s.active = true → s.ck.taint.length = 16 → s.ck.taint.getD e.val none = some x →
    ∃ t, exec (.taintEntryExpire e) s = .next t ∧ t.ck.taint.getD e.val none = none ∧
      t.cyc = max s.cyc (x.last + s.taintHold) ∧ t.regs = s.regs) ∧
  (∀ s : State, s.active = true → s.jackState = 1 → s.ck.drainLate = false → ∃ t u : State,
    exec .drainLateTimer s = .next t ∧ t = u.fault 0x4C Unit_.checker 0 0 ∧ u.ck.drainLate = true ∧ u.regs = s.regs ∧
      u.cyc = max s.cyc (s.ck.jackAt + s.get Reg.XC_YJ_CFG_drain_ms * 100000) ∧ t.ck.drainLate = true ∧ t.cyc = u.cyc ∧
      t.jackState = 1) ∧
  (∀ s : State, s.jackState ≠ 1 ∨ s.ck.drainLate = true → exec .drainLateTimer s = .next s)

/-- TILE_SUMMARY, RECOMPUTE_DONE, KNOWN_ANSWER_DONE, CHECK_BOUND and DRAINED_WRITE carry tiles, arbitrations, checks and the
drain through. A primary reading that is complete passes to the end of its computation at the lane's rate under the CHECK's
host model and is done: a readable tile is counted with its operations. A complete recompute of the other lane goes on to the
known answer of both lanes. The known answers end the arbitration, and count two runs. A CHECK at its bound, in a lane or
held, passes to the bound and ends with DEADLINE_MISS. A drained write in state JACKED goes on to DRAINED. -/
def Obligations.ChecksRunTilesToVerdicts : Prop :=
  (∀ (s : State) (l : Fin 2) (r : TileRead) (j : CheckJob), s.active = true → (s.xlane l.val).read = some r →
    (s.xlane l.val).job = some j → r.again = false → r.desc.isSome = true → r.left = 0 → ∃ u : State,
      exec (.tileSummary l) s = .next u.checkerPump ∧
      max s.cyc (r.startAt + computeCycles (j.model) (dK (r.desc.getD []))) ≤ u.cyc) ∧
  (∀ (s : State) (l : Fin 2) (r : TileRead) (j : CheckJob), s.active = true → (s.xlane l.val).read = some r →
    (s.xlane l.val).job = some j → r.again = false → r.desc.isSome = true → r.left = 0 → r.unread = false →
    ∃ t, exec (.tileSummary l) s = .next t ∧ max s.cyc (r.startAt + computeCycles j.model (dK (r.desc.getD []))) ≤ t.cyc ∧
      t.rd64 (Reg.XC_L_OPS_LO_L l.val) = (s.rd64 (Reg.XC_L_OPS_LO_L l.val) + 2 * 16384 * dK (r.desc.getD [])) % 2 ^ 64 ∧
      t.get (Reg.XC_L_TILES_L_count l.val) = satAdd (2 ^ (Reg.XC_L_TILES_L_count l.val).w - 1) (s.get (Reg.XC_L_TILES_L_count l.val)) 1) ∧
  (∀ (s : State) (l : Fin 2) (r : TileRead) (j : CheckJob) (a : Arb), s.active = true → (s.xlane l.val).read = some r →
    s.readJob l.val true = some j → s.xc.arb = some a → r.again = true → r.desc.isSome = true → r.left = 0 → a.lane ≠ l.val →
    ∃ t, exec (.recomputeDone l) s = .next t ∧ ∃ b, t.xc.arb = some b ∧ b.stage = 2 ∧ b.lane = a.lane ∧ b.res.isSome = true ∧
      t.cyc = max s.cyc (r.startAt + computeCycles (j.model) (dK (r.desc.getD []))) ∧ b.kaAt = t.cyc) ∧
  (∀ (s : State) (a : Arb) (r p : TileRes) (j : CheckJob) (x : Nat × List Byte), s.active = true → s.xc.arb = some a → a.stage = 2 →
    a.res = some r → (s.xlane a.lane).job = some j → (s.xlane a.lane).tile = some x → (s.xlane a.lane).prim = some p →
    ∃ u : State, exec .knownAnswerDone s = .next u ∧ ∃ (v : State) (k fl : Nat) (sm : List Byte),
      u = (v.verdict a.lane k fl sm).checkerPump ∧ v.xc.arb = none ∧ v.free = s.free + 2 ∧ k ≤ 4) ∧
  (∀ (s : State) (a : Arb) (r p : TileRes) (j : CheckJob) (x : Nat × List Byte), s.active = true → s.xc.arb = some a → a.stage = 2 →
    a.res = some r → (s.xlane a.lane).job = some j → (s.xlane a.lane).tile = some x → (s.xlane a.lane).prim = some p → s.xc.arbQ = [] →
    ∃ t, exec .knownAnswerDone s = .next t ∧ t.xc.arb = none ∧
      t.get Reg.XC_KAT_runs = satAdd (2 ^ Reg.XC_KAT_runs.w - 1) (s.get Reg.XC_KAT_runs) 2) ∧
  (∀ s : State, s.active = true → s.xc.arb = none → exec .knownAnswerDone s = .next s) ∧
  (∀ (s : State) (q : Fin 16) (f : Flight) (due : Nat), s.active = true → s.queues.length = 16 →
    ((s.queue q.val).flights.find? fun f => cmdOp f.cmd == 4 && f.done.isNone) = some f →
    due = (f.at_ + s.get Reg.XC_BOUND_ms * 1600000) % 2 ^ 64 → ∃ t u : State,
      exec (.checkBound q) s = .next t ∧ t = u.checkerPump ∧ u.ended q.val f.slot Code.DEADLINE_MISS ∧
      t.ended q.val f.slot Code.DEADLINE_MISS ∧ (s.passToFleet due).cyc ≤ t.cyc) ∧
  (∀ (s : State) (who : Who) (d : Word), s.ready who → s.tray = false → bit d.toNat 0 = true → s.jackState = 1 →
    ∃ u v : State, Writes (.drainedWrite who d) s who u ∧ u = v.jackTo 2 ∧ u.jackState = 2) ∧
  (∀ (s : State) (who : Who) (d : Word), s.ready who → s.tray = false → bit d.toNat 0 = false ∨ s.jackState ≠ 1 →
    Writes (.drainedWrite who d) s who s)

/-- LANE_TRAIN_START, ANNOUNCE_TIMER, LANE_LOCK_LOSS and LANE_RETRAIN_TIMER move a lane between DOWN, TRAIN, IN_SERVICE and OUT.
While the fast clock runs: lock on a lane that is DOWN and not reset, with live configuration, moves it to TRAIN at once,
with nothing unacknowledged and its first ANNOUNCE due now; on a lane in another state only the lock is noted. In TRAIN,
ANNOUNCE_TIMER passes to the due time, queues an ANNOUNCE and sets the next one 1 µs later; in another state it does nothing.
Loss of lock takes a lane in service to DOWN, with LINK_DOWN recorded, and otherwise is only noted. A lane that is OUT trains
again after HL_TIMERS.retrain_ms. Other lanes keep their states. With the fast clock stopped, a change of lock waits at the
crossing; in a reset only the level is noted. -/
def Obligations.LanesTrainAndComeBack : Prop :=
  (∀ (s : State) (n : Fin 16), s.active = true → s.hl.lanes.length = 16 → (s.lane n.val).state = 0 → bit s.pw.laneRst n.val = false →
    s.genLive = true → n.val < s.laneCount → ∃ t, exec (.laneTrainStart n true) s = .next t ∧ (t.lane n.val).state = 1 ∧
      (t.lane n.val).lock = true ∧ (t.lane n.val).unacked = [] ∧ (t.lane n.val).control = [] ∧ (t.lane n.val).annAt = s.cyc ∧
      t.cyc = s.cyc ∧ ∀ m, m ≠ n.val → (t.lane m).state = (s.lane m).state) ∧
  (∀ (s : State) (n : Fin 16) (b : Bool), s.active = true → (s.lane n.val).state ≠ 0 ∨ b = false →
    exec (.laneTrainStart n b) s = .next (s.setLane n.val fun l => { l with lock := b })) ∧
  (∀ (s : State) (n : Fin 16) (b : Bool), s.active = false → s.laneAlive n.val = true → ∃ t, exec (.laneTrainStart n b) s = .next t ∧
    t.hl.arrived = s.hl.arrived ++ [.lock n.val b] ∧ t.hl.lanes = s.hl.lanes ∧ t.regs = s.regs ∧ t.cyc = s.cyc) ∧
  (∀ (s : State) (n : Fin 16) (b : Bool), s.active = false → s.laneAlive n.val = false →
    exec (.laneTrainStart n b) s = .next (s.setLane n.val fun l => { l with lock := b })) ∧
  (∀ (s : State) (n : Fin 16), s.active = true → s.hl.lanes.length = 16 → (s.lane n.val).state = 1 →
    ∃ t, exec (.announceTimer n) s = .next t ∧ t.cyc = max s.cyc (s.lane n.val).annAt ∧ (t.lane n.val).annAt = t.cyc + 100 ∧
      (t.lane n.val).control = (s.lane n.val).control ++ [s.announceBlock (s.lane n.val).heard] ∧ (t.lane n.val).state = 1) ∧
  (∀ (s : State) (n : Fin 16), s.active = true → exec (.announceTimer n) s = .next (if (s.lane n.val).state = 1 then
      ({ s with cyc := max s.cyc (s.lane n.val).annAt }).setLane n.val fun l => { l with
        control := l.control ++ [s.announceBlock (s.lane n.val).heard], annAt := max s.cyc (s.lane n.val).annAt + 100 }
    else s)) ∧
  (∀ (s : State) (n : Fin 16), s.active = true → s.hl.lanes.length = 16 → (s.lane n.val).state = 2 → ∃ t, exec (.laneLockLoss n) s = .next t ∧
    (t.lane n.val).state = 0 ∧ (t.lane n.val).lock = false ∧ (t.lane n.val).unacked = [] ∧
    ∀ m, m ≠ n.val → (t.lane m).state = (s.lane m).state) ∧
  (∀ (s : State) (n : Fin 16), s.active = false → s.laneAlive n.val = true → exec (.laneLockLoss n) s = exec (.laneTrainStart n false) s) ∧
  (∀ (s : State) (n : Fin 16), s.active = true ∨ s.laneAlive n.val = false → (s.lane n.val).state ≠ 2 →
    exec (.laneLockLoss n) s = .next (s.setLane n.val fun l => { l with lock := false })) ∧
  (∀ (s : State) (n : Fin 16), s.active = true → s.hl.lanes.length = 16 → (s.lane n.val).state = 3 →
    ∃ t, exec (.laneRetrainTimer n) s = .next t ∧ (t.lane n.val).state = 1 ∧
      t.cyc = max s.cyc ((s.lane n.val).outAt + s.get Reg.HL_TIMERS_retrain_ms * 100000) ∧ (t.lane n.val).annAt = t.cyc) ∧
  (∀ (s : State) (n : Fin 16), (s.lane n.val).state ≠ 3 → exec (.laneRetrainTimer n) s = .next s)

/-- LANE_REPLAY_TIMEOUT replays or takes the lane OUT, QUEUED_PENNANT_BOUND ends pennants at their bound, REFUSAL_SUMMARY reports
refusals. For a lane in service whose oldest unacknowledged block is not being sent again, the timeout passes to the end of
the replay timeout of that block. With fewer than eight replays so far, a REPLAY naming it is due, its replays and
HL_LN_RPL.replays go up by one, and what waits for acknowledgement stays; after eight the lane goes OUT with nothing
unacknowledged. With nothing unacknowledged nothing changes. While no lane of the pair is in service, QUEUED_PENNANT_BOUND
passes to the bound nearest, takes that pennant from its queue and ends it with DEADLINE_MISS, counted in EV_DLM of the
halyard; with none queued, or a lane in service, nothing changes. With an interval set and a refusal counted, the summary
passes to the fleet time at which the interval ends; an admitted summary clears the figures, a refused one adds the interval
to those it covers. Without an interval or a refusal nothing changes. -/
def Obligations.LaneTimersAndSummaries : Prop :=
  ((∀ (s : State) (n : Fin 16) (u : Unacked) (us : List Unacked), s.active = true → s.hl.lanes.length = 16 → (s.lane n.val).state = 2 →
    (s.lane n.val).unacked = u :: us → (s.lane n.val).rplDue = none → (∀ v ∈ (s.lane n.val).rpl, v.bseq ≠ u.bseq) →
    ∃ t, exec (.laneReplayTimeout n) s = .next t ∧ t.cyc = max s.cyc (u.at_ + s.rtoLane) ∧
      ((s.lane n.val).tries < 8 → (t.lane n.val).rplDue = some u.bseq ∧ (t.lane n.val).tries = (s.lane n.val).tries + 1 ∧
        (t.lane n.val).unacked = u :: us ∧ (t.lane n.val).state = 2 ∧ t.get (Reg.HL_LN_RPL_n_replays n.val) =
          satAdd (2 ^ (Reg.HL_LN_RPL_n_replays n.val).w - 1) (s.get (Reg.HL_LN_RPL_n_replays n.val)) 1) ∧
      (8 ≤ (s.lane n.val).tries → (t.lane n.val).state = 3 ∧ (t.lane n.val).outAt = t.cyc ∧ (t.lane n.val).unacked = [])) ∧
  (∀ (s : State) (n : Fin 16), (s.lane n.val).unacked = [] → exec (.laneReplayTimeout n) s = .next s) ∧
  (∀ (s : State) (n : Fin 16) (c : Nat) (e : QEntry) (left : Int), s.active = true → s.hl.lanes.length = 16 →
    s.laneUp n.val = false → s.laneUp (otherLane n.val) = false → s.firstBound n.val = some (c, e, left) → ∃ t u : State,
      exec (.queuedPennantBound n) s = .next t ∧ t = u.giveUp e n.val (laneBound c) ∧ t.cyc = u.cyc ∧
      u.cyc = (s.passToFleet ((s.fleet + 16 * left.toNat) % 2 ^ 64)).cyc ∧ t.get (Reg.EV_DLM_u_count Unit_.halyard) =
        satAdd (2 ^ (Reg.EV_DLM_u_count Unit_.halyard).w - 1) (s.get (Reg.EV_DLM_u_count Unit_.halyard)) 1 ∧
      (u.lane n.val).queues.getD c [] = dropOne e ((s.lane n.val).queues.getD c [])) ∧
  (∀ (s : State) (n : Fin 16), s.laneUp n.val = true ∨ s.laneUp (otherLane n.val) = true ∨ s.firstBound n.val = none →
    exec (.queuedPennantBound n) s = .next s)) ∧
  ((∀ (s : State), s.active = true → s.get Reg.HL_ADM_SUM_us ≠ 0 → (∃ c ∈ s.hl.refs.counts, c ≠ 0) →
    ∃ t, exec .refusalSummary s = .next t ∧ t.cyc = (s.passToFleet (s.summaryAt (s.get Reg.HL_ADM_SUM_us))).cyc ∧
      (t.hl.refs = {} ∨ (t.hl.refs.thisIvl = false ∧
        t.hl.refs.intervals = (s.hl.refs.intervals + if s.hl.refs.thisIvl then 1 else 0) % 2 ^ 32)) ∧
      t.queues = s.queues) ∧
  (∀ (s : State), s.get Reg.HL_ADM_SUM_us = 0 ∨ (∀ c ∈ s.hl.refs.counts, c = 0) → exec .refusalSummary s = .next s))

/-- EGRESS_BOUNDARY of a lane sends one block: control blocks first, then LINK when due, REPLAY, replayed blocks, pennants, else
IDLE. On a present lane that is not reset, holds pennants in an accepted version only and has nothing local to consume: a
waiting control block that is no SYNC goes out and is gone; a lane out of service without one sends IDLE; in service, after
31 blocks without LINK, a LINK goes out; before that, a REPLAY due goes out and is due no longer; then the next block to be
replayed, as it was; then a pennant while the replay buffer has room; and with none, IDLE. A lane whose fast clock is stopped
sends IDLE; a boundary of a lane in reset, then, does nothing. -/
def Obligations.AnEgressBoundarySendsOneBlock : Prop :=
  (∀ (s w : State) (e : Fin 20), s.active = true → w = s.need → e.val < 16 → bit s.pw.laneRst e.val = false → e.val < s.laneCount →
    s.laneVerOk e.val = true → s.hl.locals = [] → s.hl.seen = [] →
    (∀ b bs, (s.lane e.val).control = b :: bs → penType b ≠ 0x005 → penType b ≠ 0x006 → exec (.egressBoundary e) s =
      .next ((w.setLane e.val fun l => { l with control := bs }).sendBlock e.val b false)) ∧
    ((s.lane e.val).control = [] → (s.lane e.val).state ≠ 2 →
      exec (.egressBoundary e) s = .next (w.sendBlock e.val (controlBlock 0 []) false)) ∧
    ((s.lane e.val).control = [] → (s.lane e.val).state = 2 → 31 ≤ (s.lane e.val).sinceLink →
      exec (.egressBoundary e) s = .next (w.sendBlock e.val (w.linkBlock (s.lane e.val)) true)) ∧
    ((s.lane e.val).control = [] → (s.lane e.val).state = 2 → (s.lane e.val).sinceLink < 31 →
      (∀ k, (s.lane e.val).rplDue = some k → exec (.egressBoundary e) s = .next
        ((w.setLane e.val fun l => { l with rplDue := none }).sendBlock e.val (controlBlock 0x003 (leBytes 2 k)) false)) ∧
      ((s.lane e.val).rplDue = none → ∀ u us, (s.lane e.val).rpl = u :: us → ∃ t, exec (.egressBoundary e) s = .next t ∧
        t.hl.out = s.hl.out ++ [{ egress := e.val, bytes := laneBlock u.ent.pen }] ∧ (s.hl.lanes.length = 16 → (t.lane e.val).rpl = us)) ∧
      ((s.lane e.val).rplDue = none → (s.lane e.val).rpl = [] → w.laneChoice e.val = none →
        exec (.egressBoundary e) s = .next (w.sendBlock e.val (controlBlock 0 []) false)) ∧
      ((s.lane e.val).rplDue = none → (s.lane e.val).rpl = [] → ∀ c p, w.laneChoice e.val = some (c, p) →
        (s.lane e.val).unacked.length < w.rplCap → exec (.egressBoundary e) s = .next (w.sendPennant e.val c p).settle))) ∧
  (∀ (s : State) (e : Fin 20), s.active = false → s.laneAlive e.val = true → exec (.egressBoundary e) s = .next { s with
    hl := { s.hl with out := s.hl.out ++ [{ egress := e.val, bytes := laneBlock (controlBlock 0 []) }] } }) ∧
  (∀ (s : State) (e : Fin 20), s.active = false → s.laneAlive e.val = false → exec (.egressBoundary e) s = .next s)

/-- LANE_BLOCK_RECEIVE and ETHERNET_FRAME_RECEIVE take blocks and frames on lanes and ports in use, in order only. A block on a
lane that is DOWN or OUT starts nothing but the count of its slot. A LINK block on a lane in service gives the limits and
version of the peer and acknowledges what lies before its number. A pennant block with readable codewords on a lane in
service, the next expected and whole, moves the lane to the next number before its pennant arrives. A frame on a port not in
use is lost; one of an open association gives its limits and acknowledgement; one that is bad is counted in HL_EP_DISC; on an
open association the frame expected is taken, one ahead of it makes a NAK due and one behind it an ACK. With the fast clock
stopped, what arrives is held at the crossing, with its time. Nothing arrives on a lane or port in reset. -/
def Obligations.BlocksAndFramesAreReceived : Prop :=
  (∀ (s : State) (n : Fin 16) (b : List Byte), b.length = 72 → s.active = true → s.laneAlive n.val = true → s.hl.locals = [] → s.hl.seen = [] →
    (s.need.lane n.val).state ≠ 1 → (s.need.lane n.val).state ≠ 2 →
    exec (.laneBlockReceive n b) s = .next (s.need.noteSlot n.val false)) ∧
  (∀ (s : State) (n : Fin 16) (b : List Byte), b.length = 72 → s.laneAlive n.val = false →
    exec (.laneBlockReceive n b) s = .next s) ∧
  (∀ (s : State) (n : Fin 16) (b : List Byte), b.length = 72 → s.active = false → s.laneAlive n.val = true →
    ∃ t, exec (.laneBlockReceive n b) s = .next t ∧ t.hl.arrived = s.hl.arrived ++ [.block n.val b s.fleet] ∧ t.hl.lanes = s.hl.lanes) ∧
  (∀ (s : State) (n : Fin 16) (b x y : List Byte), b.length = 72 → s.active = true → s.laneAlive n.val = true → s.hl.lanes.length = 16 →
    s.hl.locals = [] → s.hl.seen = [] → (s.lane n.val).state = 2 → rsDecode (b.take 36) = .clean x → rsDecode (b.drop 36) = .clean y →
    penClass (x ++ y) = 3 → penCrcOk (x ++ y) = true → field (x ++ y) 0 2 = 0x3001 → ∃ t, exec (.laneBlockReceive n b) s = .next t ∧
      (t.lane n.val).limits = [field (x ++ y) 4 2, field (x ++ y) 6 2, field (x ++ y) 8 2] ∧ (t.lane n.val).ver = field (x ++ y) 10 1 ∧
      (t.lane n.val).unacked = (s.lane n.val).unacked.filter (fun u => !(later 16 (field (x ++ y) 2 2) u.bseq)) ∧
      (t.lane n.val).state = 2 ∧ (t.lane n.val).rxSeq = (s.lane n.val).rxSeq) ∧
  (∀ (s u : State) (n : Fin 16) (b x y : List Byte), b.length = 72 → s.active = true → s.laneAlive n.val = true → s.hl.lanes.length = 16 →
    n.val < s.laneCount → (s.lane n.val).state = 2 → (s.lane n.val).discard = false → (s.lane n.val).rxIn = (s.lane n.val).rxSeq →
    rsDecode (b.take 36) = .clean x → rsDecode (b.drop 36) = .clean y → penClass (x ++ y) ≠ 3 → (s.lane n.val).plov = false →
    penCrcOk (x ++ y) = true → u = (s.need.noteSlot n.val false).setLane n.val (fun l =>
      { l with rxIn := (l.rxIn + 1) % 2 ^ 16, rxSeq := (l.rxSeq + 1) % 2 ^ 16 }) →
    exec (.laneBlockReceive n b) s = .next (State.settle ((if penClass (x ++ y) = 2 then u.noteSlot n.val true else u).arrive
      (.lane n.val) n.val (s.lane n.val).ver none (x ++ y)))) ∧
  (∀ (s : State) (p : Fin 4) (f : List Byte) (e : Bool), s.active = true → s.portAlive p.val = true → s.hl.locals = [] → s.hl.seen = [] →
    p.val ∉ s.need.portsUp → exec (.ethernetFrameReceive p f e) s = .next s.need) ∧
  (∀ (s : State) (p : Fin 4) (f : List Byte) (e : Bool), s.active = true → s.portAlive p.val = true → s.hl.locals = [] → s.hl.seen = [] →
    p.val ∈ s.need.portsUp → s.need.frameOk p.val f e = none →
    exec (.ethernetFrameReceive p f e) s = .next (s.need.bump (Reg.HL_EP_DISC_p_count p.val) 1)) ∧
  (∀ (s u : State) (p : Fin 4) (f : List Byte) (e : Bool) (pcp peer : Nat) (bs : List (List Byte)) (a : Assoc),
    s.active = true → s.portAlive p.val = true → p.val ∈ s.need.portsUp → s.need.frameOk p.val f e = some (pcp, peer, bs) →
    u = s.need.frameHeader peer f → bit (field f 29 1) 0 = false → u.assoc? peer = some a → a.state = 2 →
    exec (.ethernetFrameReceive p f e) s = .next (State.settle (
      if field f 24 2 = a.rxSeq then u.frameTaken p.val peer pcp f bs
      else if later 16 (field f 24 2) a.rxSeq = true then u.setAssoc peer fun a => { a with nak := true }
      else u.setAssoc peer fun a => { a with ackDue := true }))) ∧
  (∀ (s : State) (p : Fin 4) (f : List Byte) (e : Bool) (pcp peer : Nat) (bs : List (List Byte)) (a : Assoc), s.active = true →
    s.portAlive p.val = true → s.hl.locals = [] → s.hl.seen = [] → p.val ∈ s.need.portsUp → s.need.frameOk p.val f e = some (pcp, peer, bs) →
    bit (field f 29 1) 0 = false → s.assoc? peer = some a → a.state = 2 → field f 24 2 ≠ a.rxSeq → ∃ t b,
      exec (.ethernetFrameReceive p f e) s = .next t ∧ t.assoc? peer = some b ∧ b.limits = [field f 30 2, field f 32 2, field f 34 2] ∧
      b.unacked = a.unacked.filter (fun g => !(later 16 (field f 26 2) g.fseq)) ∧ b.rxSeq = a.rxSeq ∧
      (later 16 (field f 24 2) a.rxSeq = true → b.nak = true) ∧ (later 16 (field f 24 2) a.rxSeq = false → b.ackDue = true)) ∧
  (∀ (s : State) (p : Fin 4) (f : List Byte) (e : Bool), s.active = false → s.portAlive p.val = true →
    ∃ t, exec (.ethernetFrameReceive p f e) s = .next t ∧ t.hl.arrived = s.hl.arrived ++ [.frame p.val f e s.fleet] ∧
      t.hl.assocs = s.hl.assocs) ∧
  (∀ (s : State) (p : Fin 4) (f : List Byte) (e : Bool), s.portAlive p.val = false →
    exec (.ethernetFrameReceive p f e) s = .next s)

/-- ETHERNET_LINK_CHANGE, ASSOCIATION_ANNOUNCE, ACK_TIMER and ASSOCIATION_RTO keep a tray's associations. In a tray with the fast
clock running, a change of a port's link is noted in its bit; with the clock stopped it waits at the crossing, in a reset
only the level is noted, and a die has no port. An association that is not open queues an ANNOUNCE at its due time and sets
the next one 100 µs later; an open one does nothing. The acknowledgement timer passes to HL_TIMERS.ack_us after the frame
accepted first and makes an ACK due. The resend timeout passes to the end of its time: with fewer than eight resends and a
port, every unacknowledged frame is sent again; after eight the association is LOST with nothing unacknowledged. -/
def Obligations.AssociationsAnnounceAcknowledgeAndResend : Prop :=
  (∀ (s : State) (p : Fin 4) (up : Bool), s.tray = true → s.active = true → ∃ t, exec (.ethernetLinkChange p up) s = .next t ∧
    t.hl.linkUp = putBits s.hl.linkUp p.val 1 (if up then 1 else 0) ∧ t.cyc = s.cyc ∧ t.queues = s.queues ∧
    (up = true → t.regs = s.regs ∧ t.ev = s.ev ∧ t.hl.lanes = s.hl.lanes)) ∧
  (∀ (s : State) (p : Fin 4) (up : Bool), s.tray = false → exec (.ethernetLinkChange p up) s = .next s) ∧
  (∀ (s : State) (p : Fin 4) (up : Bool), s.tray = true → s.active = false → ∃ t, exec (.ethernetLinkChange p up) s = .next t ∧
    t.hl.arrived = s.hl.arrived ++ (if s.portAlive p.val then [.link p.val up] else []) ∧ t.hl.assocs = s.hl.assocs ∧
    t.hl.linkUp = (if s.portAlive p.val then s.hl.linkUp else putBits s.hl.linkUp p.val 1 (if up then 1 else 0))) ∧
  (∀ (s : State) (p : BitVec 14) (a : Assoc), s.active = true → s.assoc? p.toNat = some a → a.state ≠ 2 → ∃ t b,
    exec (.associationAnnounce p) s = .next t ∧ t.assoc? p.toNat = some b ∧ t.cyc = max s.cyc a.annAt ∧ b.annAt = t.cyc + 10000 ∧
    b.control = a.control ++ [s.announceBlock a.heard] ∧ b.state = a.state) ∧
  (∀ (s : State) (p : BitVec 14) (a : Assoc) (c : Nat), s.active = true → s.assoc? p.toNat = some a → a.ackAt = some c → ∃ t b,
    exec (.ackTimer p) s = .next t ∧ t.assoc? p.toNat = some b ∧ b.ackDue = true ∧ b.ackAt = some c ∧
    t.cyc = max s.cyc (c + s.get Reg.HL_TIMERS_ack_us * 100)) ∧
  (∀ (s : State) (p : BitVec 14) (a : Assoc), s.active = true → s.assoc? p.toNat = some a →
    exec (.associationAnnounce p) s = .next (if a.state = 2 then s else
      ({ s with cyc := max s.cyc a.annAt }).setAssoc p.toNat fun b => { b with
        control := b.control ++ [s.announceBlock a.heard], annAt := max s.cyc a.annAt + 10000 })) ∧
  (∀ (s : State) (p : BitVec 14) (a : Assoc) (c : Nat), s.active = true → s.assoc? p.toNat = some a → a.ackAt = some c →
    exec (.ackTimer p) s = .next
      (({ s with cyc := max s.cyc (c + s.get Reg.HL_TIMERS_ack_us * 100) }).setAssoc p.toNat fun b => { b with ackDue := true })) ∧
  (∀ (s : State) (p : BitVec 14) (a : Assoc) (f : TxFrame) (fs : List TxFrame), s.active = true → s.assoc? p.toNat = some a →
    a.state = 2 → a.unacked = f :: fs → (∀ g ∈ a.retx, g.fseq ≠ f.fseq) → ∃ t b, exec (.associationRto p) s = .next t ∧
      t.assoc? p.toNat = some b ∧ t.cyc = max s.cyc (f.at_ + max 1 (s.get Reg.HL_TIMERS_rto_en) * 100) ∧
      (a.tries < 8 → b.tries = a.tries + 1 ∧ b.state = 2 ∧ ((s.portFor p.toNat).isSome = true → b.retx = f :: fs ∧ b.unacked = f :: fs)) ∧
      (8 ≤ a.tries → b.state = 3 ∧ b.unacked = [] ∧ b.retx = [])) ∧
  (∀ (s : State) (p : BitVec 14), s.assoc? p.toNat = none → exec (.associationAnnounce p) s = .next s ∧
    exec (.ackTimer p) s = .next s ∧ exec (.associationRto p) s = .next s)

/-- EPOCH_FOLD folds an entry's next epoch at its deadline, RESULT_PUBLISH publishes the oldest result, RETIRED_TAG_EXPIRE frees
a tag. For a live entry with no fold under way and content for its next epoch, EPOCH_FOLD passes to the epoch's deadline at
the entry's level and begins the fold: with no part held and no publication or read of the entry open the fold is done at
once, and the entry goes on to its next epoch; while a result of it waits nothing is folded yet, and those results are
marked. An epoch of a pending copy waits for its switch. RESULT_PUBLISH takes the oldest result away, counts it in RD_PUB and
raises source 41. A retired tag is freed at its time. Where nothing is due nothing changes. -/
def Obligations.EpochsFoldAndResultsPublish : Prop :=
  (∀ (s : State) (b : BitVec 20) (en : Entry) (c : Content) (u : State), s.active = true → s.entry? b.toNat = some en → 2 ≤ en.state →
    en.folding = false → (∀ x, s.pendOf b.toNat = some x → x.from_ ≠ en.next) → en.retireAt ≠ some en.next → en.at en.next = some c →
    u = ({ s with cyc := (s.passToFleet (s.deadlineOf c (levelOf b.toNat) en.next)).cyc } : State).setEntry b.toNat (fun x => { x with folding := true }) →
    ((∃ r ∈ s.red.results, r.base = b.toNat) → exec (.epochFold b) s = .next (State.faRun { u with red := { u.red with
      results := u.red.results.map fun r => if r.base = b.toNat then { r with past := true } else r } })) ∧
    ((∀ r ∈ s.red.results, r.base ≠ b.toNat) → (∀ p ∈ s.red.parts, ¬ (p.base = b.toNat ∧ p.epoch = en.next)) → s.readsOut b.toNat = false →
      ∃ t v : State, exec (.epochFold b) s = .next t ∧ t = v.faRun ∧ v = u.foldNow en ∧ t.cyc = u.cyc ∧ (en.retireAt = none →
        ∃ x, v.entry? b.toNat = some x ∧ x.next = (en.next + 1) % 2 ^ 32 ∧ x.folding = false ∧ x.state = en.state))) ∧
  (∀ (s : State) (b : BitVec 20) (en : Entry) (x : PendCopy), s.active = true → s.entry? b.toNat = some en → s.pendOf b.toNat = some x →
    x.from_ = en.next → s.red.due = [] → s.hl.seen = [] → exec (.epochFold b) s = .next s) ∧
  (∀ (s : State) (b : BitVec 20), s.active = true → s.entry? b.toNat = none → s.red.due = [] → s.hl.seen = [] →
    exec (.epochFold b) s = .next s) ∧
  (∀ (s : State) (r : Result) (rs : List Result), s.active = true → s.red.results = r :: rs → ∃ t u : State,
    exec .resultPublish s = .next t ∧ t = (u.published r.base).faRun ∧ u.red.results = rs ∧ u.srcPending 41 = true ∧ t.cyc = s.cyc ∧
    t.get Reg.RD_PUB_count = satAdd (2 ^ Reg.RD_PUB_count.w - 1) (s.get Reg.RD_PUB_count) 1) ∧
  (∀ s : State, s.active = true → s.red.results = [] → s.red.due = [] → s.hl.seen = [] → exec .resultPublish s = .next s) ∧
  (∀ (s : State) (p : Fin 128) (a tag t : Nat), (s.red.retired.find? fun e => e.1 == p.val) = some (a, tag, t) →
    exec (.retiredTagExpire p) s = .next { s with cyc := (s.passToFleet t).cyc, red :=
      { s.red with retired := s.red.retired.filter fun e => e.1 != p.val } }) ∧
  (∀ (s : State) (p : Fin 128), (∀ e ∈ s.red.retired, e.1 ≠ p.val) → exec (.retiredTagExpire p) s = .next s)

/-- CUBE_TOKEN_REFILL adds a token at the end of an interval, SPARES_ADD adds fleet tokens, ADMIT_TIME_REACHED takes an admitted
die back. At the masthead, with a refill interval set, a refill not yet given for the current interval is given at once, else
at the next multiple of the interval; it adds one token to the cube up to its burst, and to no other cube. In a tray,
SPARES_ADD adds the low 16 bits of the word to the fleet's tokens, up to its burst. For a slot that is ADMITTING, the admit
time is passed to; the die is CLEAR again, out of RD_TS_EXCL, and its cells are 0, unless a jack of it was seen in that very
cycle: then it is JACKED. Where nothing is due nothing changes. -/
def Obligations.TokensAndAdmissions : Prop :=
  (∀ (s : State) (c : Fin 2048), s.active = true → s.faRuns 2 = true → s.get Reg.FA_QB_CUBE_refill_s ≠ 0 →
    ∃ t, exec (.cubeTokenRefill c) s = .next t ∧ t.tokens c.val = satAdd (s.get Reg.FA_QB_CUBE_burst) (s.tokens c.val) 1 ∧
      (∀ k < 2048, k ≠ c.val → t.tokens k = s.tokens k) ∧ t.queues = s.queues ∧ t.cyc =
        (if Sparse.get (fun _ => 0) s.fa.refilled c.val < s.fleet / (s.get Reg.FA_QB_CUBE_refill_s * 1600000000) then s.cyc else (s.passToFleet
        ((s.fleet / (s.get Reg.FA_QB_CUBE_refill_s * 1600000000) + 1) * (s.get Reg.FA_QB_CUBE_refill_s * 1600000000) % 2 ^ 64)).cyc)) ∧
  (∀ (s : State) (c : Fin 2048), s.faRuns 2 = false ∨ s.get Reg.FA_QB_CUBE_refill_s = 0 → exec (.cubeTokenRefill c) s = .next s) ∧
  (∀ (s : State) (who : Who) (d : Word), s.ready who → s.tray = true → ∃ u, Writes (.sparesAdd who d) s who u ∧ u.queues = s.queues ∧
    u.get Reg.FA_QB_TOKENS_tokens = satAdd (s.get Reg.FA_QB_FLEET_burst) (s.get Reg.FA_QB_TOKENS_tokens) (d.toNat % 2 ^ 16)) ∧
  (∀ (s : State) (d : Fin 8), s.active = true → s.faRuns 0 = true → s.dieState d.val = 5 → ∃ t, exec (.admitTimeReached d) s = .next t ∧
    t.cyc = (s.passToFleet (s.rd64 (Reg.FA_DIE_ADM_LO_s d.val))).cyc ∧
    (s.fa.jackSeen.getD d.val none = some t.cyc → t.dieState d.val = 1 ∧ t.get Reg.RD_TS_EXCL_mask = s.get Reg.RD_TS_EXCL_mask) ∧
    (s.fa.jackSeen.getD d.val none ≠ some t.cyc → t.dieState d.val = 0 ∧ bit (t.get Reg.RD_TS_EXCL_mask) d.val = false ∧
      ∀ k < 128, t.rd (Reg.FA_CELL_ERR_s_k d.val k) = 0 ∧ t.rd (Reg.FA_CELL_EXP_s_k d.val k) = 0)) ∧
  (∀ (s : State) (d : Fin 8), s.faRuns 0 = false ∨ s.dieState d.val ≠ 5 → exec (.admitTimeReached d) s = .next s)

/-- SAT_WINDOW_END judges this instance and begins a new window, LEVEL_SAT_WINDOW judges the levels from the reports tallied. In
a tray with a window set, SAT_WINDOW_END passes to the end of the window and counts the next one from nothing; with a delay
below the limit and no lane pair counted nothing else happens, and with a delay at the limit FA_SAT_LOCAL is recorded. At the
root, LEVEL_SAT_WINDOW passes to the window's end and clears the tallies; while no level has sat_n reports, no level is shown
saturated and none is recorded. Elsewhere nothing changes. -/
def Obligations.SaturationWindowsEnd : Prop :=
  (∀ (s : State), s.active = true → s.tray = true → s.get Reg.FA_SAT_win_ms ≠ 0 → s.hl.slots = [] → s.red.due = [] → s.hl.seen = [] → ∃ u : State,
    u = ({ s with cyc := (s.windowEnd s.fa.satWin).cyc } : State) ∧
    (s.hl.satDelay < s.get Reg.FA_SAT_sat_us * 1600 → exec .satWindowEnd s = .next { u with
      fa := { u.fa with satWin := u.fleet / u.satWindow }, hl := { u.hl with satDelay := 0 } }) ∧
    (s.get Reg.FA_SAT_sat_us * 1600 ≤ s.hl.satDelay → exec .satWindowEnd s = .next (State.faRun (State.fault { u with
      fa := { u.fa with satWin := u.fleet / u.satWindow }, hl := { u.hl with satDelay := 0 } } 0x70 Unit_.analytics 0 0)))) ∧
  (∀ (s : State), s.active = true → s.tray = false ∨ s.get Reg.FA_SAT_win_ms = 0 → s.red.due = [] → s.hl.seen = [] →
    exec .satWindowEnd s = .next s) ∧
  (∀ (s : State), s.active = true → s.isHealthRoot = true → s.get Reg.FA_SAT_win_ms ≠ 0 →
    (∀ l < 4, s.fa.tally.getD l 0 < s.get Reg.FA_SAT_N_sat_n) → ∃ t, exec .levelSatWindow s = .next t ∧
      t.cyc = (s.windowEnd s.fa.levelWin).cyc ∧ t.fa.tally = [0, 0, 0, 0] ∧ t.rd Reg.FA_SAT_STATE = s.get Reg.FA_SAT_N_sat_n ∧
      s.regsBut t [Reg.FA_SAT_STATE] ∧ t = { s with cyc := t.cyc, fa := t.fa, regs := t.regs }) ∧
  (∀ (s : State), s.isHealthRoot = false ∨ s.get Reg.FA_SAT_win_ms = 0 → exec .levelSatWindow s = .next s)

/-- HOST_READ_RESPONSE and FLEET_STORE_RESPONSE go to the owner of their tag; FLASH_OPERATION_END and FLASH_BUSY_TIMEOUT end the
operation. While the fast clock runs, a response of 64 bytes under an outstanding tag frees the tag and goes to the request's
owner, such as a restore of a dump engine, whose line it is; one under a tag that is not outstanding is discarded, with
PORT_PROTOCOL recorded. Without the clock nothing is taken. The end of a flash operation has its effect on the flash, ends
the steward's command with OK, and lets the next operation start. One still busy at its bound, 5 ms for a program and 500 ms
for an erase, passes to the bound; the steward's ends with FLASH_TIMEOUT, and the log's first failure is tried again. With no
operation nothing changes. -/
def Obligations.ResponsesAndFlashOperationsEnd : Prop :=
  (∀ (s : State) (g : BitVec 10) (b : List Byte) (e : Bool) (r : Req), b.length = 64 → s.active = true →
    (s.host.out.find? fun r => r.tag == g.toNat) = some r →
    ∃ u : State, exec (.hostReadResponse g b e) s = .next (u.hostLineTo r b e).settle ∧ u = { s.need with host := u.host } ∧
      (s.host.want = [] → u.host.out = s.host.out.filter fun x => x.tag != g.toNat)) ∧
  (∀ (s : State) (g : BitVec 10) (b : List Byte) (e : Bool), b.length = 64 → s.active = true → (∀ r ∈ s.host.out, r.tag ≠ g.toNat) →
    exec (.hostReadResponse g b e) s = .next (s.faultAon Code.PORT_PROTOCOL Unit_.power 0 0)) ∧
  (∀ (s : State) (g : BitVec 10) (b : List Byte) (e : Bool), b.length = 64 → s.active = false → exec (.hostReadResponse g b e) s = .next s) ∧
  (∀ (s : State) (g : BitVec 10) (b : List Byte) (r : Req) (k : Nat), b.length = 64 → s.active = true → s.hl.locals = [] → s.hl.seen = [] →
    (s.host.out.find? fun r => r.tag == g.toNat) = some r → r.owner = .dump k → s.dc.coders.length = 4 → k < 4 →
    (s.coder k).image = some true → s.host.want = [] → ∃ t, exec (.hostReadResponse g b false) s = .next t ∧ t.cyc = s.cyc ∧
      t.host.out = s.host.out.filter (fun x => x.tag != g.toNat) ∧ t.coder k = { s.coder k with
        awaiting := (s.coder k).awaiting - 1, lines := Sparse.insert (s.coder k).lines r.idx b }) ∧
  (∀ (s : State) (g : BitVec 8) (b : List Byte) (e : Bool) (r : Req), b.length = 64 → s.active = true →
    (s.fsp.out.find? fun r => r.tag == g.toNat) = some r →
    ∃ u : State, exec (.fleetStoreResponse g b e) s = .next (u.storeLineTo r b e).settle ∧ u = { s.need with fsp := u.fsp } ∧
      (s.fsp.want = [] → u.fsp.out = s.fsp.out.filter fun x => x.tag != g.toNat)) ∧
  (∀ (s : State) (g : BitVec 8) (b : List Byte) (e : Bool), b.length = 64 → s.active = true → (∀ r ∈ s.fsp.out, r.tag ≠ g.toNat) →
    exec (.fleetStoreResponse g b e) s = .next (s.faultAon Code.PORT_PROTOCOL Unit_.power 0 0)) ∧
  (∀ (s : State) (g : BitVec 8) (b : List Byte) (e : Bool), b.length = 64 → s.active = false → exec (.fleetStoreResponse g b e) s = .next s) ∧
  (∀ (s : State) (g : BitVec 8) (b : List Byte) (r : Req) (k : Nat), b.length = 64 → s.active = true → s.hl.locals = [] → s.hl.seen = [] →
    (s.fsp.out.find? fun r => r.tag == g.toNat) = some r → r.owner = .dump k → s.dc.coders.length = 4 → k < 4 →
    (s.coder k).image = some true → s.fsp.want = [] → ∃ t, exec (.fleetStoreResponse g b false) s = .next t ∧ t.cyc = s.cyc ∧
      t.fsp.out = s.fsp.out.filter (fun x => x.tag != g.toNat) ∧ t.coder k = { s.coder k with
        awaiting := (s.coder k).awaiting - 1, lines := Sparse.insert (s.coder k).lines r.idx b }) ∧
  (∀ (s : State) (er : Bool) (a : Nat) (b : List Byte) (who : Nat), s.fl.op = some (er, a, b, who) → ∃ t, exec .flashOperationEnd s = .next t ∧
    t.fl.bytes = (if er then flErase s.fl.bytes a else flProgram s.fl.bytes a b) ∧ t.cyc = s.cyc ∧ t.queues = s.queues ∧
    (s.ev.nvQueue = [] → t.fl.op = none) ∧
    (∀ x y w rest, s.ev.nvQueue = (x, y, w) :: rest → t.fl.op = some (y.isEmpty, x, y, w) ∧ t.ev.nvQueue = rest ∧ t.fl.since = s.cyc) ∧
    (who = 0 → t.get Reg.ST_FL_CMD_go = 0 ∧ t.get Reg.ST_FL_CMD_status = Code.OK) ∧ (who ≠ 0 → t.regs = s.regs)) ∧
  (∀ (s : State) (er : Bool) (a : Nat) (b : List Byte) (who : Nat), s.fl.op = some (er, a, b, who) → ∃ t, exec .flashBusyTimeout s = .next t ∧
    t.cyc = max s.cyc (s.fl.since + if er then 50000000 else 500000) ∧ t.fl.bytes = s.fl.bytes ∧
    (who = 0 → t.get Reg.ST_FL_CMD_go = 0 ∧ t.get Reg.ST_FL_CMD_status = Code.FLASH_TIMEOUT) ∧
    (who = 1 ∨ who = 3 → s.ev.nvRetry = false → t.fl.op = some (er, a, b, who) ∧ t.fl.since = t.cyc ∧ t.ev.nvRetry = true)) ∧
  (∀ s : State, s.fl.op = none → exec .flashOperationEnd s = .next s ∧ exec .flashBusyTimeout s = .next s)

/-- TRACE_ARM, TRACE_TRIGGER_WRITE and TRACE_OFF move the trace unit, TRACE_RECORD takes records, LOW_POWER_ENTRY and EXIT are
marked. A write of TR_CTRL with arm alone leaves the unit ARMED, with an empty record count and a marker entered; with trig
alone and the FIFO empty it changes no state of a unit that is OFF or FROZEN, and triggers one that is ARMED; with off alone
it leaves it OFF with its FIFO empty. A record of a source that is not enabled, of the reserved kind, or with the clock
stopped changes nothing; one excluded by a filter is counted in TR_EXCL; one taken while FROZEN is counted in TR_FROZEN. Each
edge of the low-power input leaves a marker for the next fast cycle, and the exit is a need for the clock; a rise and fall in
one AON cycle leave none, and an exit while tp_ready is 0 notes from when records are lost. -/
def Obligations.TraceArmsTriggersAndTakesRecords : Prop :=
  (∀ (s : State) (who : Who) (d : Word), s.ready who → d.toNat % 8 = 1 → ∃ u, Writes (.traceArm who d) s who u ∧ u.tr.state = 1 ∧
    u.tr.trigged = false ∧ u.tr.first = none ∧ u.tr.count + u.tr.fifo.length = 1 ∧ u.queues = s.queues) ∧
  (∀ (s : State) (who : Who) (d : Word), s.ready who → d.toNat % 8 = 2 → s.tr.state = 0 ∨ s.tr.state = 3 → s.tr.fifo = [] →
    ∃ u, Writes (.traceTriggerWrite who d) s who u ∧ u.tr.state = s.tr.state ∧ u.tr.count = s.tr.count ∧ u.tr.trigged = s.tr.trigged ∧
      u.tr.buf = s.tr.buf) ∧
  (∀ (s : State) (who : Who) (d : Word), s.ready who → d.toNat % 8 = 2 → s.tr.state = 1 → s.tr.trigged = false → s.tr.fifo = [] → s.tr.held = [] →
    ∃ u, Writes (.traceTriggerWrite who d) s who u ∧ u.tr.trigged = true ∧ (u.tr.state = 2 ∨ u.tr.state = 3)) ∧
  (∀ (s : State) (who : Who) (d : Word), s.ready who → d.toNat % 8 = 4 → ∃ u, Writes (.traceOff who d) s who u ∧ u.tr.state = 0 ∧
    u.tr.fifo = [] ∧ u.tr.lost = none ∧ u.queues = s.queues) ∧
  (∀ (s : State) (r : TraceIn), s.active = false ∨ s.traceSource r = false → exec (.traceRecord r) s = .next s) ∧
  (∀ (s u : State) (r : TraceIn), s.active = true → s.traceSource r = true → s.cyc ≤ s.tr.drainAt → s.tr.fifo = [] → s.traceExcluded r = true →
    u = s.bump Reg.TR_EXCL_count 1 → ∃ t, exec (.traceRecord r) s = .next t ∧ t.regs = u.regs ∧ t.tr.buf = s.tr.buf ∧ t.tr.fifo = []) ∧
  (∀ (s u : State) (r : TraceIn), s.active = true → s.traceSource r = true → s.cyc ≤ s.tr.drainAt → s.tr.fifo = [] → s.traceExcluded r = false →
    s.tr.state = 3 → u = s.bump Reg.TR_FROZEN_count 1 → ∃ t, exec (.traceRecord r) s = .next t ∧ t.regs = u.regs ∧ t.tr.buf = s.tr.buf) ∧
  (∀ s : State, s.tpLp = false → ∃ t, exec .lowPowerEntry s = .next t ∧ t.tpLp = true ∧ t.tr.lpRise = some s.cyc ∧ t.cyc = s.cyc ∧
    t.tr.held = (if s.active = true ∧ s.tr.drainAt < s.cyc then [] else s.tr.held) ++ [{ kind := 3, time := s.fleet }]) ∧
  (∀ s : State, s.tpLp = true → s.tr.lpRise = some s.cyc → exec .lowPowerExit s = .next { s with tpLp := false, tr :=
    { s.tr with lpRise := none, held := s.tr.held.dropLast } }) ∧
  (∀ s : State, s.tpLp = true → s.tr.lpRise ≠ some s.cyc → ∃ t, exec .lowPowerExit s = .next t ∧ t.tpLp = false ∧ t.cyc = s.cyc ∧
    t.tr.held = (if s.active = true ∧ s.tr.drainAt < s.cyc then [] else s.tr.held) ++ [{ kind := 4, time := s.fleet }] ∧
    t.tr.lpFall = (if s.tpReady then s.tr.lpFall else some s.fleet) ∧ (s.pw.st = .sleep → t.pw.st = .waking ∧ t.pw.req = true)) ∧
  (∀ s : State, (s.tpLp = true → exec .lowPowerEntry s = .next s) ∧ (s.tpLp = false → exec .lowPowerExit s = .next s))

/-- HANG_DUMP_KEY begins a hang dump, SEGMENT_SEND sends a dump's next segment, DUMP_BOUND cuts a dump at its bound. The word
0x0000_C3C3, with no hang dump running, adds a hang dump of no queue, with the number of strikes of DC_HANG up to 32, to
those waiting for an engine; while one runs the write is refused; another word changes nothing. A SEGMENT_SEND of an engine
that serves no dump, or still awaits lines, changes nothing. With the lines in, room in the source buffer and an admitted
first chunk to another sink, the next segment goes: the engine's segment number and DC_SEGS go up by one. DUMP_BOUND passes
to the bound of the queue's dump in service and cuts it. -/
def Obligations.DumpsSendTheirSegments : Prop :=
  (∀ (s : State) (who : Who) (d : Word) (j : DumpJob), s.ready who → d.toNat = 0xC3C3 → s.hangRuns = false →
    j = { q := none, kind := 2, at_ := s.fleet, bound := s.get Reg.DC_BOUND_ms, cfg := s.rd Reg.DC_CFG, step := min 32 (s.get Reg.DC_HANG_n) } →
    Writes (.hangDumpKey who d) s who (State.dumpPump 8 { s with dc := { s.dc with jobs := s.dc.jobs ++ [j] } })) ∧
  (∀ (s : State) (who : Who) (d : Word), s.ready who → d.toNat = 0xC3C3 → s.hangRuns = true → Refuses (.hangDumpKey who d) s who s) ∧
  (∀ (s : State) (who : Who) (d : Word), s.ready who → d.toNat ≠ 0xC3C3 → Writes (.hangDumpKey who d) s who s) ∧
  (∀ (s : State) (k : Fin 4), s.active = true → s.dumpOn k.val = none → exec (.segmentSend k) s = .next s) ∧
  (∀ (s : State) (k : Fin 4) (j : DumpJob), s.active = true → s.dumpOn k.val = some j → j.partial_ = true ∨ s.dumpLate j = false →
    j.awaiting ≠ 0 → exec (.segmentSend k) s = .next s) ∧
  (∀ (s : State) (k : Fin 4) (j : DumpJob) (g : Seg) (fl : Nat) (body : List Byte) (c : Coder) (n : Nat) (p : List Byte) (ps : List (List Byte)),
    s.active = true → s.dumpOn k.val = some j → j.partial_ = true ∨ s.dumpLate j = false → j.awaiting = 0 → g = s.segOf j → s.ownSink = false →
    segCode (s.coder k.val) j.cfg g.raw = (fl, body, c, false) → n = (body.length + 35) / 36 + 1 → s.hl.srcC + 64 * n ≤ s.srcCap →
    segChunks k.val fl (s.rd (Reg.DC_ENG_SEG_k k.val)) (g.header body.length j.dumpid) body = p :: ps →
    (s.offer (s.chunkOffer p)).1 = Code.OK → g.skind ≠ 6 → ∃ t u : State, exec (.segmentSend k) s = .next t ∧ t = u.dumpRead k.val ∧
      t.cyc = s.cyc ∧ t.rd (Reg.DC_ENG_SEG_k k.val) = (s.rd (Reg.DC_ENG_SEG_k k.val) + 1) % 2 ^ 32 ∧
      u = (((((((State.sendChunks (s.offer (s.chunkOffer p)).2 ps).setCoder k.val fun _ => c).wr (Reg.DC_ENG_SEG_k k.val)
        ((s.rd (Reg.DC_ENG_SEG_k k.val) + 1) % 2 ^ 32)).incr64 Reg.DC_RAW_LO g.raw.length).incr64 Reg.DC_CODED_LO body.length).incr64
        Reg.DC_SEGS_LO 1).setDump k.val fun _ => j.sentOne g body.length false)) ∧
  (∀ (s : State) (q : Fin 16) (j : DumpJob) (k : Nat), s.active = true →
    (s.dc.jobs.find? fun j => (match j.q with | some (n, _) => n == q.val | none => false) && j.engine.isSome && !j.partial_) = some j →
    j.engine = some k → ∃ t, exec (.dumpBound q) s = .next t ∧ t = State.dumpCut { s with cyc := t.cyc } k ∧
      t.cyc = (s.passToFleet ((j.at_ + j.bound * 1600000) % 2 ^ 64)).cyc ∧ (∃ x ∈ t.dc.jobs, x.engine = some k ∧ x.partial_ = true) ∧
      (∀ x ∈ t.dc.jobs, x.engine = some k → x.partial_ = true ∧ x.awaiting = 0)) ∧
  (∀ (s : State) (q : Fin 16), (∀ j ∈ s.dc.jobs, j.engine = none ∨ j.partial_ = true) → exec (.dumpBound q) s = .next s)

/-- ENGINE_SAVE, ENGINE_RESTORE and ENGINE_RESET act on an idle engine, ENGINE_IMAGE_DONE ends them; SEGMENT_STORE and
CONTEXT_IDLE_FREE. With an engine that is present and idle: reset leaves its dictionary empty and fresh; save (without reset)
to host memory marks the save as under way and writes no other state of the engine; restore (with neither) asks for the 1,025
lines of the image. On a busy engine each is refused. The end of a save clears the mark and, with no dump waiting, changes
nothing else; the end of a restore with every line read and a right CRC gives the engine the image's dictionary and segment
number, and with a wrong one leaves it reset with done_bad. SEGMENT_STORE takes the oldest ready segment away and decodes it
with an idle engine; CONTEXT_IDLE_FREE frees a context idle for DC_RX_CFG.idle_ms. With nothing there nothing changes. -/
def Obligations.EnginesKeepTheirImages : Prop :=
  (∀ (s : State) (who : Who) (k : Fin 4) (d : Word), s.ready who → k.val < s.engines → s.engineIdle k.val = true → bit d.toNat 2 = true →
    Writes (.engineReset who k d) s who (s.setCoder k.val fun c => { c with dict := [], since := 0, fresh := true, bad := false })) ∧
  (∀ (s : State) (who : Who) (k : Fin 4) (d : Word), s.ready who → k.val < s.engines → s.engineIdle k.val = true → d.toNat % 8 % 2 = 1 →
    bit d.toNat 2 = false → s.dc.coders.length = 4 → ∃ u, Writes (.engineSave who k d) s who u ∧
      u.coder k.val = { s.coder k.val with image := some false, awaiting := 0 } ∧ u.get (Reg.DC_ENG_CTRL_k_save k.val) = 1) ∧
  (∀ (s : State) (who : Who) (k : Fin 4) (d : Word), s.ready who → k.val < s.engines → s.engineIdle k.val = true → d.toNat % 8 = 2 →
    s.imageInStore k.val = false → s.dc.coders.length = 4 → ∃ u, Writes (.engineRestore who k d) s who u ∧
      u.coder k.val = { s.coder k.val with image := some true, awaiting := 1025, lines := [], ferr := false } ∧
      u.get (Reg.DC_ENG_CTRL_k_restore k.val) = 1 ∧ u.get (Reg.DC_ENG_CTRL_k_done_bad k.val) = 0) ∧
  (∀ (s : State) (who : Who) (k : Fin 4) (d : Word), s.ready who → k.val < s.engines → s.engineIdle k.val = false → d.toNat % 8 ≠ 0 →
    Refuses (.engineReset who k d) s who s ∧ Refuses (.engineSave who k d) s who s ∧ Refuses (.engineRestore who k d) s who s) ∧
  (∀ (s : State) (k : Fin 4), s.active = true → (s.coder k.val).image = some false → exec (.engineImageDone k) s = .next (State.dumpPump 8
    ((s.setCoder k.val fun c => { c with image := none }).put (Reg.DC_ENG_CTRL_k_save k.val) 0))) ∧
  (∀ (s : State) (k : Fin 4), s.active = true → (s.coder k.val).image = some false → s.dc.coders.length = 4 → s.dc.jobs = [] →
    ∃ t, exec (.engineImageDone k) s = .next t ∧ t.coder k.val = { s.coder k.val with image := none } ∧ t.cyc = s.cyc ∧
      t.get (Reg.DC_ENG_CTRL_k_save k.val) = 0 ∧ s.regsBut t [Reg.DC_ENG_CTRL_k k.val]) ∧
  (∀ (s : State) (k : Fin 4) (b : List Byte), s.active = true → (s.coder k.val).image = some true → (s.coder k.val).awaiting = 0 →
    (s.coder k.val).ferr = false → b = (upto 1025).flatMap (fun i => Sparse.get (fun _ => List.replicate 64 (0 : Byte)) (s.coder k.val).lines i) →
    crc32c (b.take 65596) = field b 65596 4 → exec (.engineImageDone k) s = .next (State.dumpPump 8
      (((s.put (Reg.DC_ENG_CTRL_k_restore k.val) 0).setCoder k.val fun _ => { dict := Dict.ofImage b (field b 65536 4), since := field b 65544 4, fresh := field b 65544 4 == 0 }).wr
        (Reg.DC_ENG_SEG_k k.val) (field b 65540 4)))) ∧
  (∀ (s : State) (k : Fin 4), s.active = true → (s.coder k.val).image = some true → (s.coder k.val).awaiting = 0 →
    (s.coder k.val).ferr = true → exec (.engineImageDone k) s = .next (State.dumpPump 8
      ((((s.put (Reg.DC_ENG_CTRL_k_restore k.val) 0).setCoder k.val fun _ => {}).put (Reg.DC_ENG_CTRL_k_done_bad k.val) 1).fault 0x85
        Unit_.dumps k.val 0))) ∧
  (∀ (s : State) (k : Fin 4), (s.coder k.val).image = none → exec (.engineImageDone k) s = .next s) ∧
  (∀ (s : State) (g : RxSeg) (gs : List RxSeg) (k : Nat), s.active = true → s.dc.ready = g :: gs → s.decoder g.slot = some k →
    ∃ t, exec .segmentStore s = .next t ∧ t = (State.segStore { s with dc := { s.dc with ready := gs } } k g).need ∧ t.cyc = s.cyc ∧
      t.dc.ready.Sublist gs) ∧
  (∀ (s : State) (g : RxSeg) (gs : List RxSeg) (k : Nat) (c : RxCtx) (x : List Byte) (d : Dict), s.active = true → s.dc.ready = g :: gs →
    s.decoder g.slot = some k → s.ctx? g.slot = some c → segDecode g c.dict = some (x, d) → ∃ t c', exec .segmentStore s = .next t ∧
      t.dc.ready = gs ∧ t.ctx? g.slot = some c' ∧ c'.dict = d ∧ t.cyc = s.cyc) ∧
  (∀ s : State, s.dc.ready = [] → exec .segmentStore s = .next s) ∧
  (∀ (s : State) (c : Fin 1024) (x : RxCtx), s.active = true → s.ctx? c.val = some x → s.get Reg.DC_RX_CFG_idle_ms ≠ 0 → (∀ g ∈ s.dc.ready, g.slot ≠ c.val) →
    ∃ t, exec (.contextIdleFree c) s = .next t ∧ t.ctx? c.val = none ∧ t.cyc = max s.cyc (x.at_ + s.get Reg.DC_RX_CFG_idle_ms * 100000) ∧
      t.regs = s.regs ∧ t.queues = s.queues) ∧
  (∀ (s : State) (c : Fin 1024), s.ctx? c.val = none ∨ s.get Reg.DC_RX_CFG_idle_ms = 0 → exec (.contextIdleFree c) s = .next s)

/-- LOG_RECORD_WRITE, OVERFLOW_MARKER, LOG_FREEZE, FREEZE_TIMEOUT, LOG_CLEAR, NV_PAGE_PROGRAM and LOG_REBUILD keep the event log.
LOG_RECORD_WRITE writes the oldest record of the intake to the log and counts it, or in a freeze only counts it, and a marker
due enters. OVERFLOW_MARKER puts a marker of what was dropped into an intake with room. OVERFLOW_MARKER with nothing dropped
changes nothing. A write of freeze begins a freeze where EV_FRZ_TO is not 0; its timeout ends it at the bound; a write of 0
without a freeze does nothing. LOG_CLEAR without the word 0x0000_5A5A or sec_auth is refused; with both the log, once
rebuilt, holds the LIFE record of the clear alone. A page of records that waits is programmed when full, or 10 ms after its
first. LOG_REBUILD happens once, in a tray after its first commit. Without the fast clock none of the commands but the writes
acts. -/
def Obligations.TheLogTakesRecords : Prop :=
  (∀ (s : State) (r : EvRec) (rs : List EvRec), s.active = true → s.ev.intake = r :: rs → s.get Reg.EV_CTRL_freeze = 0 →
    exec .logRecordWrite s = .next ((({ s with ev := { s.ev with intake := rs } } : State).logAppend r).marker).need) ∧
  (∀ (s : State) (r : EvRec) (rs : List EvRec), s.active = true → s.ev.intake = r :: rs → s.get Reg.EV_CTRL_freeze = 0 → s.ev.ovfN = 0 →
    ∃ t, exec .logRecordWrite s = .next t ∧ t.ev.intake = rs ∧ t.ev.count = s.ev.count + 1 ∧ t.regs = s.regs ∧ t.queues = s.queues ∧
      t.cyc = s.cyc ∧ (s.tray = false → t.ev.log.bytes (32 * slotOf s.logN s.logM s.ev.count) 32 =
        ({ r with seq := s.ev.count % 2 ^ 32 } : EvRec).bytes)) ∧
  (∀ (s : State) (r : EvRec), (s.logAppend r).ev.count = s.ev.count + 1 ∧ (s.logAppend r).queues = s.queues ∧
    (s.tray = false → (s.logAppend r).ev.log.bytes (32 * slotOf s.logN s.logM s.ev.count) 32 =
      ({ r with seq := s.ev.count % 2 ^ 32 } : EvRec).bytes)) ∧
  (∀ (s u : State) (r : EvRec) (rs : List EvRec), s.active = true → s.ev.intake = r :: rs → s.get Reg.EV_CTRL_freeze = 1 →
    u = s.bump (Reg.EV_FRZ_c_count r.cls) 1 → exec .logRecordWrite s = .next (State.marker
      { u with ev := { s.ev with intake := rs, frzN := satAdd (2 ^ 32 - 1) s.ev.frzN 1 } }).need) ∧
  (∀ s : State, s.active = true → s.ev.intake = [] → exec .logRecordWrite s = .next s.need) ∧
  (∀ s : State, s.active = false → exec .logRecordWrite s = .next s ∧ exec .overflowMarker s = .next s ∧ exec .freezeTimeout s = .next s ∧
    exec .nvPageProgram s = .next s ∧ exec .logRebuild s = .next s) ∧
  (∀ s : State, s.ev.ovfN = 0 → exec .overflowMarker s = .next s) ∧
  (∀ s : State, s.active = true → s.ev.ovfN ≠ 0 → s.ev.intake.length < 64 → s.tray = false ∨ s.ev.rebuilt = true →
    exec .overflowMarker s = .next (State.enter1 { s with ev := { s.ev with ovfN := 0, ovfMask := 0 } }
      (s.form 5 0x07 Unit_.recorder s.ev.ovfMask s.ev.ovfN false))) ∧
  (∀ s : State, s.active = true → s.ev.ovfN ≠ 0 → s.ev.intake.length < 64 → s.tray = false ∨ s.ev.rebuilt = true →
    s.get Reg.EV_CTRL_freeze = 0 → s.mirrored 5 = false → ∃ t, exec .overflowMarker s = .next t ∧ t.ev.ovfN = 0 ∧ t.ev.ovfMask = 0 ∧
      t.regs = s.regs ∧ t.queues = s.queues ∧ t.cyc = s.cyc ∧
      t.ev.intake = s.ev.intake ++ [{ s.form 5 0x07 Unit_.recorder s.ev.ovfMask s.ev.ovfN false with seq := s.nextSeq }]) ∧
  (∀ (s : State) (who : Who) (d : Word), s.ready who → s.get Reg.EV_CTRL_freeze = 0 → s.get Reg.EV_FRZ_TO_ms ≠ 0 → d.toNat % 2 = 1 →
    Writes (.logFreeze who d) s who { (s.put Reg.EV_CTRL_freeze 1) with ev := { s.ev with frzAt := some s.cyc, frzN := 0 } }) ∧
  (∀ (s : State) (who : Who) (d : Word), s.ready who → s.get Reg.EV_CTRL_freeze = 0 → d.toNat % 2 = 0 → Writes (.logFreeze who d) s who s) ∧
  (∀ (s : State) (c : Nat), s.active = true → s.ev.frzAt = some c → ∃ t, exec .freezeTimeout s = .next t ∧
    t = State.endFreeze { s with cyc := max s.cyc (c + s.get Reg.EV_FRZ_TO_ms * 100000) } ∧ t.get Reg.EV_CTRL_freeze = 0 ∧
    t.ev.frzAt = none ∧ t.ev.frzN = 0 ∧ t.srcPending 45 = true ∧ t.cyc = max s.cyc (c + s.get Reg.EV_FRZ_TO_ms * 100000)) ∧
  (∀ s : State, s.ev.frzAt = none → exec .freezeTimeout s = .next s) ∧
  (∀ (s : State) (who : Who) (d : Word), s.ready who → d.toNat ≠ 0x5A5A ∨ s.secAuth = false → Refuses (.logClear who d) s who s) ∧
  (∀ (s : State) (who : Who) (d : Word), s.ready who → d.toNat = 0x5A5A → s.secAuth = true → s.tray = false ∨ s.ev.rebuilt = true → ∃ u, Writes (.logClear who d) s who u ∧
    u.ev.count = 1 ∧ u.queues = s.queues ∧ u.cyc = s.cyc) ∧
  (∀ (s : State), s.active = true → s.nvRun ≠ [] → s.nvClearing = false → ∃ t, exec .nvPageProgram s = .next t ∧
    t = State.nvProgram { s with cyc := t.cyc } ∧ t.cyc = (if s.nvRun.length = 8 then s.cyc else max s.cyc (s.ev.nvAt + 1000000)) ∧
    t.ev.nvPage = s.ev.nvPage.drop s.nvRun.length ∧ t.ev.nvAt = t.cyc ∧ t.queues = s.queues) ∧
  (∀ s : State, s.nvRun = [] ∨ s.nvClearing = true → exec .nvPageProgram s = .next s) ∧
  (∀ s : State, s.active = true → s.tray = true → s.ev.rebuilt = false → s.ho.first = false → ∃ t, exec .logRebuild s = .next t ∧ t.ev.rebuilt = true ∧
    t.ev.boot = [] ∧ t.queues = s.queues ∧ t.cyc = s.cyc) ∧
  (∀ s : State, s.tray = false ∨ s.ev.rebuilt = true ∨ s.ho.first = true → exec .logRebuild s = .next s)

/-- OPSEC_TICK, LIFE_BASE_WRITE, LIFE_SAVE and LIFE_BLOCK_READ_END keep the life counts; SCRUB_STEP and SCRUB_LATE pace the
scrubber. OPSEC_TICK passes to a second after the last and adds one operating second. In a die the first write of EV_LIFE_OPS
is kept; with EV_LIFE_PCC written before, the counts become base plus local and life_v is set; a second write is refused. In
a tray LIFE_SAVE appends an entry at its time once life_v is set. LIFE_BLOCK_READ_END in a tray, once, sets life_v with the
power-cycle count of the best entry plus one. A clean SCRUB_STEP passes its cycles and goes to the next codeword. SCRUB_LATE,
while the scrubber runs, records a late pass once. Otherwise nothing changes. -/
def Obligations.LifeCountsAndScrubbing : Prop :=
  (∀ s : State, ∃ t, exec .opsecTick s = .next t ∧ t.cyc = max s.cyc (s.ev.opsAt + 100000000) ∧ t.ev.opsAt = s.ev.opsAt + 100000000 ∧
    t.rd Reg.EV_OPSEC = satAdd (2 ^ 32 - 1) (s.rd Reg.EV_OPSEC) 1 ∧ s.regsBut t [Reg.EV_OPSEC] ∧ t.queues = s.queues) ∧
  (∀ (s : State) (who : Who) (d : Word), s.ready who → s.tray = false → s.ev.lifeOps = none → s.ev.lifePcc = none →
    Writes (.lifeBaseWrite who false d) s who { (s.wr Reg.EV_LIFE_OPS d.toNat) with ev := { s.ev with lifeOps := some d.toNat } }) ∧
  (∀ (s : State) (who : Who) (d : Word) (p : Nat), s.ready who → s.tray = false → s.ev.lifeOps = none → s.ev.lifePcc = some p →
    p < 2 ^ 24 → ∃ u, Writes (.lifeBaseWrite who false d) s who u ∧ u.ev.lifeV = true ∧
    u.rd Reg.EV_OPSEC = satAdd (2 ^ 32 - 1) d.toNat (s.rd Reg.EV_OPSEC) ∧ u.get Reg.EV_PCC_pcc = satAdd (2 ^ 24 - 1) p 1) ∧
  (∀ (s : State) (who : Who) (d : Word), s.ready who → s.tray = false →
    (s.ev.lifeOps.isSome = true → Refuses (.lifeBaseWrite who false d) s who s) ∧
    (s.ev.lifePcc.isSome = true → Refuses (.lifeBaseWrite who true d) s who s)) ∧
  (∀ (s : State), s.tray = true → s.ev.lifeV = true → s.get Reg.EV_LIFE_CFG_save_s ≠ 0 → ∃ t, exec .lifeSave s = .next t ∧
    t = State.lifeAppend { s with cyc := t.cyc } ∧ t.cyc = max s.cyc (s.ev.saveAt + s.get Reg.EV_LIFE_CFG_save_s * 100000000) ∧
    t.ev.lifeAt = s.ev.lifeAt % 256 + 1 ∧ t.ev.saveAt = t.cyc ∧ t.queues = s.queues) ∧
  (∀ (s : State), s.tray = false ∨ s.ev.lifeV = false ∨ s.get Reg.EV_LIFE_CFG_save_s = 0 → exec .lifeSave s = .next s) ∧
  (∀ (s : State), s.tray = true → s.ev.lifeV = false → ∃ t, exec .lifeBlockReadEnd s = .next t ∧ t.ev.lifeV = true ∧
    t.get Reg.EV_PCC_pcc = satAdd (2 ^ 24 - 1) ((s.lifeBest.map fun b => b.1).getD 0) 1 ∧ s.regsBut t [Reg.EV_PCC, Reg.EV_OPSEC] ∧
    t.rd Reg.EV_OPSEC = satAdd (2 ^ 32 - 1) ((s.lifeBest.map fun b => b.2.1).getD 0) (s.rd Reg.EV_OPSEC)) ∧
  (∀ (s : State), s.tray = false ∨ s.ev.lifeV = true → exec .lifeBlockReadEnd s = .next s) ∧
  (∀ (s : State), s.active = true → s.get Reg.EV_SCRUB_cycles ≠ 0 → s.ev.scrubPos + 1 < s.codewords s.ev.scrubMem →
    ∃ t, exec (.scrubStep .clean) s = .next t ∧ t.cyc = max s.cyc (s.ev.scrubAt + (s.get Reg.EV_SCRUB_cycles + 15) / 16) ∧
      t.ev.scrubPos = s.ev.scrubPos + 1 ∧ t.ev.scrubMem = s.ev.scrubMem ∧ t.regs = s.regs) ∧
  (∀ (s : State) (f : Codeword), s.active = false ∨ s.get Reg.EV_SCRUB_cycles = 0 → exec (.scrubStep f) s = .next s) ∧
  (∀ (s : State), s.active = true → s.get Reg.EV_SCRUB_max_s ≠ 0 → s.get Reg.EV_SCRUB_cycles ≠ 0 → s.ev.scrubLate = false → ∃ t u : State,
    exec .scrubLate s = .next t ∧ t = u.fault Code.EV_SCRUB_LATE Unit_.recorder 0 0 ∧ u.ev.scrubLate = true ∧ u.regs = s.regs ∧
    t.ev.scrubLate = true ∧ t.cyc = u.cyc ∧ u.cyc = (s.passToFleet ((s.ev.passAt + s.get Reg.EV_SCRUB_max_s * 1600000000) % 2 ^ 64)).cyc) ∧
  (∀ (s : State), s.active = false ∨ s.get Reg.EV_SCRUB_max_s = 0 ∨ s.get Reg.EV_SCRUB_cycles = 0 ∨ s.ev.scrubLate = true → exec .scrubLate s = .next s)

/-- STEWARD_INSTRUCTION takes an interrupt or runs one instruction; PN_OPEN, PN_PUT, PN_DROP, PN_SEND, DB_RING and TM_RD write
their result. A hart that issues takes the interrupt due, or fetches and runs the instruction at its pc (an operation with an
immediate writes rd and goes on 4 bytes further); one that does not issue does nothing. Each Xbospen command of a hart that
issues, is awake and has no swap due does its action on the values of rs1 and rs2, writes the result to rd (x0 stays 0), goes
on 4 bytes further and retires one instruction. (That the command names the instruction at the pc is the sender's: the
model's choice, in the log.) -/
def Obligations.TheStewardStepsAndItsOwnInstructions : Prop :=
  (∀ s w : State, s.issues = true → s.hart.wfi = false → w = s.need → exec .stewardInstruction s = .next (match w.interrupt? with
    | some c => (w.trapTo true c 0).swapBanks
    | none => w.rvStep.swapBanks)) ∧
  (∀ (s w : State) (lo hi : Nat) (v : Word), s.issues = true → s.hart.wfi = false → w = s.need → w.interrupt? = none → s.st.swapDue = false →
    w.fetchHalf s.hart.pc = (w, .ok lo) → lo % 4 = 3 → w.fetchHalf ((s.hart.pc + 2) % 2 ^ 32) = (w, .ok hi) →
    rvOp (lo + 2 ^ 16 * hi) = 0x13 → rvOpI (lo + 2 ^ 16 * hi) (s.xreg (rvRs1 (lo + 2 ^ 16 * hi))) = some v →
    ∃ t, exec .stewardInstruction s = .next t ∧ t.hart.pc = (s.hart.pc + 4) % 2 ^ 32 ∧ t.regs = s.regs ∧ t.queues = s.queues ∧
      t.hart.xs = (s.setX (rvRd (lo + 2 ^ 16 * hi)) v).hart.xs ∧ t.hart.minstret = (s.hart.minstret + 1) % 2 ^ 64) ∧
  (∀ (s : State) (c : Nat), s.issues = true → s.hart.wfi = false → s.interrupt? = some c → s.st.swapDue = false →
    ∃ t, exec .stewardInstruction s = .next t ∧ t.hart.mepc = s.hart.pc ∧ t.hart.mcause = c + 2 ^ 31 ∧ t.hart.mie_ = false ∧
      t.hart.mpie = s.hart.mie_ ∧ t.hart.xs = s.hart.xs ∧ t.hart.minstret = s.hart.minstret ∧ t.regs = s.regs ∧ t.hart.pc =
        (s.hart.mtvec / 4 * 4 + if s.hart.mtvec % 4 = 1 then 4 * c else 0) % 2 ^ 32) ∧
  (∀ s : State, s.issues = false → exec .stewardInstruction s = .next s) ∧
  (∀ (s u : State) (rd a b : BitVec 5) (f v : Nat) (c : Instr), s.issues = true → s.hart.wfi = false →
    (f, c) ∈ [(0, Instr.pnOpen rd a b), (1, .pnPut rd a b), (2, .pnDrop rd a b), (3, .pnSend rd a b), (4, .dbRing rd a b), (5, .tmRd rd a b)] →
    s.xbospen f (s.xreg a.toNat).toNat (s.xreg b.toNat).toNat = some (u, v) →
    exec c s = .next ((((u.setX rd.toNat (BitVec.ofNat 32 v)).goto (u.hart.pc + 4)).retire).swapBanks) ∧
    (u.st.swapDue = false → ∃ t, exec c s = .next t ∧ t.hart.xs = (u.setX rd.toNat (BitVec.ofNat 32 v)).hart.xs ∧ t.st.slots = u.st.slots ∧
      t.hart.pc = (u.hart.pc + 4) % 2 ^ 32 ∧ t.hart.minstret = (u.hart.minstret + 1) % 2 ^ 64 ∧ t.regs = u.regs ∧ t.hl = u.hl)) ∧
  (∀ (s : State) (x y : Nat), s.st.slots.length = 4 →
    (∀ i < 4, s.slot? i = none → (∀ j < i, s.slot? j ≠ none) → (s.pnOpen x y).2 = i ∧
      (s.pnOpen x y).1.slot? i = some { b01 := x % 2 ^ 16, job := y % 2 ^ 12, pay := List.replicate 44 0 }) ∧
    ((∀ j < 4, s.slot? j ≠ none) → s.pnOpen x y = (s, 2 ^ 32 - 1)) ∧
    (∀ z, s.slot? (x % 4) = some z → bits x 4 4 ≤ 10 → z.pay.length = 44 → (s.pnPut x y).2 = 0 ∧ ∃ z', (s.pnPut x y).1.slot? (x % 4) = some z' ∧
      z'.b01 = z.b01 ∧ z'.job = z.job ∧ field z'.pay (4 * bits x 4 4) 4 = y % 2 ^ 32) ∧
    (∀ z, s.slot? (x % 4) = some z → (s.pnDrop x).2 = 0 ∧ (s.pnDrop x).1.slot? (x % 4) = none) ∧
    (s.slot? (x % 4) = none → s.pnPut x y = (s, 1) ∧ s.pnDrop x = (s, 1) ∧ s.pnSend x = (s, Code.QE_BAD_CMD)) ∧
    (x % 2 = 0 → (s.tmRd x).2 = s.fleet % 2 ^ 32 ∧ (s.tmRd x).1.st.tmHigh = s.fleet / 2 ^ 32) ∧
    (x % 2 = 1 → s.tmRd x = (s, s.st.tmHigh))) ∧
  (∀ (s : State) (rd a b : BitVec 5), s.issues = false → exec (.pnOpen rd a b) s = .next s ∧ exec (.pnPut rd a b) s = .next s ∧
    exec (.pnDrop rd a b) s = .next s ∧ exec (.pnSend rd a b) s = .next s ∧ exec (.dbRing rd a b) s = .next s ∧
    exec (.tmRd rd a b) s = .next s)

/-- STEWARD_TIMER passes to the timer's time, STEWARD_WATCHDOG expires, WDOG_KICK restarts its count, FIRMWARE_RECORD writes a
record. With the timer enabled, STEWARD_TIMER passes to ST_TMR, where mip.MTIP is 1; with it off nothing changes. A watchdog
that runs passes to its limit, is counted, recorded as ST_HUNG and starts again from 0, restarting the hart where ST_WDOG
says so. A kick sets the count to 0. A write of ST_EV_PUT forms a FIRMWARE record, with code and instance from the word and
the argument of ST_EV_ARG. -/
def Obligations.StewardTimersAndRecords : Prop :=
  (∀ s : State, s.active = true → s.get Reg.ST_TMR_CTRL_en = 1 →
    exec .stewardTimer s = .next { s with cyc := (s.passToFleet (s.rd64 Reg.ST_TMR_LO)).cyc }) ∧
  (∀ s : State, s.get Reg.ST_TMR_CTRL_en ≠ 1 → exec .stewardTimer s = .next s) ∧
  (∀ s : State, s.wdRuns = true → ∃ u : State, u.cyc = s.cyc + (s.get Reg.ST_WDOG_ms * 100000 - (s.st.wdCount + (s.cyc - s.st.wdAt))) ∧
    u.get Reg.ST_FAULTS_wdog = satAdd (2 ^ Reg.ST_FAULTS_wdog.w - 1) (s.get Reg.ST_FAULTS_wdog) 1 ∧ u.st.hart = s.st.hart ∧
    exec .stewardWatchdog s = .next (if s.get Reg.ST_WDOG_restart = 1 then (u.fault 0xA4 Unit_.firmware 0 0).wdKick.hartStart
      else (u.fault 0xA4 Unit_.firmware 0 0).wdKick)) ∧
  (∀ s : State, s.wdRuns = false → ∃ t, exec .stewardWatchdog s = .next t ∧ t.cyc = s.cyc ∧ t.regs = s.regs ∧ t.st.wdCount = s.st.wdCount) ∧
  (∀ (s : State) (who : Who) (d : Word), s.ready who →
    Writes (.wdogKick who d) s who { s with st := { s.st with wdCount := 0, wdAt := s.cyc } }) ∧
  (∀ (s : State) (who : Who) (d : Word), s.ready who → Writes (.firmwareRecord who d) s who
    (s.record 6 (d.toNat % 256) Unit_.firmware (d.toNat / 256 % 256) (s.rd Reg.ST_EV_ARG)))

/-- IMAGE_LOAD, IMAGE_LOAD_END, IMAGE_SWAP, ROM_BOOT, BOOT_GO, FLASH_COMMAND and SEC_FLOOR_WRITE. IMAGE_LOAD of the active bank,
while a load runs, of a source the role lacks, or without signature check and without sec_auth is refused; of the idle bank
it begins, with its bank no longer accepted. IMAGE_LOAD_END with its lines in ends it with its code, shown in ST_IM_STAT.
IMAGE_SWAP with the key, by the steward or the debugger, of an accepted image at the floor, swaps the banks; else it is
refused. ROM_BOOT outside stage 3, or once boot has ended, does nothing; in a die at first it waits for ST_BOOT_CFG.go.
BOOT_GO sets ST_BOOT_CFG. In a tray FLASH_COMMAND starts its operation, or is refused while one of the steward's runs.
SEC_FLOOR_WRITE only raises the floor, and outside the steward needs sec_auth. -/
def Obligations.ImagesAreLoadedAndSwapped : Prop :=
  (∀ (s : State) (who : Who) (d : Word), s.ready who → bit d.toNat 31 = true →
    bits d.toNat 28 1 = s.st.bank ∨ s.st.load.isSome = true ∨ (s.tray = false ∧ (bits d.toNat 29 2 = 1 ∨ bits d.toNat 29 2 = 2)) ∨
      (bit d.toNat 26 = true ∧ s.secAuth = false) → Refuses (.imageLoad who d) s who s) ∧
  (∀ (s : State) (who : Who) (d : Word), s.ready who → bit d.toNat 31 = true → bits d.toNat 28 1 ≠ s.st.bank → s.st.load = none →
    bits d.toNat 29 2 = 0 → bit d.toNat 26 = false ∨ s.secAuth = true → s.st.banks.length = 2 → ∃ u l, Writes (.imageLoad who d) s who u ∧
      u.st.load = some l ∧ l.bank = bits d.toNat 28 1 ∧ l.len = s.rd Reg.ST_IM_LEN ∧ (u.imBank (bits d.toNat 28 1)).ok = false ∧
      u.st.bank = s.st.bank ∧ u.imBank s.st.bank = s.imBank s.st.bank ∧ u.get Reg.ST_IM_LOAD_go = 1) ∧
  (∀ (s : State) (l : ImLoad), s.active = true → s.st.load = some l → l.awaiting = 0 → s.stage ≠ 3 → l.kind ≠ 2 ∨ s.fl.op = none →
    (s.imgJudge l).1 ≠ Code.DATA_FAULT → (s.imgJudge l).1 ≠ Code.UNCORRECTABLE → (s.imgJudge l).1 < 256 → ∃ t, exec .imageLoadEnd s = .next t ∧
      t.st.load = none ∧ t.get Reg.ST_IM_STAT_code = (s.imgJudge l).1 ∧ t.get Reg.ST_IM_LOAD_go = 0 ∧
      ((s.imgJudge l).1 = Code.OK → l.bank < s.st.banks.length → t.imBank l.bank = (s.imgJudge l).2) ∧
      ((s.imgJudge l).1 ≠ Code.OK → t.st.banks = s.st.banks) ∧ t.queues = s.queues) ∧
  (∀ s : State, s.st.load = none → exec .imageLoadEnd s = .next s) ∧
  (∀ (s : State) (who : Who) (d : Word), s.ready who → who = .steward ∨ who = .debug → d.toNat % 2 ^ 16 = 0x3C3C → s.idleBank.ok = true →
    s.st.load = none → s.secFloor ≤ s.idleBank.sec → ∃ u : State, Writes (.imageSwap who d) s who u ∧
      u = { s with st := { s.st with swapDue := true } } ∧ u.swapBanks.st.bank = 1 - s.st.bank ∧ u.swapBanks.st.runs = true) ∧
  (∀ (s : State) (who : Who) (d : Word), s.ready who → (who ≠ .steward ∧ who ≠ .debug) ∨ d.toNat % 2 ^ 16 ≠ 0x3C3C ∨ s.idleBank.ok = false ∨
    s.st.load.isSome = true ∨ s.idleBank.sec < s.secFloor → Refuses (.imageSwap who d) s who s) ∧
  (∀ (s : State), s.active = false ∨ s.stage ≠ 3 ∨ s.st.boot.phase = 4 → exec .romBoot s = .next s) ∧
  (∀ (s : State), s.active = true → s.stage = 3 → s.st.boot.phase = 0 → s.tray = false →
    s.get Reg.ST_BOOT_CFG_go = 0 → ∃ t, exec .romBoot s = .next t ∧ t.st.boot.phase = 1 ∧ t.st.boot.slot = s.get Reg.ST_BOOT_CFG_prefer ∧
      t.hart.inRom = true ∧ t.regs = s.regs) ∧
  (∀ (s : State) (who : Who) (d : Word), s.ready who → s.st.boot.phase ≠ 1 → Writes (.bootGo who d) s who (s.wr Reg.ST_BOOT_CFG (d.toNat % 8))) ∧
  (∀ (s : State) (who : Who) (d : Word), s.ready who → s.st.boot.phase = 1 →
    Writes (.bootGo who d) s who (s.wr Reg.ST_BOOT_CFG (d.toNat % 8)).romBoot) ∧
  (∀ (s : State) (who : Who) (d : Word), s.ready who → s.tray = true → bit d.toNat 31 = true →
    (513 < bits d.toNat 4 10 ∨ s.get Reg.ST_FL_CMD_go = 1 → Refuses (.flashCommand who d) s who s) ∧
    (bits d.toNat 4 10 ≤ 513 → s.get Reg.ST_FL_CMD_go = 0 → bit d.toNat 30 = false → s.fl.op = none → ∃ u, Writes (.flashCommand who d) s who u ∧
      u.fl.op = some (true, bits d.toNat 4 10 * 4096, [], 0) ∧ u.fl.since = s.cyc ∧ u.get Reg.ST_FL_CMD_go = 1 ∧ u.ev = s.ev ∧
      s.regsBut u [Reg.ST_FL_CMD])) ∧
  (∀ (s : State) (who : Who) (d : Word), s.ready who → who = .steward ∨ s.secAuth = true → ∃ u, Writes (.secFloorWrite who d) s who u ∧
    u.get Reg.ST_SEC_FLOOR_floor = max (s.get Reg.ST_SEC_FLOOR_floor) (d.toNat % 2 ^ 16) ∧
    u.get Reg.ST_SEC_FLOOR_koff = s.get Reg.ST_SEC_FLOOR_koff ||| bits d.toNat 16 4 ∧ s.regsBut u [Reg.ST_SEC_FLOOR]) ∧
  (∀ (s : State) (who : Who) (d : Word), s.ready who → who ≠ .steward → s.secAuth = false → Refuses (.secFloorWrite who d) s who s)
end

