-- ==== Sys2Proof/Laws/Bits.lean ====
section
/-! SUPPORT. Bit fields: what a field reads after a field has been replaced, and the length of a list with one element
replaced. -/

namespace Sys2Proof.Machine

theorem bits_eq (n lo w : Nat) : bits n lo w = n / 2 ^ lo % 2 ^ w := by
  simp [bits, Nat.shiftRight_eq_div_pow]

theorem bits_lt (n lo w : Nat) : bits n lo w < 2 ^ w := Nat.mod_lt _ (Nat.two_pow_pos w)

/-- A number cut at a field: what lies below it, the field, and what lies above. -/
theorem bits_split (n lo w : Nat) : n = n % 2 ^ lo + bits n lo w * 2 ^ lo + n / 2 ^ (lo + w) * 2 ^ (lo + w) := by
  rw [bits_eq, pow_add, ← Nat.div_div_eq_div_mul]
  generalize hq : n / 2 ^ lo = q
  have h1 := Nat.div_add_mod n (2 ^ lo)
  have h2 := Nat.div_add_mod q (2 ^ w)
  rw [hq] at h1
  calc n = 2 ^ lo * q + n % 2 ^ lo := h1.symm
    _ = 2 ^ lo * (2 ^ w * (q / 2 ^ w) + q % 2 ^ w) + n % 2 ^ lo := by rw [h2]
    _ = _ := by ring

/-- A replaced field: the parts below and above it stay. -/
theorem putBits_eq (n lo w v : Nat) :
    putBits n lo w v = n % 2 ^ lo + (v % 2 ^ w) * 2 ^ lo + n / 2 ^ (lo + w) * 2 ^ (lo + w) := by
  have h := bits_split n lo w
  unfold putBits
  omega

/-- What lies below the top of a field is below the power of its top. -/
theorem below_lt (n lo w v : Nat) : n % 2 ^ lo + v % 2 ^ w * 2 ^ lo < 2 ^ lo * 2 ^ w := by
  have h1 := Nat.mod_lt n (Nat.two_pow_pos lo)
  have h2 := Nat.mod_lt v (Nat.two_pow_pos w)
  calc n % 2 ^ lo + v % 2 ^ w * 2 ^ lo < 2 ^ lo + v % 2 ^ w * 2 ^ lo := Nat.add_lt_add_right h1 _
    _ = 2 ^ lo * (v % 2 ^ w + 1) := by ring
    _ ≤ 2 ^ lo * 2 ^ w := Nat.mul_le_mul_left _ h2

@[simp] theorem bits_putBits_same (n lo w v : Nat) : bits (putBits n lo w v) lo w = v % 2 ^ w := by
  rw [bits_eq, putBits_eq, pow_add]
  have h : n % 2 ^ lo + v % 2 ^ w * 2 ^ lo + n / (2 ^ lo * 2 ^ w) * (2 ^ lo * 2 ^ w)
      = n % 2 ^ lo + 2 ^ lo * (v % 2 ^ w + 2 ^ w * (n / (2 ^ lo * 2 ^ w))) := by ring
  rw [h, Nat.add_mul_div_left _ _ (Nat.two_pow_pos lo), Nat.div_eq_of_lt (Nat.mod_lt _ (Nat.two_pow_pos lo)), Nat.zero_add,
    Nat.add_mul_mod_self_left, Nat.mod_mod]

/-- A field that ends below the replaced one keeps its value. -/
theorem bits_putBits_below (n lo w v lo' w' : Nat) (h : lo' + w' ≤ lo) :
    bits (putBits n lo w v) lo' w' = bits n lo' w' := by
  obtain ⟨d, rfl⟩ := Nat.exists_eq_add_of_le h
  have key : ∀ m : Nat, bits m lo' w' = bits (m % 2 ^ (lo' + w' + d)) lo' w' := by
    intro m
    rw [bits_eq, bits_eq]
    have e : m % 2 ^ (lo' + w' + d) / 2 ^ lo' = m / 2 ^ lo' % 2 ^ (w' + d) := by
      rw [show lo' + w' + d = lo' + (w' + d) by ring, pow_add]
      exact Nat.mod_mul_right_div_self m (2 ^ lo') (2 ^ (w' + d))
    rw [e, pow_add]
    exact (Nat.mod_mul_right_mod _ _ _).symm
  rw [key (putBits _ _ _ _), key n, putBits_eq]
  congr 1
  rw [pow_add 2 (lo' + w' + d) w]
  have e : n % 2 ^ (lo' + w' + d) + v % 2 ^ w * 2 ^ (lo' + w' + d) +
      n / (2 ^ (lo' + w' + d) * 2 ^ w) * (2 ^ (lo' + w' + d) * 2 ^ w)
      = n % 2 ^ (lo' + w' + d) + 2 ^ (lo' + w' + d) * (v % 2 ^ w + n / (2 ^ (lo' + w' + d) * 2 ^ w) * 2 ^ w) := by ring
  rw [e, Nat.add_mul_mod_self_left, Nat.mod_mod]

/-- A field that begins above the replaced one keeps its value. -/
theorem bits_putBits_above (n lo w v lo' w' : Nat) (h : lo + w ≤ lo') :
    bits (putBits n lo w v) lo' w' = bits n lo' w' := by
  obtain ⟨d, rfl⟩ := Nat.exists_eq_add_of_le h
  have e : putBits n lo w v / 2 ^ (lo + w) = n / 2 ^ (lo + w) := by
    rw [putBits_eq, pow_add]
    have b := below_lt n lo w v
    rw [Nat.add_mul_div_right _ _ (by positivity), Nat.div_eq_of_lt b, Nat.zero_add]
  rw [bits_eq, bits_eq, pow_add, ← Nat.div_div_eq_div_mul, ← Nat.div_div_eq_div_mul, e]

/-- Fields apart do not touch each other. -/
theorem bits_putBits_apart (n lo w v lo' w' : Nat) (h : lo' + w' ≤ lo ∨ lo + w ≤ lo') :
    bits (putBits n lo w v) lo' w' = bits n lo' w' :=
  h.elim (bits_putBits_below n lo w v lo' w') (bits_putBits_above n lo w v lo' w')

theorem putBits_lt (n lo w v k : Nat) (hn : n < 2 ^ k) (hk : lo + w ≤ k) : putBits n lo w v < 2 ^ k := by
  rw [putBits_eq]
  obtain ⟨d, rfl⟩ := Nat.exists_eq_add_of_le hk
  have h3 : n / 2 ^ (lo + w) < 2 ^ d := by
    rw [Nat.div_lt_iff_lt_mul (Nat.two_pow_pos _), ← pow_add, Nat.add_comm d]; exact hn
  have h4 : n / 2 ^ (lo + w) * 2 ^ (lo + w) ≤ (2 ^ d - 1) * 2 ^ (lo + w) := Nat.mul_le_mul_right _ (by omega)
  have h5 : (2 ^ d - 1) * 2 ^ (lo + w) = 2 ^ (lo + w + d) - 2 ^ (lo + w) := by
    rw [Nat.sub_mul, ← pow_add, Nat.one_mul, Nat.add_comm d]
  have h6 : n % 2 ^ lo + v % 2 ^ w * 2 ^ lo < 2 ^ (lo + w) := by rw [pow_add]; exact below_lt n lo w v
  have h7 : 2 ^ (lo + w) ≤ 2 ^ (lo + w + d) := Nat.pow_le_pow_right (by decide) (by omega)
  omega

theorem satAdd_le (cap a b : Nat) : satAdd cap a b ≤ cap := Nat.min_le_left _ _

@[simp] theorem modAt_length {α : Type} (l : List α) (i : Nat) (f : α → α) : (modAt l i f).length = l.length := by
  induction l generalizing i with
  | nil => rfl
  | cons a as ih => cases i with
    | zero => rfl
    | succ n => simp [modAt, ih]

/-- The replaced element. -/
theorem modAt_get_same {α : Type} (l : List α) (i : Nat) (f : α → α) (d : α) (h : i < l.length) :
    (modAt l i f).getD i d = f (l.getD i d) := by
  induction l generalizing i with
  | nil => simp at h
  | cons a as ih => cases i with
    | zero => rfl
    | succ n => simpa [modAt] using ih n (by simpa using h)

/-- The other elements. -/
theorem modAt_get_other {α : Type} (l : List α) (i j : Nat) (f : α → α) (d : α) (h : i ≠ j) :
    (modAt l i f).getD j d = l.getD j d := by
  induction l generalizing i j with
  | nil => rfl
  | cons a as ih => cases i with
    | zero => cases j with
      | zero => exact absurd rfl h
      | succ m => rfl
    | succ n => cases j with
      | zero => rfl
      | succ m => simpa [modAt] using ih n m (by omega)

end Sys2Proof.Machine
end

