-- ==== Sys2Proof/Laws/Sparse.lean ====
section
/-! SUPPORT. Sparse memories: what a key reads as after a write, and the canonical form that every memory operation
keeps. -/

namespace Sys2Proof.Machine

variable {α : Type}

theorem Sparse.get_erase_same (d : Nat → α) (m : Sparse α) (k : Nat) : (m.erase k).get d k = d k := by
  induction m with
  | nil => rfl
  | cons e m ih =>
    obtain ⟨j, v⟩ := e
    by_cases h : j = k
    · simpa [Sparse.erase, h] using ih
    · simpa [Sparse.erase, Sparse.get, h] using ih

theorem Sparse.get_erase_other (d : Nat → α) (m : Sparse α) (k i : Nat) (h : i ≠ k) : (m.erase k).get d i = m.get d i := by
  induction m with
  | nil => rfl
  | cons e m ih =>
    obtain ⟨j, v⟩ := e
    by_cases hj : j = k
    · have : ¬ j = i := by omega
      simpa [Sparse.erase, Sparse.get, hj, this, show ¬ k = i by omega] using ih
    · simp [Sparse.erase, Sparse.get, hj, ih]

theorem Sparse.get_insert_same (d : Nat → α) (m : Sparse α) (k : Nat) (v : α) : (m.insert k v).get d k = v := by
  induction m with
  | nil => simp [Sparse.insert, Sparse.get]
  | cons e m ih =>
    obtain ⟨j, w⟩ := e
    unfold Sparse.insert
    split
    · simp [Sparse.get]
    · split
      · simp [Sparse.get]
      · rename_i h1 h2
        simpa [Sparse.get, show ¬ j = k by omega] using ih

theorem Sparse.get_insert_other (d : Nat → α) (m : Sparse α) (k i : Nat) (v : α) (h : i ≠ k) :
    (m.insert k v).get d i = m.get d i := by
  induction m with
  | nil => simp [Sparse.insert, Sparse.get, show ¬ k = i by omega]
  | cons e m ih =>
    obtain ⟨j, w⟩ := e
    unfold Sparse.insert
    split
    · simp [Sparse.get, show ¬ k = i by omega]
    · split
      · rename_i h1 h2
        simp [Sparse.get, show ¬ k = i by omega, show ¬ j = i by omega]
      · simp [Sparse.get, ih]

/-- A written key reads as what was written. -/
theorem Sparse.get_set_same [DecidableEq α] (d : Nat → α) (m : Sparse α) (k : Nat) (v : α) : (m.set d k v).get d k = v := by
  unfold Sparse.set
  split
  · rename_i h; rw [Sparse.get_erase_same, h]
  · exact Sparse.get_insert_same d m k v

/-- A write leaves every other key alone. -/
theorem Sparse.get_set_other [DecidableEq α] (d : Nat → α) (m : Sparse α) (k i : Nat) (v : α) (h : i ≠ k) :
    (m.set d k v).get d i = m.get d i := by
  unfold Sparse.set
  split
  · exact Sparse.get_erase_other d m k i h
  · exact Sparse.get_insert_other d m k i v h

/-! ### The canonical form -/

theorem Sparse.rising_cons (b : Option Nat) (k : Nat) (v : α) (m : Sparse α) :
    Sparse.rising b ((k, v) :: m) = true ↔ (∀ x, b = some x → x < k) ∧ Sparse.rising (some k) m = true := by
  cases b <;> simp [Sparse.rising]

theorem Sparse.rising_mono (a b : Option Nat) (m : Sparse α) (h : ∀ x, a = some x → ∃ y, b = some y ∧ x ≤ y)
    (hm : m.rising b = true) : m.rising a = true := by
  cases m with
  | nil => rfl
  | cons e m =>
    rw [Sparse.rising_cons] at *
    refine ⟨fun x hx => ?_, hm.2⟩
    obtain ⟨y, hy, hxy⟩ := h x hx
    exact Nat.lt_of_le_of_lt hxy (hm.1 y hy)

theorem Sparse.rising_erase (b : Option Nat) (m : Sparse α) (k : Nat) (hm : m.rising b = true) : (m.erase k).rising b = true := by
  induction m generalizing b with
  | nil => rfl
  | cons e m ih =>
    obtain ⟨j, v⟩ := e
    rw [Sparse.rising_cons] at hm
    unfold Sparse.erase
    split
    · exact Sparse.rising_mono b (some j) _ (fun x hx => ⟨j, rfl, Nat.le_of_lt (hm.1 x hx)⟩) (ih (some j) hm.2)
    · rw [Sparse.rising_cons]
      exact ⟨hm.1, ih _ hm.2⟩

theorem Sparse.rising_insert (b : Option Nat) (m : Sparse α) (k : Nat) (v : α) (hm : m.rising b = true)
    (hb : ∀ x, b = some x → x < k) : (m.insert k v).rising b = true := by
  induction m generalizing b with
  | nil => exact (Sparse.rising_cons b k v []).2 ⟨hb, rfl⟩
  | cons e m ih =>
    obtain ⟨j, w⟩ := e
    have hm' := (Sparse.rising_cons b j w m).1 hm
    unfold Sparse.insert
    split
    · rename_i h
      rw [Sparse.rising_cons, Sparse.rising_cons]
      exact ⟨hb, fun x hx => by cases hx; exact h, hm'.2⟩
    · split
      · rename_i h1 h2
        subst h2
        rw [Sparse.rising_cons]
        exact ⟨hb, hm'.2⟩
      · rename_i h1 h2
        rw [Sparse.rising_cons]
        exact ⟨hm'.1, ih (some j) hm'.2 fun x hx => by cases hx; omega⟩

theorem Sparse.all_erase (p : Nat × α → Bool) (m : Sparse α) (k : Nat) (hm : m.all p = true) : (m.erase k).all p = true := by
  induction m with
  | nil => rfl
  | cons e m ih =>
    obtain ⟨j, v⟩ := e
    simp only [List.all_cons, Bool.and_eq_true] at hm
    unfold Sparse.erase
    split
    · exact ih hm.2
    · simp only [List.all_cons, Bool.and_eq_true]
      exact ⟨hm.1, ih hm.2⟩

theorem Sparse.all_insert (p : Nat × α → Bool) (m : Sparse α) (k : Nat) (v : α) (hm : m.all p = true) (hv : p (k, v) = true) :
    (m.insert k v).all p = true := by
  induction m with
  | nil => simp [Sparse.insert, hv]
  | cons e m ih =>
    obtain ⟨j, w⟩ := e
    simp only [List.all_cons, Bool.and_eq_true] at hm
    unfold Sparse.insert
    split
    · simp only [List.all_cons, Bool.and_eq_true]; exact ⟨hv, hm.1, hm.2⟩
    · split
      · simp only [List.all_cons, Bool.and_eq_true]; exact ⟨hv, hm.2⟩
      · simp only [List.all_cons, Bool.and_eq_true]; exact ⟨hm.1, ih hm.2⟩

/-- A write keeps the canonical form. -/
theorem Sparse.set_wf [DecidableEq α] (d : Nat → α) (m : Sparse α) (k : Nat) (v : α) (hm : m.wf d = true) :
    (m.set d k v).wf d = true := by
  unfold Sparse.wf at *
  simp only [Bool.and_eq_true] at *
  unfold Sparse.set
  split
  · exact ⟨Sparse.rising_erase none m k hm.1, Sparse.all_erase _ m k hm.2⟩
  · rename_i h
    exact ⟨Sparse.rising_insert none m k v hm.1 (by simp), Sparse.all_insert _ m k v hm.2 (by simpa using h)⟩

theorem Sparse.rising_filter (b : Option Nat) (p : Nat × α → Bool) (m : Sparse α) (hm : m.rising b = true) :
    Sparse.rising b (List.filter p m) = true := by
  induction m generalizing b with
  | nil => rfl
  | cons e m ih =>
    obtain ⟨j, v⟩ := e
    rw [Sparse.rising_cons] at hm
    by_cases h : p (j, v) = true
    · rw [List.filter_cons_of_pos h, Sparse.rising_cons]
      exact ⟨hm.1, ih _ hm.2⟩
    · rw [List.filter_cons_of_neg h]
      exact Sparse.rising_mono b (some j) _ (fun x hx => ⟨j, rfl, Nat.le_of_lt (hm.1 x hx)⟩) (ih (some j) hm.2)

theorem Mem.read_write_same (m : Mem) (a : Nat) (b : Byte) : (m.write a b).read a = b := Sparse.get_set_same _ m a b

theorem Mem.read_write_other (m : Mem) (a i : Nat) (b : Byte) (h : i ≠ a) : (m.write a b).read i = m.read i :=
  Sparse.get_set_other _ m a i b h

/-- A byte write keeps the canonical form. -/
theorem Memory.wf_write (m : Mem) (a : Nat) (b : Byte) (h : Memory.wf m = true) : Memory.wf (m.write a b) = true :=
  Sparse.set_wf _ m a b h

/-- A string write keeps the canonical form. -/
theorem Memory.wf_put (m : Mem) (a : Nat) (bs : List Byte) (h : Memory.wf m = true) : Memory.wf (m.put a bs) = true := by
  induction bs generalizing m a with
  | nil => exact h
  | cons b bs ih => exact ih _ _ (Memory.wf_write m a b h)

/-- Zeroing a range keeps the canonical form. -/
theorem Memory.wf_zero (m : Mem) (a n : Nat) (h : Memory.wf m = true) : Memory.wf (m.zero a n) = true := by
  unfold Memory.wf Sparse.wf at *
  simp only [Bool.and_eq_true] at *
  refine ⟨Sparse.rising_filter none _ m h.1, ?_⟩
  simp only [Mem.zero, List.all_filter]
  exact List.all_eq_true.2 fun e he => by
    have := List.all_eq_true.1 h.2 e he
    simp [this]

/-- A string write leaves every byte outside it alone. -/
theorem Mem.read_put_other (m : Mem) (a i : Nat) (bs : List Byte) (h : i < a ∨ a + bs.length ≤ i) :
    (m.put a bs).read i = m.read i := by
  induction bs generalizing m a with
  | nil => rfl
  | cons b bs ih =>
    simp only [List.length_cons] at h
    rw [Mem.put, ih _ _ (by omega), Mem.read_write_other _ _ _ _ (by omega)]

/-- A written string reads back byte by byte. -/
theorem Mem.read_put_same (m : Mem) (a k : Nat) (bs : List Byte) (h : k < bs.length) :
    (m.put a bs).read (a + k) = bs.getD k 0 := by
  induction bs generalizing m a k with
  | nil => simp at h
  | cons b bs ih =>
    cases k with
    | zero => exact (Mem.read_put_other (m.write a b) (a + 1) a bs (by omega)).trans (Mem.read_write_same m a b)
    | succ n =>
      rw [Mem.put, show a + (n + 1) = a + 1 + n by omega, ih _ _ _ (by simpa using h)]
      rfl

end Sys2Proof.Machine
end

