-- ==== Sys2Proof/Laws/State.lean ====
section
/-! SUPPORT. What the named operations and the setters leave unchanged: one lemma for each field and each of them. -/

namespace Sys2Proof.Machine

/-- Letting time pass only moves the time. -/
theorem State.passTo_shape (s : State) (c : Nat) : ∃ k, s.passTo c = { s with cyc := k } := by
  unfold State.passTo
  split
  · exact ⟨c, rfl⟩
  · exact ⟨s.cyc, rfl⟩

theorem State.passToAon_shape (s : State) (c : Nat) : ∃ k, s.passToAon c = { s with cyc := k } := State.passTo_shape _ _

theorem State.passBefore_shape (s : State) (c : Nat) : ∃ k, s.passBefore c = { s with cyc := k } := State.passTo_shape _ _

/-- Letting time pass to a fleet time moves the time and the fast domain's place in it. -/
theorem State.passToFleet_shape (s : State) (c : Nat) : ∃ k p, s.passToFleet c = { s with cyc := k, pw := p } := by
  obtain ⟨a, ha⟩ := State.passToAon_shape s c
  obtain ⟨b, hb⟩ := State.passBefore_shape s c
  unfold State.passToFleet
  rw [ha, hb]
  repeat' split
  · exact ⟨s.cyc, s.pw, rfl⟩
  · dsimp only
    generalize subMod 64 c _ = d
    by_cases hd : d < 16
    · simp only [if_pos hd]
      exact ⟨_, _, rfl⟩
    · simp only [if_neg hd]
      exact ⟨_, _, rfl⟩
  · exact ⟨a, s.pw, rfl⟩

/-! `State.wr` changes only regs. -/

@[simp] theorem State.wr_role (s : State) (off v : Nat) : (s.wr off v).role = s.role := rfl
@[simp] theorem State.wr_memTaps (s : State) (off v : Nat) : (s.wr off v).memTaps = s.memTaps := rfl
@[simp] theorem State.wr_linkTaps (s : State) (off v : Nat) : (s.wr off v).linkTaps = s.linkTaps := rfl
@[simp] theorem State.wr_cyc (s : State) (off v : Nat) : (s.wr off v).cyc = s.cyc := rfl
@[simp] theorem State.wr_secAuth (s : State) (off v : Nat) : (s.wr off v).secAuth = s.secAuth := rfl
@[simp] theorem State.wr_tpLp (s : State) (off v : Nat) : (s.wr off v).tpLp = s.tpLp := rfl
@[simp] theorem State.wr_shadow (s : State) (off v : Nat) : (s.wr off v).shadow = s.shadow := rfl
@[simp] theorem State.wr_holds (s : State) (off v : Nat) : (s.wr off v).holds = s.holds := rfl
@[simp] theorem State.wr_rsps (s : State) (off v : Nat) : (s.wr off v).rsps = s.rsps := rfl
@[simp] theorem State.wr_waiting (s : State) (off v : Nat) : (s.wr off v).waiting = s.waiting := rfl
@[simp] theorem State.wr_dbg (s : State) (off v : Nat) : (s.wr off v).dbg = s.dbg := rfl
@[simp] theorem State.wr_pw (s : State) (off v : Nat) : (s.wr off v).pw = s.pw := rfl
@[simp] theorem State.wr_thr (s : State) (off v : Nat) : (s.wr off v).thr = s.thr := rfl
@[simp] theorem State.wr_pb (s : State) (off v : Nat) : (s.wr off v).pb = s.pb := rfl
@[simp] theorem State.wr_ho (s : State) (off v : Nat) : (s.wr off v).ho = s.ho := rfl
@[simp] theorem State.wr_rings (s : State) (off v : Nat) : (s.wr off v).rings = s.rings := rfl
@[simp] theorem State.wr_queues (s : State) (off v : Nat) : (s.wr off v).queues = s.queues := rfl
@[simp] theorem State.wr_lastQ (s : State) (off v : Nat) : (s.wr off v).lastQ = s.lastQ := rfl
@[simp] theorem State.wr_notices (s : State) (off v : Nat) : (s.wr off v).notices = s.notices := rfl
@[simp] theorem State.wr_tb (s : State) (off v : Nat) : (s.wr off v).tb = s.tb := rfl
@[simp] theorem State.wr_cf (s : State) (off v : Nat) : (s.wr off v).cf = s.cf := rfl
@[simp] theorem State.wr_ck (s : State) (off v : Nat) : (s.wr off v).ck = s.ck := rfl
@[simp] theorem State.wr_xc (s : State) (off v : Nat) : (s.wr off v).xc = s.xc := rfl
@[simp] theorem State.wr_sc (s : State) (off v : Nat) : (s.wr off v).sc = s.sc := rfl
@[simp] theorem State.wr_hl (s : State) (off v : Nat) : (s.wr off v).hl = s.hl := rfl
@[simp] theorem State.wr_ev (s : State) (off v : Nat) : (s.wr off v).ev = s.ev := rfl
@[simp] theorem State.wr_red (s : State) (off v : Nat) : (s.wr off v).red = s.red := rfl
@[simp] theorem State.wr_tr (s : State) (off v : Nat) : (s.wr off v).tr = s.tr := rfl
@[simp] theorem State.wr_dc (s : State) (off v : Nat) : (s.wr off v).dc = s.dc := rfl
@[simp] theorem State.wr_st (s : State) (off v : Nat) : (s.wr off v).st = s.st := rfl
@[simp] theorem State.wr_fa (s : State) (off v : Nat) : (s.wr off v).fa = s.fa := rfl
@[simp] theorem State.wr_host (s : State) (off v : Nat) : (s.wr off v).host = s.host := rfl
@[simp] theorem State.wr_fsp (s : State) (off v : Nat) : (s.wr off v).fsp = s.fsp := rfl
@[simp] theorem State.wr_fs (s : State) (off v : Nat) : (s.wr off v).fs = s.fs := rfl
@[simp] theorem State.wr_fl (s : State) (off v : Nat) : (s.wr off v).fl = s.fl := rfl
@[simp] theorem State.wr_dmem (s : State) (off v : Nat) : (s.wr off v).dmem = s.dmem := rfl
@[simp] theorem State.wr_free (s : State) (off v : Nat) : (s.wr off v).free = s.free := rfl
@[simp] theorem State.wr_pending (s : State) (off v : Nat) : (s.wr off v).pending = s.pending := rfl

/-! `State.swr` changes only shadow. -/

@[simp] theorem State.swr_role (s : State) (off v : Nat) : (s.swr off v).role = s.role := rfl
@[simp] theorem State.swr_memTaps (s : State) (off v : Nat) : (s.swr off v).memTaps = s.memTaps := rfl
@[simp] theorem State.swr_linkTaps (s : State) (off v : Nat) : (s.swr off v).linkTaps = s.linkTaps := rfl
@[simp] theorem State.swr_cyc (s : State) (off v : Nat) : (s.swr off v).cyc = s.cyc := rfl
@[simp] theorem State.swr_secAuth (s : State) (off v : Nat) : (s.swr off v).secAuth = s.secAuth := rfl
@[simp] theorem State.swr_tpLp (s : State) (off v : Nat) : (s.swr off v).tpLp = s.tpLp := rfl
@[simp] theorem State.swr_regs (s : State) (off v : Nat) : (s.swr off v).regs = s.regs := rfl
@[simp] theorem State.swr_holds (s : State) (off v : Nat) : (s.swr off v).holds = s.holds := rfl
@[simp] theorem State.swr_rsps (s : State) (off v : Nat) : (s.swr off v).rsps = s.rsps := rfl
@[simp] theorem State.swr_waiting (s : State) (off v : Nat) : (s.swr off v).waiting = s.waiting := rfl
@[simp] theorem State.swr_dbg (s : State) (off v : Nat) : (s.swr off v).dbg = s.dbg := rfl
@[simp] theorem State.swr_pw (s : State) (off v : Nat) : (s.swr off v).pw = s.pw := rfl
@[simp] theorem State.swr_thr (s : State) (off v : Nat) : (s.swr off v).thr = s.thr := rfl
@[simp] theorem State.swr_pb (s : State) (off v : Nat) : (s.swr off v).pb = s.pb := rfl
@[simp] theorem State.swr_ho (s : State) (off v : Nat) : (s.swr off v).ho = s.ho := rfl
@[simp] theorem State.swr_rings (s : State) (off v : Nat) : (s.swr off v).rings = s.rings := rfl
@[simp] theorem State.swr_queues (s : State) (off v : Nat) : (s.swr off v).queues = s.queues := rfl
@[simp] theorem State.swr_lastQ (s : State) (off v : Nat) : (s.swr off v).lastQ = s.lastQ := rfl
@[simp] theorem State.swr_notices (s : State) (off v : Nat) : (s.swr off v).notices = s.notices := rfl
@[simp] theorem State.swr_tb (s : State) (off v : Nat) : (s.swr off v).tb = s.tb := rfl
@[simp] theorem State.swr_cf (s : State) (off v : Nat) : (s.swr off v).cf = s.cf := rfl
@[simp] theorem State.swr_ck (s : State) (off v : Nat) : (s.swr off v).ck = s.ck := rfl
@[simp] theorem State.swr_xc (s : State) (off v : Nat) : (s.swr off v).xc = s.xc := rfl
@[simp] theorem State.swr_sc (s : State) (off v : Nat) : (s.swr off v).sc = s.sc := rfl
@[simp] theorem State.swr_hl (s : State) (off v : Nat) : (s.swr off v).hl = s.hl := rfl
@[simp] theorem State.swr_ev (s : State) (off v : Nat) : (s.swr off v).ev = s.ev := rfl
@[simp] theorem State.swr_red (s : State) (off v : Nat) : (s.swr off v).red = s.red := rfl
@[simp] theorem State.swr_tr (s : State) (off v : Nat) : (s.swr off v).tr = s.tr := rfl
@[simp] theorem State.swr_dc (s : State) (off v : Nat) : (s.swr off v).dc = s.dc := rfl
@[simp] theorem State.swr_st (s : State) (off v : Nat) : (s.swr off v).st = s.st := rfl
@[simp] theorem State.swr_fa (s : State) (off v : Nat) : (s.swr off v).fa = s.fa := rfl
@[simp] theorem State.swr_host (s : State) (off v : Nat) : (s.swr off v).host = s.host := rfl
@[simp] theorem State.swr_fsp (s : State) (off v : Nat) : (s.swr off v).fsp = s.fsp := rfl
@[simp] theorem State.swr_fs (s : State) (off v : Nat) : (s.swr off v).fs = s.fs := rfl
@[simp] theorem State.swr_fl (s : State) (off v : Nat) : (s.swr off v).fl = s.fl := rfl
@[simp] theorem State.swr_dmem (s : State) (off v : Nat) : (s.swr off v).dmem = s.dmem := rfl
@[simp] theorem State.swr_free (s : State) (off v : Nat) : (s.swr off v).free = s.free := rfl
@[simp] theorem State.swr_pending (s : State) (off v : Nat) : (s.swr off v).pending = s.pending := rfl
@[simp] theorem State.swr_rd (s : State) (off v : Nat) (o : Nat) : (s.swr off v).rd o = s.rd o := rfl
@[simp] theorem State.swr_rd64 (s : State) (off v : Nat) (o : Nat) : (s.swr off v).rd64 o = s.rd64 o := rfl
@[simp] theorem State.swr_get (s : State) (off v : Nat) (g : Fld) : (s.swr off v).get g = s.get g := rfl

/-! `State.put` changes only regs. -/

@[simp] theorem State.put_role (s : State) (f : Fld) (v : Nat) : (s.put f v).role = s.role := rfl
@[simp] theorem State.put_memTaps (s : State) (f : Fld) (v : Nat) : (s.put f v).memTaps = s.memTaps := rfl
@[simp] theorem State.put_linkTaps (s : State) (f : Fld) (v : Nat) : (s.put f v).linkTaps = s.linkTaps := rfl
@[simp] theorem State.put_cyc (s : State) (f : Fld) (v : Nat) : (s.put f v).cyc = s.cyc := rfl
@[simp] theorem State.put_secAuth (s : State) (f : Fld) (v : Nat) : (s.put f v).secAuth = s.secAuth := rfl
@[simp] theorem State.put_tpLp (s : State) (f : Fld) (v : Nat) : (s.put f v).tpLp = s.tpLp := rfl
@[simp] theorem State.put_shadow (s : State) (f : Fld) (v : Nat) : (s.put f v).shadow = s.shadow := rfl
@[simp] theorem State.put_holds (s : State) (f : Fld) (v : Nat) : (s.put f v).holds = s.holds := rfl
@[simp] theorem State.put_rsps (s : State) (f : Fld) (v : Nat) : (s.put f v).rsps = s.rsps := rfl
@[simp] theorem State.put_waiting (s : State) (f : Fld) (v : Nat) : (s.put f v).waiting = s.waiting := rfl
@[simp] theorem State.put_dbg (s : State) (f : Fld) (v : Nat) : (s.put f v).dbg = s.dbg := rfl
@[simp] theorem State.put_pw (s : State) (f : Fld) (v : Nat) : (s.put f v).pw = s.pw := rfl
@[simp] theorem State.put_thr (s : State) (f : Fld) (v : Nat) : (s.put f v).thr = s.thr := rfl
@[simp] theorem State.put_pb (s : State) (f : Fld) (v : Nat) : (s.put f v).pb = s.pb := rfl
@[simp] theorem State.put_ho (s : State) (f : Fld) (v : Nat) : (s.put f v).ho = s.ho := rfl
@[simp] theorem State.put_rings (s : State) (f : Fld) (v : Nat) : (s.put f v).rings = s.rings := rfl
@[simp] theorem State.put_queues (s : State) (f : Fld) (v : Nat) : (s.put f v).queues = s.queues := rfl
@[simp] theorem State.put_lastQ (s : State) (f : Fld) (v : Nat) : (s.put f v).lastQ = s.lastQ := rfl
@[simp] theorem State.put_notices (s : State) (f : Fld) (v : Nat) : (s.put f v).notices = s.notices := rfl
@[simp] theorem State.put_tb (s : State) (f : Fld) (v : Nat) : (s.put f v).tb = s.tb := rfl
@[simp] theorem State.put_cf (s : State) (f : Fld) (v : Nat) : (s.put f v).cf = s.cf := rfl
@[simp] theorem State.put_ck (s : State) (f : Fld) (v : Nat) : (s.put f v).ck = s.ck := rfl
@[simp] theorem State.put_xc (s : State) (f : Fld) (v : Nat) : (s.put f v).xc = s.xc := rfl
@[simp] theorem State.put_sc (s : State) (f : Fld) (v : Nat) : (s.put f v).sc = s.sc := rfl
@[simp] theorem State.put_hl (s : State) (f : Fld) (v : Nat) : (s.put f v).hl = s.hl := rfl
@[simp] theorem State.put_ev (s : State) (f : Fld) (v : Nat) : (s.put f v).ev = s.ev := rfl
@[simp] theorem State.put_red (s : State) (f : Fld) (v : Nat) : (s.put f v).red = s.red := rfl
@[simp] theorem State.put_tr (s : State) (f : Fld) (v : Nat) : (s.put f v).tr = s.tr := rfl
@[simp] theorem State.put_dc (s : State) (f : Fld) (v : Nat) : (s.put f v).dc = s.dc := rfl
@[simp] theorem State.put_st (s : State) (f : Fld) (v : Nat) : (s.put f v).st = s.st := rfl
@[simp] theorem State.put_fa (s : State) (f : Fld) (v : Nat) : (s.put f v).fa = s.fa := rfl
@[simp] theorem State.put_host (s : State) (f : Fld) (v : Nat) : (s.put f v).host = s.host := rfl
@[simp] theorem State.put_fsp (s : State) (f : Fld) (v : Nat) : (s.put f v).fsp = s.fsp := rfl
@[simp] theorem State.put_fs (s : State) (f : Fld) (v : Nat) : (s.put f v).fs = s.fs := rfl
@[simp] theorem State.put_fl (s : State) (f : Fld) (v : Nat) : (s.put f v).fl = s.fl := rfl
@[simp] theorem State.put_dmem (s : State) (f : Fld) (v : Nat) : (s.put f v).dmem = s.dmem := rfl
@[simp] theorem State.put_free (s : State) (f : Fld) (v : Nat) : (s.put f v).free = s.free := rfl
@[simp] theorem State.put_pending (s : State) (f : Fld) (v : Nat) : (s.put f v).pending = s.pending := rfl

/-! `State.bump` changes only regs. -/

@[simp] theorem State.bump_role (s : State) (f : Fld) (n : Nat) : (s.bump f n).role = s.role := rfl
@[simp] theorem State.bump_memTaps (s : State) (f : Fld) (n : Nat) : (s.bump f n).memTaps = s.memTaps := rfl
@[simp] theorem State.bump_linkTaps (s : State) (f : Fld) (n : Nat) : (s.bump f n).linkTaps = s.linkTaps := rfl
@[simp] theorem State.bump_cyc (s : State) (f : Fld) (n : Nat) : (s.bump f n).cyc = s.cyc := rfl
@[simp] theorem State.bump_secAuth (s : State) (f : Fld) (n : Nat) : (s.bump f n).secAuth = s.secAuth := rfl
@[simp] theorem State.bump_tpLp (s : State) (f : Fld) (n : Nat) : (s.bump f n).tpLp = s.tpLp := rfl
@[simp] theorem State.bump_shadow (s : State) (f : Fld) (n : Nat) : (s.bump f n).shadow = s.shadow := rfl
@[simp] theorem State.bump_holds (s : State) (f : Fld) (n : Nat) : (s.bump f n).holds = s.holds := rfl
@[simp] theorem State.bump_rsps (s : State) (f : Fld) (n : Nat) : (s.bump f n).rsps = s.rsps := rfl
@[simp] theorem State.bump_waiting (s : State) (f : Fld) (n : Nat) : (s.bump f n).waiting = s.waiting := rfl
@[simp] theorem State.bump_dbg (s : State) (f : Fld) (n : Nat) : (s.bump f n).dbg = s.dbg := rfl
@[simp] theorem State.bump_pw (s : State) (f : Fld) (n : Nat) : (s.bump f n).pw = s.pw := rfl
@[simp] theorem State.bump_thr (s : State) (f : Fld) (n : Nat) : (s.bump f n).thr = s.thr := rfl
@[simp] theorem State.bump_pb (s : State) (f : Fld) (n : Nat) : (s.bump f n).pb = s.pb := rfl
@[simp] theorem State.bump_ho (s : State) (f : Fld) (n : Nat) : (s.bump f n).ho = s.ho := rfl
@[simp] theorem State.bump_rings (s : State) (f : Fld) (n : Nat) : (s.bump f n).rings = s.rings := rfl
@[simp] theorem State.bump_queues (s : State) (f : Fld) (n : Nat) : (s.bump f n).queues = s.queues := rfl
@[simp] theorem State.bump_lastQ (s : State) (f : Fld) (n : Nat) : (s.bump f n).lastQ = s.lastQ := rfl
@[simp] theorem State.bump_notices (s : State) (f : Fld) (n : Nat) : (s.bump f n).notices = s.notices := rfl
@[simp] theorem State.bump_tb (s : State) (f : Fld) (n : Nat) : (s.bump f n).tb = s.tb := rfl
@[simp] theorem State.bump_cf (s : State) (f : Fld) (n : Nat) : (s.bump f n).cf = s.cf := rfl
@[simp] theorem State.bump_ck (s : State) (f : Fld) (n : Nat) : (s.bump f n).ck = s.ck := rfl
@[simp] theorem State.bump_xc (s : State) (f : Fld) (n : Nat) : (s.bump f n).xc = s.xc := rfl
@[simp] theorem State.bump_sc (s : State) (f : Fld) (n : Nat) : (s.bump f n).sc = s.sc := rfl
@[simp] theorem State.bump_hl (s : State) (f : Fld) (n : Nat) : (s.bump f n).hl = s.hl := rfl
@[simp] theorem State.bump_ev (s : State) (f : Fld) (n : Nat) : (s.bump f n).ev = s.ev := rfl
@[simp] theorem State.bump_red (s : State) (f : Fld) (n : Nat) : (s.bump f n).red = s.red := rfl
@[simp] theorem State.bump_tr (s : State) (f : Fld) (n : Nat) : (s.bump f n).tr = s.tr := rfl
@[simp] theorem State.bump_dc (s : State) (f : Fld) (n : Nat) : (s.bump f n).dc = s.dc := rfl
@[simp] theorem State.bump_st (s : State) (f : Fld) (n : Nat) : (s.bump f n).st = s.st := rfl
@[simp] theorem State.bump_fa (s : State) (f : Fld) (n : Nat) : (s.bump f n).fa = s.fa := rfl
@[simp] theorem State.bump_host (s : State) (f : Fld) (n : Nat) : (s.bump f n).host = s.host := rfl
@[simp] theorem State.bump_fsp (s : State) (f : Fld) (n : Nat) : (s.bump f n).fsp = s.fsp := rfl
@[simp] theorem State.bump_fs (s : State) (f : Fld) (n : Nat) : (s.bump f n).fs = s.fs := rfl
@[simp] theorem State.bump_fl (s : State) (f : Fld) (n : Nat) : (s.bump f n).fl = s.fl := rfl
@[simp] theorem State.bump_dmem (s : State) (f : Fld) (n : Nat) : (s.bump f n).dmem = s.dmem := rfl
@[simp] theorem State.bump_free (s : State) (f : Fld) (n : Nat) : (s.bump f n).free = s.free := rfl
@[simp] theorem State.bump_pending (s : State) (f : Fld) (n : Nat) : (s.bump f n).pending = s.pending := rfl

/-! `State.incr` changes only regs. -/

@[simp] theorem State.incr_role (s : State) (off n : Nat) : (s.incr off n).role = s.role := rfl
@[simp] theorem State.incr_memTaps (s : State) (off n : Nat) : (s.incr off n).memTaps = s.memTaps := rfl
@[simp] theorem State.incr_linkTaps (s : State) (off n : Nat) : (s.incr off n).linkTaps = s.linkTaps := rfl
@[simp] theorem State.incr_cyc (s : State) (off n : Nat) : (s.incr off n).cyc = s.cyc := rfl
@[simp] theorem State.incr_secAuth (s : State) (off n : Nat) : (s.incr off n).secAuth = s.secAuth := rfl
@[simp] theorem State.incr_tpLp (s : State) (off n : Nat) : (s.incr off n).tpLp = s.tpLp := rfl
@[simp] theorem State.incr_shadow (s : State) (off n : Nat) : (s.incr off n).shadow = s.shadow := rfl
@[simp] theorem State.incr_holds (s : State) (off n : Nat) : (s.incr off n).holds = s.holds := rfl
@[simp] theorem State.incr_rsps (s : State) (off n : Nat) : (s.incr off n).rsps = s.rsps := rfl
@[simp] theorem State.incr_waiting (s : State) (off n : Nat) : (s.incr off n).waiting = s.waiting := rfl
@[simp] theorem State.incr_dbg (s : State) (off n : Nat) : (s.incr off n).dbg = s.dbg := rfl
@[simp] theorem State.incr_pw (s : State) (off n : Nat) : (s.incr off n).pw = s.pw := rfl
@[simp] theorem State.incr_thr (s : State) (off n : Nat) : (s.incr off n).thr = s.thr := rfl
@[simp] theorem State.incr_pb (s : State) (off n : Nat) : (s.incr off n).pb = s.pb := rfl
@[simp] theorem State.incr_ho (s : State) (off n : Nat) : (s.incr off n).ho = s.ho := rfl
@[simp] theorem State.incr_rings (s : State) (off n : Nat) : (s.incr off n).rings = s.rings := rfl
@[simp] theorem State.incr_queues (s : State) (off n : Nat) : (s.incr off n).queues = s.queues := rfl
@[simp] theorem State.incr_lastQ (s : State) (off n : Nat) : (s.incr off n).lastQ = s.lastQ := rfl
@[simp] theorem State.incr_notices (s : State) (off n : Nat) : (s.incr off n).notices = s.notices := rfl
@[simp] theorem State.incr_tb (s : State) (off n : Nat) : (s.incr off n).tb = s.tb := rfl
@[simp] theorem State.incr_cf (s : State) (off n : Nat) : (s.incr off n).cf = s.cf := rfl
@[simp] theorem State.incr_ck (s : State) (off n : Nat) : (s.incr off n).ck = s.ck := rfl
@[simp] theorem State.incr_xc (s : State) (off n : Nat) : (s.incr off n).xc = s.xc := rfl
@[simp] theorem State.incr_sc (s : State) (off n : Nat) : (s.incr off n).sc = s.sc := rfl
@[simp] theorem State.incr_hl (s : State) (off n : Nat) : (s.incr off n).hl = s.hl := rfl
@[simp] theorem State.incr_ev (s : State) (off n : Nat) : (s.incr off n).ev = s.ev := rfl
@[simp] theorem State.incr_red (s : State) (off n : Nat) : (s.incr off n).red = s.red := rfl
@[simp] theorem State.incr_tr (s : State) (off n : Nat) : (s.incr off n).tr = s.tr := rfl
@[simp] theorem State.incr_dc (s : State) (off n : Nat) : (s.incr off n).dc = s.dc := rfl
@[simp] theorem State.incr_st (s : State) (off n : Nat) : (s.incr off n).st = s.st := rfl
@[simp] theorem State.incr_fa (s : State) (off n : Nat) : (s.incr off n).fa = s.fa := rfl
@[simp] theorem State.incr_host (s : State) (off n : Nat) : (s.incr off n).host = s.host := rfl
@[simp] theorem State.incr_fsp (s : State) (off n : Nat) : (s.incr off n).fsp = s.fsp := rfl
@[simp] theorem State.incr_fs (s : State) (off n : Nat) : (s.incr off n).fs = s.fs := rfl
@[simp] theorem State.incr_fl (s : State) (off n : Nat) : (s.incr off n).fl = s.fl := rfl
@[simp] theorem State.incr_dmem (s : State) (off n : Nat) : (s.incr off n).dmem = s.dmem := rfl
@[simp] theorem State.incr_free (s : State) (off n : Nat) : (s.incr off n).free = s.free := rfl
@[simp] theorem State.incr_pending (s : State) (off n : Nat) : (s.incr off n).pending = s.pending := rfl

/-! `State.wr64` changes only regs. -/

@[simp] theorem State.wr64_role (s : State) (lo v : Nat) : (s.wr64 lo v).role = s.role := rfl
@[simp] theorem State.wr64_memTaps (s : State) (lo v : Nat) : (s.wr64 lo v).memTaps = s.memTaps := rfl
@[simp] theorem State.wr64_linkTaps (s : State) (lo v : Nat) : (s.wr64 lo v).linkTaps = s.linkTaps := rfl
@[simp] theorem State.wr64_cyc (s : State) (lo v : Nat) : (s.wr64 lo v).cyc = s.cyc := rfl
@[simp] theorem State.wr64_secAuth (s : State) (lo v : Nat) : (s.wr64 lo v).secAuth = s.secAuth := rfl
@[simp] theorem State.wr64_tpLp (s : State) (lo v : Nat) : (s.wr64 lo v).tpLp = s.tpLp := rfl
@[simp] theorem State.wr64_shadow (s : State) (lo v : Nat) : (s.wr64 lo v).shadow = s.shadow := rfl
@[simp] theorem State.wr64_holds (s : State) (lo v : Nat) : (s.wr64 lo v).holds = s.holds := rfl
@[simp] theorem State.wr64_rsps (s : State) (lo v : Nat) : (s.wr64 lo v).rsps = s.rsps := rfl
@[simp] theorem State.wr64_waiting (s : State) (lo v : Nat) : (s.wr64 lo v).waiting = s.waiting := rfl
@[simp] theorem State.wr64_dbg (s : State) (lo v : Nat) : (s.wr64 lo v).dbg = s.dbg := rfl
@[simp] theorem State.wr64_pw (s : State) (lo v : Nat) : (s.wr64 lo v).pw = s.pw := rfl
@[simp] theorem State.wr64_thr (s : State) (lo v : Nat) : (s.wr64 lo v).thr = s.thr := rfl
@[simp] theorem State.wr64_pb (s : State) (lo v : Nat) : (s.wr64 lo v).pb = s.pb := rfl
@[simp] theorem State.wr64_ho (s : State) (lo v : Nat) : (s.wr64 lo v).ho = s.ho := rfl
@[simp] theorem State.wr64_rings (s : State) (lo v : Nat) : (s.wr64 lo v).rings = s.rings := rfl
@[simp] theorem State.wr64_queues (s : State) (lo v : Nat) : (s.wr64 lo v).queues = s.queues := rfl
@[simp] theorem State.wr64_lastQ (s : State) (lo v : Nat) : (s.wr64 lo v).lastQ = s.lastQ := rfl
@[simp] theorem State.wr64_notices (s : State) (lo v : Nat) : (s.wr64 lo v).notices = s.notices := rfl
@[simp] theorem State.wr64_tb (s : State) (lo v : Nat) : (s.wr64 lo v).tb = s.tb := rfl
@[simp] theorem State.wr64_cf (s : State) (lo v : Nat) : (s.wr64 lo v).cf = s.cf := rfl
@[simp] theorem State.wr64_ck (s : State) (lo v : Nat) : (s.wr64 lo v).ck = s.ck := rfl
@[simp] theorem State.wr64_xc (s : State) (lo v : Nat) : (s.wr64 lo v).xc = s.xc := rfl
@[simp] theorem State.wr64_sc (s : State) (lo v : Nat) : (s.wr64 lo v).sc = s.sc := rfl
@[simp] theorem State.wr64_hl (s : State) (lo v : Nat) : (s.wr64 lo v).hl = s.hl := rfl
@[simp] theorem State.wr64_ev (s : State) (lo v : Nat) : (s.wr64 lo v).ev = s.ev := rfl
@[simp] theorem State.wr64_red (s : State) (lo v : Nat) : (s.wr64 lo v).red = s.red := rfl
@[simp] theorem State.wr64_tr (s : State) (lo v : Nat) : (s.wr64 lo v).tr = s.tr := rfl
@[simp] theorem State.wr64_dc (s : State) (lo v : Nat) : (s.wr64 lo v).dc = s.dc := rfl
@[simp] theorem State.wr64_st (s : State) (lo v : Nat) : (s.wr64 lo v).st = s.st := rfl
@[simp] theorem State.wr64_fa (s : State) (lo v : Nat) : (s.wr64 lo v).fa = s.fa := rfl
@[simp] theorem State.wr64_host (s : State) (lo v : Nat) : (s.wr64 lo v).host = s.host := rfl
@[simp] theorem State.wr64_fsp (s : State) (lo v : Nat) : (s.wr64 lo v).fsp = s.fsp := rfl
@[simp] theorem State.wr64_fs (s : State) (lo v : Nat) : (s.wr64 lo v).fs = s.fs := rfl
@[simp] theorem State.wr64_fl (s : State) (lo v : Nat) : (s.wr64 lo v).fl = s.fl := rfl
@[simp] theorem State.wr64_dmem (s : State) (lo v : Nat) : (s.wr64 lo v).dmem = s.dmem := rfl
@[simp] theorem State.wr64_free (s : State) (lo v : Nat) : (s.wr64 lo v).free = s.free := rfl
@[simp] theorem State.wr64_pending (s : State) (lo v : Nat) : (s.wr64 lo v).pending = s.pending := rfl

/-! `State.incr64` changes only regs. -/

@[simp] theorem State.incr64_role (s : State) (lo n : Nat) : (s.incr64 lo n).role = s.role := rfl
@[simp] theorem State.incr64_memTaps (s : State) (lo n : Nat) : (s.incr64 lo n).memTaps = s.memTaps := rfl
@[simp] theorem State.incr64_linkTaps (s : State) (lo n : Nat) : (s.incr64 lo n).linkTaps = s.linkTaps := rfl
@[simp] theorem State.incr64_cyc (s : State) (lo n : Nat) : (s.incr64 lo n).cyc = s.cyc := rfl
@[simp] theorem State.incr64_secAuth (s : State) (lo n : Nat) : (s.incr64 lo n).secAuth = s.secAuth := rfl
@[simp] theorem State.incr64_tpLp (s : State) (lo n : Nat) : (s.incr64 lo n).tpLp = s.tpLp := rfl
@[simp] theorem State.incr64_shadow (s : State) (lo n : Nat) : (s.incr64 lo n).shadow = s.shadow := rfl
@[simp] theorem State.incr64_holds (s : State) (lo n : Nat) : (s.incr64 lo n).holds = s.holds := rfl
@[simp] theorem State.incr64_rsps (s : State) (lo n : Nat) : (s.incr64 lo n).rsps = s.rsps := rfl
@[simp] theorem State.incr64_waiting (s : State) (lo n : Nat) : (s.incr64 lo n).waiting = s.waiting := rfl
@[simp] theorem State.incr64_dbg (s : State) (lo n : Nat) : (s.incr64 lo n).dbg = s.dbg := rfl
@[simp] theorem State.incr64_pw (s : State) (lo n : Nat) : (s.incr64 lo n).pw = s.pw := rfl
@[simp] theorem State.incr64_thr (s : State) (lo n : Nat) : (s.incr64 lo n).thr = s.thr := rfl
@[simp] theorem State.incr64_pb (s : State) (lo n : Nat) : (s.incr64 lo n).pb = s.pb := rfl
@[simp] theorem State.incr64_ho (s : State) (lo n : Nat) : (s.incr64 lo n).ho = s.ho := rfl
@[simp] theorem State.incr64_rings (s : State) (lo n : Nat) : (s.incr64 lo n).rings = s.rings := rfl
@[simp] theorem State.incr64_queues (s : State) (lo n : Nat) : (s.incr64 lo n).queues = s.queues := rfl
@[simp] theorem State.incr64_lastQ (s : State) (lo n : Nat) : (s.incr64 lo n).lastQ = s.lastQ := rfl
@[simp] theorem State.incr64_notices (s : State) (lo n : Nat) : (s.incr64 lo n).notices = s.notices := rfl
@[simp] theorem State.incr64_tb (s : State) (lo n : Nat) : (s.incr64 lo n).tb = s.tb := rfl
@[simp] theorem State.incr64_cf (s : State) (lo n : Nat) : (s.incr64 lo n).cf = s.cf := rfl
@[simp] theorem State.incr64_ck (s : State) (lo n : Nat) : (s.incr64 lo n).ck = s.ck := rfl
@[simp] theorem State.incr64_xc (s : State) (lo n : Nat) : (s.incr64 lo n).xc = s.xc := rfl
@[simp] theorem State.incr64_sc (s : State) (lo n : Nat) : (s.incr64 lo n).sc = s.sc := rfl
@[simp] theorem State.incr64_hl (s : State) (lo n : Nat) : (s.incr64 lo n).hl = s.hl := rfl
@[simp] theorem State.incr64_ev (s : State) (lo n : Nat) : (s.incr64 lo n).ev = s.ev := rfl
@[simp] theorem State.incr64_red (s : State) (lo n : Nat) : (s.incr64 lo n).red = s.red := rfl
@[simp] theorem State.incr64_tr (s : State) (lo n : Nat) : (s.incr64 lo n).tr = s.tr := rfl
@[simp] theorem State.incr64_dc (s : State) (lo n : Nat) : (s.incr64 lo n).dc = s.dc := rfl
@[simp] theorem State.incr64_st (s : State) (lo n : Nat) : (s.incr64 lo n).st = s.st := rfl
@[simp] theorem State.incr64_fa (s : State) (lo n : Nat) : (s.incr64 lo n).fa = s.fa := rfl
@[simp] theorem State.incr64_host (s : State) (lo n : Nat) : (s.incr64 lo n).host = s.host := rfl
@[simp] theorem State.incr64_fsp (s : State) (lo n : Nat) : (s.incr64 lo n).fsp = s.fsp := rfl
@[simp] theorem State.incr64_fs (s : State) (lo n : Nat) : (s.incr64 lo n).fs = s.fs := rfl
@[simp] theorem State.incr64_fl (s : State) (lo n : Nat) : (s.incr64 lo n).fl = s.fl := rfl
@[simp] theorem State.incr64_dmem (s : State) (lo n : Nat) : (s.incr64 lo n).dmem = s.dmem := rfl
@[simp] theorem State.incr64_free (s : State) (lo n : Nat) : (s.incr64 lo n).free = s.free := rfl
@[simp] theorem State.incr64_pending (s : State) (lo n : Nat) : (s.incr64 lo n).pending = s.pending := rfl

/-! `State.draw` changes only free. -/

@[simp] theorem State.draw_role (s : State) : (s.draw).role = s.role := rfl
@[simp] theorem State.draw_memTaps (s : State) : (s.draw).memTaps = s.memTaps := rfl
@[simp] theorem State.draw_linkTaps (s : State) : (s.draw).linkTaps = s.linkTaps := rfl
@[simp] theorem State.draw_cyc (s : State) : (s.draw).cyc = s.cyc := rfl
@[simp] theorem State.draw_secAuth (s : State) : (s.draw).secAuth = s.secAuth := rfl
@[simp] theorem State.draw_tpLp (s : State) : (s.draw).tpLp = s.tpLp := rfl
@[simp] theorem State.draw_regs (s : State) : (s.draw).regs = s.regs := rfl
@[simp] theorem State.draw_shadow (s : State) : (s.draw).shadow = s.shadow := rfl
@[simp] theorem State.draw_holds (s : State) : (s.draw).holds = s.holds := rfl
@[simp] theorem State.draw_rsps (s : State) : (s.draw).rsps = s.rsps := rfl
@[simp] theorem State.draw_waiting (s : State) : (s.draw).waiting = s.waiting := rfl
@[simp] theorem State.draw_dbg (s : State) : (s.draw).dbg = s.dbg := rfl
@[simp] theorem State.draw_pw (s : State) : (s.draw).pw = s.pw := rfl
@[simp] theorem State.draw_thr (s : State) : (s.draw).thr = s.thr := rfl
@[simp] theorem State.draw_pb (s : State) : (s.draw).pb = s.pb := rfl
@[simp] theorem State.draw_ho (s : State) : (s.draw).ho = s.ho := rfl
@[simp] theorem State.draw_rings (s : State) : (s.draw).rings = s.rings := rfl
@[simp] theorem State.draw_queues (s : State) : (s.draw).queues = s.queues := rfl
@[simp] theorem State.draw_lastQ (s : State) : (s.draw).lastQ = s.lastQ := rfl
@[simp] theorem State.draw_notices (s : State) : (s.draw).notices = s.notices := rfl
@[simp] theorem State.draw_tb (s : State) : (s.draw).tb = s.tb := rfl
@[simp] theorem State.draw_cf (s : State) : (s.draw).cf = s.cf := rfl
@[simp] theorem State.draw_ck (s : State) : (s.draw).ck = s.ck := rfl
@[simp] theorem State.draw_xc (s : State) : (s.draw).xc = s.xc := rfl
@[simp] theorem State.draw_sc (s : State) : (s.draw).sc = s.sc := rfl
@[simp] theorem State.draw_hl (s : State) : (s.draw).hl = s.hl := rfl
@[simp] theorem State.draw_ev (s : State) : (s.draw).ev = s.ev := rfl
@[simp] theorem State.draw_red (s : State) : (s.draw).red = s.red := rfl
@[simp] theorem State.draw_tr (s : State) : (s.draw).tr = s.tr := rfl
@[simp] theorem State.draw_dc (s : State) : (s.draw).dc = s.dc := rfl
@[simp] theorem State.draw_st (s : State) : (s.draw).st = s.st := rfl
@[simp] theorem State.draw_fa (s : State) : (s.draw).fa = s.fa := rfl
@[simp] theorem State.draw_host (s : State) : (s.draw).host = s.host := rfl
@[simp] theorem State.draw_fsp (s : State) : (s.draw).fsp = s.fsp := rfl
@[simp] theorem State.draw_fs (s : State) : (s.draw).fs = s.fs := rfl
@[simp] theorem State.draw_fl (s : State) : (s.draw).fl = s.fl := rfl
@[simp] theorem State.draw_dmem (s : State) : (s.draw).dmem = s.dmem := rfl
@[simp] theorem State.draw_pending (s : State) : (s.draw).pending = s.pending := rfl
@[simp] theorem State.draw_rd (s : State) (o : Nat) : (s.draw).rd o = s.rd o := rfl
@[simp] theorem State.draw_rd64 (s : State) (o : Nat) : (s.draw).rd64 o = s.rd64 o := rfl
@[simp] theorem State.draw_get (s : State) (g : Fld) : (s.draw).get g = s.get g := rfl

/-! `State.passTo` changes only cyc. -/

@[simp] theorem State.passTo_role (s : State) (c : Nat) : (s.passTo c).role = s.role := by unfold State.passTo; split <;> rfl
@[simp] theorem State.passTo_memTaps (s : State) (c : Nat) : (s.passTo c).memTaps = s.memTaps := by unfold State.passTo; split <;> rfl
@[simp] theorem State.passTo_linkTaps (s : State) (c : Nat) : (s.passTo c).linkTaps = s.linkTaps := by unfold State.passTo; split <;> rfl
@[simp] theorem State.passTo_secAuth (s : State) (c : Nat) : (s.passTo c).secAuth = s.secAuth := by unfold State.passTo; split <;> rfl
@[simp] theorem State.passTo_tpLp (s : State) (c : Nat) : (s.passTo c).tpLp = s.tpLp := by unfold State.passTo; split <;> rfl
@[simp] theorem State.passTo_regs (s : State) (c : Nat) : (s.passTo c).regs = s.regs := by unfold State.passTo; split <;> rfl
@[simp] theorem State.passTo_shadow (s : State) (c : Nat) : (s.passTo c).shadow = s.shadow := by unfold State.passTo; split <;> rfl
@[simp] theorem State.passTo_holds (s : State) (c : Nat) : (s.passTo c).holds = s.holds := by unfold State.passTo; split <;> rfl
@[simp] theorem State.passTo_rsps (s : State) (c : Nat) : (s.passTo c).rsps = s.rsps := by unfold State.passTo; split <;> rfl
@[simp] theorem State.passTo_waiting (s : State) (c : Nat) : (s.passTo c).waiting = s.waiting := by unfold State.passTo; split <;> rfl
@[simp] theorem State.passTo_dbg (s : State) (c : Nat) : (s.passTo c).dbg = s.dbg := by unfold State.passTo; split <;> rfl
@[simp] theorem State.passTo_pw (s : State) (c : Nat) : (s.passTo c).pw = s.pw := by unfold State.passTo; split <;> rfl
@[simp] theorem State.passTo_thr (s : State) (c : Nat) : (s.passTo c).thr = s.thr := by unfold State.passTo; split <;> rfl
@[simp] theorem State.passTo_pb (s : State) (c : Nat) : (s.passTo c).pb = s.pb := by unfold State.passTo; split <;> rfl
@[simp] theorem State.passTo_ho (s : State) (c : Nat) : (s.passTo c).ho = s.ho := by unfold State.passTo; split <;> rfl
@[simp] theorem State.passTo_rings (s : State) (c : Nat) : (s.passTo c).rings = s.rings := by unfold State.passTo; split <;> rfl
@[simp] theorem State.passTo_queues (s : State) (c : Nat) : (s.passTo c).queues = s.queues := by unfold State.passTo; split <;> rfl
@[simp] theorem State.passTo_lastQ (s : State) (c : Nat) : (s.passTo c).lastQ = s.lastQ := by unfold State.passTo; split <;> rfl
@[simp] theorem State.passTo_notices (s : State) (c : Nat) : (s.passTo c).notices = s.notices := by unfold State.passTo; split <;> rfl
@[simp] theorem State.passTo_tb (s : State) (c : Nat) : (s.passTo c).tb = s.tb := by unfold State.passTo; split <;> rfl
@[simp] theorem State.passTo_cf (s : State) (c : Nat) : (s.passTo c).cf = s.cf := by unfold State.passTo; split <;> rfl
@[simp] theorem State.passTo_ck (s : State) (c : Nat) : (s.passTo c).ck = s.ck := by unfold State.passTo; split <;> rfl
@[simp] theorem State.passTo_xc (s : State) (c : Nat) : (s.passTo c).xc = s.xc := by unfold State.passTo; split <;> rfl
@[simp] theorem State.passTo_sc (s : State) (c : Nat) : (s.passTo c).sc = s.sc := by unfold State.passTo; split <;> rfl
@[simp] theorem State.passTo_hl (s : State) (c : Nat) : (s.passTo c).hl = s.hl := by unfold State.passTo; split <;> rfl
@[simp] theorem State.passTo_ev (s : State) (c : Nat) : (s.passTo c).ev = s.ev := by unfold State.passTo; split <;> rfl
@[simp] theorem State.passTo_red (s : State) (c : Nat) : (s.passTo c).red = s.red := by unfold State.passTo; split <;> rfl
@[simp] theorem State.passTo_tr (s : State) (c : Nat) : (s.passTo c).tr = s.tr := by unfold State.passTo; split <;> rfl
@[simp] theorem State.passTo_dc (s : State) (c : Nat) : (s.passTo c).dc = s.dc := by unfold State.passTo; split <;> rfl
@[simp] theorem State.passTo_st (s : State) (c : Nat) : (s.passTo c).st = s.st := by unfold State.passTo; split <;> rfl
@[simp] theorem State.passTo_fa (s : State) (c : Nat) : (s.passTo c).fa = s.fa := by unfold State.passTo; split <;> rfl
@[simp] theorem State.passTo_host (s : State) (c : Nat) : (s.passTo c).host = s.host := by unfold State.passTo; split <;> rfl
@[simp] theorem State.passTo_fsp (s : State) (c : Nat) : (s.passTo c).fsp = s.fsp := by unfold State.passTo; split <;> rfl
@[simp] theorem State.passTo_fs (s : State) (c : Nat) : (s.passTo c).fs = s.fs := by unfold State.passTo; split <;> rfl
@[simp] theorem State.passTo_fl (s : State) (c : Nat) : (s.passTo c).fl = s.fl := by unfold State.passTo; split <;> rfl
@[simp] theorem State.passTo_dmem (s : State) (c : Nat) : (s.passTo c).dmem = s.dmem := by unfold State.passTo; split <;> rfl
@[simp] theorem State.passTo_free (s : State) (c : Nat) : (s.passTo c).free = s.free := by unfold State.passTo; split <;> rfl
@[simp] theorem State.passTo_pending (s : State) (c : Nat) : (s.passTo c).pending = s.pending := by unfold State.passTo; split <;> rfl
@[simp] theorem State.passTo_rd (s : State) (c : Nat) (o : Nat) : (s.passTo c).rd o = s.rd o := by unfold State.rd; rw [State.passTo_regs]
@[simp] theorem State.passTo_rd64 (s : State) (c : Nat) (o : Nat) : (s.passTo c).rd64 o = s.rd64 o := by unfold State.rd64; rw [State.passTo_rd, State.passTo_rd]
@[simp] theorem State.passTo_get (s : State) (c : Nat) (g : Fld) : (s.passTo c).get g = s.get g := by unfold State.get; rw [State.passTo_rd]

/-! `State.passToAon` changes only cyc. -/

@[simp] theorem State.passToAon_role (s : State) (c : Nat) : (s.passToAon c).role = s.role := State.passTo_role s _
@[simp] theorem State.passToAon_memTaps (s : State) (c : Nat) : (s.passToAon c).memTaps = s.memTaps := State.passTo_memTaps s _
@[simp] theorem State.passToAon_linkTaps (s : State) (c : Nat) : (s.passToAon c).linkTaps = s.linkTaps := State.passTo_linkTaps s _
@[simp] theorem State.passToAon_secAuth (s : State) (c : Nat) : (s.passToAon c).secAuth = s.secAuth := State.passTo_secAuth s _
@[simp] theorem State.passToAon_tpLp (s : State) (c : Nat) : (s.passToAon c).tpLp = s.tpLp := State.passTo_tpLp s _
@[simp] theorem State.passToAon_regs (s : State) (c : Nat) : (s.passToAon c).regs = s.regs := State.passTo_regs s _
@[simp] theorem State.passToAon_shadow (s : State) (c : Nat) : (s.passToAon c).shadow = s.shadow := State.passTo_shadow s _
@[simp] theorem State.passToAon_holds (s : State) (c : Nat) : (s.passToAon c).holds = s.holds := State.passTo_holds s _
@[simp] theorem State.passToAon_rsps (s : State) (c : Nat) : (s.passToAon c).rsps = s.rsps := State.passTo_rsps s _
@[simp] theorem State.passToAon_waiting (s : State) (c : Nat) : (s.passToAon c).waiting = s.waiting := State.passTo_waiting s _
@[simp] theorem State.passToAon_dbg (s : State) (c : Nat) : (s.passToAon c).dbg = s.dbg := State.passTo_dbg s _
@[simp] theorem State.passToAon_pw (s : State) (c : Nat) : (s.passToAon c).pw = s.pw := State.passTo_pw s _
@[simp] theorem State.passToAon_thr (s : State) (c : Nat) : (s.passToAon c).thr = s.thr := State.passTo_thr s _
@[simp] theorem State.passToAon_pb (s : State) (c : Nat) : (s.passToAon c).pb = s.pb := State.passTo_pb s _
@[simp] theorem State.passToAon_ho (s : State) (c : Nat) : (s.passToAon c).ho = s.ho := State.passTo_ho s _
@[simp] theorem State.passToAon_rings (s : State) (c : Nat) : (s.passToAon c).rings = s.rings := State.passTo_rings s _
@[simp] theorem State.passToAon_queues (s : State) (c : Nat) : (s.passToAon c).queues = s.queues := State.passTo_queues s _
@[simp] theorem State.passToAon_lastQ (s : State) (c : Nat) : (s.passToAon c).lastQ = s.lastQ := State.passTo_lastQ s _
@[simp] theorem State.passToAon_notices (s : State) (c : Nat) : (s.passToAon c).notices = s.notices := State.passTo_notices s _
@[simp] theorem State.passToAon_tb (s : State) (c : Nat) : (s.passToAon c).tb = s.tb := State.passTo_tb s _
@[simp] theorem State.passToAon_cf (s : State) (c : Nat) : (s.passToAon c).cf = s.cf := State.passTo_cf s _
@[simp] theorem State.passToAon_ck (s : State) (c : Nat) : (s.passToAon c).ck = s.ck := State.passTo_ck s _
@[simp] theorem State.passToAon_xc (s : State) (c : Nat) : (s.passToAon c).xc = s.xc := State.passTo_xc s _
@[simp] theorem State.passToAon_sc (s : State) (c : Nat) : (s.passToAon c).sc = s.sc := State.passTo_sc s _
@[simp] theorem State.passToAon_hl (s : State) (c : Nat) : (s.passToAon c).hl = s.hl := State.passTo_hl s _
@[simp] theorem State.passToAon_ev (s : State) (c : Nat) : (s.passToAon c).ev = s.ev := State.passTo_ev s _
@[simp] theorem State.passToAon_red (s : State) (c : Nat) : (s.passToAon c).red = s.red := State.passTo_red s _
@[simp] theorem State.passToAon_tr (s : State) (c : Nat) : (s.passToAon c).tr = s.tr := State.passTo_tr s _
@[simp] theorem State.passToAon_dc (s : State) (c : Nat) : (s.passToAon c).dc = s.dc := State.passTo_dc s _
@[simp] theorem State.passToAon_st (s : State) (c : Nat) : (s.passToAon c).st = s.st := State.passTo_st s _
@[simp] theorem State.passToAon_fa (s : State) (c : Nat) : (s.passToAon c).fa = s.fa := State.passTo_fa s _
@[simp] theorem State.passToAon_host (s : State) (c : Nat) : (s.passToAon c).host = s.host := State.passTo_host s _
@[simp] theorem State.passToAon_fsp (s : State) (c : Nat) : (s.passToAon c).fsp = s.fsp := State.passTo_fsp s _
@[simp] theorem State.passToAon_fs (s : State) (c : Nat) : (s.passToAon c).fs = s.fs := State.passTo_fs s _
@[simp] theorem State.passToAon_fl (s : State) (c : Nat) : (s.passToAon c).fl = s.fl := State.passTo_fl s _
@[simp] theorem State.passToAon_dmem (s : State) (c : Nat) : (s.passToAon c).dmem = s.dmem := State.passTo_dmem s _
@[simp] theorem State.passToAon_free (s : State) (c : Nat) : (s.passToAon c).free = s.free := State.passTo_free s _
@[simp] theorem State.passToAon_pending (s : State) (c : Nat) : (s.passToAon c).pending = s.pending := State.passTo_pending s _
@[simp] theorem State.passToAon_rd (s : State) (c : Nat) (o : Nat) : (s.passToAon c).rd o = s.rd o := by unfold State.rd; rw [State.passToAon_regs]
@[simp] theorem State.passToAon_rd64 (s : State) (c : Nat) (o : Nat) : (s.passToAon c).rd64 o = s.rd64 o := by unfold State.rd64; rw [State.passToAon_rd, State.passToAon_rd]
@[simp] theorem State.passToAon_get (s : State) (c : Nat) (g : Fld) : (s.passToAon c).get g = s.get g := by unfold State.get; rw [State.passToAon_rd]

/-! `State.passBefore` changes only cyc. -/

@[simp] theorem State.passBefore_role (s : State) (c : Nat) : (s.passBefore c).role = s.role := State.passTo_role s _
@[simp] theorem State.passBefore_memTaps (s : State) (c : Nat) : (s.passBefore c).memTaps = s.memTaps := State.passTo_memTaps s _
@[simp] theorem State.passBefore_linkTaps (s : State) (c : Nat) : (s.passBefore c).linkTaps = s.linkTaps := State.passTo_linkTaps s _
@[simp] theorem State.passBefore_secAuth (s : State) (c : Nat) : (s.passBefore c).secAuth = s.secAuth := State.passTo_secAuth s _
@[simp] theorem State.passBefore_tpLp (s : State) (c : Nat) : (s.passBefore c).tpLp = s.tpLp := State.passTo_tpLp s _
@[simp] theorem State.passBefore_regs (s : State) (c : Nat) : (s.passBefore c).regs = s.regs := State.passTo_regs s _
@[simp] theorem State.passBefore_shadow (s : State) (c : Nat) : (s.passBefore c).shadow = s.shadow := State.passTo_shadow s _
@[simp] theorem State.passBefore_holds (s : State) (c : Nat) : (s.passBefore c).holds = s.holds := State.passTo_holds s _
@[simp] theorem State.passBefore_rsps (s : State) (c : Nat) : (s.passBefore c).rsps = s.rsps := State.passTo_rsps s _
@[simp] theorem State.passBefore_waiting (s : State) (c : Nat) : (s.passBefore c).waiting = s.waiting := State.passTo_waiting s _
@[simp] theorem State.passBefore_dbg (s : State) (c : Nat) : (s.passBefore c).dbg = s.dbg := State.passTo_dbg s _
@[simp] theorem State.passBefore_pw (s : State) (c : Nat) : (s.passBefore c).pw = s.pw := State.passTo_pw s _
@[simp] theorem State.passBefore_thr (s : State) (c : Nat) : (s.passBefore c).thr = s.thr := State.passTo_thr s _
@[simp] theorem State.passBefore_pb (s : State) (c : Nat) : (s.passBefore c).pb = s.pb := State.passTo_pb s _
@[simp] theorem State.passBefore_ho (s : State) (c : Nat) : (s.passBefore c).ho = s.ho := State.passTo_ho s _
@[simp] theorem State.passBefore_rings (s : State) (c : Nat) : (s.passBefore c).rings = s.rings := State.passTo_rings s _
@[simp] theorem State.passBefore_queues (s : State) (c : Nat) : (s.passBefore c).queues = s.queues := State.passTo_queues s _
@[simp] theorem State.passBefore_lastQ (s : State) (c : Nat) : (s.passBefore c).lastQ = s.lastQ := State.passTo_lastQ s _
@[simp] theorem State.passBefore_notices (s : State) (c : Nat) : (s.passBefore c).notices = s.notices := State.passTo_notices s _
@[simp] theorem State.passBefore_tb (s : State) (c : Nat) : (s.passBefore c).tb = s.tb := State.passTo_tb s _
@[simp] theorem State.passBefore_cf (s : State) (c : Nat) : (s.passBefore c).cf = s.cf := State.passTo_cf s _
@[simp] theorem State.passBefore_ck (s : State) (c : Nat) : (s.passBefore c).ck = s.ck := State.passTo_ck s _
@[simp] theorem State.passBefore_xc (s : State) (c : Nat) : (s.passBefore c).xc = s.xc := State.passTo_xc s _
@[simp] theorem State.passBefore_sc (s : State) (c : Nat) : (s.passBefore c).sc = s.sc := State.passTo_sc s _
@[simp] theorem State.passBefore_hl (s : State) (c : Nat) : (s.passBefore c).hl = s.hl := State.passTo_hl s _
@[simp] theorem State.passBefore_ev (s : State) (c : Nat) : (s.passBefore c).ev = s.ev := State.passTo_ev s _
@[simp] theorem State.passBefore_red (s : State) (c : Nat) : (s.passBefore c).red = s.red := State.passTo_red s _
@[simp] theorem State.passBefore_tr (s : State) (c : Nat) : (s.passBefore c).tr = s.tr := State.passTo_tr s _
@[simp] theorem State.passBefore_dc (s : State) (c : Nat) : (s.passBefore c).dc = s.dc := State.passTo_dc s _
@[simp] theorem State.passBefore_st (s : State) (c : Nat) : (s.passBefore c).st = s.st := State.passTo_st s _
@[simp] theorem State.passBefore_fa (s : State) (c : Nat) : (s.passBefore c).fa = s.fa := State.passTo_fa s _
@[simp] theorem State.passBefore_host (s : State) (c : Nat) : (s.passBefore c).host = s.host := State.passTo_host s _
@[simp] theorem State.passBefore_fsp (s : State) (c : Nat) : (s.passBefore c).fsp = s.fsp := State.passTo_fsp s _
@[simp] theorem State.passBefore_fs (s : State) (c : Nat) : (s.passBefore c).fs = s.fs := State.passTo_fs s _
@[simp] theorem State.passBefore_fl (s : State) (c : Nat) : (s.passBefore c).fl = s.fl := State.passTo_fl s _
@[simp] theorem State.passBefore_dmem (s : State) (c : Nat) : (s.passBefore c).dmem = s.dmem := State.passTo_dmem s _
@[simp] theorem State.passBefore_free (s : State) (c : Nat) : (s.passBefore c).free = s.free := State.passTo_free s _
@[simp] theorem State.passBefore_pending (s : State) (c : Nat) : (s.passBefore c).pending = s.pending := State.passTo_pending s _
@[simp] theorem State.passBefore_rd (s : State) (c : Nat) (o : Nat) : (s.passBefore c).rd o = s.rd o := by unfold State.rd; rw [State.passBefore_regs]
@[simp] theorem State.passBefore_rd64 (s : State) (c : Nat) (o : Nat) : (s.passBefore c).rd64 o = s.rd64 o := by unfold State.rd64; rw [State.passBefore_rd, State.passBefore_rd]
@[simp] theorem State.passBefore_get (s : State) (c : Nat) (g : Fld) : (s.passBefore c).get g = s.get g := by unfold State.get; rw [State.passBefore_rd]

/-! `State.aonEdge` changes only cyc. -/

@[simp] theorem State.aonEdge_role (s : State) : (s.aonEdge).role = s.role := by unfold State.aonEdge; split <;> first | rfl | simp
@[simp] theorem State.aonEdge_memTaps (s : State) : (s.aonEdge).memTaps = s.memTaps := by unfold State.aonEdge; split <;> first | rfl | simp
@[simp] theorem State.aonEdge_linkTaps (s : State) : (s.aonEdge).linkTaps = s.linkTaps := by unfold State.aonEdge; split <;> first | rfl | simp
@[simp] theorem State.aonEdge_secAuth (s : State) : (s.aonEdge).secAuth = s.secAuth := by unfold State.aonEdge; split <;> first | rfl | simp
@[simp] theorem State.aonEdge_tpLp (s : State) : (s.aonEdge).tpLp = s.tpLp := by unfold State.aonEdge; split <;> first | rfl | simp
@[simp] theorem State.aonEdge_regs (s : State) : (s.aonEdge).regs = s.regs := by unfold State.aonEdge; split <;> first | rfl | simp
@[simp] theorem State.aonEdge_shadow (s : State) : (s.aonEdge).shadow = s.shadow := by unfold State.aonEdge; split <;> first | rfl | simp
@[simp] theorem State.aonEdge_holds (s : State) : (s.aonEdge).holds = s.holds := by unfold State.aonEdge; split <;> first | rfl | simp
@[simp] theorem State.aonEdge_rsps (s : State) : (s.aonEdge).rsps = s.rsps := by unfold State.aonEdge; split <;> first | rfl | simp
@[simp] theorem State.aonEdge_waiting (s : State) : (s.aonEdge).waiting = s.waiting := by unfold State.aonEdge; split <;> first | rfl | simp
@[simp] theorem State.aonEdge_dbg (s : State) : (s.aonEdge).dbg = s.dbg := by unfold State.aonEdge; split <;> first | rfl | simp
@[simp] theorem State.aonEdge_pw (s : State) : (s.aonEdge).pw = s.pw := by unfold State.aonEdge; split <;> first | rfl | simp
@[simp] theorem State.aonEdge_thr (s : State) : (s.aonEdge).thr = s.thr := by unfold State.aonEdge; split <;> first | rfl | simp
@[simp] theorem State.aonEdge_pb (s : State) : (s.aonEdge).pb = s.pb := by unfold State.aonEdge; split <;> first | rfl | simp
@[simp] theorem State.aonEdge_ho (s : State) : (s.aonEdge).ho = s.ho := by unfold State.aonEdge; split <;> first | rfl | simp
@[simp] theorem State.aonEdge_rings (s : State) : (s.aonEdge).rings = s.rings := by unfold State.aonEdge; split <;> first | rfl | simp
@[simp] theorem State.aonEdge_queues (s : State) : (s.aonEdge).queues = s.queues := by unfold State.aonEdge; split <;> first | rfl | simp
@[simp] theorem State.aonEdge_lastQ (s : State) : (s.aonEdge).lastQ = s.lastQ := by unfold State.aonEdge; split <;> first | rfl | simp
@[simp] theorem State.aonEdge_notices (s : State) : (s.aonEdge).notices = s.notices := by unfold State.aonEdge; split <;> first | rfl | simp
@[simp] theorem State.aonEdge_tb (s : State) : (s.aonEdge).tb = s.tb := by unfold State.aonEdge; split <;> first | rfl | simp
@[simp] theorem State.aonEdge_cf (s : State) : (s.aonEdge).cf = s.cf := by unfold State.aonEdge; split <;> first | rfl | simp
@[simp] theorem State.aonEdge_ck (s : State) : (s.aonEdge).ck = s.ck := by unfold State.aonEdge; split <;> first | rfl | simp
@[simp] theorem State.aonEdge_xc (s : State) : (s.aonEdge).xc = s.xc := by unfold State.aonEdge; split <;> first | rfl | simp
@[simp] theorem State.aonEdge_sc (s : State) : (s.aonEdge).sc = s.sc := by unfold State.aonEdge; split <;> first | rfl | simp
@[simp] theorem State.aonEdge_hl (s : State) : (s.aonEdge).hl = s.hl := by unfold State.aonEdge; split <;> first | rfl | simp
@[simp] theorem State.aonEdge_ev (s : State) : (s.aonEdge).ev = s.ev := by unfold State.aonEdge; split <;> first | rfl | simp
@[simp] theorem State.aonEdge_red (s : State) : (s.aonEdge).red = s.red := by unfold State.aonEdge; split <;> first | rfl | simp
@[simp] theorem State.aonEdge_tr (s : State) : (s.aonEdge).tr = s.tr := by unfold State.aonEdge; split <;> first | rfl | simp
@[simp] theorem State.aonEdge_dc (s : State) : (s.aonEdge).dc = s.dc := by unfold State.aonEdge; split <;> first | rfl | simp
@[simp] theorem State.aonEdge_st (s : State) : (s.aonEdge).st = s.st := by unfold State.aonEdge; split <;> first | rfl | simp
@[simp] theorem State.aonEdge_fa (s : State) : (s.aonEdge).fa = s.fa := by unfold State.aonEdge; split <;> first | rfl | simp
@[simp] theorem State.aonEdge_host (s : State) : (s.aonEdge).host = s.host := by unfold State.aonEdge; split <;> first | rfl | simp
@[simp] theorem State.aonEdge_fsp (s : State) : (s.aonEdge).fsp = s.fsp := by unfold State.aonEdge; split <;> first | rfl | simp
@[simp] theorem State.aonEdge_fs (s : State) : (s.aonEdge).fs = s.fs := by unfold State.aonEdge; split <;> first | rfl | simp
@[simp] theorem State.aonEdge_fl (s : State) : (s.aonEdge).fl = s.fl := by unfold State.aonEdge; split <;> first | rfl | simp
@[simp] theorem State.aonEdge_dmem (s : State) : (s.aonEdge).dmem = s.dmem := by unfold State.aonEdge; split <;> first | rfl | simp
@[simp] theorem State.aonEdge_free (s : State) : (s.aonEdge).free = s.free := by unfold State.aonEdge; split <;> first | rfl | simp
@[simp] theorem State.aonEdge_pending (s : State) : (s.aonEdge).pending = s.pending := by unfold State.aonEdge; split <;> first | rfl | simp
@[simp] theorem State.aonEdge_rd (s : State) (o : Nat) : (s.aonEdge).rd o = s.rd o := by unfold State.rd; rw [State.aonEdge_regs]
@[simp] theorem State.aonEdge_rd64 (s : State) (o : Nat) : (s.aonEdge).rd64 o = s.rd64 o := by unfold State.rd64; rw [State.aonEdge_rd, State.aonEdge_rd]
@[simp] theorem State.aonEdge_get (s : State) (g : Fld) : (s.aonEdge).get g = s.get g := by unfold State.get; rw [State.aonEdge_rd]

/-! `State.passToFleet` changes only cyc, pw. -/

@[simp] theorem State.passToFleet_role (s : State) (c : Nat) : (s.passToFleet c).role = s.role := by obtain ⟨_, _, h⟩ := State.passToFleet_shape s c; rw [h]
@[simp] theorem State.passToFleet_memTaps (s : State) (c : Nat) : (s.passToFleet c).memTaps = s.memTaps := by obtain ⟨_, _, h⟩ := State.passToFleet_shape s c; rw [h]
@[simp] theorem State.passToFleet_linkTaps (s : State) (c : Nat) : (s.passToFleet c).linkTaps = s.linkTaps := by obtain ⟨_, _, h⟩ := State.passToFleet_shape s c; rw [h]
@[simp] theorem State.passToFleet_secAuth (s : State) (c : Nat) : (s.passToFleet c).secAuth = s.secAuth := by obtain ⟨_, _, h⟩ := State.passToFleet_shape s c; rw [h]
@[simp] theorem State.passToFleet_tpLp (s : State) (c : Nat) : (s.passToFleet c).tpLp = s.tpLp := by obtain ⟨_, _, h⟩ := State.passToFleet_shape s c; rw [h]
@[simp] theorem State.passToFleet_regs (s : State) (c : Nat) : (s.passToFleet c).regs = s.regs := by obtain ⟨_, _, h⟩ := State.passToFleet_shape s c; rw [h]
@[simp] theorem State.passToFleet_shadow (s : State) (c : Nat) : (s.passToFleet c).shadow = s.shadow := by obtain ⟨_, _, h⟩ := State.passToFleet_shape s c; rw [h]
@[simp] theorem State.passToFleet_holds (s : State) (c : Nat) : (s.passToFleet c).holds = s.holds := by obtain ⟨_, _, h⟩ := State.passToFleet_shape s c; rw [h]
@[simp] theorem State.passToFleet_rsps (s : State) (c : Nat) : (s.passToFleet c).rsps = s.rsps := by obtain ⟨_, _, h⟩ := State.passToFleet_shape s c; rw [h]
@[simp] theorem State.passToFleet_waiting (s : State) (c : Nat) : (s.passToFleet c).waiting = s.waiting := by obtain ⟨_, _, h⟩ := State.passToFleet_shape s c; rw [h]
@[simp] theorem State.passToFleet_dbg (s : State) (c : Nat) : (s.passToFleet c).dbg = s.dbg := by obtain ⟨_, _, h⟩ := State.passToFleet_shape s c; rw [h]
@[simp] theorem State.passToFleet_thr (s : State) (c : Nat) : (s.passToFleet c).thr = s.thr := by obtain ⟨_, _, h⟩ := State.passToFleet_shape s c; rw [h]
@[simp] theorem State.passToFleet_pb (s : State) (c : Nat) : (s.passToFleet c).pb = s.pb := by obtain ⟨_, _, h⟩ := State.passToFleet_shape s c; rw [h]
@[simp] theorem State.passToFleet_ho (s : State) (c : Nat) : (s.passToFleet c).ho = s.ho := by obtain ⟨_, _, h⟩ := State.passToFleet_shape s c; rw [h]
@[simp] theorem State.passToFleet_rings (s : State) (c : Nat) : (s.passToFleet c).rings = s.rings := by obtain ⟨_, _, h⟩ := State.passToFleet_shape s c; rw [h]
@[simp] theorem State.passToFleet_queues (s : State) (c : Nat) : (s.passToFleet c).queues = s.queues := by obtain ⟨_, _, h⟩ := State.passToFleet_shape s c; rw [h]
@[simp] theorem State.passToFleet_lastQ (s : State) (c : Nat) : (s.passToFleet c).lastQ = s.lastQ := by obtain ⟨_, _, h⟩ := State.passToFleet_shape s c; rw [h]
@[simp] theorem State.passToFleet_notices (s : State) (c : Nat) : (s.passToFleet c).notices = s.notices := by obtain ⟨_, _, h⟩ := State.passToFleet_shape s c; rw [h]
@[simp] theorem State.passToFleet_tb (s : State) (c : Nat) : (s.passToFleet c).tb = s.tb := by obtain ⟨_, _, h⟩ := State.passToFleet_shape s c; rw [h]
@[simp] theorem State.passToFleet_cf (s : State) (c : Nat) : (s.passToFleet c).cf = s.cf := by obtain ⟨_, _, h⟩ := State.passToFleet_shape s c; rw [h]
@[simp] theorem State.passToFleet_ck (s : State) (c : Nat) : (s.passToFleet c).ck = s.ck := by obtain ⟨_, _, h⟩ := State.passToFleet_shape s c; rw [h]
@[simp] theorem State.passToFleet_xc (s : State) (c : Nat) : (s.passToFleet c).xc = s.xc := by obtain ⟨_, _, h⟩ := State.passToFleet_shape s c; rw [h]
@[simp] theorem State.passToFleet_sc (s : State) (c : Nat) : (s.passToFleet c).sc = s.sc := by obtain ⟨_, _, h⟩ := State.passToFleet_shape s c; rw [h]
@[simp] theorem State.passToFleet_hl (s : State) (c : Nat) : (s.passToFleet c).hl = s.hl := by obtain ⟨_, _, h⟩ := State.passToFleet_shape s c; rw [h]
@[simp] theorem State.passToFleet_ev (s : State) (c : Nat) : (s.passToFleet c).ev = s.ev := by obtain ⟨_, _, h⟩ := State.passToFleet_shape s c; rw [h]
@[simp] theorem State.passToFleet_red (s : State) (c : Nat) : (s.passToFleet c).red = s.red := by obtain ⟨_, _, h⟩ := State.passToFleet_shape s c; rw [h]
@[simp] theorem State.passToFleet_tr (s : State) (c : Nat) : (s.passToFleet c).tr = s.tr := by obtain ⟨_, _, h⟩ := State.passToFleet_shape s c; rw [h]
@[simp] theorem State.passToFleet_dc (s : State) (c : Nat) : (s.passToFleet c).dc = s.dc := by obtain ⟨_, _, h⟩ := State.passToFleet_shape s c; rw [h]
@[simp] theorem State.passToFleet_st (s : State) (c : Nat) : (s.passToFleet c).st = s.st := by obtain ⟨_, _, h⟩ := State.passToFleet_shape s c; rw [h]
@[simp] theorem State.passToFleet_fa (s : State) (c : Nat) : (s.passToFleet c).fa = s.fa := by obtain ⟨_, _, h⟩ := State.passToFleet_shape s c; rw [h]
@[simp] theorem State.passToFleet_host (s : State) (c : Nat) : (s.passToFleet c).host = s.host := by obtain ⟨_, _, h⟩ := State.passToFleet_shape s c; rw [h]
@[simp] theorem State.passToFleet_fsp (s : State) (c : Nat) : (s.passToFleet c).fsp = s.fsp := by obtain ⟨_, _, h⟩ := State.passToFleet_shape s c; rw [h]
@[simp] theorem State.passToFleet_fs (s : State) (c : Nat) : (s.passToFleet c).fs = s.fs := by obtain ⟨_, _, h⟩ := State.passToFleet_shape s c; rw [h]
@[simp] theorem State.passToFleet_fl (s : State) (c : Nat) : (s.passToFleet c).fl = s.fl := by obtain ⟨_, _, h⟩ := State.passToFleet_shape s c; rw [h]
@[simp] theorem State.passToFleet_dmem (s : State) (c : Nat) : (s.passToFleet c).dmem = s.dmem := by obtain ⟨_, _, h⟩ := State.passToFleet_shape s c; rw [h]
@[simp] theorem State.passToFleet_free (s : State) (c : Nat) : (s.passToFleet c).free = s.free := by obtain ⟨_, _, h⟩ := State.passToFleet_shape s c; rw [h]
@[simp] theorem State.passToFleet_pending (s : State) (c : Nat) : (s.passToFleet c).pending = s.pending := by obtain ⟨_, _, h⟩ := State.passToFleet_shape s c; rw [h]
@[simp] theorem State.passToFleet_rd (s : State) (c : Nat) (o : Nat) : (s.passToFleet c).rd o = s.rd o := by unfold State.rd; rw [State.passToFleet_regs]
@[simp] theorem State.passToFleet_rd64 (s : State) (c : Nat) (o : Nat) : (s.passToFleet c).rd64 o = s.rd64 o := by unfold State.rd64; rw [State.passToFleet_rd, State.passToFleet_rd]
@[simp] theorem State.passToFleet_get (s : State) (c : Nat) (g : Fld) : (s.passToFleet c).get g = s.get g := by unfold State.get; rw [State.passToFleet_rd]

/-! `State.unpend` changes only regs. -/

@[simp] theorem State.unpend_role (s : State) (n : Nat) : (s.unpend n).role = s.role := rfl
@[simp] theorem State.unpend_memTaps (s : State) (n : Nat) : (s.unpend n).memTaps = s.memTaps := rfl
@[simp] theorem State.unpend_linkTaps (s : State) (n : Nat) : (s.unpend n).linkTaps = s.linkTaps := rfl
@[simp] theorem State.unpend_cyc (s : State) (n : Nat) : (s.unpend n).cyc = s.cyc := rfl
@[simp] theorem State.unpend_secAuth (s : State) (n : Nat) : (s.unpend n).secAuth = s.secAuth := rfl
@[simp] theorem State.unpend_tpLp (s : State) (n : Nat) : (s.unpend n).tpLp = s.tpLp := rfl
@[simp] theorem State.unpend_shadow (s : State) (n : Nat) : (s.unpend n).shadow = s.shadow := rfl
@[simp] theorem State.unpend_holds (s : State) (n : Nat) : (s.unpend n).holds = s.holds := rfl
@[simp] theorem State.unpend_rsps (s : State) (n : Nat) : (s.unpend n).rsps = s.rsps := rfl
@[simp] theorem State.unpend_waiting (s : State) (n : Nat) : (s.unpend n).waiting = s.waiting := rfl
@[simp] theorem State.unpend_dbg (s : State) (n : Nat) : (s.unpend n).dbg = s.dbg := rfl
@[simp] theorem State.unpend_pw (s : State) (n : Nat) : (s.unpend n).pw = s.pw := rfl
@[simp] theorem State.unpend_thr (s : State) (n : Nat) : (s.unpend n).thr = s.thr := rfl
@[simp] theorem State.unpend_pb (s : State) (n : Nat) : (s.unpend n).pb = s.pb := rfl
@[simp] theorem State.unpend_ho (s : State) (n : Nat) : (s.unpend n).ho = s.ho := rfl
@[simp] theorem State.unpend_rings (s : State) (n : Nat) : (s.unpend n).rings = s.rings := rfl
@[simp] theorem State.unpend_queues (s : State) (n : Nat) : (s.unpend n).queues = s.queues := rfl
@[simp] theorem State.unpend_lastQ (s : State) (n : Nat) : (s.unpend n).lastQ = s.lastQ := rfl
@[simp] theorem State.unpend_notices (s : State) (n : Nat) : (s.unpend n).notices = s.notices := rfl
@[simp] theorem State.unpend_tb (s : State) (n : Nat) : (s.unpend n).tb = s.tb := rfl
@[simp] theorem State.unpend_cf (s : State) (n : Nat) : (s.unpend n).cf = s.cf := rfl
@[simp] theorem State.unpend_ck (s : State) (n : Nat) : (s.unpend n).ck = s.ck := rfl
@[simp] theorem State.unpend_xc (s : State) (n : Nat) : (s.unpend n).xc = s.xc := rfl
@[simp] theorem State.unpend_sc (s : State) (n : Nat) : (s.unpend n).sc = s.sc := rfl
@[simp] theorem State.unpend_hl (s : State) (n : Nat) : (s.unpend n).hl = s.hl := rfl
@[simp] theorem State.unpend_ev (s : State) (n : Nat) : (s.unpend n).ev = s.ev := rfl
@[simp] theorem State.unpend_red (s : State) (n : Nat) : (s.unpend n).red = s.red := rfl
@[simp] theorem State.unpend_tr (s : State) (n : Nat) : (s.unpend n).tr = s.tr := rfl
@[simp] theorem State.unpend_dc (s : State) (n : Nat) : (s.unpend n).dc = s.dc := rfl
@[simp] theorem State.unpend_st (s : State) (n : Nat) : (s.unpend n).st = s.st := rfl
@[simp] theorem State.unpend_fa (s : State) (n : Nat) : (s.unpend n).fa = s.fa := rfl
@[simp] theorem State.unpend_host (s : State) (n : Nat) : (s.unpend n).host = s.host := rfl
@[simp] theorem State.unpend_fsp (s : State) (n : Nat) : (s.unpend n).fsp = s.fsp := rfl
@[simp] theorem State.unpend_fs (s : State) (n : Nat) : (s.unpend n).fs = s.fs := rfl
@[simp] theorem State.unpend_fl (s : State) (n : Nat) : (s.unpend n).fl = s.fl := rfl
@[simp] theorem State.unpend_dmem (s : State) (n : Nat) : (s.unpend n).dmem = s.dmem := rfl
@[simp] theorem State.unpend_free (s : State) (n : Nat) : (s.unpend n).free = s.free := rfl
@[simp] theorem State.unpend_pending (s : State) (n : Nat) : (s.unpend n).pending = s.pending := rfl

/-! `State.hostWrite` changes only notices. -/

@[simp] theorem State.hostWrite_role (s : State) (a : Nat) (d : List Byte) : (s.hostWrite a d).role = s.role := rfl
@[simp] theorem State.hostWrite_memTaps (s : State) (a : Nat) (d : List Byte) : (s.hostWrite a d).memTaps = s.memTaps := rfl
@[simp] theorem State.hostWrite_linkTaps (s : State) (a : Nat) (d : List Byte) : (s.hostWrite a d).linkTaps = s.linkTaps := rfl
@[simp] theorem State.hostWrite_cyc (s : State) (a : Nat) (d : List Byte) : (s.hostWrite a d).cyc = s.cyc := rfl
@[simp] theorem State.hostWrite_secAuth (s : State) (a : Nat) (d : List Byte) : (s.hostWrite a d).secAuth = s.secAuth := rfl
@[simp] theorem State.hostWrite_tpLp (s : State) (a : Nat) (d : List Byte) : (s.hostWrite a d).tpLp = s.tpLp := rfl
@[simp] theorem State.hostWrite_regs (s : State) (a : Nat) (d : List Byte) : (s.hostWrite a d).regs = s.regs := rfl
@[simp] theorem State.hostWrite_shadow (s : State) (a : Nat) (d : List Byte) : (s.hostWrite a d).shadow = s.shadow := rfl
@[simp] theorem State.hostWrite_holds (s : State) (a : Nat) (d : List Byte) : (s.hostWrite a d).holds = s.holds := rfl
@[simp] theorem State.hostWrite_rsps (s : State) (a : Nat) (d : List Byte) : (s.hostWrite a d).rsps = s.rsps := rfl
@[simp] theorem State.hostWrite_waiting (s : State) (a : Nat) (d : List Byte) : (s.hostWrite a d).waiting = s.waiting := rfl
@[simp] theorem State.hostWrite_dbg (s : State) (a : Nat) (d : List Byte) : (s.hostWrite a d).dbg = s.dbg := rfl
@[simp] theorem State.hostWrite_pw (s : State) (a : Nat) (d : List Byte) : (s.hostWrite a d).pw = s.pw := rfl
@[simp] theorem State.hostWrite_thr (s : State) (a : Nat) (d : List Byte) : (s.hostWrite a d).thr = s.thr := rfl
@[simp] theorem State.hostWrite_pb (s : State) (a : Nat) (d : List Byte) : (s.hostWrite a d).pb = s.pb := rfl
@[simp] theorem State.hostWrite_ho (s : State) (a : Nat) (d : List Byte) : (s.hostWrite a d).ho = s.ho := rfl
@[simp] theorem State.hostWrite_rings (s : State) (a : Nat) (d : List Byte) : (s.hostWrite a d).rings = s.rings := rfl
@[simp] theorem State.hostWrite_queues (s : State) (a : Nat) (d : List Byte) : (s.hostWrite a d).queues = s.queues := rfl
@[simp] theorem State.hostWrite_lastQ (s : State) (a : Nat) (d : List Byte) : (s.hostWrite a d).lastQ = s.lastQ := rfl
@[simp] theorem State.hostWrite_tb (s : State) (a : Nat) (d : List Byte) : (s.hostWrite a d).tb = s.tb := rfl
@[simp] theorem State.hostWrite_cf (s : State) (a : Nat) (d : List Byte) : (s.hostWrite a d).cf = s.cf := rfl
@[simp] theorem State.hostWrite_ck (s : State) (a : Nat) (d : List Byte) : (s.hostWrite a d).ck = s.ck := rfl
@[simp] theorem State.hostWrite_xc (s : State) (a : Nat) (d : List Byte) : (s.hostWrite a d).xc = s.xc := rfl
@[simp] theorem State.hostWrite_sc (s : State) (a : Nat) (d : List Byte) : (s.hostWrite a d).sc = s.sc := rfl
@[simp] theorem State.hostWrite_hl (s : State) (a : Nat) (d : List Byte) : (s.hostWrite a d).hl = s.hl := rfl
@[simp] theorem State.hostWrite_ev (s : State) (a : Nat) (d : List Byte) : (s.hostWrite a d).ev = s.ev := rfl
@[simp] theorem State.hostWrite_red (s : State) (a : Nat) (d : List Byte) : (s.hostWrite a d).red = s.red := rfl
@[simp] theorem State.hostWrite_tr (s : State) (a : Nat) (d : List Byte) : (s.hostWrite a d).tr = s.tr := rfl
@[simp] theorem State.hostWrite_dc (s : State) (a : Nat) (d : List Byte) : (s.hostWrite a d).dc = s.dc := rfl
@[simp] theorem State.hostWrite_st (s : State) (a : Nat) (d : List Byte) : (s.hostWrite a d).st = s.st := rfl
@[simp] theorem State.hostWrite_fa (s : State) (a : Nat) (d : List Byte) : (s.hostWrite a d).fa = s.fa := rfl
@[simp] theorem State.hostWrite_host (s : State) (a : Nat) (d : List Byte) : (s.hostWrite a d).host = s.host := rfl
@[simp] theorem State.hostWrite_fsp (s : State) (a : Nat) (d : List Byte) : (s.hostWrite a d).fsp = s.fsp := rfl
@[simp] theorem State.hostWrite_fs (s : State) (a : Nat) (d : List Byte) : (s.hostWrite a d).fs = s.fs := rfl
@[simp] theorem State.hostWrite_fl (s : State) (a : Nat) (d : List Byte) : (s.hostWrite a d).fl = s.fl := rfl
@[simp] theorem State.hostWrite_dmem (s : State) (a : Nat) (d : List Byte) : (s.hostWrite a d).dmem = s.dmem := rfl
@[simp] theorem State.hostWrite_free (s : State) (a : Nat) (d : List Byte) : (s.hostWrite a d).free = s.free := rfl
@[simp] theorem State.hostWrite_pending (s : State) (a : Nat) (d : List Byte) : (s.hostWrite a d).pending = s.pending := rfl
@[simp] theorem State.hostWrite_rd (s : State) (a : Nat) (d : List Byte) (o : Nat) : (s.hostWrite a d).rd o = s.rd o := rfl
@[simp] theorem State.hostWrite_rd64 (s : State) (a : Nat) (d : List Byte) (o : Nat) : (s.hostWrite a d).rd64 o = s.rd64 o := rfl
@[simp] theorem State.hostWrite_get (s : State) (a : Nat) (d : List Byte) (g : Fld) : (s.hostWrite a d).get g = s.get g := rfl

/-! `State.hostRead` changes only host. -/

@[simp] theorem State.hostRead_role (s : State) (o : Owner) (ls : List Nat) (i : Nat) : (s.hostRead o ls i).role = s.role := rfl
@[simp] theorem State.hostRead_memTaps (s : State) (o : Owner) (ls : List Nat) (i : Nat) : (s.hostRead o ls i).memTaps = s.memTaps := rfl
@[simp] theorem State.hostRead_linkTaps (s : State) (o : Owner) (ls : List Nat) (i : Nat) : (s.hostRead o ls i).linkTaps = s.linkTaps := rfl
@[simp] theorem State.hostRead_cyc (s : State) (o : Owner) (ls : List Nat) (i : Nat) : (s.hostRead o ls i).cyc = s.cyc := rfl
@[simp] theorem State.hostRead_secAuth (s : State) (o : Owner) (ls : List Nat) (i : Nat) : (s.hostRead o ls i).secAuth = s.secAuth := rfl
@[simp] theorem State.hostRead_tpLp (s : State) (o : Owner) (ls : List Nat) (i : Nat) : (s.hostRead o ls i).tpLp = s.tpLp := rfl
@[simp] theorem State.hostRead_regs (s : State) (o : Owner) (ls : List Nat) (i : Nat) : (s.hostRead o ls i).regs = s.regs := rfl
@[simp] theorem State.hostRead_shadow (s : State) (o : Owner) (ls : List Nat) (i : Nat) : (s.hostRead o ls i).shadow = s.shadow := rfl
@[simp] theorem State.hostRead_holds (s : State) (o : Owner) (ls : List Nat) (i : Nat) : (s.hostRead o ls i).holds = s.holds := rfl
@[simp] theorem State.hostRead_rsps (s : State) (o : Owner) (ls : List Nat) (i : Nat) : (s.hostRead o ls i).rsps = s.rsps := rfl
@[simp] theorem State.hostRead_waiting (s : State) (o : Owner) (ls : List Nat) (i : Nat) : (s.hostRead o ls i).waiting = s.waiting := rfl
@[simp] theorem State.hostRead_dbg (s : State) (o : Owner) (ls : List Nat) (i : Nat) : (s.hostRead o ls i).dbg = s.dbg := rfl
@[simp] theorem State.hostRead_pw (s : State) (o : Owner) (ls : List Nat) (i : Nat) : (s.hostRead o ls i).pw = s.pw := rfl
@[simp] theorem State.hostRead_thr (s : State) (o : Owner) (ls : List Nat) (i : Nat) : (s.hostRead o ls i).thr = s.thr := rfl
@[simp] theorem State.hostRead_pb (s : State) (o : Owner) (ls : List Nat) (i : Nat) : (s.hostRead o ls i).pb = s.pb := rfl
@[simp] theorem State.hostRead_ho (s : State) (o : Owner) (ls : List Nat) (i : Nat) : (s.hostRead o ls i).ho = s.ho := rfl
@[simp] theorem State.hostRead_rings (s : State) (o : Owner) (ls : List Nat) (i : Nat) : (s.hostRead o ls i).rings = s.rings := rfl
@[simp] theorem State.hostRead_queues (s : State) (o : Owner) (ls : List Nat) (i : Nat) : (s.hostRead o ls i).queues = s.queues := rfl
@[simp] theorem State.hostRead_lastQ (s : State) (o : Owner) (ls : List Nat) (i : Nat) : (s.hostRead o ls i).lastQ = s.lastQ := rfl
@[simp] theorem State.hostRead_notices (s : State) (o : Owner) (ls : List Nat) (i : Nat) : (s.hostRead o ls i).notices = s.notices := rfl
@[simp] theorem State.hostRead_tb (s : State) (o : Owner) (ls : List Nat) (i : Nat) : (s.hostRead o ls i).tb = s.tb := rfl
@[simp] theorem State.hostRead_cf (s : State) (o : Owner) (ls : List Nat) (i : Nat) : (s.hostRead o ls i).cf = s.cf := rfl
@[simp] theorem State.hostRead_ck (s : State) (o : Owner) (ls : List Nat) (i : Nat) : (s.hostRead o ls i).ck = s.ck := rfl
@[simp] theorem State.hostRead_xc (s : State) (o : Owner) (ls : List Nat) (i : Nat) : (s.hostRead o ls i).xc = s.xc := rfl
@[simp] theorem State.hostRead_sc (s : State) (o : Owner) (ls : List Nat) (i : Nat) : (s.hostRead o ls i).sc = s.sc := rfl
@[simp] theorem State.hostRead_hl (s : State) (o : Owner) (ls : List Nat) (i : Nat) : (s.hostRead o ls i).hl = s.hl := rfl
@[simp] theorem State.hostRead_ev (s : State) (o : Owner) (ls : List Nat) (i : Nat) : (s.hostRead o ls i).ev = s.ev := rfl
@[simp] theorem State.hostRead_red (s : State) (o : Owner) (ls : List Nat) (i : Nat) : (s.hostRead o ls i).red = s.red := rfl
@[simp] theorem State.hostRead_tr (s : State) (o : Owner) (ls : List Nat) (i : Nat) : (s.hostRead o ls i).tr = s.tr := rfl
@[simp] theorem State.hostRead_dc (s : State) (o : Owner) (ls : List Nat) (i : Nat) : (s.hostRead o ls i).dc = s.dc := rfl
@[simp] theorem State.hostRead_st (s : State) (o : Owner) (ls : List Nat) (i : Nat) : (s.hostRead o ls i).st = s.st := rfl
@[simp] theorem State.hostRead_fa (s : State) (o : Owner) (ls : List Nat) (i : Nat) : (s.hostRead o ls i).fa = s.fa := rfl
@[simp] theorem State.hostRead_fsp (s : State) (o : Owner) (ls : List Nat) (i : Nat) : (s.hostRead o ls i).fsp = s.fsp := rfl
@[simp] theorem State.hostRead_fs (s : State) (o : Owner) (ls : List Nat) (i : Nat) : (s.hostRead o ls i).fs = s.fs := rfl
@[simp] theorem State.hostRead_fl (s : State) (o : Owner) (ls : List Nat) (i : Nat) : (s.hostRead o ls i).fl = s.fl := rfl
@[simp] theorem State.hostRead_dmem (s : State) (o : Owner) (ls : List Nat) (i : Nat) : (s.hostRead o ls i).dmem = s.dmem := rfl
@[simp] theorem State.hostRead_free (s : State) (o : Owner) (ls : List Nat) (i : Nat) : (s.hostRead o ls i).free = s.free := rfl
@[simp] theorem State.hostRead_pending (s : State) (o : Owner) (ls : List Nat) (i : Nat) : (s.hostRead o ls i).pending = s.pending := rfl
@[simp] theorem State.hostRead_rd (s : State) (w_ : Owner) (ls : List Nat) (i : Nat) (o : Nat) : (s.hostRead w_ ls i).rd o = s.rd o := rfl
@[simp] theorem State.hostRead_rd64 (s : State) (w_ : Owner) (ls : List Nat) (i : Nat) (o : Nat) : (s.hostRead w_ ls i).rd64 o = s.rd64 o := rfl
@[simp] theorem State.hostRead_get (s : State) (w_ : Owner) (ls : List Nat) (i : Nat) (g : Fld) : (s.hostRead w_ ls i).get g = s.get g := rfl

/-! `State.fsAccess` changes only fsp. -/

@[simp] theorem State.fsAccess_role (s : State) (o : Owner) (w : Bool) (ls : List Nat) (i : Nat) : (s.fsAccess o w ls i).role = s.role := rfl
@[simp] theorem State.fsAccess_memTaps (s : State) (o : Owner) (w : Bool) (ls : List Nat) (i : Nat) : (s.fsAccess o w ls i).memTaps = s.memTaps := rfl
@[simp] theorem State.fsAccess_linkTaps (s : State) (o : Owner) (w : Bool) (ls : List Nat) (i : Nat) : (s.fsAccess o w ls i).linkTaps = s.linkTaps := rfl
@[simp] theorem State.fsAccess_cyc (s : State) (o : Owner) (w : Bool) (ls : List Nat) (i : Nat) : (s.fsAccess o w ls i).cyc = s.cyc := rfl
@[simp] theorem State.fsAccess_secAuth (s : State) (o : Owner) (w : Bool) (ls : List Nat) (i : Nat) : (s.fsAccess o w ls i).secAuth = s.secAuth := rfl
@[simp] theorem State.fsAccess_tpLp (s : State) (o : Owner) (w : Bool) (ls : List Nat) (i : Nat) : (s.fsAccess o w ls i).tpLp = s.tpLp := rfl
@[simp] theorem State.fsAccess_regs (s : State) (o : Owner) (w : Bool) (ls : List Nat) (i : Nat) : (s.fsAccess o w ls i).regs = s.regs := rfl
@[simp] theorem State.fsAccess_shadow (s : State) (o : Owner) (w : Bool) (ls : List Nat) (i : Nat) : (s.fsAccess o w ls i).shadow = s.shadow := rfl
@[simp] theorem State.fsAccess_holds (s : State) (o : Owner) (w : Bool) (ls : List Nat) (i : Nat) : (s.fsAccess o w ls i).holds = s.holds := rfl
@[simp] theorem State.fsAccess_rsps (s : State) (o : Owner) (w : Bool) (ls : List Nat) (i : Nat) : (s.fsAccess o w ls i).rsps = s.rsps := rfl
@[simp] theorem State.fsAccess_waiting (s : State) (o : Owner) (w : Bool) (ls : List Nat) (i : Nat) : (s.fsAccess o w ls i).waiting = s.waiting := rfl
@[simp] theorem State.fsAccess_dbg (s : State) (o : Owner) (w : Bool) (ls : List Nat) (i : Nat) : (s.fsAccess o w ls i).dbg = s.dbg := rfl
@[simp] theorem State.fsAccess_pw (s : State) (o : Owner) (w : Bool) (ls : List Nat) (i : Nat) : (s.fsAccess o w ls i).pw = s.pw := rfl
@[simp] theorem State.fsAccess_thr (s : State) (o : Owner) (w : Bool) (ls : List Nat) (i : Nat) : (s.fsAccess o w ls i).thr = s.thr := rfl
@[simp] theorem State.fsAccess_pb (s : State) (o : Owner) (w : Bool) (ls : List Nat) (i : Nat) : (s.fsAccess o w ls i).pb = s.pb := rfl
@[simp] theorem State.fsAccess_ho (s : State) (o : Owner) (w : Bool) (ls : List Nat) (i : Nat) : (s.fsAccess o w ls i).ho = s.ho := rfl
@[simp] theorem State.fsAccess_rings (s : State) (o : Owner) (w : Bool) (ls : List Nat) (i : Nat) : (s.fsAccess o w ls i).rings = s.rings := rfl
@[simp] theorem State.fsAccess_queues (s : State) (o : Owner) (w : Bool) (ls : List Nat) (i : Nat) : (s.fsAccess o w ls i).queues = s.queues := rfl
@[simp] theorem State.fsAccess_lastQ (s : State) (o : Owner) (w : Bool) (ls : List Nat) (i : Nat) : (s.fsAccess o w ls i).lastQ = s.lastQ := rfl
@[simp] theorem State.fsAccess_notices (s : State) (o : Owner) (w : Bool) (ls : List Nat) (i : Nat) : (s.fsAccess o w ls i).notices = s.notices := rfl
@[simp] theorem State.fsAccess_tb (s : State) (o : Owner) (w : Bool) (ls : List Nat) (i : Nat) : (s.fsAccess o w ls i).tb = s.tb := rfl
@[simp] theorem State.fsAccess_cf (s : State) (o : Owner) (w : Bool) (ls : List Nat) (i : Nat) : (s.fsAccess o w ls i).cf = s.cf := rfl
@[simp] theorem State.fsAccess_ck (s : State) (o : Owner) (w : Bool) (ls : List Nat) (i : Nat) : (s.fsAccess o w ls i).ck = s.ck := rfl
@[simp] theorem State.fsAccess_xc (s : State) (o : Owner) (w : Bool) (ls : List Nat) (i : Nat) : (s.fsAccess o w ls i).xc = s.xc := rfl
@[simp] theorem State.fsAccess_sc (s : State) (o : Owner) (w : Bool) (ls : List Nat) (i : Nat) : (s.fsAccess o w ls i).sc = s.sc := rfl
@[simp] theorem State.fsAccess_hl (s : State) (o : Owner) (w : Bool) (ls : List Nat) (i : Nat) : (s.fsAccess o w ls i).hl = s.hl := rfl
@[simp] theorem State.fsAccess_ev (s : State) (o : Owner) (w : Bool) (ls : List Nat) (i : Nat) : (s.fsAccess o w ls i).ev = s.ev := rfl
@[simp] theorem State.fsAccess_red (s : State) (o : Owner) (w : Bool) (ls : List Nat) (i : Nat) : (s.fsAccess o w ls i).red = s.red := rfl
@[simp] theorem State.fsAccess_tr (s : State) (o : Owner) (w : Bool) (ls : List Nat) (i : Nat) : (s.fsAccess o w ls i).tr = s.tr := rfl
@[simp] theorem State.fsAccess_dc (s : State) (o : Owner) (w : Bool) (ls : List Nat) (i : Nat) : (s.fsAccess o w ls i).dc = s.dc := rfl
@[simp] theorem State.fsAccess_st (s : State) (o : Owner) (w : Bool) (ls : List Nat) (i : Nat) : (s.fsAccess o w ls i).st = s.st := rfl
@[simp] theorem State.fsAccess_fa (s : State) (o : Owner) (w : Bool) (ls : List Nat) (i : Nat) : (s.fsAccess o w ls i).fa = s.fa := rfl
@[simp] theorem State.fsAccess_host (s : State) (o : Owner) (w : Bool) (ls : List Nat) (i : Nat) : (s.fsAccess o w ls i).host = s.host := rfl
@[simp] theorem State.fsAccess_fs (s : State) (o : Owner) (w : Bool) (ls : List Nat) (i : Nat) : (s.fsAccess o w ls i).fs = s.fs := rfl
@[simp] theorem State.fsAccess_fl (s : State) (o : Owner) (w : Bool) (ls : List Nat) (i : Nat) : (s.fsAccess o w ls i).fl = s.fl := rfl
@[simp] theorem State.fsAccess_dmem (s : State) (o : Owner) (w : Bool) (ls : List Nat) (i : Nat) : (s.fsAccess o w ls i).dmem = s.dmem := rfl
@[simp] theorem State.fsAccess_free (s : State) (o : Owner) (w : Bool) (ls : List Nat) (i : Nat) : (s.fsAccess o w ls i).free = s.free := rfl
@[simp] theorem State.fsAccess_pending (s : State) (o : Owner) (w : Bool) (ls : List Nat) (i : Nat) : (s.fsAccess o w ls i).pending = s.pending := rfl
@[simp] theorem State.fsAccess_rd (s : State) (w_ : Owner) (w : Bool) (ls : List Nat) (i : Nat) (o : Nat) : (s.fsAccess w_ w ls i).rd o = s.rd o := rfl
@[simp] theorem State.fsAccess_rd64 (s : State) (w_ : Owner) (w : Bool) (ls : List Nat) (i : Nat) (o : Nat) : (s.fsAccess w_ w ls i).rd64 o = s.rd64 o := rfl
@[simp] theorem State.fsAccess_get (s : State) (w_ : Owner) (w : Bool) (ls : List Nat) (i : Nat) (g : Fld) : (s.fsAccess w_ w ls i).get g = s.get g := rfl

/-! `State.need` changes only pw. -/

@[simp] theorem State.need_role (s : State) : (s.need).role = s.role := by unfold State.need; split <;> first | rfl | (split <;> rfl)
@[simp] theorem State.need_memTaps (s : State) : (s.need).memTaps = s.memTaps := by unfold State.need; split <;> first | rfl | (split <;> rfl)
@[simp] theorem State.need_linkTaps (s : State) : (s.need).linkTaps = s.linkTaps := by unfold State.need; split <;> first | rfl | (split <;> rfl)
@[simp] theorem State.need_cyc (s : State) : (s.need).cyc = s.cyc := by unfold State.need; split <;> first | rfl | (split <;> rfl)
@[simp] theorem State.need_secAuth (s : State) : (s.need).secAuth = s.secAuth := by unfold State.need; split <;> first | rfl | (split <;> rfl)
@[simp] theorem State.need_tpLp (s : State) : (s.need).tpLp = s.tpLp := by unfold State.need; split <;> first | rfl | (split <;> rfl)
@[simp] theorem State.need_regs (s : State) : (s.need).regs = s.regs := by unfold State.need; split <;> first | rfl | (split <;> rfl)
@[simp] theorem State.need_shadow (s : State) : (s.need).shadow = s.shadow := by unfold State.need; split <;> first | rfl | (split <;> rfl)
@[simp] theorem State.need_holds (s : State) : (s.need).holds = s.holds := by unfold State.need; split <;> first | rfl | (split <;> rfl)
@[simp] theorem State.need_rsps (s : State) : (s.need).rsps = s.rsps := by unfold State.need; split <;> first | rfl | (split <;> rfl)
@[simp] theorem State.need_waiting (s : State) : (s.need).waiting = s.waiting := by unfold State.need; split <;> first | rfl | (split <;> rfl)
@[simp] theorem State.need_dbg (s : State) : (s.need).dbg = s.dbg := by unfold State.need; split <;> first | rfl | (split <;> rfl)
@[simp] theorem State.need_thr (s : State) : (s.need).thr = s.thr := by unfold State.need; split <;> first | rfl | (split <;> rfl)
@[simp] theorem State.need_pb (s : State) : (s.need).pb = s.pb := by unfold State.need; split <;> first | rfl | (split <;> rfl)
@[simp] theorem State.need_ho (s : State) : (s.need).ho = s.ho := by unfold State.need; split <;> first | rfl | (split <;> rfl)
@[simp] theorem State.need_rings (s : State) : (s.need).rings = s.rings := by unfold State.need; split <;> first | rfl | (split <;> rfl)
@[simp] theorem State.need_queues (s : State) : (s.need).queues = s.queues := by unfold State.need; split <;> first | rfl | (split <;> rfl)
@[simp] theorem State.need_lastQ (s : State) : (s.need).lastQ = s.lastQ := by unfold State.need; split <;> first | rfl | (split <;> rfl)
@[simp] theorem State.need_notices (s : State) : (s.need).notices = s.notices := by unfold State.need; split <;> first | rfl | (split <;> rfl)
@[simp] theorem State.need_tb (s : State) : (s.need).tb = s.tb := by unfold State.need; split <;> first | rfl | (split <;> rfl)
@[simp] theorem State.need_cf (s : State) : (s.need).cf = s.cf := by unfold State.need; split <;> first | rfl | (split <;> rfl)
@[simp] theorem State.need_ck (s : State) : (s.need).ck = s.ck := by unfold State.need; split <;> first | rfl | (split <;> rfl)
@[simp] theorem State.need_xc (s : State) : (s.need).xc = s.xc := by unfold State.need; split <;> first | rfl | (split <;> rfl)
@[simp] theorem State.need_sc (s : State) : (s.need).sc = s.sc := by unfold State.need; split <;> first | rfl | (split <;> rfl)
@[simp] theorem State.need_hl (s : State) : (s.need).hl = s.hl := by unfold State.need; split <;> first | rfl | (split <;> rfl)
@[simp] theorem State.need_ev (s : State) : (s.need).ev = s.ev := by unfold State.need; split <;> first | rfl | (split <;> rfl)
@[simp] theorem State.need_red (s : State) : (s.need).red = s.red := by unfold State.need; split <;> first | rfl | (split <;> rfl)
@[simp] theorem State.need_tr (s : State) : (s.need).tr = s.tr := by unfold State.need; split <;> first | rfl | (split <;> rfl)
@[simp] theorem State.need_dc (s : State) : (s.need).dc = s.dc := by unfold State.need; split <;> first | rfl | (split <;> rfl)
@[simp] theorem State.need_st (s : State) : (s.need).st = s.st := by unfold State.need; split <;> first | rfl | (split <;> rfl)
@[simp] theorem State.need_fa (s : State) : (s.need).fa = s.fa := by unfold State.need; split <;> first | rfl | (split <;> rfl)
@[simp] theorem State.need_host (s : State) : (s.need).host = s.host := by unfold State.need; split <;> first | rfl | (split <;> rfl)
@[simp] theorem State.need_fsp (s : State) : (s.need).fsp = s.fsp := by unfold State.need; split <;> first | rfl | (split <;> rfl)
@[simp] theorem State.need_fs (s : State) : (s.need).fs = s.fs := by unfold State.need; split <;> first | rfl | (split <;> rfl)
@[simp] theorem State.need_fl (s : State) : (s.need).fl = s.fl := by unfold State.need; split <;> first | rfl | (split <;> rfl)
@[simp] theorem State.need_dmem (s : State) : (s.need).dmem = s.dmem := by unfold State.need; split <;> first | rfl | (split <;> rfl)
@[simp] theorem State.need_free (s : State) : (s.need).free = s.free := by unfold State.need; split <;> first | rfl | (split <;> rfl)
@[simp] theorem State.need_pending (s : State) : (s.need).pending = s.pending := by unfold State.need; split <;> first | rfl | (split <;> rfl)
@[simp] theorem State.need_rd (s : State) (o : Nat) : (s.need).rd o = s.rd o := by unfold State.rd; rw [State.need_regs]
@[simp] theorem State.need_rd64 (s : State) (o : Nat) : (s.need).rd64 o = s.rd64 o := by unfold State.rd64; rw [State.need_rd, State.need_rd]
@[simp] theorem State.need_get (s : State) (g : Fld) : (s.need).get g = s.get g := by unfold State.get; rw [State.need_rd]

/-! `State.watchWake` changes only regs, pw. -/

@[simp] theorem State.watchWake_role (s : State) (n : Nat) : (s.watchWake n).role = s.role := by unfold State.watchWake; split <;> first | rfl | (split <;> simp)
@[simp] theorem State.watchWake_memTaps (s : State) (n : Nat) : (s.watchWake n).memTaps = s.memTaps := by unfold State.watchWake; split <;> first | rfl | (split <;> simp)
@[simp] theorem State.watchWake_linkTaps (s : State) (n : Nat) : (s.watchWake n).linkTaps = s.linkTaps := by unfold State.watchWake; split <;> first | rfl | (split <;> simp)
@[simp] theorem State.watchWake_cyc (s : State) (n : Nat) : (s.watchWake n).cyc = s.cyc := by unfold State.watchWake; split <;> first | rfl | (split <;> simp)
@[simp] theorem State.watchWake_secAuth (s : State) (n : Nat) : (s.watchWake n).secAuth = s.secAuth := by unfold State.watchWake; split <;> first | rfl | (split <;> simp)
@[simp] theorem State.watchWake_tpLp (s : State) (n : Nat) : (s.watchWake n).tpLp = s.tpLp := by unfold State.watchWake; split <;> first | rfl | (split <;> simp)
@[simp] theorem State.watchWake_shadow (s : State) (n : Nat) : (s.watchWake n).shadow = s.shadow := by unfold State.watchWake; split <;> first | rfl | (split <;> simp)
@[simp] theorem State.watchWake_holds (s : State) (n : Nat) : (s.watchWake n).holds = s.holds := by unfold State.watchWake; split <;> first | rfl | (split <;> simp)
@[simp] theorem State.watchWake_rsps (s : State) (n : Nat) : (s.watchWake n).rsps = s.rsps := by unfold State.watchWake; split <;> first | rfl | (split <;> simp)
@[simp] theorem State.watchWake_waiting (s : State) (n : Nat) : (s.watchWake n).waiting = s.waiting := by unfold State.watchWake; split <;> first | rfl | (split <;> simp)
@[simp] theorem State.watchWake_dbg (s : State) (n : Nat) : (s.watchWake n).dbg = s.dbg := by unfold State.watchWake; split <;> first | rfl | (split <;> simp)
@[simp] theorem State.watchWake_thr (s : State) (n : Nat) : (s.watchWake n).thr = s.thr := by unfold State.watchWake; split <;> first | rfl | (split <;> simp)
@[simp] theorem State.watchWake_pb (s : State) (n : Nat) : (s.watchWake n).pb = s.pb := by unfold State.watchWake; split <;> first | rfl | (split <;> simp)
@[simp] theorem State.watchWake_ho (s : State) (n : Nat) : (s.watchWake n).ho = s.ho := by unfold State.watchWake; split <;> first | rfl | (split <;> simp)
@[simp] theorem State.watchWake_rings (s : State) (n : Nat) : (s.watchWake n).rings = s.rings := by unfold State.watchWake; split <;> first | rfl | (split <;> simp)
@[simp] theorem State.watchWake_queues (s : State) (n : Nat) : (s.watchWake n).queues = s.queues := by unfold State.watchWake; split <;> first | rfl | (split <;> simp)
@[simp] theorem State.watchWake_lastQ (s : State) (n : Nat) : (s.watchWake n).lastQ = s.lastQ := by unfold State.watchWake; split <;> first | rfl | (split <;> simp)
@[simp] theorem State.watchWake_notices (s : State) (n : Nat) : (s.watchWake n).notices = s.notices := by unfold State.watchWake; split <;> first | rfl | (split <;> simp)
@[simp] theorem State.watchWake_tb (s : State) (n : Nat) : (s.watchWake n).tb = s.tb := by unfold State.watchWake; split <;> first | rfl | (split <;> simp)
@[simp] theorem State.watchWake_cf (s : State) (n : Nat) : (s.watchWake n).cf = s.cf := by unfold State.watchWake; split <;> first | rfl | (split <;> simp)
@[simp] theorem State.watchWake_ck (s : State) (n : Nat) : (s.watchWake n).ck = s.ck := by unfold State.watchWake; split <;> first | rfl | (split <;> simp)
@[simp] theorem State.watchWake_xc (s : State) (n : Nat) : (s.watchWake n).xc = s.xc := by unfold State.watchWake; split <;> first | rfl | (split <;> simp)
@[simp] theorem State.watchWake_sc (s : State) (n : Nat) : (s.watchWake n).sc = s.sc := by unfold State.watchWake; split <;> first | rfl | (split <;> simp)
@[simp] theorem State.watchWake_hl (s : State) (n : Nat) : (s.watchWake n).hl = s.hl := by unfold State.watchWake; split <;> first | rfl | (split <;> simp)
@[simp] theorem State.watchWake_ev (s : State) (n : Nat) : (s.watchWake n).ev = s.ev := by unfold State.watchWake; split <;> first | rfl | (split <;> simp)
@[simp] theorem State.watchWake_red (s : State) (n : Nat) : (s.watchWake n).red = s.red := by unfold State.watchWake; split <;> first | rfl | (split <;> simp)
@[simp] theorem State.watchWake_tr (s : State) (n : Nat) : (s.watchWake n).tr = s.tr := by unfold State.watchWake; split <;> first | rfl | (split <;> simp)
@[simp] theorem State.watchWake_dc (s : State) (n : Nat) : (s.watchWake n).dc = s.dc := by unfold State.watchWake; split <;> first | rfl | (split <;> simp)
@[simp] theorem State.watchWake_st (s : State) (n : Nat) : (s.watchWake n).st = s.st := by unfold State.watchWake; split <;> first | rfl | (split <;> simp)
@[simp] theorem State.watchWake_fa (s : State) (n : Nat) : (s.watchWake n).fa = s.fa := by unfold State.watchWake; split <;> first | rfl | (split <;> simp)
@[simp] theorem State.watchWake_host (s : State) (n : Nat) : (s.watchWake n).host = s.host := by unfold State.watchWake; split <;> first | rfl | (split <;> simp)
@[simp] theorem State.watchWake_fsp (s : State) (n : Nat) : (s.watchWake n).fsp = s.fsp := by unfold State.watchWake; split <;> first | rfl | (split <;> simp)
@[simp] theorem State.watchWake_fs (s : State) (n : Nat) : (s.watchWake n).fs = s.fs := by unfold State.watchWake; split <;> first | rfl | (split <;> simp)
@[simp] theorem State.watchWake_fl (s : State) (n : Nat) : (s.watchWake n).fl = s.fl := by unfold State.watchWake; split <;> first | rfl | (split <;> simp)
@[simp] theorem State.watchWake_dmem (s : State) (n : Nat) : (s.watchWake n).dmem = s.dmem := by unfold State.watchWake; split <;> first | rfl | (split <;> simp)
@[simp] theorem State.watchWake_free (s : State) (n : Nat) : (s.watchWake n).free = s.free := by unfold State.watchWake; split <;> first | rfl | (split <;> simp)
@[simp] theorem State.watchWake_pending (s : State) (n : Nat) : (s.watchWake n).pending = s.pending := by unfold State.watchWake; split <;> first | rfl | (split <;> simp)

/-! `State.doorbell` changes only regs, pw. -/

@[simp] theorem State.doorbell_role (s : State) (n : Nat) (o : Bool) : (s.doorbell n o).role = s.role := by unfold State.doorbell; split <;> first | rfl | (split <;> simp)
@[simp] theorem State.doorbell_memTaps (s : State) (n : Nat) (o : Bool) : (s.doorbell n o).memTaps = s.memTaps := by unfold State.doorbell; split <;> first | rfl | (split <;> simp)
@[simp] theorem State.doorbell_linkTaps (s : State) (n : Nat) (o : Bool) : (s.doorbell n o).linkTaps = s.linkTaps := by unfold State.doorbell; split <;> first | rfl | (split <;> simp)
@[simp] theorem State.doorbell_cyc (s : State) (n : Nat) (o : Bool) : (s.doorbell n o).cyc = s.cyc := by unfold State.doorbell; split <;> first | rfl | (split <;> simp)
@[simp] theorem State.doorbell_secAuth (s : State) (n : Nat) (o : Bool) : (s.doorbell n o).secAuth = s.secAuth := by unfold State.doorbell; split <;> first | rfl | (split <;> simp)
@[simp] theorem State.doorbell_tpLp (s : State) (n : Nat) (o : Bool) : (s.doorbell n o).tpLp = s.tpLp := by unfold State.doorbell; split <;> first | rfl | (split <;> simp)
@[simp] theorem State.doorbell_shadow (s : State) (n : Nat) (o : Bool) : (s.doorbell n o).shadow = s.shadow := by unfold State.doorbell; split <;> first | rfl | (split <;> simp)
@[simp] theorem State.doorbell_holds (s : State) (n : Nat) (o : Bool) : (s.doorbell n o).holds = s.holds := by unfold State.doorbell; split <;> first | rfl | (split <;> simp)
@[simp] theorem State.doorbell_rsps (s : State) (n : Nat) (o : Bool) : (s.doorbell n o).rsps = s.rsps := by unfold State.doorbell; split <;> first | rfl | (split <;> simp)
@[simp] theorem State.doorbell_waiting (s : State) (n : Nat) (o : Bool) : (s.doorbell n o).waiting = s.waiting := by unfold State.doorbell; split <;> first | rfl | (split <;> simp)
@[simp] theorem State.doorbell_dbg (s : State) (n : Nat) (o : Bool) : (s.doorbell n o).dbg = s.dbg := by unfold State.doorbell; split <;> first | rfl | (split <;> simp)
@[simp] theorem State.doorbell_thr (s : State) (n : Nat) (o : Bool) : (s.doorbell n o).thr = s.thr := by unfold State.doorbell; split <;> first | rfl | (split <;> simp)
@[simp] theorem State.doorbell_pb (s : State) (n : Nat) (o : Bool) : (s.doorbell n o).pb = s.pb := by unfold State.doorbell; split <;> first | rfl | (split <;> simp)
@[simp] theorem State.doorbell_ho (s : State) (n : Nat) (o : Bool) : (s.doorbell n o).ho = s.ho := by unfold State.doorbell; split <;> first | rfl | (split <;> simp)
@[simp] theorem State.doorbell_rings (s : State) (n : Nat) (o : Bool) : (s.doorbell n o).rings = s.rings := by unfold State.doorbell; split <;> first | rfl | (split <;> simp)
@[simp] theorem State.doorbell_queues (s : State) (n : Nat) (o : Bool) : (s.doorbell n o).queues = s.queues := by unfold State.doorbell; split <;> first | rfl | (split <;> simp)
@[simp] theorem State.doorbell_lastQ (s : State) (n : Nat) (o : Bool) : (s.doorbell n o).lastQ = s.lastQ := by unfold State.doorbell; split <;> first | rfl | (split <;> simp)
@[simp] theorem State.doorbell_notices (s : State) (n : Nat) (o : Bool) : (s.doorbell n o).notices = s.notices := by unfold State.doorbell; split <;> first | rfl | (split <;> simp)
@[simp] theorem State.doorbell_tb (s : State) (n : Nat) (o : Bool) : (s.doorbell n o).tb = s.tb := by unfold State.doorbell; split <;> first | rfl | (split <;> simp)
@[simp] theorem State.doorbell_cf (s : State) (n : Nat) (o : Bool) : (s.doorbell n o).cf = s.cf := by unfold State.doorbell; split <;> first | rfl | (split <;> simp)
@[simp] theorem State.doorbell_ck (s : State) (n : Nat) (o : Bool) : (s.doorbell n o).ck = s.ck := by unfold State.doorbell; split <;> first | rfl | (split <;> simp)
@[simp] theorem State.doorbell_xc (s : State) (n : Nat) (o : Bool) : (s.doorbell n o).xc = s.xc := by unfold State.doorbell; split <;> first | rfl | (split <;> simp)
@[simp] theorem State.doorbell_sc (s : State) (n : Nat) (o : Bool) : (s.doorbell n o).sc = s.sc := by unfold State.doorbell; split <;> first | rfl | (split <;> simp)
@[simp] theorem State.doorbell_hl (s : State) (n : Nat) (o : Bool) : (s.doorbell n o).hl = s.hl := by unfold State.doorbell; split <;> first | rfl | (split <;> simp)
@[simp] theorem State.doorbell_ev (s : State) (n : Nat) (o : Bool) : (s.doorbell n o).ev = s.ev := by unfold State.doorbell; split <;> first | rfl | (split <;> simp)
@[simp] theorem State.doorbell_red (s : State) (n : Nat) (o : Bool) : (s.doorbell n o).red = s.red := by unfold State.doorbell; split <;> first | rfl | (split <;> simp)
@[simp] theorem State.doorbell_tr (s : State) (n : Nat) (o : Bool) : (s.doorbell n o).tr = s.tr := by unfold State.doorbell; split <;> first | rfl | (split <;> simp)
@[simp] theorem State.doorbell_dc (s : State) (n : Nat) (o : Bool) : (s.doorbell n o).dc = s.dc := by unfold State.doorbell; split <;> first | rfl | (split <;> simp)
@[simp] theorem State.doorbell_st (s : State) (n : Nat) (o : Bool) : (s.doorbell n o).st = s.st := by unfold State.doorbell; split <;> first | rfl | (split <;> simp)
@[simp] theorem State.doorbell_fa (s : State) (n : Nat) (o : Bool) : (s.doorbell n o).fa = s.fa := by unfold State.doorbell; split <;> first | rfl | (split <;> simp)
@[simp] theorem State.doorbell_host (s : State) (n : Nat) (o : Bool) : (s.doorbell n o).host = s.host := by unfold State.doorbell; split <;> first | rfl | (split <;> simp)
@[simp] theorem State.doorbell_fsp (s : State) (n : Nat) (o : Bool) : (s.doorbell n o).fsp = s.fsp := by unfold State.doorbell; split <;> first | rfl | (split <;> simp)
@[simp] theorem State.doorbell_fs (s : State) (n : Nat) (o : Bool) : (s.doorbell n o).fs = s.fs := by unfold State.doorbell; split <;> first | rfl | (split <;> simp)
@[simp] theorem State.doorbell_fl (s : State) (n : Nat) (o : Bool) : (s.doorbell n o).fl = s.fl := by unfold State.doorbell; split <;> first | rfl | (split <;> simp)
@[simp] theorem State.doorbell_dmem (s : State) (n : Nat) (o : Bool) : (s.doorbell n o).dmem = s.dmem := by unfold State.doorbell; split <;> first | rfl | (split <;> simp)
@[simp] theorem State.doorbell_free (s : State) (n : Nat) (o : Bool) : (s.doorbell n o).free = s.free := by unfold State.doorbell; split <;> first | rfl | (split <;> simp)
@[simp] theorem State.doorbell_pending (s : State) (n : Nat) (o : Bool) : (s.doorbell n o).pending = s.pending := by unfold State.doorbell; split <;> first | rfl | (split <;> simp)

/-! `State.raise` changes only regs, pw. -/

@[simp] theorem State.raise_role (s : State) (n : Nat) : (s.raise n).role = s.role := State.doorbell_role s n false
@[simp] theorem State.raise_memTaps (s : State) (n : Nat) : (s.raise n).memTaps = s.memTaps := State.doorbell_memTaps s n false
@[simp] theorem State.raise_linkTaps (s : State) (n : Nat) : (s.raise n).linkTaps = s.linkTaps := State.doorbell_linkTaps s n false
@[simp] theorem State.raise_cyc (s : State) (n : Nat) : (s.raise n).cyc = s.cyc := State.doorbell_cyc s n false
@[simp] theorem State.raise_secAuth (s : State) (n : Nat) : (s.raise n).secAuth = s.secAuth := State.doorbell_secAuth s n false
@[simp] theorem State.raise_tpLp (s : State) (n : Nat) : (s.raise n).tpLp = s.tpLp := State.doorbell_tpLp s n false
@[simp] theorem State.raise_shadow (s : State) (n : Nat) : (s.raise n).shadow = s.shadow := State.doorbell_shadow s n false
@[simp] theorem State.raise_holds (s : State) (n : Nat) : (s.raise n).holds = s.holds := State.doorbell_holds s n false
@[simp] theorem State.raise_rsps (s : State) (n : Nat) : (s.raise n).rsps = s.rsps := State.doorbell_rsps s n false
@[simp] theorem State.raise_waiting (s : State) (n : Nat) : (s.raise n).waiting = s.waiting := State.doorbell_waiting s n false
@[simp] theorem State.raise_dbg (s : State) (n : Nat) : (s.raise n).dbg = s.dbg := State.doorbell_dbg s n false
@[simp] theorem State.raise_thr (s : State) (n : Nat) : (s.raise n).thr = s.thr := State.doorbell_thr s n false
@[simp] theorem State.raise_pb (s : State) (n : Nat) : (s.raise n).pb = s.pb := State.doorbell_pb s n false
@[simp] theorem State.raise_ho (s : State) (n : Nat) : (s.raise n).ho = s.ho := State.doorbell_ho s n false
@[simp] theorem State.raise_rings (s : State) (n : Nat) : (s.raise n).rings = s.rings := State.doorbell_rings s n false
@[simp] theorem State.raise_queues (s : State) (n : Nat) : (s.raise n).queues = s.queues := State.doorbell_queues s n false
@[simp] theorem State.raise_lastQ (s : State) (n : Nat) : (s.raise n).lastQ = s.lastQ := State.doorbell_lastQ s n false
@[simp] theorem State.raise_notices (s : State) (n : Nat) : (s.raise n).notices = s.notices := State.doorbell_notices s n false
@[simp] theorem State.raise_tb (s : State) (n : Nat) : (s.raise n).tb = s.tb := State.doorbell_tb s n false
@[simp] theorem State.raise_cf (s : State) (n : Nat) : (s.raise n).cf = s.cf := State.doorbell_cf s n false
@[simp] theorem State.raise_ck (s : State) (n : Nat) : (s.raise n).ck = s.ck := State.doorbell_ck s n false
@[simp] theorem State.raise_xc (s : State) (n : Nat) : (s.raise n).xc = s.xc := State.doorbell_xc s n false
@[simp] theorem State.raise_sc (s : State) (n : Nat) : (s.raise n).sc = s.sc := State.doorbell_sc s n false
@[simp] theorem State.raise_hl (s : State) (n : Nat) : (s.raise n).hl = s.hl := State.doorbell_hl s n false
@[simp] theorem State.raise_ev (s : State) (n : Nat) : (s.raise n).ev = s.ev := State.doorbell_ev s n false
@[simp] theorem State.raise_red (s : State) (n : Nat) : (s.raise n).red = s.red := State.doorbell_red s n false
@[simp] theorem State.raise_tr (s : State) (n : Nat) : (s.raise n).tr = s.tr := State.doorbell_tr s n false
@[simp] theorem State.raise_dc (s : State) (n : Nat) : (s.raise n).dc = s.dc := State.doorbell_dc s n false
@[simp] theorem State.raise_st (s : State) (n : Nat) : (s.raise n).st = s.st := State.doorbell_st s n false
@[simp] theorem State.raise_fa (s : State) (n : Nat) : (s.raise n).fa = s.fa := State.doorbell_fa s n false
@[simp] theorem State.raise_host (s : State) (n : Nat) : (s.raise n).host = s.host := State.doorbell_host s n false
@[simp] theorem State.raise_fsp (s : State) (n : Nat) : (s.raise n).fsp = s.fsp := State.doorbell_fsp s n false
@[simp] theorem State.raise_fs (s : State) (n : Nat) : (s.raise n).fs = s.fs := State.doorbell_fs s n false
@[simp] theorem State.raise_fl (s : State) (n : Nat) : (s.raise n).fl = s.fl := State.doorbell_fl s n false
@[simp] theorem State.raise_dmem (s : State) (n : Nat) : (s.raise n).dmem = s.dmem := State.doorbell_dmem s n false
@[simp] theorem State.raise_free (s : State) (n : Nat) : (s.raise n).free = s.free := State.doorbell_free s n false
@[simp] theorem State.raise_pending (s : State) (n : Nat) : (s.raise n).pending = s.pending := State.doorbell_pending s n false

/-! `State.notice` changes only regs, notices. -/

@[simp] theorem State.notice_role (s : State) (e : Nat) : (s.notice e).role = s.role := by unfold State.notice; split <;> first | rfl | (dsimp only; split <;> rfl)
@[simp] theorem State.notice_memTaps (s : State) (e : Nat) : (s.notice e).memTaps = s.memTaps := by unfold State.notice; split <;> first | rfl | (dsimp only; split <;> rfl)
@[simp] theorem State.notice_linkTaps (s : State) (e : Nat) : (s.notice e).linkTaps = s.linkTaps := by unfold State.notice; split <;> first | rfl | (dsimp only; split <;> rfl)
@[simp] theorem State.notice_cyc (s : State) (e : Nat) : (s.notice e).cyc = s.cyc := by unfold State.notice; split <;> first | rfl | (dsimp only; split <;> rfl)
@[simp] theorem State.notice_secAuth (s : State) (e : Nat) : (s.notice e).secAuth = s.secAuth := by unfold State.notice; split <;> first | rfl | (dsimp only; split <;> rfl)
@[simp] theorem State.notice_tpLp (s : State) (e : Nat) : (s.notice e).tpLp = s.tpLp := by unfold State.notice; split <;> first | rfl | (dsimp only; split <;> rfl)
@[simp] theorem State.notice_shadow (s : State) (e : Nat) : (s.notice e).shadow = s.shadow := by unfold State.notice; split <;> first | rfl | (dsimp only; split <;> rfl)
@[simp] theorem State.notice_holds (s : State) (e : Nat) : (s.notice e).holds = s.holds := by unfold State.notice; split <;> first | rfl | (dsimp only; split <;> rfl)
@[simp] theorem State.notice_rsps (s : State) (e : Nat) : (s.notice e).rsps = s.rsps := by unfold State.notice; split <;> first | rfl | (dsimp only; split <;> rfl)
@[simp] theorem State.notice_waiting (s : State) (e : Nat) : (s.notice e).waiting = s.waiting := by unfold State.notice; split <;> first | rfl | (dsimp only; split <;> rfl)
@[simp] theorem State.notice_dbg (s : State) (e : Nat) : (s.notice e).dbg = s.dbg := by unfold State.notice; split <;> first | rfl | (dsimp only; split <;> rfl)
@[simp] theorem State.notice_pw (s : State) (e : Nat) : (s.notice e).pw = s.pw := by unfold State.notice; split <;> first | rfl | (dsimp only; split <;> rfl)
@[simp] theorem State.notice_thr (s : State) (e : Nat) : (s.notice e).thr = s.thr := by unfold State.notice; split <;> first | rfl | (dsimp only; split <;> rfl)
@[simp] theorem State.notice_pb (s : State) (e : Nat) : (s.notice e).pb = s.pb := by unfold State.notice; split <;> first | rfl | (dsimp only; split <;> rfl)
@[simp] theorem State.notice_ho (s : State) (e : Nat) : (s.notice e).ho = s.ho := by unfold State.notice; split <;> first | rfl | (dsimp only; split <;> rfl)
@[simp] theorem State.notice_rings (s : State) (e : Nat) : (s.notice e).rings = s.rings := by unfold State.notice; split <;> first | rfl | (dsimp only; split <;> rfl)
@[simp] theorem State.notice_queues (s : State) (e : Nat) : (s.notice e).queues = s.queues := by unfold State.notice; split <;> first | rfl | (dsimp only; split <;> rfl)
@[simp] theorem State.notice_lastQ (s : State) (e : Nat) : (s.notice e).lastQ = s.lastQ := by unfold State.notice; split <;> first | rfl | (dsimp only; split <;> rfl)
@[simp] theorem State.notice_tb (s : State) (e : Nat) : (s.notice e).tb = s.tb := by unfold State.notice; split <;> first | rfl | (dsimp only; split <;> rfl)
@[simp] theorem State.notice_cf (s : State) (e : Nat) : (s.notice e).cf = s.cf := by unfold State.notice; split <;> first | rfl | (dsimp only; split <;> rfl)
@[simp] theorem State.notice_ck (s : State) (e : Nat) : (s.notice e).ck = s.ck := by unfold State.notice; split <;> first | rfl | (dsimp only; split <;> rfl)
@[simp] theorem State.notice_xc (s : State) (e : Nat) : (s.notice e).xc = s.xc := by unfold State.notice; split <;> first | rfl | (dsimp only; split <;> rfl)
@[simp] theorem State.notice_sc (s : State) (e : Nat) : (s.notice e).sc = s.sc := by unfold State.notice; split <;> first | rfl | (dsimp only; split <;> rfl)
@[simp] theorem State.notice_hl (s : State) (e : Nat) : (s.notice e).hl = s.hl := by unfold State.notice; split <;> first | rfl | (dsimp only; split <;> rfl)
@[simp] theorem State.notice_ev (s : State) (e : Nat) : (s.notice e).ev = s.ev := by unfold State.notice; split <;> first | rfl | (dsimp only; split <;> rfl)
@[simp] theorem State.notice_red (s : State) (e : Nat) : (s.notice e).red = s.red := by unfold State.notice; split <;> first | rfl | (dsimp only; split <;> rfl)
@[simp] theorem State.notice_tr (s : State) (e : Nat) : (s.notice e).tr = s.tr := by unfold State.notice; split <;> first | rfl | (dsimp only; split <;> rfl)
@[simp] theorem State.notice_dc (s : State) (e : Nat) : (s.notice e).dc = s.dc := by unfold State.notice; split <;> first | rfl | (dsimp only; split <;> rfl)
@[simp] theorem State.notice_st (s : State) (e : Nat) : (s.notice e).st = s.st := by unfold State.notice; split <;> first | rfl | (dsimp only; split <;> rfl)
@[simp] theorem State.notice_fa (s : State) (e : Nat) : (s.notice e).fa = s.fa := by unfold State.notice; split <;> first | rfl | (dsimp only; split <;> rfl)
@[simp] theorem State.notice_host (s : State) (e : Nat) : (s.notice e).host = s.host := by unfold State.notice; split <;> first | rfl | (dsimp only; split <;> rfl)
@[simp] theorem State.notice_fsp (s : State) (e : Nat) : (s.notice e).fsp = s.fsp := by unfold State.notice; split <;> first | rfl | (dsimp only; split <;> rfl)
@[simp] theorem State.notice_fs (s : State) (e : Nat) : (s.notice e).fs = s.fs := by unfold State.notice; split <;> first | rfl | (dsimp only; split <;> rfl)
@[simp] theorem State.notice_fl (s : State) (e : Nat) : (s.notice e).fl = s.fl := by unfold State.notice; split <;> first | rfl | (dsimp only; split <;> rfl)
@[simp] theorem State.notice_dmem (s : State) (e : Nat) : (s.notice e).dmem = s.dmem := by unfold State.notice; split <;> first | rfl | (dsimp only; split <;> rfl)
@[simp] theorem State.notice_free (s : State) (e : Nat) : (s.notice e).free = s.free := by unfold State.notice; split <;> first | rfl | (dsimp only; split <;> rfl)
@[simp] theorem State.notice_pending (s : State) (e : Nat) : (s.notice e).pending = s.pending := by unfold State.notice; split <;> first | rfl | (dsimp only; split <;> rfl)

/-! `State.setQueue` changes only queues. -/

@[simp] theorem State.setQueue_role (s : State) (q : Nat) (f : Queue → Queue) : (s.setQueue q f).role = s.role := rfl
@[simp] theorem State.setQueue_memTaps (s : State) (q : Nat) (f : Queue → Queue) : (s.setQueue q f).memTaps = s.memTaps := rfl
@[simp] theorem State.setQueue_linkTaps (s : State) (q : Nat) (f : Queue → Queue) : (s.setQueue q f).linkTaps = s.linkTaps := rfl
@[simp] theorem State.setQueue_cyc (s : State) (q : Nat) (f : Queue → Queue) : (s.setQueue q f).cyc = s.cyc := rfl
@[simp] theorem State.setQueue_secAuth (s : State) (q : Nat) (f : Queue → Queue) : (s.setQueue q f).secAuth = s.secAuth := rfl
@[simp] theorem State.setQueue_tpLp (s : State) (q : Nat) (f : Queue → Queue) : (s.setQueue q f).tpLp = s.tpLp := rfl
@[simp] theorem State.setQueue_regs (s : State) (q : Nat) (f : Queue → Queue) : (s.setQueue q f).regs = s.regs := rfl
@[simp] theorem State.setQueue_shadow (s : State) (q : Nat) (f : Queue → Queue) : (s.setQueue q f).shadow = s.shadow := rfl
@[simp] theorem State.setQueue_holds (s : State) (q : Nat) (f : Queue → Queue) : (s.setQueue q f).holds = s.holds := rfl
@[simp] theorem State.setQueue_rsps (s : State) (q : Nat) (f : Queue → Queue) : (s.setQueue q f).rsps = s.rsps := rfl
@[simp] theorem State.setQueue_waiting (s : State) (q : Nat) (f : Queue → Queue) : (s.setQueue q f).waiting = s.waiting := rfl
@[simp] theorem State.setQueue_dbg (s : State) (q : Nat) (f : Queue → Queue) : (s.setQueue q f).dbg = s.dbg := rfl
@[simp] theorem State.setQueue_pw (s : State) (q : Nat) (f : Queue → Queue) : (s.setQueue q f).pw = s.pw := rfl
@[simp] theorem State.setQueue_thr (s : State) (q : Nat) (f : Queue → Queue) : (s.setQueue q f).thr = s.thr := rfl
@[simp] theorem State.setQueue_pb (s : State) (q : Nat) (f : Queue → Queue) : (s.setQueue q f).pb = s.pb := rfl
@[simp] theorem State.setQueue_ho (s : State) (q : Nat) (f : Queue → Queue) : (s.setQueue q f).ho = s.ho := rfl
@[simp] theorem State.setQueue_rings (s : State) (q : Nat) (f : Queue → Queue) : (s.setQueue q f).rings = s.rings := rfl
@[simp] theorem State.setQueue_lastQ (s : State) (q : Nat) (f : Queue → Queue) : (s.setQueue q f).lastQ = s.lastQ := rfl
@[simp] theorem State.setQueue_notices (s : State) (q : Nat) (f : Queue → Queue) : (s.setQueue q f).notices = s.notices := rfl
@[simp] theorem State.setQueue_tb (s : State) (q : Nat) (f : Queue → Queue) : (s.setQueue q f).tb = s.tb := rfl
@[simp] theorem State.setQueue_cf (s : State) (q : Nat) (f : Queue → Queue) : (s.setQueue q f).cf = s.cf := rfl
@[simp] theorem State.setQueue_ck (s : State) (q : Nat) (f : Queue → Queue) : (s.setQueue q f).ck = s.ck := rfl
@[simp] theorem State.setQueue_xc (s : State) (q : Nat) (f : Queue → Queue) : (s.setQueue q f).xc = s.xc := rfl
@[simp] theorem State.setQueue_sc (s : State) (q : Nat) (f : Queue → Queue) : (s.setQueue q f).sc = s.sc := rfl
@[simp] theorem State.setQueue_hl (s : State) (q : Nat) (f : Queue → Queue) : (s.setQueue q f).hl = s.hl := rfl
@[simp] theorem State.setQueue_ev (s : State) (q : Nat) (f : Queue → Queue) : (s.setQueue q f).ev = s.ev := rfl
@[simp] theorem State.setQueue_red (s : State) (q : Nat) (f : Queue → Queue) : (s.setQueue q f).red = s.red := rfl
@[simp] theorem State.setQueue_tr (s : State) (q : Nat) (f : Queue → Queue) : (s.setQueue q f).tr = s.tr := rfl
@[simp] theorem State.setQueue_dc (s : State) (q : Nat) (f : Queue → Queue) : (s.setQueue q f).dc = s.dc := rfl
@[simp] theorem State.setQueue_st (s : State) (q : Nat) (f : Queue → Queue) : (s.setQueue q f).st = s.st := rfl
@[simp] theorem State.setQueue_fa (s : State) (q : Nat) (f : Queue → Queue) : (s.setQueue q f).fa = s.fa := rfl
@[simp] theorem State.setQueue_host (s : State) (q : Nat) (f : Queue → Queue) : (s.setQueue q f).host = s.host := rfl
@[simp] theorem State.setQueue_fsp (s : State) (q : Nat) (f : Queue → Queue) : (s.setQueue q f).fsp = s.fsp := rfl
@[simp] theorem State.setQueue_fs (s : State) (q : Nat) (f : Queue → Queue) : (s.setQueue q f).fs = s.fs := rfl
@[simp] theorem State.setQueue_fl (s : State) (q : Nat) (f : Queue → Queue) : (s.setQueue q f).fl = s.fl := rfl
@[simp] theorem State.setQueue_dmem (s : State) (q : Nat) (f : Queue → Queue) : (s.setQueue q f).dmem = s.dmem := rfl
@[simp] theorem State.setQueue_free (s : State) (q : Nat) (f : Queue → Queue) : (s.setQueue q f).free = s.free := rfl
@[simp] theorem State.setQueue_pending (s : State) (q : Nat) (f : Queue → Queue) : (s.setQueue q f).pending = s.pending := rfl
@[simp] theorem State.setQueue_rd (s : State) (q : Nat) (f : Queue → Queue) (o : Nat) : (s.setQueue q f).rd o = s.rd o := rfl
@[simp] theorem State.setQueue_rd64 (s : State) (q : Nat) (f : Queue → Queue) (o : Nat) : (s.setQueue q f).rd64 o = s.rd64 o := rfl
@[simp] theorem State.setQueue_get (s : State) (q : Nat) (f : Queue → Queue) (g : Fld) : (s.setQueue q f).get g = s.get g := rfl

/-! `State.setPw` changes only pw. -/

@[simp] theorem State.setPw_role (s : State) (f : Power → Power) : (s.setPw f).role = s.role := rfl
@[simp] theorem State.setPw_memTaps (s : State) (f : Power → Power) : (s.setPw f).memTaps = s.memTaps := rfl
@[simp] theorem State.setPw_linkTaps (s : State) (f : Power → Power) : (s.setPw f).linkTaps = s.linkTaps := rfl
@[simp] theorem State.setPw_cyc (s : State) (f : Power → Power) : (s.setPw f).cyc = s.cyc := rfl
@[simp] theorem State.setPw_secAuth (s : State) (f : Power → Power) : (s.setPw f).secAuth = s.secAuth := rfl
@[simp] theorem State.setPw_tpLp (s : State) (f : Power → Power) : (s.setPw f).tpLp = s.tpLp := rfl
@[simp] theorem State.setPw_regs (s : State) (f : Power → Power) : (s.setPw f).regs = s.regs := rfl
@[simp] theorem State.setPw_shadow (s : State) (f : Power → Power) : (s.setPw f).shadow = s.shadow := rfl
@[simp] theorem State.setPw_holds (s : State) (f : Power → Power) : (s.setPw f).holds = s.holds := rfl
@[simp] theorem State.setPw_rsps (s : State) (f : Power → Power) : (s.setPw f).rsps = s.rsps := rfl
@[simp] theorem State.setPw_waiting (s : State) (f : Power → Power) : (s.setPw f).waiting = s.waiting := rfl
@[simp] theorem State.setPw_dbg (s : State) (f : Power → Power) : (s.setPw f).dbg = s.dbg := rfl
@[simp] theorem State.setPw_thr (s : State) (f : Power → Power) : (s.setPw f).thr = s.thr := rfl
@[simp] theorem State.setPw_pb (s : State) (f : Power → Power) : (s.setPw f).pb = s.pb := rfl
@[simp] theorem State.setPw_ho (s : State) (f : Power → Power) : (s.setPw f).ho = s.ho := rfl
@[simp] theorem State.setPw_rings (s : State) (f : Power → Power) : (s.setPw f).rings = s.rings := rfl
@[simp] theorem State.setPw_queues (s : State) (f : Power → Power) : (s.setPw f).queues = s.queues := rfl
@[simp] theorem State.setPw_lastQ (s : State) (f : Power → Power) : (s.setPw f).lastQ = s.lastQ := rfl
@[simp] theorem State.setPw_notices (s : State) (f : Power → Power) : (s.setPw f).notices = s.notices := rfl
@[simp] theorem State.setPw_tb (s : State) (f : Power → Power) : (s.setPw f).tb = s.tb := rfl
@[simp] theorem State.setPw_cf (s : State) (f : Power → Power) : (s.setPw f).cf = s.cf := rfl
@[simp] theorem State.setPw_ck (s : State) (f : Power → Power) : (s.setPw f).ck = s.ck := rfl
@[simp] theorem State.setPw_xc (s : State) (f : Power → Power) : (s.setPw f).xc = s.xc := rfl
@[simp] theorem State.setPw_sc (s : State) (f : Power → Power) : (s.setPw f).sc = s.sc := rfl
@[simp] theorem State.setPw_hl (s : State) (f : Power → Power) : (s.setPw f).hl = s.hl := rfl
@[simp] theorem State.setPw_ev (s : State) (f : Power → Power) : (s.setPw f).ev = s.ev := rfl
@[simp] theorem State.setPw_red (s : State) (f : Power → Power) : (s.setPw f).red = s.red := rfl
@[simp] theorem State.setPw_tr (s : State) (f : Power → Power) : (s.setPw f).tr = s.tr := rfl
@[simp] theorem State.setPw_dc (s : State) (f : Power → Power) : (s.setPw f).dc = s.dc := rfl
@[simp] theorem State.setPw_st (s : State) (f : Power → Power) : (s.setPw f).st = s.st := rfl
@[simp] theorem State.setPw_fa (s : State) (f : Power → Power) : (s.setPw f).fa = s.fa := rfl
@[simp] theorem State.setPw_host (s : State) (f : Power → Power) : (s.setPw f).host = s.host := rfl
@[simp] theorem State.setPw_fsp (s : State) (f : Power → Power) : (s.setPw f).fsp = s.fsp := rfl
@[simp] theorem State.setPw_fs (s : State) (f : Power → Power) : (s.setPw f).fs = s.fs := rfl
@[simp] theorem State.setPw_fl (s : State) (f : Power → Power) : (s.setPw f).fl = s.fl := rfl
@[simp] theorem State.setPw_dmem (s : State) (f : Power → Power) : (s.setPw f).dmem = s.dmem := rfl
@[simp] theorem State.setPw_free (s : State) (f : Power → Power) : (s.setPw f).free = s.free := rfl
@[simp] theorem State.setPw_pending (s : State) (f : Power → Power) : (s.setPw f).pending = s.pending := rfl
@[simp] theorem State.setPw_rd (s : State) (f : Power → Power) (o : Nat) : (s.setPw f).rd o = s.rd o := rfl
@[simp] theorem State.setPw_rd64 (s : State) (f : Power → Power) (o : Nat) : (s.setPw f).rd64 o = s.rd64 o := rfl
@[simp] theorem State.setPw_get (s : State) (f : Power → Power) (g : Fld) : (s.setPw f).get g = s.get g := rfl

/-! `State.setHo` changes only ho. -/

@[simp] theorem State.setHo_role (s : State) (f : Hoist → Hoist) : (s.setHo f).role = s.role := rfl
@[simp] theorem State.setHo_memTaps (s : State) (f : Hoist → Hoist) : (s.setHo f).memTaps = s.memTaps := rfl
@[simp] theorem State.setHo_linkTaps (s : State) (f : Hoist → Hoist) : (s.setHo f).linkTaps = s.linkTaps := rfl
@[simp] theorem State.setHo_cyc (s : State) (f : Hoist → Hoist) : (s.setHo f).cyc = s.cyc := rfl
@[simp] theorem State.setHo_secAuth (s : State) (f : Hoist → Hoist) : (s.setHo f).secAuth = s.secAuth := rfl
@[simp] theorem State.setHo_tpLp (s : State) (f : Hoist → Hoist) : (s.setHo f).tpLp = s.tpLp := rfl
@[simp] theorem State.setHo_regs (s : State) (f : Hoist → Hoist) : (s.setHo f).regs = s.regs := rfl
@[simp] theorem State.setHo_shadow (s : State) (f : Hoist → Hoist) : (s.setHo f).shadow = s.shadow := rfl
@[simp] theorem State.setHo_holds (s : State) (f : Hoist → Hoist) : (s.setHo f).holds = s.holds := rfl
@[simp] theorem State.setHo_rsps (s : State) (f : Hoist → Hoist) : (s.setHo f).rsps = s.rsps := rfl
@[simp] theorem State.setHo_waiting (s : State) (f : Hoist → Hoist) : (s.setHo f).waiting = s.waiting := rfl
@[simp] theorem State.setHo_dbg (s : State) (f : Hoist → Hoist) : (s.setHo f).dbg = s.dbg := rfl
@[simp] theorem State.setHo_pw (s : State) (f : Hoist → Hoist) : (s.setHo f).pw = s.pw := rfl
@[simp] theorem State.setHo_thr (s : State) (f : Hoist → Hoist) : (s.setHo f).thr = s.thr := rfl
@[simp] theorem State.setHo_pb (s : State) (f : Hoist → Hoist) : (s.setHo f).pb = s.pb := rfl
@[simp] theorem State.setHo_rings (s : State) (f : Hoist → Hoist) : (s.setHo f).rings = s.rings := rfl
@[simp] theorem State.setHo_queues (s : State) (f : Hoist → Hoist) : (s.setHo f).queues = s.queues := rfl
@[simp] theorem State.setHo_lastQ (s : State) (f : Hoist → Hoist) : (s.setHo f).lastQ = s.lastQ := rfl
@[simp] theorem State.setHo_notices (s : State) (f : Hoist → Hoist) : (s.setHo f).notices = s.notices := rfl
@[simp] theorem State.setHo_tb (s : State) (f : Hoist → Hoist) : (s.setHo f).tb = s.tb := rfl
@[simp] theorem State.setHo_cf (s : State) (f : Hoist → Hoist) : (s.setHo f).cf = s.cf := rfl
@[simp] theorem State.setHo_ck (s : State) (f : Hoist → Hoist) : (s.setHo f).ck = s.ck := rfl
@[simp] theorem State.setHo_xc (s : State) (f : Hoist → Hoist) : (s.setHo f).xc = s.xc := rfl
@[simp] theorem State.setHo_sc (s : State) (f : Hoist → Hoist) : (s.setHo f).sc = s.sc := rfl
@[simp] theorem State.setHo_hl (s : State) (f : Hoist → Hoist) : (s.setHo f).hl = s.hl := rfl
@[simp] theorem State.setHo_ev (s : State) (f : Hoist → Hoist) : (s.setHo f).ev = s.ev := rfl
@[simp] theorem State.setHo_red (s : State) (f : Hoist → Hoist) : (s.setHo f).red = s.red := rfl
@[simp] theorem State.setHo_tr (s : State) (f : Hoist → Hoist) : (s.setHo f).tr = s.tr := rfl
@[simp] theorem State.setHo_dc (s : State) (f : Hoist → Hoist) : (s.setHo f).dc = s.dc := rfl
@[simp] theorem State.setHo_st (s : State) (f : Hoist → Hoist) : (s.setHo f).st = s.st := rfl
@[simp] theorem State.setHo_fa (s : State) (f : Hoist → Hoist) : (s.setHo f).fa = s.fa := rfl
@[simp] theorem State.setHo_host (s : State) (f : Hoist → Hoist) : (s.setHo f).host = s.host := rfl
@[simp] theorem State.setHo_fsp (s : State) (f : Hoist → Hoist) : (s.setHo f).fsp = s.fsp := rfl
@[simp] theorem State.setHo_fs (s : State) (f : Hoist → Hoist) : (s.setHo f).fs = s.fs := rfl
@[simp] theorem State.setHo_fl (s : State) (f : Hoist → Hoist) : (s.setHo f).fl = s.fl := rfl
@[simp] theorem State.setHo_dmem (s : State) (f : Hoist → Hoist) : (s.setHo f).dmem = s.dmem := rfl
@[simp] theorem State.setHo_free (s : State) (f : Hoist → Hoist) : (s.setHo f).free = s.free := rfl
@[simp] theorem State.setHo_pending (s : State) (f : Hoist → Hoist) : (s.setHo f).pending = s.pending := rfl
@[simp] theorem State.setHo_rd (s : State) (f : Hoist → Hoist) (o : Nat) : (s.setHo f).rd o = s.rd o := rfl
@[simp] theorem State.setHo_rd64 (s : State) (f : Hoist → Hoist) (o : Nat) : (s.setHo f).rd64 o = s.rd64 o := rfl
@[simp] theorem State.setHo_get (s : State) (f : Hoist → Hoist) (g : Fld) : (s.setHo f).get g = s.get g := rfl

/-! `State.setTr` changes only tr. -/

@[simp] theorem State.setTr_role (s : State) (f : TraceUnit → TraceUnit) : (s.setTr f).role = s.role := rfl
@[simp] theorem State.setTr_memTaps (s : State) (f : TraceUnit → TraceUnit) : (s.setTr f).memTaps = s.memTaps := rfl
@[simp] theorem State.setTr_linkTaps (s : State) (f : TraceUnit → TraceUnit) : (s.setTr f).linkTaps = s.linkTaps := rfl
@[simp] theorem State.setTr_cyc (s : State) (f : TraceUnit → TraceUnit) : (s.setTr f).cyc = s.cyc := rfl
@[simp] theorem State.setTr_secAuth (s : State) (f : TraceUnit → TraceUnit) : (s.setTr f).secAuth = s.secAuth := rfl
@[simp] theorem State.setTr_tpLp (s : State) (f : TraceUnit → TraceUnit) : (s.setTr f).tpLp = s.tpLp := rfl
@[simp] theorem State.setTr_regs (s : State) (f : TraceUnit → TraceUnit) : (s.setTr f).regs = s.regs := rfl
@[simp] theorem State.setTr_shadow (s : State) (f : TraceUnit → TraceUnit) : (s.setTr f).shadow = s.shadow := rfl
@[simp] theorem State.setTr_holds (s : State) (f : TraceUnit → TraceUnit) : (s.setTr f).holds = s.holds := rfl
@[simp] theorem State.setTr_rsps (s : State) (f : TraceUnit → TraceUnit) : (s.setTr f).rsps = s.rsps := rfl
@[simp] theorem State.setTr_waiting (s : State) (f : TraceUnit → TraceUnit) : (s.setTr f).waiting = s.waiting := rfl
@[simp] theorem State.setTr_dbg (s : State) (f : TraceUnit → TraceUnit) : (s.setTr f).dbg = s.dbg := rfl
@[simp] theorem State.setTr_pw (s : State) (f : TraceUnit → TraceUnit) : (s.setTr f).pw = s.pw := rfl
@[simp] theorem State.setTr_thr (s : State) (f : TraceUnit → TraceUnit) : (s.setTr f).thr = s.thr := rfl
@[simp] theorem State.setTr_pb (s : State) (f : TraceUnit → TraceUnit) : (s.setTr f).pb = s.pb := rfl
@[simp] theorem State.setTr_ho (s : State) (f : TraceUnit → TraceUnit) : (s.setTr f).ho = s.ho := rfl
@[simp] theorem State.setTr_rings (s : State) (f : TraceUnit → TraceUnit) : (s.setTr f).rings = s.rings := rfl
@[simp] theorem State.setTr_queues (s : State) (f : TraceUnit → TraceUnit) : (s.setTr f).queues = s.queues := rfl
@[simp] theorem State.setTr_lastQ (s : State) (f : TraceUnit → TraceUnit) : (s.setTr f).lastQ = s.lastQ := rfl
@[simp] theorem State.setTr_notices (s : State) (f : TraceUnit → TraceUnit) : (s.setTr f).notices = s.notices := rfl
@[simp] theorem State.setTr_tb (s : State) (f : TraceUnit → TraceUnit) : (s.setTr f).tb = s.tb := rfl
@[simp] theorem State.setTr_cf (s : State) (f : TraceUnit → TraceUnit) : (s.setTr f).cf = s.cf := rfl
@[simp] theorem State.setTr_ck (s : State) (f : TraceUnit → TraceUnit) : (s.setTr f).ck = s.ck := rfl
@[simp] theorem State.setTr_xc (s : State) (f : TraceUnit → TraceUnit) : (s.setTr f).xc = s.xc := rfl
@[simp] theorem State.setTr_sc (s : State) (f : TraceUnit → TraceUnit) : (s.setTr f).sc = s.sc := rfl
@[simp] theorem State.setTr_hl (s : State) (f : TraceUnit → TraceUnit) : (s.setTr f).hl = s.hl := rfl
@[simp] theorem State.setTr_ev (s : State) (f : TraceUnit → TraceUnit) : (s.setTr f).ev = s.ev := rfl
@[simp] theorem State.setTr_red (s : State) (f : TraceUnit → TraceUnit) : (s.setTr f).red = s.red := rfl
@[simp] theorem State.setTr_dc (s : State) (f : TraceUnit → TraceUnit) : (s.setTr f).dc = s.dc := rfl
@[simp] theorem State.setTr_st (s : State) (f : TraceUnit → TraceUnit) : (s.setTr f).st = s.st := rfl
@[simp] theorem State.setTr_fa (s : State) (f : TraceUnit → TraceUnit) : (s.setTr f).fa = s.fa := rfl
@[simp] theorem State.setTr_host (s : State) (f : TraceUnit → TraceUnit) : (s.setTr f).host = s.host := rfl
@[simp] theorem State.setTr_fsp (s : State) (f : TraceUnit → TraceUnit) : (s.setTr f).fsp = s.fsp := rfl
@[simp] theorem State.setTr_fs (s : State) (f : TraceUnit → TraceUnit) : (s.setTr f).fs = s.fs := rfl
@[simp] theorem State.setTr_fl (s : State) (f : TraceUnit → TraceUnit) : (s.setTr f).fl = s.fl := rfl
@[simp] theorem State.setTr_dmem (s : State) (f : TraceUnit → TraceUnit) : (s.setTr f).dmem = s.dmem := rfl
@[simp] theorem State.setTr_free (s : State) (f : TraceUnit → TraceUnit) : (s.setTr f).free = s.free := rfl
@[simp] theorem State.setTr_pending (s : State) (f : TraceUnit → TraceUnit) : (s.setTr f).pending = s.pending := rfl
@[simp] theorem State.setTr_rd (s : State) (f : TraceUnit → TraceUnit) (o : Nat) : (s.setTr f).rd o = s.rd o := rfl
@[simp] theorem State.setTr_rd64 (s : State) (f : TraceUnit → TraceUnit) (o : Nat) : (s.setTr f).rd64 o = s.rd64 o := rfl
@[simp] theorem State.setTr_get (s : State) (f : TraceUnit → TraceUnit) (g : Fld) : (s.setTr f).get g = s.get g := rfl

/-! `State.setDc` changes only dc. -/

@[simp] theorem State.setDc_role (s : State) (f : Dumping → Dumping) : (s.setDc f).role = s.role := rfl
@[simp] theorem State.setDc_memTaps (s : State) (f : Dumping → Dumping) : (s.setDc f).memTaps = s.memTaps := rfl
@[simp] theorem State.setDc_linkTaps (s : State) (f : Dumping → Dumping) : (s.setDc f).linkTaps = s.linkTaps := rfl
@[simp] theorem State.setDc_cyc (s : State) (f : Dumping → Dumping) : (s.setDc f).cyc = s.cyc := rfl
@[simp] theorem State.setDc_secAuth (s : State) (f : Dumping → Dumping) : (s.setDc f).secAuth = s.secAuth := rfl
@[simp] theorem State.setDc_tpLp (s : State) (f : Dumping → Dumping) : (s.setDc f).tpLp = s.tpLp := rfl
@[simp] theorem State.setDc_regs (s : State) (f : Dumping → Dumping) : (s.setDc f).regs = s.regs := rfl
@[simp] theorem State.setDc_shadow (s : State) (f : Dumping → Dumping) : (s.setDc f).shadow = s.shadow := rfl
@[simp] theorem State.setDc_holds (s : State) (f : Dumping → Dumping) : (s.setDc f).holds = s.holds := rfl
@[simp] theorem State.setDc_rsps (s : State) (f : Dumping → Dumping) : (s.setDc f).rsps = s.rsps := rfl
@[simp] theorem State.setDc_waiting (s : State) (f : Dumping → Dumping) : (s.setDc f).waiting = s.waiting := rfl
@[simp] theorem State.setDc_dbg (s : State) (f : Dumping → Dumping) : (s.setDc f).dbg = s.dbg := rfl
@[simp] theorem State.setDc_pw (s : State) (f : Dumping → Dumping) : (s.setDc f).pw = s.pw := rfl
@[simp] theorem State.setDc_thr (s : State) (f : Dumping → Dumping) : (s.setDc f).thr = s.thr := rfl
@[simp] theorem State.setDc_pb (s : State) (f : Dumping → Dumping) : (s.setDc f).pb = s.pb := rfl
@[simp] theorem State.setDc_ho (s : State) (f : Dumping → Dumping) : (s.setDc f).ho = s.ho := rfl
@[simp] theorem State.setDc_rings (s : State) (f : Dumping → Dumping) : (s.setDc f).rings = s.rings := rfl
@[simp] theorem State.setDc_queues (s : State) (f : Dumping → Dumping) : (s.setDc f).queues = s.queues := rfl
@[simp] theorem State.setDc_lastQ (s : State) (f : Dumping → Dumping) : (s.setDc f).lastQ = s.lastQ := rfl
@[simp] theorem State.setDc_notices (s : State) (f : Dumping → Dumping) : (s.setDc f).notices = s.notices := rfl
@[simp] theorem State.setDc_tb (s : State) (f : Dumping → Dumping) : (s.setDc f).tb = s.tb := rfl
@[simp] theorem State.setDc_cf (s : State) (f : Dumping → Dumping) : (s.setDc f).cf = s.cf := rfl
@[simp] theorem State.setDc_ck (s : State) (f : Dumping → Dumping) : (s.setDc f).ck = s.ck := rfl
@[simp] theorem State.setDc_xc (s : State) (f : Dumping → Dumping) : (s.setDc f).xc = s.xc := rfl
@[simp] theorem State.setDc_sc (s : State) (f : Dumping → Dumping) : (s.setDc f).sc = s.sc := rfl
@[simp] theorem State.setDc_hl (s : State) (f : Dumping → Dumping) : (s.setDc f).hl = s.hl := rfl
@[simp] theorem State.setDc_ev (s : State) (f : Dumping → Dumping) : (s.setDc f).ev = s.ev := rfl
@[simp] theorem State.setDc_red (s : State) (f : Dumping → Dumping) : (s.setDc f).red = s.red := rfl
@[simp] theorem State.setDc_tr (s : State) (f : Dumping → Dumping) : (s.setDc f).tr = s.tr := rfl
@[simp] theorem State.setDc_st (s : State) (f : Dumping → Dumping) : (s.setDc f).st = s.st := rfl
@[simp] theorem State.setDc_fa (s : State) (f : Dumping → Dumping) : (s.setDc f).fa = s.fa := rfl
@[simp] theorem State.setDc_host (s : State) (f : Dumping → Dumping) : (s.setDc f).host = s.host := rfl
@[simp] theorem State.setDc_fsp (s : State) (f : Dumping → Dumping) : (s.setDc f).fsp = s.fsp := rfl
@[simp] theorem State.setDc_fs (s : State) (f : Dumping → Dumping) : (s.setDc f).fs = s.fs := rfl
@[simp] theorem State.setDc_fl (s : State) (f : Dumping → Dumping) : (s.setDc f).fl = s.fl := rfl
@[simp] theorem State.setDc_dmem (s : State) (f : Dumping → Dumping) : (s.setDc f).dmem = s.dmem := rfl
@[simp] theorem State.setDc_free (s : State) (f : Dumping → Dumping) : (s.setDc f).free = s.free := rfl
@[simp] theorem State.setDc_pending (s : State) (f : Dumping → Dumping) : (s.setDc f).pending = s.pending := rfl
@[simp] theorem State.setDc_rd (s : State) (f : Dumping → Dumping) (o : Nat) : (s.setDc f).rd o = s.rd o := rfl
@[simp] theorem State.setDc_rd64 (s : State) (f : Dumping → Dumping) (o : Nat) : (s.setDc f).rd64 o = s.rd64 o := rfl
@[simp] theorem State.setDc_get (s : State) (f : Dumping → Dumping) (g : Fld) : (s.setDc f).get g = s.get g := rfl

/-! `State.setRed` changes only red. -/

@[simp] theorem State.setRed_role (s : State) (f : Reduction → Reduction) : (s.setRed f).role = s.role := rfl
@[simp] theorem State.setRed_memTaps (s : State) (f : Reduction → Reduction) : (s.setRed f).memTaps = s.memTaps := rfl
@[simp] theorem State.setRed_linkTaps (s : State) (f : Reduction → Reduction) : (s.setRed f).linkTaps = s.linkTaps := rfl
@[simp] theorem State.setRed_cyc (s : State) (f : Reduction → Reduction) : (s.setRed f).cyc = s.cyc := rfl
@[simp] theorem State.setRed_secAuth (s : State) (f : Reduction → Reduction) : (s.setRed f).secAuth = s.secAuth := rfl
@[simp] theorem State.setRed_tpLp (s : State) (f : Reduction → Reduction) : (s.setRed f).tpLp = s.tpLp := rfl
@[simp] theorem State.setRed_regs (s : State) (f : Reduction → Reduction) : (s.setRed f).regs = s.regs := rfl
@[simp] theorem State.setRed_shadow (s : State) (f : Reduction → Reduction) : (s.setRed f).shadow = s.shadow := rfl
@[simp] theorem State.setRed_holds (s : State) (f : Reduction → Reduction) : (s.setRed f).holds = s.holds := rfl
@[simp] theorem State.setRed_rsps (s : State) (f : Reduction → Reduction) : (s.setRed f).rsps = s.rsps := rfl
@[simp] theorem State.setRed_waiting (s : State) (f : Reduction → Reduction) : (s.setRed f).waiting = s.waiting := rfl
@[simp] theorem State.setRed_dbg (s : State) (f : Reduction → Reduction) : (s.setRed f).dbg = s.dbg := rfl
@[simp] theorem State.setRed_pw (s : State) (f : Reduction → Reduction) : (s.setRed f).pw = s.pw := rfl
@[simp] theorem State.setRed_thr (s : State) (f : Reduction → Reduction) : (s.setRed f).thr = s.thr := rfl
@[simp] theorem State.setRed_pb (s : State) (f : Reduction → Reduction) : (s.setRed f).pb = s.pb := rfl
@[simp] theorem State.setRed_ho (s : State) (f : Reduction → Reduction) : (s.setRed f).ho = s.ho := rfl
@[simp] theorem State.setRed_rings (s : State) (f : Reduction → Reduction) : (s.setRed f).rings = s.rings := rfl
@[simp] theorem State.setRed_queues (s : State) (f : Reduction → Reduction) : (s.setRed f).queues = s.queues := rfl
@[simp] theorem State.setRed_lastQ (s : State) (f : Reduction → Reduction) : (s.setRed f).lastQ = s.lastQ := rfl
@[simp] theorem State.setRed_notices (s : State) (f : Reduction → Reduction) : (s.setRed f).notices = s.notices := rfl
@[simp] theorem State.setRed_tb (s : State) (f : Reduction → Reduction) : (s.setRed f).tb = s.tb := rfl
@[simp] theorem State.setRed_cf (s : State) (f : Reduction → Reduction) : (s.setRed f).cf = s.cf := rfl
@[simp] theorem State.setRed_ck (s : State) (f : Reduction → Reduction) : (s.setRed f).ck = s.ck := rfl
@[simp] theorem State.setRed_xc (s : State) (f : Reduction → Reduction) : (s.setRed f).xc = s.xc := rfl
@[simp] theorem State.setRed_sc (s : State) (f : Reduction → Reduction) : (s.setRed f).sc = s.sc := rfl
@[simp] theorem State.setRed_hl (s : State) (f : Reduction → Reduction) : (s.setRed f).hl = s.hl := rfl
@[simp] theorem State.setRed_ev (s : State) (f : Reduction → Reduction) : (s.setRed f).ev = s.ev := rfl
@[simp] theorem State.setRed_tr (s : State) (f : Reduction → Reduction) : (s.setRed f).tr = s.tr := rfl
@[simp] theorem State.setRed_dc (s : State) (f : Reduction → Reduction) : (s.setRed f).dc = s.dc := rfl
@[simp] theorem State.setRed_st (s : State) (f : Reduction → Reduction) : (s.setRed f).st = s.st := rfl
@[simp] theorem State.setRed_fa (s : State) (f : Reduction → Reduction) : (s.setRed f).fa = s.fa := rfl
@[simp] theorem State.setRed_host (s : State) (f : Reduction → Reduction) : (s.setRed f).host = s.host := rfl
@[simp] theorem State.setRed_fsp (s : State) (f : Reduction → Reduction) : (s.setRed f).fsp = s.fsp := rfl
@[simp] theorem State.setRed_fs (s : State) (f : Reduction → Reduction) : (s.setRed f).fs = s.fs := rfl
@[simp] theorem State.setRed_fl (s : State) (f : Reduction → Reduction) : (s.setRed f).fl = s.fl := rfl
@[simp] theorem State.setRed_dmem (s : State) (f : Reduction → Reduction) : (s.setRed f).dmem = s.dmem := rfl
@[simp] theorem State.setRed_free (s : State) (f : Reduction → Reduction) : (s.setRed f).free = s.free := rfl
@[simp] theorem State.setRed_pending (s : State) (f : Reduction → Reduction) : (s.setRed f).pending = s.pending := rfl
@[simp] theorem State.setRed_rd (s : State) (f : Reduction → Reduction) (o : Nat) : (s.setRed f).rd o = s.rd o := rfl
@[simp] theorem State.setRed_rd64 (s : State) (f : Reduction → Reduction) (o : Nat) : (s.setRed f).rd64 o = s.rd64 o := rfl
@[simp] theorem State.setRed_get (s : State) (f : Reduction → Reduction) (g : Fld) : (s.setRed f).get g = s.get g := rfl

/-! `State.setCf` changes only cf. -/

@[simp] theorem State.setCf_role (s : State) (f : Counters → Counters) : (s.setCf f).role = s.role := rfl
@[simp] theorem State.setCf_memTaps (s : State) (f : Counters → Counters) : (s.setCf f).memTaps = s.memTaps := rfl
@[simp] theorem State.setCf_linkTaps (s : State) (f : Counters → Counters) : (s.setCf f).linkTaps = s.linkTaps := rfl
@[simp] theorem State.setCf_cyc (s : State) (f : Counters → Counters) : (s.setCf f).cyc = s.cyc := rfl
@[simp] theorem State.setCf_secAuth (s : State) (f : Counters → Counters) : (s.setCf f).secAuth = s.secAuth := rfl
@[simp] theorem State.setCf_tpLp (s : State) (f : Counters → Counters) : (s.setCf f).tpLp = s.tpLp := rfl
@[simp] theorem State.setCf_regs (s : State) (f : Counters → Counters) : (s.setCf f).regs = s.regs := rfl
@[simp] theorem State.setCf_shadow (s : State) (f : Counters → Counters) : (s.setCf f).shadow = s.shadow := rfl
@[simp] theorem State.setCf_holds (s : State) (f : Counters → Counters) : (s.setCf f).holds = s.holds := rfl
@[simp] theorem State.setCf_rsps (s : State) (f : Counters → Counters) : (s.setCf f).rsps = s.rsps := rfl
@[simp] theorem State.setCf_waiting (s : State) (f : Counters → Counters) : (s.setCf f).waiting = s.waiting := rfl
@[simp] theorem State.setCf_dbg (s : State) (f : Counters → Counters) : (s.setCf f).dbg = s.dbg := rfl
@[simp] theorem State.setCf_pw (s : State) (f : Counters → Counters) : (s.setCf f).pw = s.pw := rfl
@[simp] theorem State.setCf_thr (s : State) (f : Counters → Counters) : (s.setCf f).thr = s.thr := rfl
@[simp] theorem State.setCf_pb (s : State) (f : Counters → Counters) : (s.setCf f).pb = s.pb := rfl
@[simp] theorem State.setCf_ho (s : State) (f : Counters → Counters) : (s.setCf f).ho = s.ho := rfl
@[simp] theorem State.setCf_rings (s : State) (f : Counters → Counters) : (s.setCf f).rings = s.rings := rfl
@[simp] theorem State.setCf_queues (s : State) (f : Counters → Counters) : (s.setCf f).queues = s.queues := rfl
@[simp] theorem State.setCf_lastQ (s : State) (f : Counters → Counters) : (s.setCf f).lastQ = s.lastQ := rfl
@[simp] theorem State.setCf_notices (s : State) (f : Counters → Counters) : (s.setCf f).notices = s.notices := rfl
@[simp] theorem State.setCf_tb (s : State) (f : Counters → Counters) : (s.setCf f).tb = s.tb := rfl
@[simp] theorem State.setCf_ck (s : State) (f : Counters → Counters) : (s.setCf f).ck = s.ck := rfl
@[simp] theorem State.setCf_xc (s : State) (f : Counters → Counters) : (s.setCf f).xc = s.xc := rfl
@[simp] theorem State.setCf_sc (s : State) (f : Counters → Counters) : (s.setCf f).sc = s.sc := rfl
@[simp] theorem State.setCf_hl (s : State) (f : Counters → Counters) : (s.setCf f).hl = s.hl := rfl
@[simp] theorem State.setCf_ev (s : State) (f : Counters → Counters) : (s.setCf f).ev = s.ev := rfl
@[simp] theorem State.setCf_red (s : State) (f : Counters → Counters) : (s.setCf f).red = s.red := rfl
@[simp] theorem State.setCf_tr (s : State) (f : Counters → Counters) : (s.setCf f).tr = s.tr := rfl
@[simp] theorem State.setCf_dc (s : State) (f : Counters → Counters) : (s.setCf f).dc = s.dc := rfl
@[simp] theorem State.setCf_st (s : State) (f : Counters → Counters) : (s.setCf f).st = s.st := rfl
@[simp] theorem State.setCf_fa (s : State) (f : Counters → Counters) : (s.setCf f).fa = s.fa := rfl
@[simp] theorem State.setCf_host (s : State) (f : Counters → Counters) : (s.setCf f).host = s.host := rfl
@[simp] theorem State.setCf_fsp (s : State) (f : Counters → Counters) : (s.setCf f).fsp = s.fsp := rfl
@[simp] theorem State.setCf_fs (s : State) (f : Counters → Counters) : (s.setCf f).fs = s.fs := rfl
@[simp] theorem State.setCf_fl (s : State) (f : Counters → Counters) : (s.setCf f).fl = s.fl := rfl
@[simp] theorem State.setCf_dmem (s : State) (f : Counters → Counters) : (s.setCf f).dmem = s.dmem := rfl
@[simp] theorem State.setCf_free (s : State) (f : Counters → Counters) : (s.setCf f).free = s.free := rfl
@[simp] theorem State.setCf_pending (s : State) (f : Counters → Counters) : (s.setCf f).pending = s.pending := rfl
@[simp] theorem State.setCf_rd (s : State) (f : Counters → Counters) (o : Nat) : (s.setCf f).rd o = s.rd o := rfl
@[simp] theorem State.setCf_rd64 (s : State) (f : Counters → Counters) (o : Nat) : (s.setCf f).rd64 o = s.rd64 o := rfl
@[simp] theorem State.setCf_get (s : State) (f : Counters → Counters) (g : Fld) : (s.setCf f).get g = s.get g := rfl

/-! `State.setCk` changes only ck. -/

@[simp] theorem State.setCk_role (s : State) (f : Taps → Taps) : (s.setCk f).role = s.role := rfl
@[simp] theorem State.setCk_memTaps (s : State) (f : Taps → Taps) : (s.setCk f).memTaps = s.memTaps := rfl
@[simp] theorem State.setCk_linkTaps (s : State) (f : Taps → Taps) : (s.setCk f).linkTaps = s.linkTaps := rfl
@[simp] theorem State.setCk_cyc (s : State) (f : Taps → Taps) : (s.setCk f).cyc = s.cyc := rfl
@[simp] theorem State.setCk_secAuth (s : State) (f : Taps → Taps) : (s.setCk f).secAuth = s.secAuth := rfl
@[simp] theorem State.setCk_tpLp (s : State) (f : Taps → Taps) : (s.setCk f).tpLp = s.tpLp := rfl
@[simp] theorem State.setCk_regs (s : State) (f : Taps → Taps) : (s.setCk f).regs = s.regs := rfl
@[simp] theorem State.setCk_shadow (s : State) (f : Taps → Taps) : (s.setCk f).shadow = s.shadow := rfl
@[simp] theorem State.setCk_holds (s : State) (f : Taps → Taps) : (s.setCk f).holds = s.holds := rfl
@[simp] theorem State.setCk_rsps (s : State) (f : Taps → Taps) : (s.setCk f).rsps = s.rsps := rfl
@[simp] theorem State.setCk_waiting (s : State) (f : Taps → Taps) : (s.setCk f).waiting = s.waiting := rfl
@[simp] theorem State.setCk_dbg (s : State) (f : Taps → Taps) : (s.setCk f).dbg = s.dbg := rfl
@[simp] theorem State.setCk_pw (s : State) (f : Taps → Taps) : (s.setCk f).pw = s.pw := rfl
@[simp] theorem State.setCk_thr (s : State) (f : Taps → Taps) : (s.setCk f).thr = s.thr := rfl
@[simp] theorem State.setCk_pb (s : State) (f : Taps → Taps) : (s.setCk f).pb = s.pb := rfl
@[simp] theorem State.setCk_ho (s : State) (f : Taps → Taps) : (s.setCk f).ho = s.ho := rfl
@[simp] theorem State.setCk_rings (s : State) (f : Taps → Taps) : (s.setCk f).rings = s.rings := rfl
@[simp] theorem State.setCk_queues (s : State) (f : Taps → Taps) : (s.setCk f).queues = s.queues := rfl
@[simp] theorem State.setCk_lastQ (s : State) (f : Taps → Taps) : (s.setCk f).lastQ = s.lastQ := rfl
@[simp] theorem State.setCk_notices (s : State) (f : Taps → Taps) : (s.setCk f).notices = s.notices := rfl
@[simp] theorem State.setCk_tb (s : State) (f : Taps → Taps) : (s.setCk f).tb = s.tb := rfl
@[simp] theorem State.setCk_cf (s : State) (f : Taps → Taps) : (s.setCk f).cf = s.cf := rfl
@[simp] theorem State.setCk_xc (s : State) (f : Taps → Taps) : (s.setCk f).xc = s.xc := rfl
@[simp] theorem State.setCk_sc (s : State) (f : Taps → Taps) : (s.setCk f).sc = s.sc := rfl
@[simp] theorem State.setCk_hl (s : State) (f : Taps → Taps) : (s.setCk f).hl = s.hl := rfl
@[simp] theorem State.setCk_ev (s : State) (f : Taps → Taps) : (s.setCk f).ev = s.ev := rfl
@[simp] theorem State.setCk_red (s : State) (f : Taps → Taps) : (s.setCk f).red = s.red := rfl
@[simp] theorem State.setCk_tr (s : State) (f : Taps → Taps) : (s.setCk f).tr = s.tr := rfl
@[simp] theorem State.setCk_dc (s : State) (f : Taps → Taps) : (s.setCk f).dc = s.dc := rfl
@[simp] theorem State.setCk_st (s : State) (f : Taps → Taps) : (s.setCk f).st = s.st := rfl
@[simp] theorem State.setCk_fa (s : State) (f : Taps → Taps) : (s.setCk f).fa = s.fa := rfl
@[simp] theorem State.setCk_host (s : State) (f : Taps → Taps) : (s.setCk f).host = s.host := rfl
@[simp] theorem State.setCk_fsp (s : State) (f : Taps → Taps) : (s.setCk f).fsp = s.fsp := rfl
@[simp] theorem State.setCk_fs (s : State) (f : Taps → Taps) : (s.setCk f).fs = s.fs := rfl
@[simp] theorem State.setCk_fl (s : State) (f : Taps → Taps) : (s.setCk f).fl = s.fl := rfl
@[simp] theorem State.setCk_dmem (s : State) (f : Taps → Taps) : (s.setCk f).dmem = s.dmem := rfl
@[simp] theorem State.setCk_free (s : State) (f : Taps → Taps) : (s.setCk f).free = s.free := rfl
@[simp] theorem State.setCk_pending (s : State) (f : Taps → Taps) : (s.setCk f).pending = s.pending := rfl
@[simp] theorem State.setCk_rd (s : State) (f : Taps → Taps) (o : Nat) : (s.setCk f).rd o = s.rd o := rfl
@[simp] theorem State.setCk_rd64 (s : State) (f : Taps → Taps) (o : Nat) : (s.setCk f).rd64 o = s.rd64 o := rfl
@[simp] theorem State.setCk_get (s : State) (f : Taps → Taps) (g : Fld) : (s.setCk f).get g = s.get g := rfl

/-! `State.setXc` changes only xc. -/

@[simp] theorem State.setXc_role (s : State) (f : Checker → Checker) : (s.setXc f).role = s.role := rfl
@[simp] theorem State.setXc_memTaps (s : State) (f : Checker → Checker) : (s.setXc f).memTaps = s.memTaps := rfl
@[simp] theorem State.setXc_linkTaps (s : State) (f : Checker → Checker) : (s.setXc f).linkTaps = s.linkTaps := rfl
@[simp] theorem State.setXc_cyc (s : State) (f : Checker → Checker) : (s.setXc f).cyc = s.cyc := rfl
@[simp] theorem State.setXc_secAuth (s : State) (f : Checker → Checker) : (s.setXc f).secAuth = s.secAuth := rfl
@[simp] theorem State.setXc_tpLp (s : State) (f : Checker → Checker) : (s.setXc f).tpLp = s.tpLp := rfl
@[simp] theorem State.setXc_regs (s : State) (f : Checker → Checker) : (s.setXc f).regs = s.regs := rfl
@[simp] theorem State.setXc_shadow (s : State) (f : Checker → Checker) : (s.setXc f).shadow = s.shadow := rfl
@[simp] theorem State.setXc_holds (s : State) (f : Checker → Checker) : (s.setXc f).holds = s.holds := rfl
@[simp] theorem State.setXc_rsps (s : State) (f : Checker → Checker) : (s.setXc f).rsps = s.rsps := rfl
@[simp] theorem State.setXc_waiting (s : State) (f : Checker → Checker) : (s.setXc f).waiting = s.waiting := rfl
@[simp] theorem State.setXc_dbg (s : State) (f : Checker → Checker) : (s.setXc f).dbg = s.dbg := rfl
@[simp] theorem State.setXc_pw (s : State) (f : Checker → Checker) : (s.setXc f).pw = s.pw := rfl
@[simp] theorem State.setXc_thr (s : State) (f : Checker → Checker) : (s.setXc f).thr = s.thr := rfl
@[simp] theorem State.setXc_pb (s : State) (f : Checker → Checker) : (s.setXc f).pb = s.pb := rfl
@[simp] theorem State.setXc_ho (s : State) (f : Checker → Checker) : (s.setXc f).ho = s.ho := rfl
@[simp] theorem State.setXc_rings (s : State) (f : Checker → Checker) : (s.setXc f).rings = s.rings := rfl
@[simp] theorem State.setXc_queues (s : State) (f : Checker → Checker) : (s.setXc f).queues = s.queues := rfl
@[simp] theorem State.setXc_lastQ (s : State) (f : Checker → Checker) : (s.setXc f).lastQ = s.lastQ := rfl
@[simp] theorem State.setXc_notices (s : State) (f : Checker → Checker) : (s.setXc f).notices = s.notices := rfl
@[simp] theorem State.setXc_tb (s : State) (f : Checker → Checker) : (s.setXc f).tb = s.tb := rfl
@[simp] theorem State.setXc_cf (s : State) (f : Checker → Checker) : (s.setXc f).cf = s.cf := rfl
@[simp] theorem State.setXc_ck (s : State) (f : Checker → Checker) : (s.setXc f).ck = s.ck := rfl
@[simp] theorem State.setXc_sc (s : State) (f : Checker → Checker) : (s.setXc f).sc = s.sc := rfl
@[simp] theorem State.setXc_hl (s : State) (f : Checker → Checker) : (s.setXc f).hl = s.hl := rfl
@[simp] theorem State.setXc_ev (s : State) (f : Checker → Checker) : (s.setXc f).ev = s.ev := rfl
@[simp] theorem State.setXc_red (s : State) (f : Checker → Checker) : (s.setXc f).red = s.red := rfl
@[simp] theorem State.setXc_tr (s : State) (f : Checker → Checker) : (s.setXc f).tr = s.tr := rfl
@[simp] theorem State.setXc_dc (s : State) (f : Checker → Checker) : (s.setXc f).dc = s.dc := rfl
@[simp] theorem State.setXc_st (s : State) (f : Checker → Checker) : (s.setXc f).st = s.st := rfl
@[simp] theorem State.setXc_fa (s : State) (f : Checker → Checker) : (s.setXc f).fa = s.fa := rfl
@[simp] theorem State.setXc_host (s : State) (f : Checker → Checker) : (s.setXc f).host = s.host := rfl
@[simp] theorem State.setXc_fsp (s : State) (f : Checker → Checker) : (s.setXc f).fsp = s.fsp := rfl
@[simp] theorem State.setXc_fs (s : State) (f : Checker → Checker) : (s.setXc f).fs = s.fs := rfl
@[simp] theorem State.setXc_fl (s : State) (f : Checker → Checker) : (s.setXc f).fl = s.fl := rfl
@[simp] theorem State.setXc_dmem (s : State) (f : Checker → Checker) : (s.setXc f).dmem = s.dmem := rfl
@[simp] theorem State.setXc_free (s : State) (f : Checker → Checker) : (s.setXc f).free = s.free := rfl
@[simp] theorem State.setXc_pending (s : State) (f : Checker → Checker) : (s.setXc f).pending = s.pending := rfl
@[simp] theorem State.setXc_rd (s : State) (f : Checker → Checker) (o : Nat) : (s.setXc f).rd o = s.rd o := rfl
@[simp] theorem State.setXc_rd64 (s : State) (f : Checker → Checker) (o : Nat) : (s.setXc f).rd64 o = s.rd64 o := rfl
@[simp] theorem State.setXc_get (s : State) (f : Checker → Checker) (g : Fld) : (s.setXc f).get g = s.get g := rfl

/-! `State.setFa` changes only fa. -/

@[simp] theorem State.setFa_role (s : State) (f : Analytics → Analytics) : (s.setFa f).role = s.role := rfl
@[simp] theorem State.setFa_memTaps (s : State) (f : Analytics → Analytics) : (s.setFa f).memTaps = s.memTaps := rfl
@[simp] theorem State.setFa_linkTaps (s : State) (f : Analytics → Analytics) : (s.setFa f).linkTaps = s.linkTaps := rfl
@[simp] theorem State.setFa_cyc (s : State) (f : Analytics → Analytics) : (s.setFa f).cyc = s.cyc := rfl
@[simp] theorem State.setFa_secAuth (s : State) (f : Analytics → Analytics) : (s.setFa f).secAuth = s.secAuth := rfl
@[simp] theorem State.setFa_tpLp (s : State) (f : Analytics → Analytics) : (s.setFa f).tpLp = s.tpLp := rfl
@[simp] theorem State.setFa_regs (s : State) (f : Analytics → Analytics) : (s.setFa f).regs = s.regs := rfl
@[simp] theorem State.setFa_shadow (s : State) (f : Analytics → Analytics) : (s.setFa f).shadow = s.shadow := rfl
@[simp] theorem State.setFa_holds (s : State) (f : Analytics → Analytics) : (s.setFa f).holds = s.holds := rfl
@[simp] theorem State.setFa_rsps (s : State) (f : Analytics → Analytics) : (s.setFa f).rsps = s.rsps := rfl
@[simp] theorem State.setFa_waiting (s : State) (f : Analytics → Analytics) : (s.setFa f).waiting = s.waiting := rfl
@[simp] theorem State.setFa_dbg (s : State) (f : Analytics → Analytics) : (s.setFa f).dbg = s.dbg := rfl
@[simp] theorem State.setFa_pw (s : State) (f : Analytics → Analytics) : (s.setFa f).pw = s.pw := rfl
@[simp] theorem State.setFa_thr (s : State) (f : Analytics → Analytics) : (s.setFa f).thr = s.thr := rfl
@[simp] theorem State.setFa_pb (s : State) (f : Analytics → Analytics) : (s.setFa f).pb = s.pb := rfl
@[simp] theorem State.setFa_ho (s : State) (f : Analytics → Analytics) : (s.setFa f).ho = s.ho := rfl
@[simp] theorem State.setFa_rings (s : State) (f : Analytics → Analytics) : (s.setFa f).rings = s.rings := rfl
@[simp] theorem State.setFa_queues (s : State) (f : Analytics → Analytics) : (s.setFa f).queues = s.queues := rfl
@[simp] theorem State.setFa_lastQ (s : State) (f : Analytics → Analytics) : (s.setFa f).lastQ = s.lastQ := rfl
@[simp] theorem State.setFa_notices (s : State) (f : Analytics → Analytics) : (s.setFa f).notices = s.notices := rfl
@[simp] theorem State.setFa_tb (s : State) (f : Analytics → Analytics) : (s.setFa f).tb = s.tb := rfl
@[simp] theorem State.setFa_cf (s : State) (f : Analytics → Analytics) : (s.setFa f).cf = s.cf := rfl
@[simp] theorem State.setFa_ck (s : State) (f : Analytics → Analytics) : (s.setFa f).ck = s.ck := rfl
@[simp] theorem State.setFa_xc (s : State) (f : Analytics → Analytics) : (s.setFa f).xc = s.xc := rfl
@[simp] theorem State.setFa_sc (s : State) (f : Analytics → Analytics) : (s.setFa f).sc = s.sc := rfl
@[simp] theorem State.setFa_hl (s : State) (f : Analytics → Analytics) : (s.setFa f).hl = s.hl := rfl
@[simp] theorem State.setFa_ev (s : State) (f : Analytics → Analytics) : (s.setFa f).ev = s.ev := rfl
@[simp] theorem State.setFa_red (s : State) (f : Analytics → Analytics) : (s.setFa f).red = s.red := rfl
@[simp] theorem State.setFa_tr (s : State) (f : Analytics → Analytics) : (s.setFa f).tr = s.tr := rfl
@[simp] theorem State.setFa_dc (s : State) (f : Analytics → Analytics) : (s.setFa f).dc = s.dc := rfl
@[simp] theorem State.setFa_st (s : State) (f : Analytics → Analytics) : (s.setFa f).st = s.st := rfl
@[simp] theorem State.setFa_host (s : State) (f : Analytics → Analytics) : (s.setFa f).host = s.host := rfl
@[simp] theorem State.setFa_fsp (s : State) (f : Analytics → Analytics) : (s.setFa f).fsp = s.fsp := rfl
@[simp] theorem State.setFa_fs (s : State) (f : Analytics → Analytics) : (s.setFa f).fs = s.fs := rfl
@[simp] theorem State.setFa_fl (s : State) (f : Analytics → Analytics) : (s.setFa f).fl = s.fl := rfl
@[simp] theorem State.setFa_dmem (s : State) (f : Analytics → Analytics) : (s.setFa f).dmem = s.dmem := rfl
@[simp] theorem State.setFa_free (s : State) (f : Analytics → Analytics) : (s.setFa f).free = s.free := rfl
@[simp] theorem State.setFa_pending (s : State) (f : Analytics → Analytics) : (s.setFa f).pending = s.pending := rfl
@[simp] theorem State.setFa_rd (s : State) (f : Analytics → Analytics) (o : Nat) : (s.setFa f).rd o = s.rd o := rfl
@[simp] theorem State.setFa_rd64 (s : State) (f : Analytics → Analytics) (o : Nat) : (s.setFa f).rd64 o = s.rd64 o := rfl
@[simp] theorem State.setFa_get (s : State) (f : Analytics → Analytics) (g : Fld) : (s.setFa f).get g = s.get g := rfl

/-! `State.setSt` changes only st. -/

@[simp] theorem State.setSt_role (s : State) (f : Steward → Steward) : (s.setSt f).role = s.role := rfl
@[simp] theorem State.setSt_memTaps (s : State) (f : Steward → Steward) : (s.setSt f).memTaps = s.memTaps := rfl
@[simp] theorem State.setSt_linkTaps (s : State) (f : Steward → Steward) : (s.setSt f).linkTaps = s.linkTaps := rfl
@[simp] theorem State.setSt_cyc (s : State) (f : Steward → Steward) : (s.setSt f).cyc = s.cyc := rfl
@[simp] theorem State.setSt_secAuth (s : State) (f : Steward → Steward) : (s.setSt f).secAuth = s.secAuth := rfl
@[simp] theorem State.setSt_tpLp (s : State) (f : Steward → Steward) : (s.setSt f).tpLp = s.tpLp := rfl
@[simp] theorem State.setSt_regs (s : State) (f : Steward → Steward) : (s.setSt f).regs = s.regs := rfl
@[simp] theorem State.setSt_shadow (s : State) (f : Steward → Steward) : (s.setSt f).shadow = s.shadow := rfl
@[simp] theorem State.setSt_holds (s : State) (f : Steward → Steward) : (s.setSt f).holds = s.holds := rfl
@[simp] theorem State.setSt_rsps (s : State) (f : Steward → Steward) : (s.setSt f).rsps = s.rsps := rfl
@[simp] theorem State.setSt_waiting (s : State) (f : Steward → Steward) : (s.setSt f).waiting = s.waiting := rfl
@[simp] theorem State.setSt_dbg (s : State) (f : Steward → Steward) : (s.setSt f).dbg = s.dbg := rfl
@[simp] theorem State.setSt_pw (s : State) (f : Steward → Steward) : (s.setSt f).pw = s.pw := rfl
@[simp] theorem State.setSt_thr (s : State) (f : Steward → Steward) : (s.setSt f).thr = s.thr := rfl
@[simp] theorem State.setSt_pb (s : State) (f : Steward → Steward) : (s.setSt f).pb = s.pb := rfl
@[simp] theorem State.setSt_ho (s : State) (f : Steward → Steward) : (s.setSt f).ho = s.ho := rfl
@[simp] theorem State.setSt_rings (s : State) (f : Steward → Steward) : (s.setSt f).rings = s.rings := rfl
@[simp] theorem State.setSt_queues (s : State) (f : Steward → Steward) : (s.setSt f).queues = s.queues := rfl
@[simp] theorem State.setSt_lastQ (s : State) (f : Steward → Steward) : (s.setSt f).lastQ = s.lastQ := rfl
@[simp] theorem State.setSt_notices (s : State) (f : Steward → Steward) : (s.setSt f).notices = s.notices := rfl
@[simp] theorem State.setSt_tb (s : State) (f : Steward → Steward) : (s.setSt f).tb = s.tb := rfl
@[simp] theorem State.setSt_cf (s : State) (f : Steward → Steward) : (s.setSt f).cf = s.cf := rfl
@[simp] theorem State.setSt_ck (s : State) (f : Steward → Steward) : (s.setSt f).ck = s.ck := rfl
@[simp] theorem State.setSt_xc (s : State) (f : Steward → Steward) : (s.setSt f).xc = s.xc := rfl
@[simp] theorem State.setSt_sc (s : State) (f : Steward → Steward) : (s.setSt f).sc = s.sc := rfl
@[simp] theorem State.setSt_hl (s : State) (f : Steward → Steward) : (s.setSt f).hl = s.hl := rfl
@[simp] theorem State.setSt_ev (s : State) (f : Steward → Steward) : (s.setSt f).ev = s.ev := rfl
@[simp] theorem State.setSt_red (s : State) (f : Steward → Steward) : (s.setSt f).red = s.red := rfl
@[simp] theorem State.setSt_tr (s : State) (f : Steward → Steward) : (s.setSt f).tr = s.tr := rfl
@[simp] theorem State.setSt_dc (s : State) (f : Steward → Steward) : (s.setSt f).dc = s.dc := rfl
@[simp] theorem State.setSt_fa (s : State) (f : Steward → Steward) : (s.setSt f).fa = s.fa := rfl
@[simp] theorem State.setSt_host (s : State) (f : Steward → Steward) : (s.setSt f).host = s.host := rfl
@[simp] theorem State.setSt_fsp (s : State) (f : Steward → Steward) : (s.setSt f).fsp = s.fsp := rfl
@[simp] theorem State.setSt_fs (s : State) (f : Steward → Steward) : (s.setSt f).fs = s.fs := rfl
@[simp] theorem State.setSt_fl (s : State) (f : Steward → Steward) : (s.setSt f).fl = s.fl := rfl
@[simp] theorem State.setSt_dmem (s : State) (f : Steward → Steward) : (s.setSt f).dmem = s.dmem := rfl
@[simp] theorem State.setSt_free (s : State) (f : Steward → Steward) : (s.setSt f).free = s.free := rfl
@[simp] theorem State.setSt_pending (s : State) (f : Steward → Steward) : (s.setSt f).pending = s.pending := rfl
@[simp] theorem State.setSt_rd (s : State) (f : Steward → Steward) (o : Nat) : (s.setSt f).rd o = s.rd o := rfl
@[simp] theorem State.setSt_rd64 (s : State) (f : Steward → Steward) (o : Nat) : (s.setSt f).rd64 o = s.rd64 o := rfl
@[simp] theorem State.setSt_get (s : State) (f : Steward → Steward) (g : Fld) : (s.setSt f).get g = s.get g := rfl

/-! `State.setLane` changes only hl. -/

@[simp] theorem State.setLane_role (s : State) (n : Nat) (f : Lane → Lane) : (s.setLane n f).role = s.role := rfl
@[simp] theorem State.setLane_memTaps (s : State) (n : Nat) (f : Lane → Lane) : (s.setLane n f).memTaps = s.memTaps := rfl
@[simp] theorem State.setLane_linkTaps (s : State) (n : Nat) (f : Lane → Lane) : (s.setLane n f).linkTaps = s.linkTaps := rfl
@[simp] theorem State.setLane_cyc (s : State) (n : Nat) (f : Lane → Lane) : (s.setLane n f).cyc = s.cyc := rfl
@[simp] theorem State.setLane_secAuth (s : State) (n : Nat) (f : Lane → Lane) : (s.setLane n f).secAuth = s.secAuth := rfl
@[simp] theorem State.setLane_tpLp (s : State) (n : Nat) (f : Lane → Lane) : (s.setLane n f).tpLp = s.tpLp := rfl
@[simp] theorem State.setLane_regs (s : State) (n : Nat) (f : Lane → Lane) : (s.setLane n f).regs = s.regs := rfl
@[simp] theorem State.setLane_shadow (s : State) (n : Nat) (f : Lane → Lane) : (s.setLane n f).shadow = s.shadow := rfl
@[simp] theorem State.setLane_holds (s : State) (n : Nat) (f : Lane → Lane) : (s.setLane n f).holds = s.holds := rfl
@[simp] theorem State.setLane_rsps (s : State) (n : Nat) (f : Lane → Lane) : (s.setLane n f).rsps = s.rsps := rfl
@[simp] theorem State.setLane_waiting (s : State) (n : Nat) (f : Lane → Lane) : (s.setLane n f).waiting = s.waiting := rfl
@[simp] theorem State.setLane_dbg (s : State) (n : Nat) (f : Lane → Lane) : (s.setLane n f).dbg = s.dbg := rfl
@[simp] theorem State.setLane_pw (s : State) (n : Nat) (f : Lane → Lane) : (s.setLane n f).pw = s.pw := rfl
@[simp] theorem State.setLane_thr (s : State) (n : Nat) (f : Lane → Lane) : (s.setLane n f).thr = s.thr := rfl
@[simp] theorem State.setLane_pb (s : State) (n : Nat) (f : Lane → Lane) : (s.setLane n f).pb = s.pb := rfl
@[simp] theorem State.setLane_ho (s : State) (n : Nat) (f : Lane → Lane) : (s.setLane n f).ho = s.ho := rfl
@[simp] theorem State.setLane_rings (s : State) (n : Nat) (f : Lane → Lane) : (s.setLane n f).rings = s.rings := rfl
@[simp] theorem State.setLane_queues (s : State) (n : Nat) (f : Lane → Lane) : (s.setLane n f).queues = s.queues := rfl
@[simp] theorem State.setLane_lastQ (s : State) (n : Nat) (f : Lane → Lane) : (s.setLane n f).lastQ = s.lastQ := rfl
@[simp] theorem State.setLane_notices (s : State) (n : Nat) (f : Lane → Lane) : (s.setLane n f).notices = s.notices := rfl
@[simp] theorem State.setLane_tb (s : State) (n : Nat) (f : Lane → Lane) : (s.setLane n f).tb = s.tb := rfl
@[simp] theorem State.setLane_cf (s : State) (n : Nat) (f : Lane → Lane) : (s.setLane n f).cf = s.cf := rfl
@[simp] theorem State.setLane_ck (s : State) (n : Nat) (f : Lane → Lane) : (s.setLane n f).ck = s.ck := rfl
@[simp] theorem State.setLane_xc (s : State) (n : Nat) (f : Lane → Lane) : (s.setLane n f).xc = s.xc := rfl
@[simp] theorem State.setLane_sc (s : State) (n : Nat) (f : Lane → Lane) : (s.setLane n f).sc = s.sc := rfl
@[simp] theorem State.setLane_ev (s : State) (n : Nat) (f : Lane → Lane) : (s.setLane n f).ev = s.ev := rfl
@[simp] theorem State.setLane_red (s : State) (n : Nat) (f : Lane → Lane) : (s.setLane n f).red = s.red := rfl
@[simp] theorem State.setLane_tr (s : State) (n : Nat) (f : Lane → Lane) : (s.setLane n f).tr = s.tr := rfl
@[simp] theorem State.setLane_dc (s : State) (n : Nat) (f : Lane → Lane) : (s.setLane n f).dc = s.dc := rfl
@[simp] theorem State.setLane_st (s : State) (n : Nat) (f : Lane → Lane) : (s.setLane n f).st = s.st := rfl
@[simp] theorem State.setLane_fa (s : State) (n : Nat) (f : Lane → Lane) : (s.setLane n f).fa = s.fa := rfl
@[simp] theorem State.setLane_host (s : State) (n : Nat) (f : Lane → Lane) : (s.setLane n f).host = s.host := rfl
@[simp] theorem State.setLane_fsp (s : State) (n : Nat) (f : Lane → Lane) : (s.setLane n f).fsp = s.fsp := rfl
@[simp] theorem State.setLane_fs (s : State) (n : Nat) (f : Lane → Lane) : (s.setLane n f).fs = s.fs := rfl
@[simp] theorem State.setLane_fl (s : State) (n : Nat) (f : Lane → Lane) : (s.setLane n f).fl = s.fl := rfl
@[simp] theorem State.setLane_dmem (s : State) (n : Nat) (f : Lane → Lane) : (s.setLane n f).dmem = s.dmem := rfl
@[simp] theorem State.setLane_free (s : State) (n : Nat) (f : Lane → Lane) : (s.setLane n f).free = s.free := rfl
@[simp] theorem State.setLane_pending (s : State) (n : Nat) (f : Lane → Lane) : (s.setLane n f).pending = s.pending := rfl
@[simp] theorem State.setLane_rd (s : State) (n : Nat) (f : Lane → Lane) (o : Nat) : (s.setLane n f).rd o = s.rd o := rfl
@[simp] theorem State.setLane_rd64 (s : State) (n : Nat) (f : Lane → Lane) (o : Nat) : (s.setLane n f).rd64 o = s.rd64 o := rfl
@[simp] theorem State.setLane_get (s : State) (n : Nat) (f : Lane → Lane) (g : Fld) : (s.setLane n f).get g = s.get g := rfl

end Sys2Proof.Machine
end

