-- ==== Sys2Proof/Laws/Registers.lean ====
section
/-! SUPPORT. Registers: a word or a field reads as it was last written, and a write leaves every other word and field
alone. -/

namespace Sys2Proof.Machine

theorem State.rd_lt (s : State) (off : Nat) : s.rd off < 2 ^ 32 := (Sparse.get resetWord s.regs off).isLt

/-- A written word reads as what was written, cut to 32 bits. -/
@[simp] theorem State.rd_wr_same (s : State) (off v : Nat) : (s.wr off v).rd off = v % 2 ^ 32 := by
  unfold State.rd State.wr
  simp [Sparse.get_set_same]

/-- A write leaves every other word alone. -/
theorem State.rd_wr_other (s : State) (off v o : Nat) (h : o ≠ off) : (s.wr off v).rd o = s.rd o := by
  unfold State.rd State.wr
  simp [Sparse.get_set_other _ _ _ _ _ h]

theorem State.srd_lt (s : State) (off : Nat) : s.srd off < 2 ^ 32 := (Sparse.get resetWord s.shadow off).isLt

@[simp] theorem State.srd_swr_same (s : State) (off v : Nat) : (s.swr off v).srd off = v % 2 ^ 32 := by
  unfold State.srd State.swr
  simp [Sparse.get_set_same]

theorem State.srd_swr_other (s : State) (off v o : Nat) (h : o ≠ off) : (s.swr off v).srd o = s.srd o := by
  unfold State.srd State.swr
  simp [Sparse.get_set_other _ _ _ _ _ h]

@[simp] theorem State.rd_swr (s : State) (off v o : Nat) : (s.swr off v).rd o = s.rd o := rfl

@[simp] theorem State.srd_wr (s : State) (off v o : Nat) : (s.wr off v).srd o = s.srd o := rfl

theorem State.get_lt (s : State) (f : Fld) : s.get f < 2 ^ f.w := bits_lt _ _ _

/-- The word of a register after one of its fields is set. -/
theorem State.rd_put_same (s : State) (f : Fld) (v : Nat) (h : f.lo + f.w ≤ 32) :
    (s.put f v).rd f.off = putBits (s.rd f.off) f.lo f.w v := by
  unfold State.put
  rw [State.rd_wr_same, Nat.mod_eq_of_lt (putBits_lt _ _ _ _ 32 (s.rd_lt f.off) h)]

theorem State.rd_put_other (s : State) (f : Fld) (v o : Nat) (h : o ≠ f.off) : (s.put f v).rd o = s.rd o :=
  State.rd_wr_other s f.off _ o h

/-- A field reads as it was set, cut to its width. -/
theorem State.get_put_same (s : State) (f : Fld) (v : Nat) (h : f.lo + f.w ≤ 32) : (s.put f v).get f = v % 2 ^ f.w := by
  unfold State.get
  rw [State.rd_put_same s f v h, bits_putBits_same]

/-- Setting a field leaves the fields of other registers alone. -/
theorem State.get_put_other (s : State) (f g : Fld) (v : Nat) (h : g.off ≠ f.off) : (s.put f v).get g = s.get g := by
  unfold State.get
  rw [State.rd_put_other s f v _ h]

/-- Setting a field leaves the other fields of its register alone. -/
theorem State.get_put_apart (s : State) (f g : Fld) (v : Nat) (hw : f.lo + f.w ≤ 32) (ho : g.off = f.off)
    (h : g.lo + g.w ≤ f.lo ∨ f.lo + f.w ≤ g.lo) : (s.put f v).get g = s.get g := by
  unfold State.get
  rw [ho, State.rd_put_same s f v hw, bits_putBits_apart _ _ _ _ _ _ h]

/-- A write of a register leaves the fields of the others alone. -/
theorem State.get_wr_other (s : State) (off v : Nat) (g : Fld) (h : g.off ≠ off) : (s.wr off v).get g = s.get g := by
  unfold State.get
  rw [State.rd_wr_other s off v _ h]

/-- A count goes up by `n`, stopping at its field's maximum. -/
theorem State.get_bump_same (s : State) (f : Fld) (n : Nat) (h : f.lo + f.w ≤ 32) :
    (s.bump f n).get f = satAdd (2 ^ f.w - 1) (s.get f) n := by
  unfold State.bump
  rw [State.get_put_same s f _ h, Nat.mod_eq_of_lt]
  have := satAdd_le (2 ^ f.w - 1) (s.get f) n
  have := Nat.two_pow_pos f.w
  omega

theorem State.get_bump_other (s : State) (f g : Fld) (n : Nat) (h : g.off ≠ f.off) : (s.bump f n).get g = s.get g :=
  State.get_put_other s f g _ h

theorem State.rd_bump_other (s : State) (f : Fld) (n o : Nat) (h : o ≠ f.off) : (s.bump f n).rd o = s.rd o :=
  State.rd_put_other s f _ o h

theorem State.rd_incr_same (s : State) (off n : Nat) : (s.incr off n).rd off = (s.rd off + n) % 2 ^ 32 := by
  unfold State.incr
  rw [State.rd_wr_same, Nat.mod_mod]

theorem State.rd_incr_other (s : State) (off n o : Nat) (h : o ≠ off) : (s.incr off n).rd o = s.rd o :=
  State.rd_wr_other s off _ o h

/-- The registers stay in canonical form under a write. -/
theorem State.wr_regs_wf (s : State) (off v : Nat) (h : Sparse.wf resetWord s.regs = true) :
    Sparse.wf resetWord (s.wr off v).regs = true := Sparse.set_wf _ _ _ _ h

theorem State.swr_shadow_wf (s : State) (off v : Nat) (h : Sparse.wf resetWord s.shadow = true) :
    Sparse.wf resetWord (s.swr off v).shadow = true := Sparse.set_wf _ _ _ _ h

end Sys2Proof.Machine
end

