-- ==== Sys2Proof/Laws/Access.lean ====
section
/-! SUPPORT. Register accesses: what a performed access answers and leaves, and what a write of a named register does. -/

namespace Sys2Proof.Machine

/-- A state with its power record's holder times blanked is the same for the swap of banks. -/
theorem State.swapBanks_unanswered (s : State) (a : Access) :
    ((s.holdAfter a).swapBanks).unanswered = s.swapBanks.unanswered := by
  unfold State.holdAfter
  split
  · unfold State.swapBanks State.hartStart State.wdSync State.wdRuns State.setBank State.setSt
    dsimp only
    split <;> rfl
  · rfl

theorem State.unanswered_respond (s : State) (a : Access) (v : Nat) (r : Bool) : (s.respond a v r).unanswered = s.unanswered := by
  unfold State.respond State.debugDone
  dsimp only
  repeat' split
  all_goals rfl

theorem State.unanswered_holdAfter (s : State) (a : Access) : (s.holdAfter a).unanswered = s.unanswered := by
  unfold State.holdAfter
  split <;> rfl

theorem State.answerTo_respond (s : State) (who : Who) (a : Access) (v : Nat) (r : Bool) (hr : a.req = Who.num who)
    (hp : a.port = true → a.req < 14) : (s.respond a v r).answerTo who = { req := Who.num who, data := v, refused := r } := by
  have hk : (if a.port && decide (14 ≤ a.req) then a.req + 16 else a.req) = Who.num who := by
    split
    · rename_i h
      simp at h
      have := hp h.1
      omega
    · exact hr
  unfold State.respond State.debugDone State.answerTo
  dsimp only
  rw [hk, hr]
  repeat' split
  all_goals exact Sparse.get_insert_same _ _ _ _

/-- A performed access: a ready requester's access is performed at once. -/
theorem State.access_ready (s : State) (who : Who) (wr : Bool) (off v : Nat) (h : s.ready who) :
    s.access { req := Who.num who, port := Who.isPort who, write := wr, off := off, val := v } =
      s.perform { req := Who.num who, port := Who.isPort who, write := wr, off := off, val := v } := by
  obtain ⟨ha, hw, hp, hd⟩ := h
  have hup : s.aonUp = true := by
    unfold State.active at ha
    unfold State.aonUp
    simp at ha
    simp [ha]
  unfold State.access State.debugBusy
  cases who <;> simp_all [Who.num, Who.isPort]

theorem State.write_performed (s : State) (who : Who) (off v : Nat) (h : s.ready who) :
    (s.writeBy who off v).answerTo who = { req := Who.num who, data := 0, refused := !(s.busWrite (Who.num who) off v).2 } ∧
      (s.writeBy who off v).unanswered = (s.busWrite (Who.num who) off v).1.lapWatch.swapBanks.unanswered := by
  have hp := h.2.2.1
  have hn : (Who.isPort who && decide (14 ≤ Who.num who)) = false := by
    cases hq : Who.isPort who
    · rfl
    · have := hp hq
      simp
      omega
  unfold State.writeBy
  rw [State.access_ready s who true off v h]
  unfold State.perform
  rw [hn]
  simp only [Bool.false_eq_true, if_false, if_true]
  exact ⟨State.answerTo_respond _ _ _ _ _ rfl hp, by rw [State.unanswered_respond, State.swapBanks_unanswered]⟩

theorem State.read_performed (s : State) (who : Who) (off : Nat) (h : s.ready who) :
    (s.readBy who off).answerTo who = { req := Who.num who, data := (s.busRead (Who.num who) off).1, refused := false } ∧
      (s.readBy who off).unanswered = (s.busRead (Who.num who) off).2.unanswered := by
  have hp := h.2.2.1
  have hn : (Who.isPort who && decide (14 ≤ Who.num who)) = false := by
    cases hq : Who.isPort who
    · rfl
    · have := hp hq
      simp
      omega
  unfold State.readBy
  rw [State.access_ready s who false off 0 h]
  unfold State.perform
  rw [hn]
  simp only [Bool.false_eq_true, if_false]
  exact ⟨State.answerTo_respond _ _ _ _ _ rfl hp, by rw [State.unanswered_respond, State.unanswered_holdAfter]⟩

end Sys2Proof.Machine
end

