-- ==== Sys2Proof/Laws/Fixed.lean ====
section
/-! SUPPORT. What hardly any command changes: the role, the build, the commands waiting, and the numbers of queues and
lanes, as one tuple, so that each function of the model has one lemma. -/

namespace Sys2Proof.Machine

/-- The role, the tap ports built, the waiting commands, and how many queues and halyard lanes the state has. -/
def State.fixed (s : State) : Nat × Nat × Nat × List Instr × Nat × Nat :=
  (s.role, s.memTaps, s.linkTaps, s.pending, s.queues.length, s.hl.lanes.length)

@[simp low] theorem State.fixed_mk (role memTaps linkTaps cyc secAuth tpLp regs shadow holds rsps waiting dbg pw thr pb ho rings queues lastQ notices tb cf ck xc sc hl ev red tr dc st fa host fsp fs fl dmem free pending) :
    State.fixed (State.mk role memTaps linkTaps cyc secAuth tpLp regs shadow holds rsps waiting dbg pw thr pb ho rings queues lastQ notices tb cf ck xc sc hl ev red tr dc st fa host fsp fs fl dmem free pending) =
      (role, memTaps, linkTaps, pending, queues.length, hl.lanes.length) := rfl

@[simp low] theorem State.fixed_eta (s : State) :
    (s.role, s.memTaps, s.linkTaps, s.pending, s.queues.length, s.hl.lanes.length) = s.fixed := rfl

@[simp] theorem State.fixed_cyc (t : State) (x : Nat) : State.fixed { t with cyc := x } = t.fixed := by
  simp only [State.fixed_mk, State.fixed_eta]

@[simp] theorem State.fixed_secAuth (t : State) (x : Bool) : State.fixed { t with secAuth := x } = t.fixed := by
  simp only [State.fixed_mk, State.fixed_eta]

@[simp] theorem State.fixed_tpLp (t : State) (x : Bool) : State.fixed { t with tpLp := x } = t.fixed := by
  simp only [State.fixed_mk, State.fixed_eta]

@[simp] theorem State.fixed_regs (t : State) (x : Sparse Word) : State.fixed { t with regs := x } = t.fixed := by
  simp only [State.fixed_mk, State.fixed_eta]

@[simp] theorem State.fixed_shadow (t : State) (x : Sparse Word) : State.fixed { t with shadow := x } = t.fixed := by
  simp only [State.fixed_mk, State.fixed_eta]

@[simp] theorem State.fixed_holds (t : State) (x : Sparse Holding) : State.fixed { t with holds := x } = t.fixed := by
  simp only [State.fixed_mk, State.fixed_eta]

@[simp] theorem State.fixed_rsps (t : State) (x : Sparse Rsp) : State.fixed { t with rsps := x } = t.fixed := by
  simp only [State.fixed_mk, State.fixed_eta]

@[simp] theorem State.fixed_waiting (t : State) (x : List Access) : State.fixed { t with waiting := x } = t.fixed := by
  simp only [State.fixed_mk, State.fixed_eta]

@[simp] theorem State.fixed_dbg (t : State) (x : Debug) : State.fixed { t with dbg := x } = t.fixed := by
  simp only [State.fixed_mk, State.fixed_eta]

@[simp] theorem State.fixed_pw (t : State) (x : Power) : State.fixed { t with pw := x } = t.fixed := by
  simp only [State.fixed_mk, State.fixed_eta]

@[simp] theorem State.fixed_thr (t : State) (x : Throttle) : State.fixed { t with thr := x } = t.fixed := by
  simp only [State.fixed_mk, State.fixed_eta]

@[simp] theorem State.fixed_pb (t : State) (x : Pmbus) : State.fixed { t with pb := x } = t.fixed := by
  simp only [State.fixed_mk, State.fixed_eta]

@[simp] theorem State.fixed_ho (t : State) (x : Hoist) : State.fixed { t with ho := x } = t.fixed := by
  simp only [State.fixed_mk, State.fixed_eta]

@[simp] theorem State.fixed_rings (t : State) (x : Mem) : State.fixed { t with rings := x } = t.fixed := by
  simp only [State.fixed_mk, State.fixed_eta]

@[simp] theorem State.fixed_lastQ (t : State) (x : Nat) : State.fixed { t with lastQ := x } = t.fixed := by
  simp only [State.fixed_mk, State.fixed_eta]

@[simp] theorem State.fixed_notices (t : State) (x : List HnWrite) : State.fixed { t with notices := x } = t.fixed := by
  simp only [State.fixed_mk, State.fixed_eta]

@[simp] theorem State.fixed_tb (t : State) (x : TimeBase) : State.fixed { t with tb := x } = t.fixed := by
  simp only [State.fixed_mk, State.fixed_eta]

@[simp] theorem State.fixed_cf (t : State) (x : Counters) : State.fixed { t with cf := x } = t.fixed := by
  simp only [State.fixed_mk, State.fixed_eta]

@[simp] theorem State.fixed_ck (t : State) (x : Taps) : State.fixed { t with ck := x } = t.fixed := by
  simp only [State.fixed_mk, State.fixed_eta]

@[simp] theorem State.fixed_xc (t : State) (x : Checker) : State.fixed { t with xc := x } = t.fixed := by
  simp only [State.fixed_mk, State.fixed_eta]

@[simp] theorem State.fixed_sc (t : State) (x : Scoring) : State.fixed { t with sc := x } = t.fixed := by
  simp only [State.fixed_mk, State.fixed_eta]

@[simp] theorem State.fixed_ev (t : State) (x : Recorder) : State.fixed { t with ev := x } = t.fixed := by
  simp only [State.fixed_mk, State.fixed_eta]

@[simp] theorem State.fixed_red (t : State) (x : Reduction) : State.fixed { t with red := x } = t.fixed := by
  simp only [State.fixed_mk, State.fixed_eta]

@[simp] theorem State.fixed_tr (t : State) (x : TraceUnit) : State.fixed { t with tr := x } = t.fixed := by
  simp only [State.fixed_mk, State.fixed_eta]

@[simp] theorem State.fixed_dc (t : State) (x : Dumping) : State.fixed { t with dc := x } = t.fixed := by
  simp only [State.fixed_mk, State.fixed_eta]

@[simp] theorem State.fixed_st (t : State) (x : Steward) : State.fixed { t with st := x } = t.fixed := by
  simp only [State.fixed_mk, State.fixed_eta]

@[simp] theorem State.fixed_fa (t : State) (x : Analytics) : State.fixed { t with fa := x } = t.fixed := by
  simp only [State.fixed_mk, State.fixed_eta]

@[simp] theorem State.fixed_host (t : State) (x : ReqPort) : State.fixed { t with host := x } = t.fixed := by
  simp only [State.fixed_mk, State.fixed_eta]

@[simp] theorem State.fixed_fsp (t : State) (x : ReqPort) : State.fixed { t with fsp := x } = t.fixed := by
  simp only [State.fixed_mk, State.fixed_eta]

@[simp] theorem State.fixed_fs (t : State) (x : Mem) : State.fixed { t with fs := x } = t.fixed := by
  simp only [State.fixed_mk, State.fixed_eta]

@[simp] theorem State.fixed_fl (t : State) (x : Flash) : State.fixed { t with fl := x } = t.fixed := by
  simp only [State.fixed_mk, State.fixed_eta]

@[simp] theorem State.fixed_dmem (t : State) (x : Mem) : State.fixed { t with dmem := x } = t.fixed := by
  simp only [State.fixed_mk, State.fixed_eta]

@[simp] theorem State.fixed_free (t : State) (x : Nat) : State.fixed { t with free := x } = t.fixed := by
  simp only [State.fixed_mk, State.fixed_eta]

@[simp] theorem State.fixed_hl (t : State) (x : Halyard) (h : x.lanes.length = t.hl.lanes.length) :
    State.fixed { t with hl := x } = t.fixed := by
  simp only [State.fixed_mk, h, State.fixed_eta]

@[simp] theorem State.fixed_queues (t : State) (x : List Queue) (h : x.length = t.queues.length) :
    State.fixed { t with queues := x } = t.fixed := by
  simp only [State.fixed_mk, h, State.fixed_eta]

variable {α β : Type}

/-- An equation about a conditional, by cases. -/
theorem ite_elim {p : Prop} [Decidable p] {a b t : α} {P : Prop} (h : (if p then a else b) = t) (ha : a = t → P) (hb : b = t → P) :
    P := by
  by_cases q : p
  · rw [if_pos q] at h; exact ha h
  · rw [if_neg q] at h; exact hb h

/-- A property of a conditional, by cases. -/
theorem ite_prop {p : Prop} [Decidable p] {a b : α} {P : α → Prop} (ha : P a) (hb : P b) : P (if p then a else b) := by
  by_cases q : p
  · rw [if_pos q]; exact ha
  · rw [if_neg q]; exact hb

/-- A fold of steps that each keep it keeps it. -/
@[simp] theorem foldl_fixed (g : State → α → State) (h : ∀ t x, (g t x).fixed = t.fixed) (l : List α) (s : State) :
    (l.foldl g s).fixed = s.fixed := by
  induction l generalizing s with
  | nil => rfl
  | cons a l ih => rw [List.foldl_cons, ih, h]

@[simp] theorem foldl_fixed_fst (g : State × β → α → State × β) (h : ∀ t x, (g t x).1.fixed = t.1.fixed) (l : List α)
    (s : State × β) : (l.foldl g s).1.fixed = s.1.fixed := by
  induction l generalizing s with
  | nil => rfl
  | cons a l ih => rw [List.foldl_cons, ih, h]

@[simp] theorem foldl_fixed_snd (g : β × State → α → β × State) (h : ∀ t x, (g t x).2.fixed = t.2.fixed) (l : List α)
    (s : β × State) : (l.foldl g s).2.fixed = s.2.fixed := by
  induction l generalizing s with
  | nil => rfl
  | cons a l ih => rw [List.foldl_cons, ih, h]

end Sys2Proof.Machine
end

