-- ==== Sys2Proof/Laws/KeepsOps.lean ====
section
/-! SUPPORT. No function of Machine/Ops.lean changes what stays fixed while the block runs (`State.fixed`: the role,
the build's taps, the queue of waiting commands, the sixteen queues and lanes). -/

namespace Sys2Proof.Machine

set_option maxRecDepth 100000
set_option linter.all false

@[simp] theorem State.wr_fixed (s : State) (off : Nat) (v : Nat) :
    (State.wr s off v).fixed = s.fixed := by
  unfold State.wr
  simp [apply_ite State.fixed, apply_ite Prod.fst, apply_ite Prod.snd]

@[simp] theorem State.put_fixed (s : State) (f : Fld) (v : Nat) :
    (State.put s f v).fixed = s.fixed := by
  unfold State.put
  simp [apply_ite State.fixed, apply_ite Prod.fst, apply_ite Prod.snd]

@[simp] theorem State.bump_fixed (s : State) (f : Fld) (n : Nat) :
    (State.bump s f n).fixed = s.fixed := by
  unfold State.bump
  simp [apply_ite State.fixed, apply_ite Prod.fst, apply_ite Prod.snd]

@[simp] theorem State.incr_fixed (s : State) (off : Nat) (n : Nat) :
    (State.incr s off n).fixed = s.fixed := by
  unfold State.incr
  simp [apply_ite State.fixed, apply_ite Prod.fst, apply_ite Prod.snd]

@[simp] theorem State.wr64_fixed (s : State) (lo : Nat) (v : Nat) :
    (State.wr64 s lo v).fixed = s.fixed := by
  unfold State.wr64
  simp [apply_ite State.fixed, apply_ite Prod.fst, apply_ite Prod.snd]

@[simp] theorem State.incr64_fixed (s : State) (lo : Nat) (n : Nat) :
    (State.incr64 s lo n).fixed = s.fixed := by
  unfold State.incr64
  simp [apply_ite State.fixed, apply_ite Prod.fst, apply_ite Prod.snd]

@[simp] theorem State.swr_fixed (s : State) (off : Nat) (v : Nat) :
    (State.swr s off v).fixed = s.fixed := by
  unfold State.swr
  simp [apply_ite State.fixed, apply_ite Prod.fst, apply_ite Prod.snd]

@[simp] theorem State.passTo_fixed (s : State) (c : Nat) :
    (State.passTo s c).fixed = s.fixed := by
  unfold State.passTo
  simp [apply_ite State.fixed, apply_ite Prod.fst, apply_ite Prod.snd]

@[simp] theorem State.aonEdge_fixed (s : State) :
    (State.aonEdge s).fixed = s.fixed := by
  unfold State.aonEdge
  simp [apply_ite State.fixed, apply_ite Prod.fst, apply_ite Prod.snd]

@[simp] theorem State.passToAon_fixed (s : State) (t : Nat) :
    (State.passToAon s t).fixed = s.fixed := by
  unfold State.passToAon
  simp [apply_ite State.fixed, apply_ite Prod.fst, apply_ite Prod.snd]

@[simp] theorem State.passBefore_fixed (s : State) (t : Nat) :
    (State.passBefore s t).fixed = s.fixed := by
  unfold State.passBefore
  simp [apply_ite State.fixed, apply_ite Prod.fst, apply_ite Prod.snd]

@[simp] theorem State.passToFleet_fixed (s : State) (t : Nat) :
    (State.passToFleet s t).fixed = s.fixed := by
  obtain ⟨_, _, h⟩ := State.passToFleet_shape s t
  rw [h]
  rfl

@[simp] theorem State.draw_fixed (s : State) :
    (State.draw s).fixed = s.fixed := by
  unfold State.draw
  simp [apply_ite State.fixed, apply_ite Prod.fst, apply_ite Prod.snd]

@[simp] theorem State.need_fixed (s : State) :
    (State.need s).fixed = s.fixed := by
  unfold State.need
  (repeat' split) <;> simp [apply_ite State.fixed, apply_ite Prod.fst, apply_ite Prod.snd]

@[simp] theorem State.watchWake_fixed (s : State) (n : Nat) :
    (State.watchWake s n).fixed = s.fixed := by
  unfold State.watchWake
  simp [apply_ite State.fixed, apply_ite Prod.fst, apply_ite Prod.snd]

@[simp] theorem State.doorbell_fixed (s : State) (n : Nat) (outside : Bool) :
    (State.doorbell s n outside).fixed = s.fixed := by
  unfold State.doorbell
  simp [apply_ite State.fixed, apply_ite Prod.fst, apply_ite Prod.snd]

@[simp] theorem State.raise_fixed (s : State) (n : Nat) :
    (State.raise s n).fixed = s.fixed := by
  unfold State.raise
  simp [apply_ite State.fixed, apply_ite Prod.fst, apply_ite Prod.snd]

@[simp] theorem State.unpend_fixed (s : State) (n : Nat) :
    (State.unpend s n).fixed = s.fixed := by
  unfold State.unpend
  simp [apply_ite State.fixed, apply_ite Prod.fst, apply_ite Prod.snd]

@[simp] theorem State.hostWrite_fixed (s : State) (addr : Nat) (data : List Byte) :
    (State.hostWrite s addr data).fixed = s.fixed := by
  unfold State.hostWrite
  simp [apply_ite State.fixed, apply_ite Prod.fst, apply_ite Prod.snd]

@[simp] theorem State.notice_fixed (s : State) (e : Nat) :
    (State.notice s e).fixed = s.fixed := by
  unfold State.notice
  simp [apply_ite State.fixed, apply_ite Prod.fst, apply_ite Prod.snd]

@[simp] theorem State.hostRead_fixed (s : State) (o : Owner) (lines : List Nat) (i : Nat) :
    (State.hostRead s o lines i).fixed = s.fixed := by
  unfold State.hostRead
  simp [apply_ite State.fixed, apply_ite Prod.fst, apply_ite Prod.snd]

@[simp] theorem State.fsAccess_fixed (s : State) (o : Owner) (write : Bool) (lines : List Nat) (i : Nat) :
    (State.fsAccess s o write lines i).fixed = s.fixed := by
  unfold State.fsAccess
  simp [apply_ite State.fixed, apply_ite Prod.fst, apply_ite Prod.snd]

@[simp] theorem State.sbufPut_fixed (s : State) (a : Nat) (bs : List Byte) :
    (State.sbufPut s a bs).fixed = s.fixed := by
  unfold State.sbufPut
  simp [apply_ite State.fixed, apply_ite Prod.fst, apply_ite Prod.snd]

@[simp] theorem State.dmWrite_fixed (s : State) (a : Nat) (bs : List Byte) :
    (State.dmWrite s a bs).fixed = s.fixed := by
  unfold State.dmWrite
  simp [apply_ite State.fixed, apply_ite Prod.fst, apply_ite Prod.snd]

@[simp] theorem State.fsWrite_fixed (s : State) (o : Owner) (a : Nat) (bs : List Byte) :
    (State.fsWrite s o a bs).fixed = s.fixed := by
  unfold State.fsWrite
  simp [apply_ite State.fixed, apply_ite Prod.fst, apply_ite Prod.snd]

end Sys2Proof.Machine
end

