-- ==== Sys2Proof/Laws/KeepsAdmission.lean ====
section
/-! SUPPORT. No function of Machine/Admission.lean changes what stays fixed while the block runs (`State.fixed`: the role,
the build's taps, the queue of waiting commands, the sixteen queues and lanes). -/

namespace Sys2Proof.Machine

set_option maxRecDepth 100000
set_option linter.all false

@[simp] theorem State.setLane_fixed (s : State) (n : Nat) (f : Lane → Lane) :
    (State.setLane s n f).fixed = s.fixed := by
  unfold State.setLane
  simp [apply_ite State.fixed, apply_ite Prod.fst, apply_ite Prod.snd]

@[simp] theorem State.setAssoc_fixed (s : State) (peer : Nat) (f : Assoc → Assoc) :
    (State.setAssoc s peer f).fixed = s.fixed := by
  unfold State.setAssoc
  simp [apply_ite State.fixed, apply_ite Prod.fst, apply_ite Prod.snd]

@[simp] theorem State.noteDepth_fixed (s : State) (q : Nat) :
    (State.noteDepth s q).fixed = s.fixed := by
  unfold State.noteDepth
  simp [apply_ite State.fixed, apply_ite Prod.fst, apply_ite Prod.snd]

@[simp] theorem State.enqueue_fixed (s : State) (cls : Nat) (e : QEntry) (x1_ : Dest) :
    (State.enqueue s cls e x1_).fixed = s.fixed := by
  unfold State.enqueue
  dsimp only
  (repeat' split) <;> simp [apply_ite State.fixed, apply_ite Prod.fst, apply_ite Prod.snd]

@[simp] theorem State.enqueueAll_fixed (s : State) (cls : Nat) (e : QEntry) (x1_ : List Dest) :
    (State.enqueueAll s cls e x1_).fixed = s.fixed := by
  induction x1_ generalizing s with
  | nil => rfl
  | cons d ds ih =>
    cases ds with
    | nil => simp [State.enqueueAll]
    | cons _ _ => rw [State.enqueueAll, ih]; simp; simp

@[simp] theorem State.leavePool_fixed (s : State) (src : Src) (cls : Nat) :
    (State.leavePool s src cls).fixed = s.fixed := by
  unfold State.leavePool
  (repeat' split) <;> simp [apply_ite State.fixed, apply_ite Prod.fst, apply_ite Prod.snd]

@[simp] theorem State.tickBuckets_fixed (s : State) :
    (State.tickBuckets s).fixed = s.fixed := by
  unfold State.tickBuckets
  simp [apply_ite State.fixed, apply_ite Prod.fst, apply_ite Prod.snd]

@[simp] theorem State.spendToken_fixed (s : State) (cls : Nat) :
    (State.spendToken s cls).fixed = s.fixed := by
  have a : ∀ b : Bucket, State.fixed { s with hl := { s.hl with bucketA := b } } = s.fixed := fun _ => rfl
  have c : ∀ b : Bucket, State.fixed { s with hl := { s.hl with bucketB := b } } = s.fixed := fun _ => rfl
  unfold State.spendToken
  split
  · exact a _
  · exact c _

@[simp] theorem State.noteRefusal_fixed (s : State) (cls : Nat) (unit : Nat) (summary : Bool) :
    (State.noteRefusal s cls unit summary).fixed = s.fixed := by
  unfold State.noteRefusal
  simp [apply_ite State.fixed, apply_ite Prod.fst, apply_ite Prod.snd]

@[simp] theorem State.noteSeen_fixed (s : State) (func : Nat) (pen : List Byte) :
    (State.noteSeen s func pen).fixed = s.fixed := by
  unfold State.noteSeen
  simp [apply_ite State.fixed, apply_ite Prod.fst, apply_ite Prod.snd]

@[simp] theorem State.admitted_fixed (s : State) (o : Offer) :
    (State.admitted s o).fixed = s.fixed := by
  unfold State.admitted
  (repeat' split) <;> simp [apply_ite State.fixed, apply_ite Prod.fst, apply_ite Prod.snd]

@[simp] theorem State.offerRaw_fixed (s : State) (o : Offer) :
    (State.offerRaw s o).2.fixed = s.fixed := by
  unfold State.offerRaw
  dsimp only
  (repeat' split) <;> simp [apply_ite State.fixed, apply_ite Prod.fst, apply_ite Prod.snd]

end Sys2Proof.Machine
end

