-- ==== Sys2Proof/Laws/KeepsRecord.lean ====
section
/-! SUPPORT. No function of Machine/Record.lean changes what stays fixed while the block runs (`State.fixed`: the role,
the build's taps, the queue of waiting commands, the sixteen queues and lanes). -/

namespace Sys2Proof.Machine

set_option maxRecDepth 100000
set_option linter.all false

@[simp] theorem State.addHeld_fixed (s : State) (n : Nat) :
    (State.addHeld s n).fixed = s.fixed := by
  unfold State.addHeld
  simp [apply_ite State.fixed, apply_ite Prod.fst, apply_ite Prod.snd]

@[simp] theorem State.offerReport_fixed (s : State) (r : EvRec) :
    (State.offerReport s r).fixed = s.fixed := by
  unfold State.offerReport
  simp [apply_ite State.fixed, apply_ite Prod.fst, apply_ite Prod.snd]

@[simp] theorem State.report_fixed (s : State) (r : EvRec) :
    (State.report s r).fixed = s.fixed := by
  unfold State.report
  simp [apply_ite State.fixed, apply_ite Prod.fst, apply_ite Prod.snd]

@[simp] theorem State.dropRecord_fixed (s : State) (cls : Nat) :
    (State.dropRecord s cls).fixed = s.fixed := by
  unfold State.dropRecord
  simp [apply_ite State.fixed, apply_ite Prod.fst, apply_ite Prod.snd]

@[simp] theorem State.enter1_fixed (s : State) (r : EvRec) :
    (State.enter1 s r).fixed = s.fixed := by
  unfold State.enter1
  simp [apply_ite State.fixed, apply_ite Prod.fst, apply_ite Prod.snd]

@[simp] theorem State.marker_fixed (s : State) :
    (State.marker s).fixed = s.fixed := by
  unfold State.marker
  simp [apply_ite State.fixed, apply_ite Prod.fst, apply_ite Prod.snd]

@[simp] theorem State.enterRec_fixed (s : State) (r : EvRec) :
    (State.enterRec s r).fixed = s.fixed := by
  unfold State.enterRec
  simp [apply_ite State.fixed, apply_ite Prod.fst, apply_ite Prod.snd]

@[simp] theorem State.record_fixed (s : State) (cls : Nat) (code : Nat) (unit : Nat) (inst : Nat) (arg : Nat) :
    (State.record s cls code unit inst arg).fixed = s.fixed := by
  unfold State.record
  simp [apply_ite State.fixed, apply_ite Prod.fst, apply_ite Prod.snd]

@[simp] theorem State.recordAon_fixed (s : State) (cls : Nat) (code : Nat) (unit : Nat) (inst : Nat) (arg : Nat) :
    (State.recordAon s cls code unit inst arg).fixed = s.fixed := by
  unfold State.recordAon
  simp [apply_ite State.fixed, apply_ite Prod.fst, apply_ite Prod.snd]

@[simp] theorem State.unhold_fixed (s : State) :
    (State.unhold s).fixed = s.fixed := by
  unfold State.unhold
  simp [apply_ite State.fixed, apply_ite Prod.fst, apply_ite Prod.snd]

@[simp] theorem State.fault_fixed (s : State) (code : Nat) (unit : Nat) (inst : Nat) (arg : Nat) :
    (State.fault s code unit inst arg).fixed = s.fixed := by
  unfold State.fault
  simp [apply_ite State.fixed, apply_ite Prod.fst, apply_ite Prod.snd]

@[simp] theorem State.faultAon_fixed (s : State) (code : Nat) (unit : Nat) (inst : Nat) (arg : Nat) :
    (State.faultAon s code unit inst arg).fixed = s.fixed := by
  unfold State.faultAon
  simp [apply_ite State.fixed, apply_ite Prod.fst, apply_ite Prod.snd]

@[simp] theorem State.refusal_fixed (s : State) (code : Nat) (unit : Nat) (inst : Nat) (arg : Nat) :
    (State.refusal s code unit inst arg).fixed = s.fixed := by
  unfold State.refusal
  simp [apply_ite State.fixed, apply_ite Prod.fst, apply_ite Prod.snd]

@[simp] theorem State.deadline_fixed (s : State) (unit : Nat) (inst : Nat) (late : Nat) :
    (State.deadline s unit inst late).fixed = s.fixed := by
  unfold State.deadline
  simp [apply_ite State.fixed, apply_ite Prod.fst, apply_ite Prod.snd]

@[simp] theorem State.refuseDown_fixed (s : State) (c : Nat) (unit : Nat) :
    (State.refuseDown s c unit).fixed = s.fixed := by
  unfold State.refuseDown
  simp [apply_ite State.fixed, apply_ite Prod.fst, apply_ite Prod.snd]

@[simp] theorem State.offer_fixed (s : State) (o : Offer) :
    (State.offer s o).2.fixed = s.fixed := by
  unfold State.offer
  simp [apply_ite State.fixed, apply_ite Prod.fst, apply_ite Prod.snd]

@[simp] theorem State.forward_fixed (s : State) (e : QEntry) (sink : Nat) :
    (State.forward s e sink).fixed = s.fixed := by
  unfold State.forward
  (repeat' split) <;> simp [apply_ite State.fixed, apply_ite Prod.fst, apply_ite Prod.snd]

@[simp] theorem State.resetOrder_fixed (s : State) (inst : Nat) :
    (State.resetOrder s inst).fixed = s.fixed := by
  unfold State.resetOrder
  simp [apply_ite State.fixed, apply_ite Prod.fst, apply_ite Prod.snd]

@[simp] theorem State.judgeOrder_fixed (s : State) :
    (State.judgeOrder s).fixed = s.fixed := by
  unfold State.judgeOrder
  dsimp only
  (repeat' split) <;> simp [apply_ite State.fixed, apply_ite Prod.fst, apply_ite Prod.snd]

@[simp] theorem State.looseRelease_fixed (s : State) (inst : Nat) (asserted : Bool) :
    (State.looseRelease s inst asserted).fixed = s.fixed := by
  unfold State.looseRelease
  simp [apply_ite State.fixed, apply_ite Prod.fst, apply_ite Prod.snd]

end Sys2Proof.Machine
end

