-- ==== Sys2Proof/Laws/KeepsRecorder.lean ====
section
/-! SUPPORT. No function of Machine/Recorder.lean changes what stays fixed while the block runs (`State.fixed`: the role,
the build's taps, the queue of waiting commands, the sixteen queues and lanes). -/

namespace Sys2Proof.Machine

set_option maxRecDepth 100000
set_option linter.all false

@[simp] theorem State.flStart_fixed (s : State) (erase : Bool) (a : Nat) (bs : List Byte) (who : Nat) :
    (State.flStart s erase a bs who).fixed = s.fixed := by
  unfold State.flStart
  simp [apply_ite State.fixed, apply_ite Prod.fst, apply_ite Prod.snd]

@[simp] theorem State.flPump_fixed (s : State) :
    (State.flPump s).fixed = s.fixed := by
  unfold State.flPump
  (repeat' split) <;> simp [apply_ite State.fixed, apply_ite Prod.fst, apply_ite Prod.snd]

@[simp] theorem State.flQueue_fixed (s : State) (ops : List (Nat × List Byte × Nat)) :
    (State.flQueue s ops).fixed = s.fixed := by
  unfold State.flQueue
  simp [apply_ite State.fixed, apply_ite Prod.fst, apply_ite Prod.snd]

@[simp] theorem State.logPut_fixed (s : State) (slot : Nat) (bs : List Byte) :
    (State.logPut s slot bs).fixed = s.fixed := by
  unfold State.logPut
  simp [apply_ite State.fixed, apply_ite Prod.fst, apply_ite Prod.snd]

@[simp] theorem State.logAppend_fixed (s : State) (r : EvRec) :
    (State.logAppend s r).fixed = s.fixed := by
  unfold State.logAppend
  simp [apply_ite State.fixed, apply_ite Prod.fst, apply_ite Prod.snd]

@[simp] theorem State.logRecordWrite_fixed (s : State) :
    (State.logRecordWrite s).fixed = s.fixed := by
  unfold State.logRecordWrite
  (repeat' split) <;> simp [apply_ite State.fixed, apply_ite Prod.fst, apply_ite Prod.snd]

@[simp] theorem State.endFreeze_fixed (s : State) :
    (State.endFreeze s).fixed = s.fixed := by
  unfold State.endFreeze
  simp [apply_ite State.fixed, apply_ite Prod.fst, apply_ite Prod.snd]

@[simp] theorem State.wFreeze_fixed (s : State) (v : Nat) :
    (State.wFreeze s v).fixed = s.fixed := by
  unfold State.wFreeze
  simp [apply_ite State.fixed, apply_ite Prod.fst, apply_ite Prod.snd]

@[simp] theorem State.eraseLog_fixed (s : State) :
    (State.eraseLog s).fixed = s.fixed := by
  unfold State.eraseLog
  simp [apply_ite State.fixed, apply_ite Prod.fst, apply_ite Prod.snd]

@[simp] theorem State.reseat_fixed (s : State) (rs : List EvRec) :
    (State.reseat s rs).fixed = s.fixed := by
  unfold State.reseat
  induction rs generalizing s with
  | nil => rfl
  | cons r rs ih => exact ih _

@[simp] theorem State.wClear_fixed (s : State) (v : Nat) :
    ∀ t_, State.wClear s v = some t_ → t_.fixed = s.fixed := by
  intro t_ h
  unfold State.wClear at h
  (repeat' split at h) <;> simp_all
  all_goals first | (subst h; simp [apply_ite State.fixed, apply_ite Prod.fst, apply_ite Prod.snd]) | (cases h; simp [apply_ite State.fixed, apply_ite Prod.fst, apply_ite Prod.snd]) | skip

@[simp] theorem State.lifeAppend_fixed (s : State) :
    (State.lifeAppend s).fixed = s.fixed := by
  unfold State.lifeAppend
  simp [apply_ite State.fixed, apply_ite Prod.fst, apply_ite Prod.snd]

@[simp] theorem State.lifeBlockRead_fixed (s : State) :
    (State.lifeBlockRead s).fixed = s.fixed := by
  unfold State.lifeBlockRead
  simp [apply_ite State.fixed, apply_ite Prod.fst, apply_ite Prod.snd]

@[simp] theorem State.applyLife_fixed (s : State) :
    (State.applyLife s).fixed = s.fixed := by
  unfold State.applyLife
  (repeat' split) <;> simp [apply_ite State.fixed, apply_ite Prod.fst, apply_ite Prod.snd]

@[simp] theorem State.wLife_fixed (s : State) (pcc : Bool) (v : Nat) :
    ∀ t_, State.wLife s pcc v = some t_ → t_.fixed = s.fixed := by
  intro t_ h
  unfold State.wLife at h
  (repeat' split at h) <;> simp_all
  all_goals first | (subst h; simp [apply_ite State.fixed, apply_ite Prod.fst, apply_ite Prod.snd]) | (cases h; simp [apply_ite State.fixed, apply_ite Prod.fst, apply_ite Prod.snd]) | skip

@[simp] theorem State.nvProgram_fixed (s : State) :
    (State.nvProgram s).fixed = s.fixed := by
  unfold State.nvProgram
  (repeat' split) <;> simp [apply_ite State.fixed, apply_ite Prod.fst, apply_ite Prod.snd]

@[simp] theorem State.logRebuild_fixed (s : State) :
    (State.logRebuild s).fixed = s.fixed := by
  unfold State.logRebuild
  simp [apply_ite State.fixed, apply_ite Prod.fst, apply_ite Prod.snd]

end Sys2Proof.Machine
end

