-- ==== Sys2Proof/Laws/KeepsSensors.lean ====
section
/-! SUPPORT. No function of Machine/Sensors.lean changes what stays fixed while the block runs (`State.fixed`: the role,
the build's taps, the queue of waiting commands, the sixteen queues and lanes). -/

namespace Sys2Proof.Machine

set_option maxRecDepth 100000
set_option linter.all false

@[simp] theorem State.thrRequest_fixed (s : State) (level : Nat) :
    (State.thrRequest s level).fixed = s.fixed := by
  unfold State.thrRequest
  simp [apply_ite State.fixed, apply_ite Prod.fst, apply_ite Prod.snd]

@[simp] theorem State.thrStep_fixed (s : State) :
    (State.thrStep s).fixed = s.fixed := by
  unfold State.thrStep
  dsimp only
  (repeat' split) <;> simp [apply_ite State.fixed, apply_ite Prod.fst, apply_ite Prod.snd]

@[simp] theorem State.thrFall_fixed (s : State) :
    (State.thrFall s).fixed = s.fixed := by
  unfold State.thrFall
  (repeat' split) <;> simp [apply_ite State.fixed, apply_ite Prod.fst, apply_ite Prod.snd]

@[simp] theorem State.thrRelease_fixed (s : State) :
    (State.thrRelease s).fixed = s.fixed := by
  unfold State.thrRelease
  (repeat' split) <;> simp [apply_ite State.fixed, apply_ite Prod.fst, apply_ite Prod.snd]

@[simp] theorem State.thrGrant_fixed (s : State) (level : Nat) :
    (State.thrGrant s level).fixed = s.fixed := by
  unfold State.thrGrant
  simp [apply_ite State.fixed, apply_ite Prod.fst, apply_ite Prod.snd]

@[simp] theorem State.sensorRead_fixed (s : State) (n : Nat) (v : Nat) :
    (State.sensorRead s n v).fixed = s.fixed := by
  unfold State.sensorRead
  simp [apply_ite State.fixed, apply_ite Prod.fst, apply_ite Prod.snd]

@[simp] theorem State.vinTake_fixed (s : State) (w : Nat) :
    (State.vinTake s w).fixed = s.fixed := by
  unfold State.vinTake
  (repeat' split) <;> simp [apply_ite State.fixed, apply_ite Prod.fst, apply_ite Prod.snd]

@[simp] theorem State.pbStart_fixed (s : State) :
    (State.pbStart s).fixed = s.fixed := by
  unfold State.pbStart
  (repeat' split) <;> simp [apply_ite State.fixed, apply_ite Prod.fst, apply_ite Prod.snd]

@[simp] theorem State.vinPoll_fixed (s : State) :
    (State.vinPoll s).fixed = s.fixed := by
  unfold State.vinPoll
  simp [apply_ite State.fixed, apply_ite Prod.fst, apply_ite Prod.snd]

@[simp] theorem State.wPbCmd_fixed (s : State) (v : Nat) :
    ∀ t_, State.wPbCmd s v = some t_ → t_.fixed = s.fixed := by
  intro t_ h
  unfold State.wPbCmd at h
  split at h
  · injection h with h
    rw [← h]
  · split at h
    · cases h
    · extract_lets was s1 s2 at h
      have h2 : s2.fixed = s.fixed := by simp [s2, s1, State.wPbCmd.putReserved]
      split at h
      · injection h with h
        have a : ∀ (t : State) (p : Pmbus), State.fixed { t with pb := p } = t.fixed := fun _ _ => rfl
        rw [← h, State.pbStart_fixed]
        exact (a ((s2.put Reg.PM_PB_CMD_go 1).put Reg.PM_PB_RSP_done 0) _).trans (by simp [h2])
      · injection h with h
        rw [← h]
        exact h2

@[simp] theorem State.pbDone_fixed (s : State) (k : PbKind) (code : Nat) (data : Nat) :
    (State.pbDone s k code data).fixed = s.fixed := by
  unfold State.pbDone
  dsimp only
  (repeat' split) <;> simp [apply_ite State.fixed, apply_ite Prod.fst, apply_ite Prod.snd]

@[simp] theorem State.pbEnd_fixed (s : State) (a : PbEnd) :
    (State.pbEnd s a).fixed = s.fixed := by
  unfold State.pbEnd
  split
  · rfl
  · split <;> simp [State.pbEnd.retry, apply_ite State.fixed, apply_ite Prod.fst, apply_ite Prod.snd]

@[simp] theorem State.wThrFw_fixed (s : State) (v : Nat) :
    (State.wThrFw s v).fixed = s.fixed := by
  unfold State.wThrFw
  simp [apply_ite State.fixed, apply_ite Prod.fst, apply_ite Prod.snd]

end Sys2Proof.Machine
end

