-- ==== Sys2Proof/Laws/KeepsQueues.lean ====
section
/-! SUPPORT. No function of Machine/Queues.lean changes what stays fixed while the block runs (`State.fixed`: the role,
the build's taps, the queue of waiting commands, the sixteen queues and lanes). -/

namespace Sys2Proof.Machine

set_option maxRecDepth 100000
set_option linter.all false

@[simp] theorem State.setQueue_fixed (s : State) (q : Nat) (f : Queue → Queue) :
    (State.setQueue s q f).fixed = s.fixed := by
  unfold State.setQueue
  simp [apply_ite State.fixed, apply_ite Prod.fst, apply_ite Prod.snd]

@[simp] theorem State.takeHead_fixed (s : State) (q : Nat) (slot : Nat) (c : List Byte) (held : Bool) :
    (State.takeHead s q slot c held).fixed = s.fixed := by
  unfold State.takeHead
  simp [apply_ite State.fixed, apply_ite Prod.fst, apply_ite Prod.snd]

@[simp] theorem State.finish_fixed (s : State) (q : Nat) (seq : Nat) (d : Done) :
    (State.finish s q seq d).fixed = s.fixed := by
  unfold State.finish
  simp [apply_ite State.fixed, apply_ite Prod.fst, apply_ite Prod.snd]

@[simp] theorem State.clearRank_fixed (s : State) (q : Nat) :
    (State.clearRank s q).fixed = s.fixed := by
  unfold State.clearRank
  simp [apply_ite State.fixed, apply_ite Prod.fst, apply_ite Prod.snd]

@[simp] theorem State.issue_fixed (s : State) (q : Nat) (op : Option Nat) (run hold : State → Nat → Flight → State)
    (h : ∀ t k f, (run t k f).fixed = t.fixed) (hh : ∀ t k f, (hold t k f).fixed = t.fixed) :
    (s.issue q op run hold).fixed = s.fixed := by
  unfold State.issue
  split
  · rfl
  · rename_i slot c _
    have h1 : ∀ b, (s.takeHead q slot c b).fixed = s.fixed := fun _ => State.takeHead_fixed _ _ _ _ _
    dsimp only
    refine ite_prop (P := fun x : State => x.fixed = s.fixed) rfl ?_
    split
    · rw [State.clearRank_fixed, State.finish_fixed]
      refine ite_prop (P := fun x : State => x.fixed = s.fixed) ?_ (h1 _)
      rw [State.fault_fixed, h1]
    · rw [State.clearRank_fixed]
      refine ite_prop (P := fun x : State => x.fixed = s.fixed) ?_ ?_
      · rw [hh, h1]
      · rw [h, h1]

@[simp] theorem State.setFlag_fixed (s : State) (f : Nat) (v : Bool) :
    (State.setFlag s f v).fixed = s.fixed := by
  unfold State.setFlag
  simp [apply_ite State.fixed, apply_ite Prod.fst, apply_ite Prod.snd]

@[simp] theorem State.walks_fixed (s : State) (qs : List Nat) :
    (State.walks s qs).fixed = s.fixed := by
  unfold State.walks
  refine foldl_fixed _ (fun t x => ?_) _ _
  split <;> simp

@[simp] theorem State.rewalk_fixed (s : State) :
    (State.rewalk s).fixed = s.fixed := by
  unfold State.rewalk
  simp [apply_ite State.fixed, apply_ite Prod.fst, apply_ite Prod.snd]

@[simp] theorem State.edgesMoved_fixed (s t : State) :
    (s.edgesMoved t).fixed = t.fixed := by
  unfold State.edgesMoved
  dsimp only
  split <;> simp

@[simp] theorem State.runFlag_fixed (v : Bool) (s : State) (q : Nat) (f : Flight) :
    (State.runFlag v s q f).fixed = s.fixed := by
  unfold State.runFlag
  simp [apply_ite State.fixed, apply_ite Prod.fst, apply_ite Prod.snd]

@[simp] theorem State.runWaitFlag_fixed (s : State) (q : Nat) (f : Flight) :
    (State.runWaitFlag s q f).fixed = s.fixed := by
  unfold State.runWaitFlag
  simp [apply_ite State.fixed, apply_ite Prod.fst, apply_ite Prod.snd]

@[simp] theorem State.waitSatisfied_fixed (s : State) (q : Nat) :
    (State.waitSatisfied s q).fixed = s.fixed := by
  unfold State.waitSatisfied
  (repeat' split) <;> simp [apply_ite State.fixed, apply_ite Prod.fst, apply_ite Prod.snd]

@[simp] theorem State.cycleFound_fixed (s : State) (q : Nat) :
    (State.cycleFound s q).fixed = s.fixed := by
  unfold State.cycleFound
  dsimp only
  (repeat' split) <;> simp [apply_ite State.fixed, apply_ite Prod.fst, apply_ite Prod.snd]

@[simp] theorem State.waitTimeout_fixed (s : State) (q : Nat) :
    (State.waitTimeout s q).fixed = s.fixed := by
  unfold State.waitTimeout
  (repeat' split) <;> simp [apply_ite State.fixed, apply_ite Prod.fst, apply_ite Prod.snd]

@[simp] theorem State.runWaitTime_fixed (s : State) (q : Nat) (f : Flight) :
    (State.runWaitTime s q f).fixed = s.fixed := by
  unfold State.runWaitTime
  simp [apply_ite State.fixed, apply_ite Prod.fst, apply_ite Prod.snd]

@[simp] theorem State.waitTimeReached_fixed (s : State) (q : Nat) :
    (State.waitTimeReached s q).fixed = s.fixed := by
  unfold State.waitTimeReached
  (repeat' split) <;> simp [apply_ite State.fixed, apply_ite Prod.fst, apply_ite Prod.snd]

@[simp] theorem State.runFence_fixed (s : State) (q : Nat) (f : Flight) :
    (State.runFence s q f).fixed = s.fixed := by
  unfold State.runFence
  simp [apply_ite State.fixed, apply_ite Prod.fst, apply_ite Prod.snd]

@[simp] theorem State.ringPut_fixed (s : State) (dest : Nat) (ents : Nat) (addr : Nat) (wr : Nat) (rd : Nat) (bs : List Byte) :
    ∀ t_, State.ringPut s dest ents addr wr rd bs = some (some t_) → t_.fixed = s.fixed := by
  intro t_ h
  unfold State.ringPut at h
  (repeat' split at h) <;> simp_all
  all_goals first | (subst h; simp [apply_ite State.fixed, apply_ite Prod.fst, apply_ite Prod.snd]) | (cases h; simp [apply_ite State.fixed, apply_ite Prod.fst, apply_ite Prod.snd]) | skip

@[simp] theorem State.cplWrite_fixed (s : State) (q : Nat) (f : Flight) (d : Done) :
    (State.cplWrite s q f d).fixed = s.fixed := by
  unfold State.cplWrite
  dsimp only
  split
  · simp
  · simp
  · rename_i h
    simp [State.ringPut_fixed _ _ _ _ _ _ _ _ h]

@[simp] theorem State.writePout_fixed (s : State) (c : List Byte) (code : Nat) :
    (State.writePout s c code).fixed = s.fixed := by
  unfold State.writePout
  simp [apply_ite State.fixed, apply_ite Prod.fst, apply_ite Prod.snd]

@[simp] theorem State.haltQueue_fixed (s : State) (q : Nat) (slot : Nat) (bank : Nat) (code : Nat) :
    (State.haltQueue s q slot bank code).fixed = s.fixed := by
  unfold State.haltQueue
  simp [apply_ite State.fixed, apply_ite Prod.fst, apply_ite Prod.snd]

@[simp] theorem State.cplRecordFault_fixed (s : State) (q : Nat) (f : Flight) (d : Done) :
    (State.cplRecordFault s q f d).fixed = s.fixed := by
  unfold State.cplRecordFault
  simp [apply_ite State.fixed, apply_ite Prod.fst, apply_ite Prod.snd]

@[simp] theorem State.complete_fixed (s : State) (q : Nat) (f : Flight) (d : Done) :
    (State.complete s q f d).fixed = s.fixed := by
  unfold State.complete
  simp [apply_ite State.fixed, apply_ite Prod.fst, apply_ite Prod.snd]

@[simp] theorem State.commandCompletion_fixed (s : State) (q : Nat) (slot : Nat) :
    (State.commandCompletion s q slot).fixed = s.fixed := by
  unfold State.commandCompletion
  (repeat' split) <;> simp [apply_ite State.fixed, apply_ite Prod.fst, apply_ite Prod.snd]

@[simp] theorem State.plovWatchdog_fixed (s : State) (q : Nat) :
    (State.plovWatchdog s q).fixed = s.fixed := by
  unfold State.plovWatchdog
  dsimp only
  (repeat' split) <;> simp [apply_ite State.fixed, apply_ite Prod.fst, apply_ite Prod.snd]

@[simp] theorem State.wRing_fixed (s : State) (off : Nat) (v : Nat) :
    ∀ t_, State.wRing s off v = some t_ → t_.fixed = s.fixed := by
  intro t_ h
  unfold State.wRing at h
  dsimp only at h
  (repeat' split at h) <;> first | cases h | skip
  all_goals simp_all [apply_ite State.fixed, apply_ite Prod.fst, apply_ite Prod.snd]

@[simp] theorem State.refuseTail_fixed (s : State) (q : Nat) :
    (State.refuseTail s q).fixed = s.fixed := by
  unfold State.refuseTail
  simp [apply_ite State.fixed, apply_ite Prod.fst, apply_ite Prod.snd]

@[simp] theorem State.wTail_fixed (s : State) (q : Nat) (v : Nat) :
    (State.wTail s q v).1.fixed = s.fixed := by
  unfold State.wTail
  simp [apply_ite State.fixed, apply_ite Prod.fst, apply_ite Prod.snd]

@[simp] theorem State.wSwap_fixed (s : State) (q : Nat) (v : Nat) :
    ∀ t_, State.wSwap s q v = some t_ → t_.fixed = s.fixed := by
  intro t_ h
  unfold State.wSwap at h
  dsimp only at h
  (repeat' split at h) <;> first | cases h | skip
  all_goals simp_all [apply_ite State.fixed, apply_ite Prod.fst, apply_ite Prod.snd]

@[simp] theorem State.bankSwap_fixed (s : State) (q : Nat) :
    (State.bankSwap s q).fixed = s.fixed := by
  unfold State.bankSwap
  (repeat' split) <;> simp [apply_ite State.fixed, apply_ite Prod.fst, apply_ite Prod.snd]

@[simp] theorem State.retirePending_fixed (q : Nat) (x1_ : Nat) (s : State) :
    (State.retirePending q x1_ s).fixed = s.fixed := by
  induction x1_ generalizing s with
  | zero => rfl
  | succ n ih =>
    unfold State.retirePending
    split
    · rfl
    · rw [ih]; simp

@[simp] theorem State.completeAborted_fixed (s : State) (q : Nat) :
    (State.completeAborted s q).fixed = s.fixed := by
  unfold State.completeAborted
  simp [apply_ite State.fixed, apply_ite Prod.fst, apply_ite Prod.snd]

@[simp] theorem State.queueReset_fixed (s : State) (q : Nat) :
    (State.queueReset s q).fixed = s.fixed := by
  unfold State.queueReset
  dsimp only
  (repeat' split) <;> simp [apply_ite State.fixed, apply_ite Prod.fst, apply_ite Prod.snd]

@[simp] theorem State.queueResume_fixed (s : State) (q : Nat) :
    (State.queueResume s q).fixed = s.fixed := by
  unfold State.queueResume
  simp [apply_ite State.fixed, apply_ite Prod.fst, apply_ite Prod.snd]

@[simp] theorem State.wQctrl_fixed (s : State) (q : Nat) (v : Nat) :
    (State.wQctrl s q v).fixed = s.fixed := by
  unfold State.wQctrl
  simp [apply_ite State.fixed, apply_ite Prod.fst, apply_ite Prod.snd]

@[simp] theorem State.wPredSet_fixed (s : State) (v : Nat) :
    (State.wPredSet s v).fixed = s.fixed := by
  unfold State.wPredSet
  simp [apply_ite State.fixed, apply_ite Prod.fst, apply_ite Prod.snd]

@[simp] theorem State.wPredClr_fixed (s : State) (v : Nat) :
    (State.wPredClr s v).fixed = s.fixed := by
  unfold State.wPredClr
  simp [apply_ite State.fixed, apply_ite Prod.fst, apply_ite Prod.snd]

@[simp] theorem State.wFlagExt_fixed (s : State) (v : Nat) (on : Bool) :
    ∀ t_, State.wFlagExt s v on = some t_ → t_.fixed = s.fixed := by
  intro t_ h
  unfold State.wFlagExt at h
  dsimp only at h
  (repeat' split at h) <;> first | cases h | skip
  all_goals simp_all [apply_ite State.fixed, apply_ite Prod.fst, apply_ite Prod.snd]

end Sys2Proof.Machine
end

