-- ==== Sys2Proof/Laws/KeepsTimeBase.lean ====
section
/-! SUPPORT. No function of Machine/TimeBase.lean changes what stays fixed while the block runs (`State.fixed`: the role,
the build's taps, the queue of waiting commands, the sixteen queues and lanes). -/

namespace Sys2Proof.Machine

set_option maxRecDepth 100000
set_option linter.all false

@[simp] theorem State.setRate_fixed (s : State) (r : Int) :
    (State.setRate s r).fixed = s.fixed := by
  unfold State.setRate
  simp [apply_ite State.fixed, apply_ite Prod.fst, apply_ite Prod.snd]

@[simp] theorem State.lapWatch_fixed (s : State) :
    (State.lapWatch s).fixed = s.fixed := by
  unfold State.lapWatch
  simp [apply_ite State.fixed, apply_ite Prod.fst, apply_ite Prod.snd]

@[simp] theorem State.stepTime_fixed (s : State) (d : Int) :
    (State.stepTime s d).fixed = s.fixed := by
  unfold State.stepTime
  simp [apply_ite State.fixed, apply_ite Prod.fst, apply_ite Prod.snd]

@[simp] theorem State.wRate_fixed (s : State) (v : Nat) :
    ∀ t_, State.wRate s v = some t_ → t_.fixed = s.fixed := by
  intro t_ h
  unfold State.wRate at h
  (repeat' split at h) <;> simp_all
  all_goals first | (subst h; simp [apply_ite State.fixed, apply_ite Prod.fst, apply_ite Prod.snd]) | (cases h; simp [apply_ite State.fixed, apply_ite Prod.fst, apply_ite Prod.snd]) | skip

@[simp] theorem State.alignTo_fixed (s : State) (st : Nat) (src : Bool) :
    (State.alignTo s st src).fixed = s.fixed := by
  unfold State.alignTo
  simp [apply_ite State.fixed, apply_ite Prod.fst, apply_ite Prod.snd]

@[simp] theorem State.holdover_fixed (s : State) :
    (State.holdover s).fixed = s.fixed := by
  unfold State.holdover
  simp [apply_ite State.fixed, apply_ite Prod.fst, apply_ite Prod.snd]

@[simp] theorem State.servoStep_fixed (s : State) (theta : Int) :
    (State.servoStep s theta).fixed = s.fixed := by
  unfold State.servoStep
  simp [apply_ite State.fixed, apply_ite Prod.fst, apply_ite Prod.snd]

@[simp] theorem State.slew_fixed (s : State) (theta : Int) (T : Nat) :
    (State.slew s theta T).fixed = s.fixed := by
  unfold State.slew
  simp [apply_ite State.fixed, apply_ite Prod.fst, apply_ite Prod.snd]

@[simp] theorem State.update_fixed (s : State) (theta : Int) (delay : Int) (T : Nat) (ok : Bool) :
    (State.update s theta delay T ok).fixed = s.fixed := by
  unfold State.update
  simp [apply_ite State.fixed, apply_ite Prod.fst, apply_ite Prod.snd]

@[simp] theorem State.exchangeDone_fixed (s : State) (t1 : Nat) (t2 : Nat) (t3 : Nat) (t4 : Nat) :
    (State.exchangeDone s t1 t2 t3 t4).fixed = s.fixed := by
  unfold State.exchangeDone
  dsimp only
  (repeat' split) <;> simp [apply_ite State.fixed, apply_ite Prod.fst, apply_ite Prod.snd]

@[simp] theorem State.exchangeLost_fixed (s : State) :
    (State.exchangeLost s).fixed = s.fixed := by
  unfold State.exchangeLost
  (repeat' split) <;> simp [apply_ite State.fixed, apply_ite Prod.fst, apply_ite Prod.snd]

@[simp] theorem State.exchangeStart_fixed (s : State) :
    (State.exchangeStart s).fixed = s.fixed := by
  unfold State.exchangeStart
  dsimp only
  (repeat' split) <;> simp [apply_ite State.fixed, apply_ite Prod.fst, apply_ite Prod.snd]

@[simp] theorem State.wTbCtrl_fixed (s : State) (v : Nat) :
    (State.wTbCtrl s v).fixed = s.fixed := by
  unfold State.wTbCtrl
  simp [apply_ite State.fixed, apply_ite Prod.fst, apply_ite Prod.snd]

@[simp] theorem State.timeCommit_fixed (s : State) :
    (State.timeCommit s).fixed = s.fixed := by
  unfold State.timeCommit
  simp [apply_ite State.fixed, apply_ite Prod.fst, apply_ite Prod.snd]

@[simp] theorem State.syncLeaves_fixed (s : State) (lane : Bool) (blk : List Byte) :
    (State.syncLeaves s lane blk).1.fixed = s.fixed := by
  unfold State.syncLeaves
  (repeat' split) <;> simp [apply_ite State.fixed, apply_ite Prod.fst, apply_ite Prod.snd]

@[simp] theorem State.syncArrives_fixed (s : State) (lane : Bool) (now : Nat) (blk : List Byte) :
    (State.syncArrives s lane now blk).1.fixed = s.fixed := by
  unfold State.syncArrives
  (repeat' split) <;> simp [apply_ite State.fixed, apply_ite Prod.fst, apply_ite Prod.snd]

@[simp] theorem State.wTod_fixed (s : State) (v : Nat) :
    ∀ t_, State.wTod s v = some t_ → t_.fixed = s.fixed := by
  intro t_ h
  unfold State.wTod at h
  (repeat' split at h) <;> simp_all
  all_goals first | (subst h; simp [apply_ite State.fixed, apply_ite Prod.fst, apply_ite Prod.snd]) | (cases h; simp [apply_ite State.fixed, apply_ite Prod.fst, apply_ite Prod.snd]) | skip

@[simp] theorem State.ppsEdge_fixed (s : State) (tick : Nat) :
    (State.ppsEdge s tick).fixed = s.fixed := by
  unfold State.ppsEdge
  dsimp only
  (repeat' split) <;> simp [apply_ite State.fixed, apply_ite Prod.fst, apply_ite Prod.snd]

@[simp] theorem State.captureEdge_fixed (s : State) (k : Nat) (tick : Nat) :
    (State.captureEdge s k tick).fixed = s.fixed := by
  unfold State.captureEdge
  dsimp only
  (repeat' split) <;> simp [apply_ite State.fixed, apply_ite Prod.fst, apply_ite Prod.snd]

@[simp] theorem State.capRead_fixed (s : State) (k : Nat) :
    (State.capRead s k).fixed = s.fixed := by
  unfold State.capRead
  simp [apply_ite State.fixed, apply_ite Prod.fst, apply_ite Prod.snd]

@[simp] theorem State.setPulse_fixed (s : State) (k : Nat) (f : Pulse → Pulse) :
    (State.setPulse s k f).fixed = s.fixed := by
  unfold State.setPulse
  simp [apply_ite State.fixed, apply_ite Prod.fst, apply_ite Prod.snd]

@[simp] theorem State.pulseArm_fixed (s : State) (k : Nat) :
    (State.pulseArm s k).fixed = s.fixed := by
  unfold State.pulseArm
  simp [apply_ite State.fixed, apply_ite Prod.fst, apply_ite Prod.snd]

@[simp] theorem State.passToEdge_fixed (s : State) (k : Nat) (t : Nat) :
    (State.passToEdge s k t).fixed = s.fixed := by
  unfold State.passToEdge
  simp [apply_ite State.fixed, apply_ite Prod.fst, apply_ite Prod.snd]

@[simp] theorem State.pulseFire_fixed (s : State) (k : Nat) :
    (State.pulseFire s k).fixed = s.fixed := by
  unfold State.pulseFire
  (repeat' split) <;> simp [apply_ite State.fixed, apply_ite Prod.fst, apply_ite Prod.snd]

end Sys2Proof.Machine
end

