-- ==== Sys2Proof/Laws/KeepsLanes.lean ====
section
/-! SUPPORT. No function of Machine/Lanes.lean changes what stays fixed while the block runs (`State.fixed`: the role,
the build's taps, the queue of waiting commands, the sixteen queues and lanes). -/

namespace Sys2Proof.Machine

set_option maxRecDepth 100000
set_option linter.all false

@[simp] theorem State.stewardRx_fixed (s : State) (bs : List Byte) (kind : Nat) (via : Nat) (at_ : Nat) :
    (State.stewardRx s bs kind via at_).fixed = s.fixed := by
  unfold State.stewardRx
  dsimp only
  split
  · rename_i h
    simp [State.ringPut_fixed _ _ _ _ _ _ _ _ h]
  · simp

@[simp] theorem State.sendOut_fixed (s : State) (egress : Nat) (bs : List Byte) :
    (State.sendOut s egress bs).fixed = s.fixed := by
  unfold State.sendOut
  simp [apply_ite State.fixed, apply_ite Prod.fst, apply_ite Prod.snd]

@[simp] theorem State.laneTo_fixed (s : State) (n : Nat) (st : Nat) :
    (State.laneTo s n st).fixed = s.fixed := by
  unfold State.laneTo
  simp [apply_ite State.fixed, apply_ite Prod.fst, apply_ite Prod.snd]

@[simp] theorem State.backToSrc_fixed (s : State) (e : QEntry) :
    (State.backToSrc s e).fixed = s.fixed := by
  unfold State.backToSrc
  simp [apply_ite State.fixed, apply_ite Prod.fst, apply_ite Prod.snd]

@[simp] theorem State.moveBlocks_fixed (s : State) (n : Nat) :
    (State.moveBlocks s n).fixed = s.fixed := by
  unfold State.moveBlocks
  simp [apply_ite State.fixed, apply_ite Prod.fst, apply_ite Prod.snd]

@[simp] theorem State.gatherQueues_fixed (s : State) (n : Nat) :
    (State.gatherQueues s n).fixed = s.fixed := by
  unfold State.gatherQueues
  simp [apply_ite State.fixed, apply_ite Prod.fst, apply_ite Prod.snd]

@[simp] theorem State.laneTrain_fixed (s : State) (n : Nat) :
    (State.laneTrain s n).fixed = s.fixed := by
  unfold State.laneTrain
  simp [apply_ite State.fixed, apply_ite Prod.fst, apply_ite Prod.snd]

@[simp] theorem State.laneStart_fixed (s : State) (n : Nat) (lock : Bool) :
    (State.laneStart s n lock).fixed = s.fixed := by
  unfold State.laneStart
  simp [apply_ite State.fixed, apply_ite Prod.fst, apply_ite Prod.snd]

@[simp] theorem State.hold_fixed (s : State) (a : Arrival) :
    (State.hold s a).fixed = s.fixed := by
  unfold State.hold
  simp [apply_ite State.fixed, apply_ite Prod.fst, apply_ite Prod.snd]

@[simp] theorem State.laneAnnounce_fixed (s : State) (n : Nat) :
    (State.laneAnnounce s n).fixed = s.fixed := by
  unfold State.laneAnnounce
  simp [apply_ite State.fixed, apply_ite Prod.fst, apply_ite Prod.snd]

@[simp] theorem State.laneLockLoss_fixed (s : State) (n : Nat) :
    (State.laneLockLoss s n).fixed = s.fixed := by
  unfold State.laneLockLoss
  simp [apply_ite State.fixed, apply_ite Prod.fst, apply_ite Prod.snd]

@[simp] theorem State.laneRetrain_fixed (s : State) (n : Nat) :
    (State.laneRetrain s n).fixed = s.fixed := by
  unfold State.laneRetrain
  simp [apply_ite State.fixed, apply_ite Prod.fst, apply_ite Prod.snd]

@[simp] theorem State.dropEntry_fixed (s : State) (cls : Nat) (e : QEntry) :
    (State.dropEntry s cls e).fixed = s.fixed := by
  unfold State.dropEntry
  simp [apply_ite State.fixed, apply_ite Prod.fst, apply_ite Prod.snd]

@[simp] theorem State.laneReset_fixed (s : State) (n : Nat) (asserted : Bool) :
    (State.laneReset s n asserted).fixed = s.fixed := by
  have a : ∀ (t : State) (x : List Arrival), State.fixed { t with hl := { t.hl with arrived := x } } = t.fixed := fun _ _ => rfl
  unfold State.laneReset
  dsimp only
  split
  · split
    · refine (a _ _).trans ?_
      rw [State.setLane_fixed, foldl_fixed _ (fun t e => State.dropEntry_fixed t _ _), State.fixed_pw]
    · rw [State.recordAon_fixed]
      refine (a _ _).trans ?_
      rw [State.setLane_fixed, foldl_fixed _ (fun t e => State.dropEntry_fixed t _ _), State.fixed_pw]
  · rw [State.fixed_pw]

@[simp] theorem State.noteVer_fixed (s : State) (n : Nat) :
    (State.noteVer s n).fixed = s.fixed := by
  unfold State.noteVer
  simp [apply_ite State.fixed, apply_ite Prod.fst, apply_ite Prod.snd]

@[simp] theorem State.laneServe_fixed (s : State) (n : Nat) :
    (State.laneServe s n).fixed = s.fixed := by
  unfold State.laneServe
  simp [apply_ite State.fixed, apply_ite Prod.fst, apply_ite Prod.snd]

@[simp] theorem State.laneAck_fixed (s : State) (n : Nat) (ack : Nat) :
    (State.laneAck s n ack).fixed = s.fixed := by
  unfold State.laneAck
  simp [apply_ite State.fixed, apply_ite Prod.fst, apply_ite Prod.snd]

@[simp] theorem State.laneReplay_fixed (s : State) (n : Nat) (from_ : Nat) (timeout : Bool) :
    (State.laneReplay s n from_ timeout).fixed = s.fixed := by
  unfold State.laneReplay
  simp [apply_ite State.fixed, apply_ite Prod.fst, apply_ite Prod.snd]

@[simp] theorem State.laneEscalate_fixed (s : State) (n : Nat) :
    (State.laneEscalate s n).fixed = s.fixed := by
  unfold State.laneEscalate
  simp [apply_ite State.fixed, apply_ite Prod.fst, apply_ite Prod.snd]

@[simp] theorem State.laneTimeout_fixed (s : State) (n : Nat) :
    (State.laneTimeout s n).fixed = s.fixed := by
  unfold State.laneTimeout
  dsimp only
  (repeat' split) <;> simp [apply_ite State.fixed, apply_ite Prod.fst, apply_ite Prod.snd]

@[simp] theorem State.shapeSpend_fixed (s : State) (egress : Nat) (cls : Nat) (n : Nat) :
    (State.shapeSpend s egress cls n).fixed = s.fixed := by
  unfold State.shapeSpend
  simp [apply_ite State.fixed, apply_ite Prod.fst, apply_ite Prod.snd]

@[simp] theorem State.noteDelay_fixed (s : State) (q : Nat) (e : QEntry) :
    (State.noteDelay s q e).fixed = s.fixed := by
  unfold State.noteDelay
  simp [apply_ite State.fixed, apply_ite Prod.fst, apply_ite Prod.snd]

@[simp] theorem State.withhold_fixed (s : State) (n : Nat) :
    (State.withhold s n).fixed = s.fixed := by
  unfold State.withhold
  simp [apply_ite State.fixed, apply_ite Prod.fst, apply_ite Prod.snd]

@[simp] theorem State.sendBlock_fixed (s : State) (n : Nat) (bs : List Byte) (link : Bool) :
    (State.sendBlock s n bs link).fixed = s.fixed := by
  unfold State.sendBlock
  simp [apply_ite State.fixed, apply_ite Prod.fst, apply_ite Prod.snd]

@[simp] theorem State.sendPennant_fixed (s : State) (n : Nat) (c : Nat) (e : QEntry) :
    (State.sendPennant s n c e).fixed = s.fixed := by
  unfold State.sendPennant
  simp [apply_ite State.fixed, apply_ite Prod.fst, apply_ite Prod.snd]

@[simp] theorem State.laneBoundary_fixed (s : State) (n : Nat) :
    (State.laneBoundary s n).fixed = s.fixed := by
  unfold State.laneBoundary
  dsimp only
  (repeat' split) <;> simp [apply_ite State.fixed, apply_ite Prod.fst, apply_ite Prod.snd]

@[simp] theorem State.laneWord_fixed (s : State) (n : Nat) (cw : List Byte) :
    (State.laneWord s n cw).1.fixed = s.fixed := by
  unfold State.laneWord
  (repeat' split) <;> simp [apply_ite State.fixed, apply_ite Prod.fst, apply_ite Prod.snd]

@[simp] theorem State.trainBlock_fixed (s : State) (n : Nat) (bs : Option (List Byte)) :
    (State.trainBlock s n bs).fixed = s.fixed := by
  unfold State.trainBlock
  (repeat' split) <;> simp [apply_ite State.fixed, apply_ite Prod.fst, apply_ite Prod.snd]

@[simp] theorem State.laneNak_fixed (s : State) (n : Nat) :
    (State.laneNak s n).fixed = s.fixed := by
  unfold State.laneNak
  simp [apply_ite State.fixed, apply_ite Prod.fst, apply_ite Prod.snd]

@[simp] theorem State.laneControl_fixed (s : State) (n : Nat) (now : Nat) (b : List Byte) :
    (State.laneControl s n now b).fixed = s.fixed := by
  unfold State.laneControl
  (repeat' split) <;> simp [apply_ite State.fixed, apply_ite Prod.fst, apply_ite Prod.snd]

@[simp] theorem State.lanePennant_fixed (s : State) (n : Nat) (good : Bool) :
    (State.lanePennant s n good).1.fixed = s.fixed := by
  unfold State.lanePennant
  simp [apply_ite State.fixed, apply_ite Prod.fst, apply_ite Prod.snd]

@[simp] theorem State.laneRx_fixed (s : State) (n now : Nat) (block : List Byte) (next : State → List Byte → State)
    (h : ∀ t b, (next t b).fixed = t.fixed) :
    (s.laneRx n now block next).fixed = s.fixed := by
  unfold State.laneRx
  dsimp only
  repeat' split
  all_goals simp [h]

end Sys2Proof.Machine
end

