-- ==== Sys2Proof/Laws/KeepsEthernet.lean ====
section
/-! SUPPORT. No function of Machine/Ethernet.lean changes what stays fixed while the block runs (`State.fixed`: the role,
the build's taps, the queue of waiting commands, the sixteen queues and lanes). -/

namespace Sys2Proof.Machine

set_option maxRecDepth 100000
set_option linter.all false

@[simp] theorem State.dupCheck_fixed (s : State) (pen : List Byte) (src : Src) :
    (State.dupCheck s pen src).2.fixed = s.fixed := by
  unfold State.dupCheck
  dsimp only
  (repeat' split) <;> simp [apply_ite State.fixed, apply_ite Prod.fst, apply_ite Prod.snd]

@[simp] theorem State.countVer_fixed (s : State) (prev : Bool) :
    (State.countVer s prev).fixed = s.fixed := by
  unfold State.countVer
  simp [apply_ite State.fixed, apply_ite Prod.fst, apply_ite Prod.snd]

@[simp] theorem State.refuseVer_fixed (s : State) (src : Src) (cls : Nat) :
    (State.refuseVer s src cls).fixed = s.fixed := by
  unfold State.refuseVer
  simp [apply_ite State.fixed, apply_ite Prod.fst, apply_ite Prod.snd]

@[simp] theorem State.mirror_fixed (s : State) (pen : List Byte) :
    (State.mirror s pen).fixed = s.fixed := by
  unfold State.mirror
  simp [apply_ite State.fixed, apply_ite Prod.fst, apply_ite Prod.snd]

@[simp] theorem State.place_fixed (s : State) (e : QEntry) (typ : Nat) :
    (State.place s e typ).fixed = s.fixed := by
  unfold State.place
  simp [apply_ite State.fixed, apply_ite Prod.fst, apply_ite Prod.snd]

@[simp] theorem State.arrive_fixed (s : State) (src : Src) (via : Nat) (ver : Nat) (pcpClass : Option Nat) (pen : List Byte) :
    (State.arrive s src via ver pcpClass pen).fixed = s.fixed := by
  unfold State.arrive
  (repeat' split) <;> simp [apply_ite State.fixed, apply_ite Prod.fst, apply_ite Prod.snd]

@[simp] theorem State.plovBlock_fixed (s : State) (n : Nat) (d : List Byte) :
    (State.plovBlock s n d).fixed = s.fixed := by
  unfold State.plovBlock
  simp [apply_ite State.fixed, apply_ite Prod.fst, apply_ite Prod.snd]

@[simp] theorem State.noteSlot_fixed (s : State) (n : Nat) (classC : Bool) :
    (State.noteSlot s n classC).fixed = s.fixed := by
  unfold State.noteSlot
  simp [apply_ite State.fixed, apply_ite Prod.fst, apply_ite Prod.snd]

@[simp] theorem State.laneReceive_fixed (s : State) (n : Nat) (now : Nat) (block : List Byte) :
    (State.laneReceive s n now block).fixed = s.fixed := by
  unfold State.laneReceive
  simp [apply_ite State.fixed, apply_ite Prod.fst, apply_ite Prod.snd]

@[simp] theorem State.assocRefresh_fixed (s : State) :
    (State.assocRefresh s).fixed = s.fixed := by
  unfold State.assocRefresh
  simp [apply_ite State.fixed, apply_ite Prod.fst, apply_ite Prod.snd]

@[simp] theorem State.assocOpen_fixed (s : State) (p : Nat) :
    (State.assocOpen s p).fixed = s.fixed := by
  unfold State.assocOpen
  (repeat' split) <;> simp [apply_ite State.fixed, apply_ite Prod.fst, apply_ite Prod.snd]

@[simp] theorem State.assocAnnounce_fixed (s : State) (p : Nat) :
    (State.assocAnnounce s p).fixed = s.fixed := by
  unfold State.assocAnnounce
  (repeat' split) <;> simp [apply_ite State.fixed, apply_ite Prod.fst, apply_ite Prod.snd]

@[simp] theorem State.ackTimer_fixed (s : State) (p : Nat) :
    (State.ackTimer s p).fixed = s.fixed := by
  unfold State.ackTimer
  (repeat' split) <;> simp [apply_ite State.fixed, apply_ite Prod.fst, apply_ite Prod.snd]

@[simp] theorem State.giveUp_fixed (s : State) (e : QEntry) (inst : Nat) (hop : Nat) :
    (State.giveUp s e inst hop).fixed = s.fixed := by
  unfold State.giveUp
  simp [apply_ite State.fixed, apply_ite Prod.fst, apply_ite Prod.snd]

@[simp] theorem State.assocLost_fixed (s : State) (p : Nat) :
    (State.assocLost s p).fixed = s.fixed := by
  unfold State.assocLost
  (repeat' split) <;> simp [apply_ite State.fixed, apply_ite Prod.fst, apply_ite Prod.snd]

@[simp] theorem State.assocRto_fixed (s : State) (p : Nat) :
    (State.assocRto s p).fixed = s.fixed := by
  unfold State.assocRto
  dsimp only
  (repeat' split) <;> simp [apply_ite State.fixed, apply_ite Prod.fst, apply_ite Prod.snd]

@[simp] theorem State.portsMoved_fixed (s : State) (old : List (Nat × Option Nat)) :
    (State.portsMoved s old).fixed = s.fixed := by
  unfold State.portsMoved
  simp [apply_ite State.fixed, apply_ite Prod.fst, apply_ite Prod.snd]

@[simp] theorem State.linkChange_fixed (s : State) (p : Nat) (up : Bool) :
    (State.linkChange s p up).fixed = s.fixed := by
  unfold State.linkChange
  simp [apply_ite State.fixed, apply_ite Prod.fst, apply_ite Prod.snd]

@[simp] theorem State.portReset_fixed (s : State) (p : Nat) (asserted : Bool) :
    (State.portReset s p asserted).fixed = s.fixed := by
  unfold State.portReset
  simp [apply_ite State.fixed, apply_ite Prod.fst, apply_ite Prod.snd]

@[simp] theorem State.sendFrame_fixed (s : State) (p : Nat) (a : Assoc) (cls : Nat) (ver : Nat) (fseq : Nat) (flags : Nat) (blocks : List (List Byte)) :
    (State.sendFrame s p a cls ver fseq flags blocks).fixed = s.fixed := by
  unfold State.sendFrame
  simp [apply_ite State.fixed, apply_ite Prod.fst, apply_ite Prod.snd]

@[simp] theorem State.sendControl_fixed (s : State) (p : Nat) (a : Assoc) (b : List Byte) (rest : List (List Byte)) :
    (State.sendControl s p a b rest).fixed = s.fixed := by
  unfold State.sendControl
  simp [apply_ite State.fixed, apply_ite Prod.fst, apply_ite Prod.snd]

@[simp] theorem State.noteSat_fixed (s : State) (c : Nat) (e : QEntry) :
    (State.noteSat s c e).fixed = s.fixed := by
  unfold State.noteSat
  simp [apply_ite State.fixed, apply_ite Prod.fst, apply_ite Prod.snd]

@[simp] theorem State.sendNew_fixed (s : State) (p : Nat) (a : Assoc) (c : Nat) :
    (State.sendNew s p a c).fixed = s.fixed := by
  unfold State.sendNew
  simp [apply_ite State.fixed, apply_ite Prod.fst, apply_ite Prod.snd]

@[simp] theorem State.portBoundary_fixed (s : State) (p : Nat) :
    (State.portBoundary s p).fixed = s.fixed := by
  unfold State.portBoundary
  dsimp only
  (repeat' split) <;> simp [apply_ite State.fixed, apply_ite Prod.fst, apply_ite Prod.snd]

@[simp] theorem State.egressBoundary_fixed (s : State) (e : Nat) :
    (State.egressBoundary s e).fixed = s.fixed := by
  unfold State.egressBoundary
  simp [apply_ite State.fixed, apply_ite Prod.fst, apply_ite Prod.snd]

@[simp] theorem State.police_fixed (s : State) (p : Nat) (c : Nat) (len : Nat) :
    (State.police s p c len).2.fixed = s.fixed := by
  unfold State.police
  simp [apply_ite State.fixed, apply_ite Prod.fst, apply_ite Prod.snd]

@[simp] theorem State.frameHeader_fixed (s : State) (peer : Nat) (f : List Byte) :
    (State.frameHeader s peer f).fixed = s.fixed := by
  unfold State.frameHeader
  simp [apply_ite State.fixed, apply_ite Prod.fst, apply_ite Prod.snd]

@[simp] theorem State.frameControl_fixed (s : State) (peer : Nat) (now : Nat) (b : List Byte) :
    (State.frameControl s peer now b).fixed = s.fixed := by
  unfold State.frameControl
  (repeat' split) <;> simp [apply_ite State.fixed, apply_ite Prod.fst, apply_ite Prod.snd]

@[simp] theorem State.frameTaken_fixed (s : State) (p : Nat) (peer : Nat) (pcp : Nat) (f : List Byte) (blocks : List (List Byte)) :
    (State.frameTaken s p peer pcp f blocks).fixed = s.fixed := by
  unfold State.frameTaken
  dsimp only
  (repeat' split) <;> simp [apply_ite State.fixed, apply_ite Prod.fst, apply_ite Prod.snd]

@[simp] theorem State.frameReceive_fixed (s : State) (p : Nat) (now : Nat) (f : List Byte) (fcsErr : Bool) :
    (State.frameReceive s p now f fcsErr).fixed = s.fixed := by
  unfold State.frameReceive
  dsimp only
  (repeat' split) <;> simp [apply_ite State.fixed, apply_ite Prod.fst, apply_ite Prod.snd]

@[simp] theorem State.queuedBound_fixed (s : State) (n : Nat) :
    (State.queuedBound s n).fixed = s.fixed := by
  unfold State.queuedBound
  (repeat' split) <;> simp [apply_ite State.fixed, apply_ite Prod.fst, apply_ite Prod.snd]

@[simp] theorem State.summary_fixed (s : State) :
    (State.summary s).fixed = s.fixed := by
  have key : ∀ (t : State) (c d : Refusals) (p : Prop) [Decidable p],
      State.fixed (if p then { t with hl := { t.hl with refs := c } } else { t with hl := { t.hl with refs := d } }) = t.fixed := by
    intro t c d p _
    split <;> rfl
  unfold State.summary
  dsimp only
  split
  · rfl
  · rw [key, State.offer_fixed, State.passToFleet_fixed]

@[simp] theorem State.runSend_fixed (s : State) (q : Nat) (f : Flight) :
    (State.runSend s q f).fixed = s.fixed := by
  unfold State.runSend
  simp [apply_ite State.fixed, apply_ite Prod.fst, apply_ite Prod.snd]

@[simp] theorem State.halyardLatch_fixed (s : State) :
    (State.halyardLatch s).fixed = s.fixed := by
  unfold State.halyardLatch
  simp [apply_ite State.fixed, apply_ite Prod.fst, apply_ite Prod.snd]

end Sys2Proof.Machine
end

