-- ==== Sys2Proof/Laws/KeepsReduction.lean ====
section
/-! SUPPORT. No function of Machine/Reduction.lean changes what stays fixed while the block runs (`State.fixed`: the role,
the build's taps, the queue of waiting commands, the sixteen queues and lanes). -/

namespace Sys2Proof.Machine

set_option maxRecDepth 100000
set_option linter.all false

@[simp] theorem State.countExcl_fixed (s : State) (code : Nat) :
    (State.countExcl s code).fixed = s.fixed := by
  unfold State.countExcl
  simp [apply_ite State.fixed, apply_ite Prod.fst, apply_ite Prod.snd]

@[simp] theorem State.setRed_fixed (s : State) (f : Reduction → Reduction) :
    (State.setRed s f).fixed = s.fixed := by
  unfold State.setRed
  simp [apply_ite State.fixed, apply_ite Prod.fst, apply_ite Prod.snd]

@[simp] theorem State.setEntry_fixed (s : State) (base : Nat) (f : Entry → Entry) :
    (State.setEntry s base f).fixed = s.fixed := by
  unfold State.setEntry
  simp [apply_ite State.fixed, apply_ite Prod.fst, apply_ite Prod.snd]

@[simp] theorem State.orphan_fixed (s : State) :
    (State.orphan s).fixed = s.fixed := by
  unfold State.orphan
  dsimp only
  (repeat' split) <;> simp [apply_ite State.fixed, apply_ite Prod.fst, apply_ite Prod.snd]

@[simp] theorem State.takeInto_fixed (s : State) (en : Entry) (who : Nat) (pen : List Byte) :
    (State.takeInto s en who pen).fixed = s.fixed := by
  unfold State.takeInto
  dsimp only
  (repeat' split) <;> simp [apply_ite State.fixed, apply_ite Prod.fst, apply_ite Prod.snd]

@[simp] theorem State.takePart_fixed (s : State) (pen : List Byte) :
    (State.takePart s pen).fixed = s.fixed := by
  unfold State.takePart
  dsimp only
  (repeat' split) <;> simp [apply_ite State.fixed, apply_ite Prod.fst, apply_ite Prod.snd]

@[simp] theorem State.foldOne_fixed (c : Content) (r : Range) (level : Nat) (D : Nat) (series : Nat) (mask : Nat) (en : Entry) (acc : State × Folded) (who : Nat) :
    (State.foldOne c r level D series mask en acc who).1.fixed = acc.1.fixed := by
  unfold State.foldOne
  dsimp only
  (repeat' split) <;> simp [apply_ite State.fixed, apply_ite Prod.fst, apply_ite Prod.snd]

@[simp] theorem State.foldStrays_fixed (s : State) (c : Content) (level : Nat) (D : Nat) (en : Entry) :
    (State.foldStrays s c level D en).fixed = s.fixed := by
  unfold State.foldStrays
  extract_lets ps ks
  refine foldl_fixed _ (fun t k => ?_) _ _
  split
  · rfl
  · split
    · exact State.countExcl_fixed _ _
    · rfl

@[simp] theorem State.foldSeries_fixed (s : State) (c : Content) (r : Range) (level : Nat) (D : Nat) (series : Nat) (mask : Nat) (en : Entry) :
    (State.foldSeries s c r level D series mask en).1.fixed = s.fixed := by
  unfold State.foldSeries
  extract_lets a f
  show a.1.fixed = s.fixed
  unfold a
  rw [foldl_fixed_fst]
  intro t x
  exact State.foldOne_fixed c r level D series mask en t x

@[simp] theorem State.emit_fixed (s : State) (level : Nat) (job : Nat) (pay : List Byte) :
    (State.emit s level job pay).fixed = s.fixed := by
  unfold State.emit
  simp [apply_ite State.fixed, apply_ite Prod.fst, apply_ite Prod.snd]

@[simp] theorem State.freeEntry_fixed (s : State) (base : Nat) :
    (State.freeEntry s base).fixed = s.fixed := by
  unfold State.freeEntry
  (repeat' split) <;> simp [apply_ite State.fixed, apply_ite Prod.fst, apply_ite Prod.snd]

@[simp] theorem State.endEpoch_fixed (s : State) (base : Nat) :
    (State.endEpoch s base).fixed = s.fixed := by
  unfold State.endEpoch
  (repeat' split) <;> simp [apply_ite State.fixed, apply_ite Prod.fst, apply_ite Prod.snd]

@[simp] theorem State.foldNow_fixed (s : State) (en : Entry) :
    (State.foldNow s en).fixed = s.fixed := by
  unfold State.foldNow
  dsimp only
  (repeat' split) <;> simp [apply_ite State.fixed, apply_ite Prod.fst, apply_ite Prod.snd]

@[simp] theorem State.foldStart_fixed (s : State) (base : Nat) :
    (State.foldStart s base).fixed = s.fixed := by
  unfold State.foldStart
  (repeat' split) <;> simp [apply_ite State.fixed, apply_ite Prod.fst, apply_ite Prod.snd]

@[simp] theorem State.epochFold_fixed (s : State) (base : Nat) :
    (State.epochFold s base).fixed = s.fixed := by
  unfold State.epochFold
  (repeat' split) <;> simp [apply_ite State.fixed, apply_ite Prod.fst, apply_ite Prod.snd]

@[simp] theorem State.heldResponse_fixed (s : State) (base : Nat) (slot : Nat) (write : Bool) (err : Bool) :
    (State.heldResponse s base slot write err).fixed = s.fixed := by
  unfold State.heldResponse
  dsimp only
  (repeat' split) <;> simp [apply_ite State.fixed, apply_ite Prod.fst, apply_ite Prod.snd]

@[simp] theorem State.fsRing_fixed (s : State) (base : Nat) (size : Nat) (wr : Nat) (rd : Nat) (bs : List Byte) :
    ∀ t_, State.fsRing s base size wr rd bs = some t_ → t_.fixed = s.fixed := by
  intro t_ h
  unfold State.fsRing at h
  (repeat' split at h) <;> simp_all
  all_goals first | (subst h; simp [apply_ite State.fixed, apply_ite Prod.fst, apply_ite Prod.snd]) | (cases h; simp [apply_ite State.fixed, apply_ite Prod.fst, apply_ite Prod.snd]) | skip

@[simp] theorem State.resultPennant_fixed (s : State) (r : Result) (pay : List Byte) :
    (State.resultPennant s r pay).1.fixed = s.fixed := by
  unfold State.resultPennant
  simp [apply_ite State.fixed, apply_ite Prod.fst, apply_ite Prod.snd]

@[simp] theorem State.ringResult_fixed (s : State) (bs : List Byte) :
    (State.ringResult s bs).fixed = s.fixed := by
  unfold State.ringResult
  have h := State.fsRing_fixed s (s.get Reg.RD_RING_AREA_base * 2 ^ 20) (min 1024 (s.get Reg.RD_RING_AREA_size) * 2 ^ 20)
    (s.rd Reg.RD_RING_WR) (s.rd Reg.RD_RING_RD) bs
  revert h
  generalize s.fsRing _ _ _ _ _ = o
  intro h
  cases o with
  | none => exact State.bump_fixed s _ _
  | some t => rw [Option.elim_some, State.incr_fixed, h t rfl]

@[simp] theorem State.published_fixed (s : State) (base : Nat) :
    (State.published s base).fixed = s.fixed := by
  unfold State.published
  extract_lets s1
  have h1 : s1.fixed = s.fixed := State.need_fixed s
  split
  · exact h1
  · split
    · split
      · rw [State.foldStart_fixed, h1]
      · rw [State.endEpoch_fixed, h1]
    · exact h1

@[simp] theorem State.publish_fixed (s : State) :
    (State.publish s).1.fixed = s.fixed := by
  unfold State.publish
  split
  · rfl
  · dsimp only
    rw [State.published_fixed, State.raise_fixed, State.bump_fixed, State.ringResult_fixed, foldl_fixed_fst]
    · dsimp only
      split
      · rw [State.setRed_fixed]
      · rw [State.deadline_fixed, State.bump_fixed, State.setRed_fixed]
    · intro t x
      exact State.resultPennant_fixed _ _ _

@[simp] theorem State.wTsExcl_fixed (s : State) (v : Nat) :
    (State.wTsExcl s v).fixed = s.fixed := by
  unfold State.wTsExcl
  simp [apply_ite State.fixed, apply_ite Prod.fst, apply_ite Prod.snd]

@[simp] theorem State.redLatch_fixed (s : State) :
    (State.redLatch s).fixed = s.fixed := by
  unfold State.redLatch
  simp [apply_ite State.fixed, apply_ite Prod.fst, apply_ite Prod.snd]

end Sys2Proof.Machine
end

