-- ==== Sys2Proof/Laws/KeepsCounters.lean ====
section
/-! SUPPORT. No function of Machine/Counters.lean changes what stays fixed while the block runs (`State.fixed`: the role,
the build's taps, the queue of waiting commands, the sixteen queues and lanes). -/

namespace Sys2Proof.Machine

set_option maxRecDepth 100000
set_option linter.all false

@[simp] theorem State.evStep_fixed (s : State) (levels : Nat) (k : Nat) :
    (State.evStep s levels k).fixed = s.fixed := by
  unfold State.evStep
  simp [apply_ite State.fixed, apply_ite Prod.fst, apply_ite Prod.snd]

@[simp] theorem State.eventInputs_fixed (s : State) (levels : Nat) :
    (State.eventInputs s levels).fixed = s.fixed := by
  unfold State.eventInputs
  simp [apply_ite State.fixed, apply_ite Prod.fst, apply_ite Prod.snd]

@[simp] theorem State.gapCount_fixed (s : State) :
    (State.gapCount s).fixed = s.fixed := by
  unfold State.gapCount
  simp [apply_ite State.fixed, apply_ite Prod.fst, apply_ite Prod.snd]

@[simp] theorem State.btStep_fixed (s : State) (incs : Nat) (b : Nat) :
    (State.btStep s incs b).fixed = s.fixed := by
  unfold State.btStep
  simp [apply_ite State.fixed, apply_ite Prod.fst, apply_ite Prod.snd]

@[simp] theorem State.bunting_fixed (s : State) (incs : Nat) :
    (State.bunting s incs).fixed = s.fixed := by
  unfold State.bunting
  simp [apply_ite State.fixed, apply_ite Prod.fst, apply_ite Prod.snd]

@[simp] theorem State.setMon_fixed (s : State) (h : Nat) (m : Monitor) :
    (State.setMon s h m).fixed = s.fixed := by
  unfold State.setMon
  simp [apply_ite State.fixed, apply_ite Prod.fst, apply_ite Prod.snd]

@[simp] theorem State.monStep_fixed (s : State) (levels : Nat) (h : Nat) :
    (State.monStep s levels h).fixed = s.fixed := by
  unfold State.monStep
  simp [apply_ite State.fixed, apply_ite Prod.fst, apply_ite Prod.snd]

end Sys2Proof.Machine
end

