-- ==== Sys2Proof/Laws/KeepsSampling.lean ====
section
/-! SUPPORT. No function of Machine/Sampling.lean changes what stays fixed while the block runs (`State.fixed`: the role,
the build's taps, the queue of waiting commands, the sixteen queues and lanes). -/

namespace Sys2Proof.Machine

set_option maxRecDepth 100000
set_option linter.all false

@[simp] theorem State.setCf_fixed (s : State) (f : Counters → Counters) :
    (State.setCf s f).fixed = s.fixed := by
  unfold State.setCf
  simp [apply_ite State.fixed, apply_ite Prod.fst, apply_ite Prod.snd]

@[simp] theorem State.mirrorOf_fixed (s : State) :
    (State.mirrorOf s).fixed = s.fixed := by
  unfold State.mirrorOf
  simp [apply_ite State.fixed, apply_ite Prod.fst, apply_ite Prod.snd]

@[simp] theorem State.takeBank_fixed (s : State) (b : Bank) :
    (State.takeBank s b).fixed = s.fixed := by
  unfold State.takeBank
  simp [apply_ite State.fixed, apply_ite Prod.fst, apply_ite Prod.snd]

@[simp] theorem State.latchEnts_fixed (s : State) (ks : List Nat) :
    (State.latchEnts s ks).2.fixed = s.fixed := by
  unfold State.latchEnts
  simp [apply_ite State.fixed, apply_ite Prod.fst, apply_ite Prod.snd]

@[simp] theorem State.makeRoom_fixed (s : State) (a : Nat) (n : Nat) (x1_ : List (Nat × Nat)) :
    (State.makeRoom s a n x1_).fixed = s.fixed := by
  induction x1_ generalizing s with
  | nil => simp [State.makeRoom]
  | cons r rs ih =>
    unfold State.makeRoom
    split
    · simp
    · rw [ih]; simp

@[simp] theorem State.areaPut_fixed (s : State) (a : Nat) (wr : Nat) (bs : List Byte) :
    (State.areaPut s a wr bs).fixed = s.fixed := by
  unfold State.areaPut
  simp [apply_ite State.fixed, apply_ite Prod.fst, apply_ite Prod.snd]

@[simp] theorem State.areaWrite_fixed (s : State) (b : Bank) :
    (State.areaWrite s b).2.fixed = s.fixed := by
  unfold State.areaWrite
  simp [apply_ite State.fixed, apply_ite Prod.fst, apply_ite Prod.snd]

@[simp] theorem State.wAreaRd_fixed (s : State) (a : Nat) (v : Nat) :
    (State.wAreaRd s a v).fixed = s.fixed := by
  unfold State.wAreaRd
  simp [apply_ite State.fixed, apply_ite Prod.fst, apply_ite Prod.snd]

@[simp] theorem State.planArm_fixed (s : State) (p : Nat) :
    (State.planArm s p).fixed = s.fixed := by
  unfold State.planArm
  simp [apply_ite State.fixed, apply_ite Prod.fst, apply_ite Prod.snd]

@[simp] theorem State.clearMons_fixed (s : State) (hs : List Nat) :
    (State.clearMons s hs).fixed = s.fixed := by
  unfold State.clearMons
  simp [apply_ite State.fixed, apply_ite Prod.fst, apply_ite Prod.snd]

@[simp] theorem State.planLatch_fixed (s : State) (p : Nat) (due : Nat) :
    (State.planLatch s p due).fixed = s.fixed := by
  unfold State.planLatch
  dsimp only
  repeat' split
  all_goals simp [apply_ite State.fixed, apply_ite Prod.fst, apply_ite Prod.snd]

@[simp] theorem State.planDue_fixed (s : State) (p : Nat) :
    (State.planDue s p).fixed = s.fixed := by
  unfold State.planDue
  simp [apply_ite State.fixed, apply_ite Prod.fst, apply_ite Prod.snd]

@[simp] theorem State.resetRange_fixed (s : State) (q : Nat) (seq : Nat) (ents : List (Nat × Nat)) :
    (State.resetRange s q seq ents).fixed = s.fixed := by
  unfold State.resetRange
  simp [apply_ite State.fixed, apply_ite Prod.fst, apply_ite Prod.snd]

@[simp] theorem State.sampleLatch_fixed (s : State) (q : Nat) (f : Flight) :
    (State.sampleLatch s q f).fixed = s.fixed := by
  unfold State.sampleLatch
  dsimp only
  split <;> simp

@[simp] theorem State.runSample_fixed (s : State) (q : Nat) (f : Flight) :
    (State.runSample s q f).fixed = s.fixed := by
  unfold State.runSample
  simp [apply_ite State.fixed, apply_ite Prod.fst, apply_ite Prod.snd]

@[simp] theorem State.nextCycle_fixed (s : State) :
    (State.nextCycle s).fixed = s.fixed := by
  unfold State.nextCycle
  simp [apply_ite State.fixed, apply_ite Prod.fst, apply_ite Prod.snd]

@[simp] theorem State.issueCycle_fixed (s : State) :
    (State.issueCycle s).fixed = s.fixed := by
  unfold State.issueCycle
  simp [apply_ite State.fixed, apply_ite Prod.fst, apply_ite Prod.snd]

@[simp] theorem State.snapLatch_fixed (s : State) :
    (State.snapLatch s).fixed = s.fixed := by
  unfold State.snapLatch
  dsimp only
  repeat' split
  all_goals simp

@[simp] theorem State.bankDone_fixed (s : State) (b : Bank) (off : Nat) :
    (State.bankDone s b off).fixed = s.fixed := by
  unfold State.bankDone
  (repeat' split) <;> simp [apply_ite State.fixed, apply_ite Prod.fst, apply_ite Prod.snd]

@[simp] theorem State.sampleWaiters_fixed (l : List (Nat × Nat)) (s : State) :
    (State.sampleWaiters l s).fixed = s.fixed := by
  induction l generalizing s with
  | nil => exact State.setCf_fixed s _
  | cons x ws ih =>
    obtain ⟨q, seq⟩ := x
    unfold State.sampleWaiters
    split
    · rw [ih]
      split
      · split
        · exact State.runSample_fixed _ _ _
        · rfl
      · rfl
    · exact State.setCf_fixed s _

@[simp] theorem State.snapWaiters_fixed (n : Nat) (s : State) :
    (State.snapWaiters n s).fixed = s.fixed := by
  induction n generalizing s with
  | zero => rfl
  | succ n ih =>
    unfold State.snapWaiters
    split
    · rw [ih, State.snapLatch_fixed, State.setCf_fixed]
    · rfl

@[simp] theorem State.bankWaiters_fixed (s : State) :
    (State.bankWaiters s).fixed = s.fixed := by
  unfold State.bankWaiters
  dsimp only
  (repeat' split) <;> simp [apply_ite State.fixed, apply_ite Prod.fst, apply_ite Prod.snd]

@[simp] theorem State.bankDrain_fixed (s : State) :
    (State.bankDrain s).fixed = s.fixed := by
  unfold State.bankDrain
  (repeat' split) <;> simp [apply_ite State.fixed, apply_ite Prod.fst, apply_ite Prod.snd]

@[simp] theorem State.planSwap_fixed (s : State) (touched : Nat → Bool) :
    (State.planSwap s touched).fixed = s.fixed := by
  unfold State.planSwap
  refine foldl_fixed _ (fun t x => ?_) _ _
  dsimp only
  repeat' split
  all_goals simp

end Sys2Proof.Machine
end

