-- ==== Sys2Proof/Laws/KeepsScoring.lean ====
section
/-! SUPPORT. No function of Machine/Scoring.lean changes what stays fixed while the block runs (`State.fixed`: the role,
the build's taps, the queue of waiting commands, the sixteen queues and lanes). -/

namespace Sys2Proof.Machine

set_option maxRecDepth 100000
set_option linter.all false

@[simp] theorem State.scoreVector_fixed (s : State) (j : ScoreJob) :
    (State.scoreVector s j).1.fixed = s.fixed := by
  unfold State.scoreVector
  dsimp only
  split <;> simp [apply_ite State.fixed, apply_ite Prod.fst, apply_ite Prod.snd] <;> (repeat' split) <;> simp_all [apply_ite State.fixed, apply_ite Prod.fst, apply_ite Prod.snd]

@[simp] theorem State.scoreEnd_fixed (s : State) (j : ScoreJob) (code : Nat) (arg : Nat) :
    (State.scoreEnd s j code arg).fixed = s.fixed := by
  unfold State.scoreEnd
  simp [apply_ite State.fixed, apply_ite Prod.fst, apply_ite Prod.snd]

@[simp] theorem State.runScore_fixed (s : State) (q : Nat) (f : Flight) :
    (State.runScore s q f).fixed = s.fixed := by
  unfold State.runScore
  simp [apply_ite State.fixed, apply_ite Prod.fst, apply_ite Prod.snd]

@[simp] theorem State.heldScore_fixed (s : State) (q : Nat) (f : Flight) :
    (State.heldScore s q f).fixed = s.fixed := by
  unfold State.heldScore
  simp [apply_ite State.fixed, apply_ite Prod.fst, apply_ite Prod.snd]

@[simp] theorem State.scoreDone_fixed (s : State) (q : Nat) :
    (State.scoreDone s q).fixed = s.fixed := by
  unfold State.scoreDone
  simp [apply_ite State.fixed, apply_ite Prod.fst, apply_ite Prod.snd]
  (repeat' split) <;> simp_all [apply_ite State.fixed, apply_ite Prod.fst, apply_ite Prod.snd]

@[simp] theorem State.scoreBound_fixed (s : State) (q : Nat) :
    (State.scoreBound s q).fixed = s.fixed := by
  unfold State.scoreBound
  (repeat' split) <;> simp [apply_ite State.fixed, apply_ite Prod.fst, apply_ite Prod.snd]

@[simp] theorem State.scoreLatch_fixed (s : State) :
    (State.scoreLatch s).fixed = s.fixed := by
  unfold State.scoreLatch
  simp [apply_ite State.fixed, apply_ite Prod.fst, apply_ite Prod.snd]

end Sys2Proof.Machine
end

