-- ==== Sys2Proof/Laws/KeepsTaint.lean ====
section
/-! SUPPORT. No function of Machine/Taint.lean changes what stays fixed while the block runs (`State.fixed`: the role,
the build's taps, the queue of waiting commands, the sixteen queues and lanes). -/

namespace Sys2Proof.Machine

set_option maxRecDepth 100000
set_option linter.all false

@[simp] theorem State.setCk_fixed (s : State) (f : Taps → Taps) :
    (State.setCk s f).fixed = s.fixed := by
  unfold State.setCk
  simp [apply_ite State.fixed, apply_ite Prod.fst, apply_ite Prod.snd]

@[simp] theorem State.setRcp_fixed (s : State) (i : Nat) (e : Recipient) :
    (State.setRcp s i e).fixed = s.fixed := by
  unfold State.setRcp
  simp [apply_ite State.fixed, apply_ite Prod.fst, apply_ite Prod.snd]

@[simp] theorem State.rcpEvict_fixed (s : State) (e : Recipient) :
    (State.rcpEvict s e).fixed = s.fixed := by
  unfold State.rcpEvict
  simp [apply_ite State.fixed, apply_ite Prod.fst, apply_ite Prod.snd]

@[simp] theorem State.rcpPut_fixed (s : State) (e : Recipient) (x1_ : Option Nat) (x2_ : Option Nat) :
    (State.rcpPut s e x1_ x2_).fixed = s.fixed := by
  unfold State.rcpPut
  split <;> simp

@[simp] theorem State.recordRcp_fixed (s : State) (step : Nat) (peer : Nat) (unattr : Bool) (tap : Nat) :
    (State.recordRcp s step peer unattr tap).fixed = s.fixed := by
  unfold State.recordRcp
  dsimp only
  (repeat' split) <;> simp [apply_ite State.fixed, apply_ite Prod.fst, apply_ite Prod.snd]

@[simp] theorem State.taintRecord_fixed (s : State) (pay : List Byte) (flags : Nat) (origin : Nat) (sent : Nat) :
    (State.taintRecord s pay flags origin sent).fixed = s.fixed := by
  unfold State.taintRecord
  dsimp only
  rw [State.notice_fixed]
  split
  · simp
  · simp
  · rename_i h
    simp [State.ringPut_fixed _ _ _ _ _ _ _ _ h]

@[simp] theorem State.taintLate_fixed (s : State) (pen : List Byte) :
    (State.taintLate s pen).fixed = s.fixed := by
  unfold State.taintLate
  simp [apply_ite State.fixed, apply_ite Prod.fst, apply_ite Prod.snd]

@[simp] theorem State.taintReceived_fixed (s : State) (pen : List Byte) :
    (State.taintReceived s pen).fixed = s.fixed := by
  unfold State.taintReceived
  simp [apply_ite State.fixed, apply_ite Prod.fst, apply_ite Prod.snd]

@[simp] theorem State.offerTaint_fixed (s : State) (d : Detection) (target : Nat) (seq : Nat) (det : Nat) (inc : Bool) (wide : Bool) :
    (State.offerTaint s d target seq det inc wide).2.fixed = s.fixed := by
  unfold State.offerTaint
  simp [apply_ite State.fixed, apply_ite Prod.fst, apply_ite Prod.snd]

@[simp] theorem State.taintSweep_fixed (s : State) :
    (State.taintSweep s).fixed = s.fixed := by
  unfold State.taintSweep
  simp [apply_ite State.fixed, apply_ite Prod.fst, apply_ite Prod.snd]

@[simp] theorem State.setTaint_fixed (s : State) (i : Nat) (e : Option TaintEntry) :
    (State.setTaint s i e).fixed = s.fixed := by
  unfold State.setTaint
  simp [apply_ite State.fixed, apply_ite Prod.fst, apply_ite Prod.snd]

@[simp] theorem State.taintEntry_fixed (s : State) (step : Nat) :
    (State.taintEntry s step).2.fixed = s.fixed := by
  unfold State.taintEntry
  split
  · rfl
  · dsimp only
    repeat' split
    all_goals simp

@[simp] theorem State.taintSend_fixed (d : Detection) (seq det : Nat) (inc : Bool) (l : List Nat) (x : State × List Nat) :
    (State.taintSend d seq det inc l x).1.fixed = x.1.fixed := by
  induction l generalizing x with
  | nil => rfl
  | cons t ts ih =>
    obtain ⟨s, ok⟩ := x
    unfold State.taintSend
    rw [ih]
    split <;> simp

@[simp] theorem State.taintSpread_fixed (s : State) (d : Detection) (seq : Nat) (det : Nat) (inc : Bool) (targets : List Nat) :
    (State.taintSpread s d seq det inc targets).1.fixed = s.fixed := by
  unfold State.taintSpread
  dsimp only
  split
  · rw [State.taintSend_fixed]
  · rw [State.taintSend_fixed]

@[simp] theorem State.taintWide_fixed (s : State) (d : Detection) (seq : Nat) (det : Nat) :
    (State.taintWide s d seq det).1.fixed = s.fixed := by
  unfold State.taintWide
  dsimp only
  split <;> simp

@[simp] theorem State.taintSent_fixed (s : State) (i : Nat) (inc : Bool) (ts : List Nat) :
    (State.taintSent s i inc ts).fixed = s.fixed := by
  unfold State.taintSent
  simp [apply_ite State.fixed, apply_ite Prod.fst, apply_ite Prod.snd]

@[simp] theorem State.taintEnd_fixed (d : Detection) (entry : Option Nat) (seq det : Nat) (fresh sent : List Nat) (r : State × List Nat × Bool) :
    (State.taintEnd d entry seq det fresh sent r).fixed = r.1.fixed := by
  unfold State.taintEnd
  extract_lets self wide w s1 s2
  have hw : w.1.fixed = r.1.fixed := by
    unfold w
    split
    · exact State.taintWide_fixed _ _ _ _
    · rfl
  have h1 : s1.fixed = r.1.fixed := by
    unfold s1
    split
    · rw [State.setCk_fixed]; exact hw
    · exact hw
  have h2 : s2.fixed = r.1.fixed := by
    unfold s2
    split
    · rw [State.taintSent_fixed]; exact h1
    · exact h1
  split
  · rw [State.taintRecord_fixed]; exact h2
  · exact h2

@[simp] theorem State.detect_fixed (s : State) (d : Detection) :
    (State.detect s d).fixed = s.fixed := by
  have he : (if d.any then (none, s) else s.taintEntry d.step).2.fixed = s.fixed := by
    split
    · rfl
    · exact State.taintEntry_fixed _ _
  unfold State.detect
  dsimp only
  rw [State.taintEnd_fixed, State.taintSpread_fixed, apply_ite State.fixed, State.bump_fixed, State.bump_fixed, ite_self]
  exact he

@[simp] theorem State.taintExpire_fixed (s : State) (i : Nat) :
    (State.taintExpire s i).fixed = s.fixed := by
  unfold State.taintExpire
  (repeat' split) <;> simp [apply_ite State.fixed, apply_ite Prod.fst, apply_ite Prod.snd]

@[simp] theorem State.jackTo_fixed (s : State) (st : Nat) :
    (State.jackTo s st).fixed = s.fixed := by
  unfold State.jackTo
  simp [apply_ite State.fixed, apply_ite Prod.fst, apply_ite Prod.snd]

@[simp] theorem State.jackLate_fixed (s : State) :
    (State.jackLate s).fixed = s.fixed := by
  unfold State.jackLate
  simp [apply_ite State.fixed, apply_ite Prod.fst, apply_ite Prod.snd]

@[simp] theorem State.jack_fixed (s : State) (local_ : Bool) :
    (State.jack s local_).fixed = s.fixed := by
  unfold State.jack
  simp [apply_ite State.fixed, apply_ite Prod.fst, apply_ite Prod.snd]

@[simp] theorem State.jackRelease_fixed (s : State) :
    (State.jackRelease s).fixed = s.fixed := by
  unfold State.jackRelease
  simp [apply_ite State.fixed, apply_ite Prod.fst, apply_ite Prod.snd]

@[simp] theorem State.wDrained_fixed (s : State) (v : Nat) :
    (State.wDrained s v).fixed = s.fixed := by
  unfold State.wDrained
  simp [apply_ite State.fixed, apply_ite Prod.fst, apply_ite Prod.snd]

end Sys2Proof.Machine
end

