-- ==== Sys2Proof/Laws/KeepsAnalytics.lean ====
section
/-! SUPPORT. No function of Machine/Analytics.lean changes what stays fixed while the block runs (`State.fixed`: the role,
the build's taps, the queue of waiting commands, the sixteen queues and lanes). -/

namespace Sys2Proof.Machine

set_option maxRecDepth 100000
set_option linter.all false

@[simp] theorem State.setFa_fixed (s : State) (f : Analytics → Analytics) :
    (State.setFa s f).fixed = s.fixed := by
  unfold State.setFa
  simp [apply_ite State.fixed, apply_ite Prod.fst, apply_ite Prod.snd]

@[simp] theorem State.faStore_fixed (s : State) (o : Nat) (bs : List Byte) :
    (State.faStore s o bs).fixed = s.fixed := by
  unfold State.faStore
  simp [apply_ite State.fixed, apply_ite Prod.fst, apply_ite Prod.snd]

@[simp] theorem State.faWr_fixed (s : State) (off : Nat) (v : Nat) :
    (State.faWr s off v).fixed = s.fixed := by
  unfold State.faWr
  simp [apply_ite State.fixed, apply_ite Prod.fst, apply_ite Prod.snd]

@[simp] theorem State.faPut_fixed (s : State) (f : Fld) (v : Nat) :
    (State.faPut s f v).fixed = s.fixed := by
  unfold State.faPut
  simp [apply_ite State.fixed, apply_ite Prod.fst, apply_ite Prod.snd]

@[simp] theorem State.setAvg_fixed (s : State) (i : Nat) (v : Option (Int × Int)) :
    (State.setAvg s i v).fixed = s.fixed := by
  unfold State.setAvg
  (repeat' split) <;> simp [apply_ite State.fixed, apply_ite Prod.fst, apply_ite Prod.snd]

@[simp] theorem State.setHot_fixed (s : State) (d : Nat) (m : Nat) :
    (State.setHot s d m).fixed = s.fixed := by
  unfold State.setHot
  simp [apply_ite State.fixed, apply_ite Prod.fst, apply_ite Prod.snd]

@[simp] theorem State.faReload_fixed (s : State) (i : Nat) (data : List Byte) (err : Bool) :
    (State.faReload s i data err).fixed = s.fixed := by
  unfold State.faReload
  simp [apply_ite State.fixed, apply_ite Prod.fst, apply_ite Prod.snd]

@[simp] theorem State.faCommit_fixed (s : State) (firstCommit : Bool) :
    (State.faCommit s firstCommit).fixed = s.fixed := by
  unfold State.faCommit
  simp [apply_ite State.fixed, apply_ite Prod.fst, apply_ite Prod.snd]

@[simp] theorem State.setDie_fixed (s : State) (d : Nat) (st : Nat) :
    (State.setDie s d st).fixed = s.fixed := by
  unfold State.setDie
  simp [apply_ite State.fixed, apply_ite Prod.fst, apply_ite Prod.snd]

@[simp] theorem State.setExcl_fixed (s : State) (d : Nat) (on : Bool) :
    (State.setExcl s d on).fixed = s.fixed := by
  unfold State.setExcl
  simp [apply_ite State.fixed, apply_ite Prod.fst, apply_ite Prod.snd]

@[simp] theorem State.clearCells_fixed (s : State) (d : Nat) :
    (State.clearCells s d).fixed = s.fixed := by
  unfold State.clearCells
  simp [apply_ite State.fixed, apply_ite Prod.fst, apply_ite Prod.snd]

@[simp] theorem State.issues42_fixed (s : State) (o : Offer) :
    (State.issues42 s o).fixed = s.fixed := by
  unfold State.issues42
  simp [apply_ite State.fixed, apply_ite Prod.fst, apply_ite Prod.snd]

@[simp] theorem State.sendJack_fixed (s : State) (level : Nat) (die : Nat) (cause : Nat) (battery : Bool) (job : Nat) (tail : List Byte) :
    (State.sendJack s level die cause battery job tail).fixed = s.fixed := by
  unfold State.sendJack
  simp [apply_ite State.fixed, apply_ite Prod.fst, apply_ite Prod.snd]

@[simp] theorem State.jackSeen_fixed (s : State) (d : Nat) :
    (State.jackSeen s d).fixed = s.fixed := by
  unfold State.jackSeen
  simp [apply_ite State.fixed, apply_ite Prod.fst, apply_ite Prod.snd]

@[simp] theorem State.dieJoins_fixed (s : State) (d : Nat) (job : Nat) :
    (State.dieJoins s d job).fixed = s.fixed := by
  unfold State.dieJoins
  simp [apply_ite State.fixed, apply_ite Prod.fst, apply_ite Prod.snd]

@[simp] theorem State.strayDie_fixed (s : State) :
    (State.strayDie s).fixed = s.fixed := by
  unfold State.strayDie
  simp [apply_ite State.fixed, apply_ite Prod.fst, apply_ite Prod.snd]

@[simp] theorem State.dieDrained_fixed (s : State) (d : Nat) :
    (State.dieDrained s d).fixed = s.fixed := by
  unfold State.dieDrained
  simp [apply_ite State.fixed, apply_ite Prod.fst, apply_ite Prod.snd]

@[simp] theorem State.dieFit_fixed (s : State) (d : Nat) (pen : List Byte) :
    (State.dieFit s d pen).fixed = s.fixed := by
  unfold State.dieFit
  simp [apply_ite State.fixed, apply_ite Prod.fst, apply_ite Prod.snd]

@[simp] theorem State.admitReached_fixed (s : State) (d : Nat) :
    (State.admitReached s d).fixed = s.fixed := by
  unfold State.admitReached
  simp [apply_ite State.fixed, apply_ite Prod.fst, apply_ite Prod.snd]

@[simp] theorem State.dieFrameFault_fixed (s : State) (d : Nat) (pen : List Byte) :
    (State.dieFrameFault s d pen).fixed = s.fixed := by
  unfold State.dieFrameFault
  simp [apply_ite State.fixed, apply_ite Prod.fst, apply_ite Prod.snd]

@[simp] theorem State.observe_fixed (s : State) (func : Nat) (pen : List Byte) :
    (State.observe s func pen).fixed = s.fixed := by
  unfold State.observe
  (repeat' split) <;> simp [apply_ite State.fixed, apply_ite Prod.fst, apply_ite Prod.snd]

@[simp] theorem State.observeSeen_fixed  (x1_ : Nat) (s : State) :
    (State.observeSeen x1_ s).fixed = s.fixed := by
  induction x1_ generalizing s with
  | zero => rfl
  | succ n ih =>
    unfold State.observeSeen
    split
    · rfl
    · rw [ih]; simp

@[simp] theorem State.cellUpdate_fixed (s : State) (d : Nat) (k : Nat) (err : Int) :
    (State.cellUpdate s d k err).fixed = s.fixed := by
  unfold State.cellUpdate
  simp [apply_ite State.fixed, apply_ite Prod.fst, apply_ite Prod.snd]

@[simp] theorem State.steer_fixed (s : State) (job : Nat) (d : Nat) :
    (State.steer s job d).fixed = s.fixed := by
  unfold State.steer
  simp [apply_ite State.fixed, apply_ite Prod.fst, apply_ite Prod.snd]

@[simp] theorem State.faTray_fixed (s : State) (x : FaDue) :
    (State.faTray s x).fixed = s.fixed := by
  unfold State.faTray
  simp [apply_ite State.fixed, apply_ite Prod.fst, apply_ite Prod.snd]

@[simp] theorem State.avgStep_fixed (s : State) (i : Nat) (v : Int) :
    (State.avgStep s i v).1.fixed = s.fixed := by
  unfold State.avgStep
  simp [apply_ite State.fixed, apply_ite Prod.fst, apply_ite Prod.snd]

@[simp] theorem State.paceDie_fixed (s : State) (M : Int) (scores : List (Int × Nat)) (v : Int × Nat) :
    (State.paceDie s M scores v).1.fixed = s.fixed := by
  unfold State.paceDie
  dsimp only
  (repeat' split) <;> simp [apply_ite State.fixed, apply_ite Prod.fst, apply_ite Prod.snd]

@[simp] theorem State.scoreOnly_fixed (s : State) (e : Int × Nat) :
    (State.scoreOnly s e).fixed = s.fixed := by
  unfold State.scoreOnly
  simp [apply_ite State.fixed, apply_ite Prod.fst, apply_ite Prod.snd]

@[simp] theorem State.sendPace_fixed (s : State) (x : FaDue) (n : Nat) (M : Int) (cand : Option Nat) (r : PaceDie) :
    (State.sendPace s x n M cand r).fixed = s.fixed := by
  unfold State.sendPace
  simp [apply_ite State.fixed, apply_ite Prod.fst, apply_ite Prod.snd]

@[simp] theorem State.cubeOrigin_fixed (s : State) (x : FaDue) (series : Nat) (v : Int) (die : Nat) :
    (State.cubeOrigin s x series v die).fixed = s.fixed := by
  unfold State.cubeOrigin
  simp [apply_ite State.fixed, apply_ite Prod.fst, apply_ite Prod.snd]

@[simp] theorem State.faCube_fixed (s : State) (x : FaDue) :
    (State.faCube s x).fixed = s.fixed := by
  unfold State.faCube
  simp [apply_ite State.fixed, apply_ite Prod.fst, apply_ite Prod.snd]

@[simp] theorem State.mhScore_fixed (s : State) (vs : List MhCand) :
    (State.mhScore s vs).1.fixed = s.fixed := by
  unfold State.mhScore
  simp [apply_ite State.fixed, apply_ite Prod.fst, apply_ite Prod.snd]

@[simp] theorem State.expel_fixed (s : State) (tag : Nat) (r : Int × Nat × Nat) :
    (State.expel s tag r).fixed = s.fixed := by
  unfold State.expel
  simp [apply_ite State.fixed, apply_ite Prod.fst, apply_ite Prod.snd]

@[simp] theorem State.track_fixed (s : State) (c : Nat) (verdict : Option Nat) :
    (State.track s c verdict).fixed = s.fixed := by
  unfold State.track
  (repeat' split) <;> simp [apply_ite State.fixed, apply_ite Prod.fst, apply_ite Prod.snd]

@[simp] theorem State.faMast_fixed (s : State) (x : FaDue) :
    (State.faMast s x).fixed = s.fixed := by
  unfold State.faMast
  simp [apply_ite State.fixed, apply_ite Prod.fst, apply_ite Prod.snd]

@[simp] theorem State.refill_fixed (s : State) (c : Nat) :
    (State.refill s c).fixed = s.fixed := by
  unfold State.refill
  extract_lets p last s1 s2
  split
  · rw [State.faPut_fixed]
    show s2.fixed = s.fixed
    unfold s2
    rw [State.setFa_fixed]
    unfold s1
    split
    · rfl
    · exact State.passToFleet_fixed s _
  · rfl

@[simp] theorem State.wSpares_fixed (s : State) (v : Nat) :
    (State.wSpares s v).fixed = s.fixed := by
  unfold State.wSpares
  simp [apply_ite State.fixed, apply_ite Prod.fst, apply_ite Prod.snd]

@[simp] theorem State.faTake_fixed (s : State) (x : FaDue) :
    (State.faTake s x).fixed = s.fixed := by
  unfold State.faTake
  simp [apply_ite State.fixed, apply_ite Prod.fst, apply_ite Prod.snd]

@[simp] theorem State.faRun_fixed (s : State) :
    (State.faRun s).fixed = s.fixed := by
  unfold State.faRun
  simp [apply_ite State.fixed, apply_ite Prod.fst, apply_ite Prod.snd]

@[simp] theorem State.faNewTag_fixed (s : State) (base : Nat) :
    (State.faNewTag s base).fixed = s.fixed := by
  unfold State.faNewTag
  simp [apply_ite State.fixed, apply_ite Prod.fst, apply_ite Prod.snd]

@[simp] theorem State.steered_fixed (s : State) (pen : List Byte) :
    (State.steered s pen).fixed = s.fixed := by
  unfold State.steered
  simp [apply_ite State.fixed, apply_ite Prod.fst, apply_ite Prod.snd]

@[simp] theorem State.paceReceived_fixed (s : State) (pen : List Byte) :
    (State.paceReceived s pen).fixed = s.fixed := by
  unfold State.paceReceived
  simp [apply_ite State.fixed, apply_ite Prod.fst, apply_ite Prod.snd]

@[simp] theorem State.windowEnd_fixed (s : State) (last : Nat) :
    (State.windowEnd s last).fixed = s.fixed := by
  unfold State.windowEnd
  simp [apply_ite State.fixed, apply_ite Prod.fst, apply_ite Prod.snd]

@[simp] theorem State.satBegin_fixed (s : State) :
    (State.satBegin s).fixed = s.fixed := by
  unfold State.satBegin
  dsimp only
  rw [State.fixed_hl]
  · rw [State.setFa_fixed]
  · rfl

@[simp] theorem State.satEnd_fixed (s : State) :
    (State.satEnd s).fixed = s.fixed := by
  unfold State.satEnd
  split
  · rfl
  · dsimp only
    split
    · rw [State.fault_fixed]
      split
      · rw [State.fault_fixed, State.satBegin_fixed, State.windowEnd_fixed]
      · rw [State.satBegin_fixed, State.windowEnd_fixed]
    · split
      · rw [State.fault_fixed, State.satBegin_fixed, State.windowEnd_fixed]
      · rw [State.satBegin_fixed, State.windowEnd_fixed]

@[simp] theorem State.tallyReport_fixed (s : State) (pen : List Byte) :
    (State.tallyReport s pen).fixed = s.fixed := by
  unfold State.tallyReport
  simp [apply_ite State.fixed, apply_ite Prod.fst, apply_ite Prod.snd]

@[simp] theorem State.levelSat_fixed (s : State) :
    (State.levelSat s).fixed = s.fixed := by
  unfold State.levelSat
  simp [apply_ite State.fixed, apply_ite Prod.fst, apply_ite Prod.snd]

end Sys2Proof.Machine
end

