-- ==== Sys2Proof/Laws/KeepsTaps.lean ====
section
/-! SUPPORT. No function of Machine/Taps.lean changes what stays fixed while the block runs (`State.fixed`: the role,
the build's taps, the queue of waiting commands, the sixteen queues and lanes). -/

namespace Sys2Proof.Machine

set_option maxRecDepth 100000
set_option linter.all false

@[simp] theorem State.addChk_fixed (s : State) (m : Nat) (n : Nat) :
    (State.addChk s m n).fixed = s.fixed := by
  unfold State.addChk
  simp [apply_ite State.fixed, apply_ite Prod.fst, apply_ite Prod.snd]

@[simp] theorem State.addUnc_fixed (s : State) (m : Nat) (n : Nat) :
    (State.addUnc s m n).fixed = s.fixed := by
  unfold State.addUnc
  simp [apply_ite State.fixed, apply_ite Prod.fst, apply_ite Prod.snd]

@[simp] theorem State.uncause_fixed (s : State) (c : Nat) :
    (State.uncause s c).fixed = s.fixed := by
  unfold State.uncause
  simp [apply_ite State.fixed, apply_ite Prod.fst, apply_ite Prod.snd]

@[simp] theorem State.frameFault_fixed (s : State) (f : FrameFault) :
    (State.frameFault s f).fixed = s.fixed := by
  unfold State.frameFault
  simp [apply_ite State.fixed, apply_ite Prod.fst, apply_ite Prod.snd]

@[simp] theorem State.dropTracker_fixed (s : State) (t : Tracker) :
    (State.dropTracker s t).fixed = s.fixed := by
  unfold State.dropTracker
  simp [apply_ite State.fixed, apply_ite Prod.fst, apply_ite Prod.snd]

@[simp] theorem State.putTracker_fixed (s : State) (t : Tracker) :
    (State.putTracker s t).fixed = s.fixed := by
  unfold State.putTracker
  simp [apply_ite State.fixed, apply_ite Prod.fst, apply_ite Prod.snd]

@[simp] theorem State.errFault_fixed (s : State) (t : Tracker) :
    (State.errFault s t).fixed = s.fixed := by
  unfold State.errFault
  (repeat' split) <;> simp [apply_ite State.fixed, apply_ite Prod.fst, apply_ite Prod.snd]

@[simp] theorem State.endTracker_fixed (s : State) (c : Nat) (t : Tracker) :
    (State.endTracker s c t).fixed = s.fixed := by
  unfold State.endTracker
  simp [apply_ite State.fixed, apply_ite Prod.fst, apply_ite Prod.snd]

@[simp] theorem State.tellReader_fixed (s : State) (t : Tracker) (code : Nat) (rm : Nat) :
    (State.tellReader s t code rm).fixed = s.fixed := by
  unfold State.tellReader
  simp [apply_ite State.fixed, apply_ite Prod.fst, apply_ite Prod.snd]

@[simp] theorem State.decideFrame_fixed (s : State) (t : Tracker) :
    (State.decideFrame s t).fixed = s.fixed := by
  unfold State.decideFrame
  simp [apply_ite State.fixed, apply_ite Prod.fst, apply_ite Prod.snd]

@[simp] theorem State.endOther_fixed (s : State) (r : Nat) (f : Nat) (wr : Bool) :
    (State.endOther s r f wr).fixed = s.fixed := by
  unfold State.endOther
  simp [apply_ite State.fixed, apply_ite Prod.fst, apply_ite Prod.snd]

@[simp] theorem State.takeSector_fixed (s : State) (tap : Nat) (rm : Nat) (r : Nat) (f : Nat) (j : Nat) (wr : Bool) (err : Bool) (data : List Byte) :
    (State.takeSector s tap rm r f j wr err data).1.fixed = s.fixed := by
  unfold State.takeSector
  simp [apply_ite State.fixed, apply_ite Prod.fst, apply_ite Prod.snd]
  (repeat' split) <;> simp_all [apply_ite State.fixed, apply_ite Prod.fst, apply_ite Prod.snd]

@[simp] theorem State.tapDrop_fixed (s : State) (m : Nat) (now : List Carried) :
    (State.tapDrop s m now).fixed = s.fixed := by
  unfold State.tapDrop
  simp [apply_ite State.fixed, apply_ite Prod.fst, apply_ite Prod.snd]

@[simp] theorem State.misroute_fixed (s : State) (m : Nat) :
    (State.misroute s m).fixed = s.fixed := by
  unfold State.misroute
  simp [apply_ite State.fixed, apply_ite Prod.fst, apply_ite Prod.snd]

@[simp] theorem State.memSector_fixed (s : State) (m : Nat) (r : Nat) (g : Nat) (k : Nat) (wr : Bool) (err : Bool) (mis : Bool) (ws : List (Nat × Nat)) (data : List Byte) :
    (State.memSector s m r g k wr err mis ws data).1.fixed = s.fixed := by
  unfold State.memSector
  split
  · rw [State.incr64_fixed]
  · rename_i d f j _
    extract_lets raced s1
    have h1 : s1.fixed = s.fixed := by
      unfold s1
      split <;> exact State.endOther_fixed _ _ _ _
    split
    · rw [State.incr64_fixed, h1]
    · split
      · rw [State.addUnc_fixed, h1]
      · split
        · rw [State.addUnc_fixed, h1]
        · have h := State.takeSector_fixed s1 m 0 d f j wr err data
          split
          · rename_i e; rw [e] at h; rw [State.addUnc_fixed]; exact h.trans h1
          · rename_i e; rw [e] at h; exact h.trans h1

@[simp] theorem State.memSectors_fixed (m : Nat) (r : Nat) (g : Nat) (wr : Bool) (err : Bool) (mis : Bool) (ws : List (Nat × Nat)) (data : List Byte) (x1_ : List Nat) (x2_ : State × List Taken) :
    (State.memSectors m r g wr err mis ws data x1_ x2_).1.fixed = x2_.1.fixed := by
  induction x1_ generalizing x2_ with
  | nil => rfl
  | cons k ks ih =>
    obtain ⟨s, cs⟩ := x2_
    unfold State.memSectors
    dsimp only
    rw [ih]
    simp

@[simp] theorem State.granuleErr_fixed (s : State) (m : Nat) (g : Granule) (region : Nat) (frame : Option (Nat × Nat)) :
    (State.granuleErr s m g region frame).fixed = s.fixed := by
  unfold State.granuleErr
  rw [State.frameFault_fixed]

@[simp] theorem State.granuleOut_fixed (s : State) (m : Nat) (g : Granule) (ks : List Nat) :
    (State.granuleOut s m g ks).fixed = s.fixed := by
  unfold State.granuleOut
  dsimp only
  split
  · rw [State.granuleErr_fixed, State.incr64_fixed]
  · rw [State.incr64_fixed]

@[simp] theorem State.granuleIn_fixed (s : State) (m : Nat) (g : Granule) (ks : List Nat) (ws : List (Nat × Nat)) (r : Nat) :
    (State.granuleIn s m g ks ws r).fixed = s.fixed := by
  unfold State.granuleIn
  extract_lets a n mis s3 p s4
  have h3 : s3.fixed = s.fixed := by
    unfold s3
    split
    · rw [State.misroute_fixed]
    · rfl
  have hp : p.1.fixed = s.fixed := by unfold p; rw [State.memSectors_fixed]; exact h3
  have h4 : s4.fixed = s.fixed := by
    unfold s4
    rw [foldl_fixed]
    · exact hp
    · intro t x
      split
      · exact State.uncause_fixed _ _
      · rfl
  split
  · rw [State.granuleErr_fixed, h4]
  · exact h4

@[simp] theorem State.memGranule_fixed (s : State) (m : Nat) (ws : List (Nat × Nat)) (g : Granule) :
    (State.memGranule s m ws g).fixed = s.fixed := by
  unfold State.memGranule
  extract_lets s1
  have h1 : s1.fixed = s.fixed := by
    unfold s1
    split
    · rw [State.bump_fixed]
    · rfl
  cases s1.regionOf (g.gaddr.toNat * 256) with
  | none => rw [Option.elim_none, State.granuleOut_fixed, h1]
  | some r => rw [Option.elim_some, State.granuleIn_fixed, h1]

@[simp] theorem State.memBeat_fixed (s : State) (m : Nat) (gs : List (Option Granule)) (drop : Bool) :
    (State.memBeat s m gs drop).fixed = s.fixed := by
  unfold State.memBeat
  simp [apply_ite State.fixed, apply_ite Prod.fst, apply_ite Prod.snd]

@[simp] theorem State.trackerAge_fixed (s : State) (r : Nat) (f : Nat) (wr : Bool) :
    (State.trackerAge s r f wr).fixed = s.fixed := by
  unfold State.trackerAge
  dsimp only
  (repeat' split) <;> simp [apply_ite State.fixed, apply_ite Prod.fst, apply_ite Prod.snd]

@[simp] theorem State.mtErrTimeout_fixed (s : State) (r : Nat) (f : Nat) (wr : Bool) :
    (State.mtErrTimeout s r f wr).fixed = s.fixed := by
  unfold State.mtErrTimeout
  (repeat' split) <;> simp [apply_ite State.fixed, apply_ite Prod.fst, apply_ite Prod.snd]

@[simp] theorem State.setLink_fixed (s : State) (i : Nat) (f : LinkDir → LinkDir) :
    (State.setLink s i f).fixed = s.fixed := by
  unfold State.setLink
  simp [apply_ite State.fixed, apply_ite Prod.fst, apply_ite Prod.snd]

@[simp] theorem State.streamLost_fixed (s : State) (l : Nat) (i : Nat) (peer : Nat) (n : Nat) :
    (State.streamLost s l i peer n).fixed = s.fixed := by
  unfold State.streamLost
  simp [apply_ite State.fixed, apply_ite Prod.fst, apply_ite Prod.snd]

@[simp] theorem State.loseSync_fixed (s : State) (l : Nat) (i : Nat) (c : Nat) :
    (State.loseSync s l i c).fixed = s.fixed := by
  unfold State.loseSync
  simp [apply_ite State.fixed, apply_ite Prod.fst, apply_ite Prod.snd]

@[simp] theorem State.linkFrame_fixed (s : State) (l : Nat) (i : Nat) (peer : Nat) :
    (State.linkFrame s l i peer).fixed = s.fixed := by
  unfold State.linkFrame
  simp [apply_ite State.fixed, apply_ite Prod.fst, apply_ite Prod.snd]

@[simp] theorem State.linkPayload_fixed (l : Nat) (i : Nat) (peer : Nat) (x1_ : Nat) (x2_ : List Byte) (s : State) :
    (State.linkPayload l i peer x1_ x2_ s).fixed = s.fixed := by
  induction x1_ generalizing s x2_ with
  | zero => rfl
  | succ n ih =>
    unfold State.linkPayload
    dsimp only
    repeat' split
    all_goals simp [ih]

@[simp] theorem State.streamTake_fixed (s : State) (l : Nat) (i : Nat) (peer : Nat) (pre : List Byte) (post : List Byte) (gap : Bool) (err : Bool) :
    (State.streamTake s l i peer pre post gap err).fixed = s.fixed := by
  unfold State.streamTake
  simp [apply_ite State.fixed, apply_ite Prod.fst, apply_ite Prod.snd]

@[simp] theorem State.linkEnd_fixed (s : State) (l : Nat) (i : Nat) (eof : Bool) (err : Bool) :
    (State.linkEnd s l i eof err).fixed = s.fixed := by
  unfold State.linkEnd
  simp [apply_ite State.fixed, apply_ite Prod.fst, apply_ite Prod.snd]

@[simp] theorem State.linkDrop_fixed (s : State) (l : Nat) (i : Nat) :
    (State.linkDrop s l i).fixed = s.fixed := by
  unfold State.linkDrop
  simp [apply_ite State.fixed, apply_ite Prod.fst, apply_ite Prod.snd]

@[simp] theorem State.linkDrops_fixed (s : State) (l : Nat) :
    (State.linkDrops s l).fixed = s.fixed := by
  unfold State.linkDrops
  simp [apply_ite State.fixed, apply_ite Prod.fst, apply_ite Prod.snd]

@[simp] theorem State.tapsReturn_fixed (s : State) :
    (State.tapsReturn s).fixed = s.fixed := by
  unfold State.tapsReturn
  simp [apply_ite State.fixed, apply_ite Prod.fst, apply_ite Prod.snd]

@[simp] theorem State.linkOpen_fixed (s : State) (l : Nat) (i : Nat) (peer : Nat) (sof : Bool) (drop : Bool) :
    (State.linkOpen s l i peer sof drop).fixed = s.fixed := by
  unfold State.linkOpen
  simp [apply_ite State.fixed, apply_ite Prod.fst, apply_ite Prod.snd]

@[simp] theorem State.linkBeat_fixed (s : State) (l : Nat) (ingress : Bool) (sof : Bool) (eof : Bool) (data : List Byte) (peer : Nat) (err : Bool) (drop : Bool) :
    (State.linkBeat s l ingress sof eof data peer err drop).fixed = s.fixed := by
  unfold State.linkBeat
  simp [apply_ite State.fixed, apply_ite Prod.fst, apply_ite Prod.snd]

@[simp] theorem State.tapsLatch_fixed (s : State) :
    (State.tapsLatch s).fixed = s.fixed := by
  unfold State.tapsLatch
  simp [apply_ite State.fixed, apply_ite Prod.fst, apply_ite Prod.snd]

@[simp] theorem State.streamsSwap_fixed (s : State) (old : State) :
    (State.streamsSwap s old).fixed = s.fixed := by
  unfold State.streamsSwap
  simp [apply_ite State.fixed, apply_ite Prod.fst, apply_ite Prod.snd]

@[simp] theorem State.tapsSwap_fixed (s : State) (old : State) (touched : Nat → Bool) :
    (State.tapsSwap s old touched).fixed = s.fixed := by
  unfold State.tapsSwap
  simp [apply_ite State.fixed, apply_ite Prod.fst, apply_ite Prod.snd]

@[simp] theorem State.rcpRestart_fixed (s : State) :
    (State.rcpRestart s).fixed = s.fixed := by
  unfold State.rcpRestart
  simp [apply_ite State.fixed, apply_ite Prod.fst, apply_ite Prod.snd]

@[simp] theorem State.readMasterLine_fixed (s : State) (rm : Nat) (r : Nat) (f : Nat) (a : Nat) (bs : List Byte) :
    (State.readMasterLine s rm r f a bs).fixed = s.fixed := by
  unfold State.readMasterLine
  split
  · exact State.endOther_fixed _ _ _ _
  · extract_lets j p q
    have hp : p.1.fixed = s.fixed := State.takeSector_fixed _ _ _ _ _ _ _ _ _
    have hq : q.1.fixed = s.fixed := (State.takeSector_fixed _ _ _ _ _ _ _ _ _).trans hp
    rw [foldl_fixed _ (fun t c => State.uncause_fixed t c)]
    exact hq

end Sys2Proof.Machine
end

