-- ==== Sys2Proof/Laws/KeepsChecker.lean ====
section
/-! SUPPORT. No function of Machine/Checker.lean changes what stays fixed while the block runs (`State.fixed`: the role,
the build's taps, the queue of waiting commands, the sixteen queues and lanes). -/

namespace Sys2Proof.Machine

set_option maxRecDepth 100000
set_option linter.all false

@[simp] theorem State.setXlane_fixed (s : State) (l : Nat) (f : CheckLane → CheckLane) :
    (State.setXlane s l f).fixed = s.fixed := by
  unfold State.setXlane
  simp [apply_ite State.fixed, apply_ite Prod.fst, apply_ite Prod.snd]

@[simp] theorem State.setXc_fixed (s : State) (f : Checker → Checker) :
    (State.setXc s f).fixed = s.fixed := by
  unfold State.setXc
  simp [apply_ite State.fixed, apply_ite Prod.fst, apply_ite Prod.snd]

@[simp] theorem State.readDesc_fixed (s : State) (l : Nat) (addr : Nat) (again : Bool) :
    (State.readDesc s l addr again).fixed = s.fixed := by
  unfold State.readDesc
  simp [apply_ite State.fixed, apply_ite Prod.fst, apply_ite Prod.snd]

@[simp] theorem State.readTile_fixed (s : State) (l : Nat) (h : HostModel) (d : List Byte) (again : Bool) :
    (State.readTile s l h d again).fixed = s.fixed := by
  unfold State.readTile
  simp [apply_ite State.fixed, apply_ite Prod.fst, apply_ite Prod.snd]

@[simp] theorem State.verdictRing_fixed (s : State) (bs : List Byte) :
    (State.verdictRing s bs).fixed = s.fixed := by
  unfold State.verdictRing
  dsimp only
  split
  · simp
  · simp
  · rename_i h
    simp [State.ringPut_fixed _ _ _ _ _ _ _ _ h]

@[simp] theorem State.tallyVerdict_fixed (s : State) (v : Nat) :
    (State.tallyVerdict s v).fixed = s.fixed := by
  unfold State.tallyVerdict
  (repeat' split) <;> simp [apply_ite State.fixed, apply_ite Prod.fst, apply_ite Prod.snd]

@[simp] theorem State.verdictActs_fixed (s : State) (j : CheckJob) (vr : List Byte) (v : Nat) :
    (State.verdictActs s j vr v).fixed = s.fixed := by
  unfold State.verdictActs
  simp [apply_ite State.fixed, apply_ite Prod.fst, apply_ite Prod.snd]

@[simp] theorem State.verdict_fixed (s : State) (l : Nat) (v : Nat) (flags : Nat) (sum : List Byte) :
    (State.verdict s l v flags sum).fixed = s.fixed := by
  unfold State.verdict
  dsimp only
  (repeat' split) <;> simp [apply_ite State.fixed, apply_ite Prod.fst, apply_ite Prod.snd]

@[simp] theorem State.checkEnd_fixed (s : State) (j : CheckJob) :
    (State.checkEnd s j).fixed = s.fixed := by
  unfold State.checkEnd
  simp [apply_ite State.fixed, apply_ite Prod.fst, apply_ite Prod.snd]

@[simp] theorem State.nextTile_fixed (l : Nat) (x1_ : Nat) (s : State) :
    (State.nextTile l x1_ s).fixed = s.fixed := by
  induction x1_ generalizing s with
  | zero => rfl
  | succ n ih =>
    unfold State.nextTile
    dsimp only
    repeat' split
    all_goals simp [ih]

@[simp] theorem State.checkerPump_fixed (s : State) :
    (State.checkerPump s).fixed = s.fixed := by
  unfold State.checkerPump
  dsimp only
  (repeat' split) <;> simp [apply_ite State.fixed, apply_ite Prod.fst, apply_ite Prod.snd]

@[simp] theorem State.runCheck_fixed (s : State) (q : Nat) (f : Flight) :
    (State.runCheck s q f).fixed = s.fixed := by
  unfold State.runCheck
  simp [apply_ite State.fixed, apply_ite Prod.fst, apply_ite Prod.snd]

@[simp] theorem State.heldCheck_fixed (s : State) (q : Nat) (f : Flight) :
    (State.heldCheck s q f).fixed = s.fixed := by
  unfold State.heldCheck
  simp [apply_ite State.fixed, apply_ite Prod.fst, apply_ite Prod.snd]

@[simp] theorem State.laneBusy_fixed (s : State) (l : Nat) (from_ : Nat) :
    (State.laneBusy s l from_).fixed = s.fixed := by
  unfold State.laneBusy
  simp [apply_ite State.fixed, apply_ite Prod.fst, apply_ite Prod.snd]

@[simp] theorem State.descHere_fixed (s : State) (l : Nat) (d : List Byte) (err : Bool) :
    (State.descHere s l d err).fixed = s.fixed := by
  unfold State.descHere
  (repeat' split) <;> simp [apply_ite State.fixed, apply_ite Prod.fst, apply_ite Prod.snd]

@[simp] theorem State.tileLine_fixed (s : State) (l : Nat) (addr : Nat) (idx : Nat) (bs : List Byte) (err : Bool) :
    (State.tileLine s l addr idx bs err).fixed = s.fixed := by
  unfold State.tileLine
  dsimp only
  (repeat' split) <;> simp [apply_ite State.fixed, apply_ite Prod.fst, apply_ite Prod.snd]

@[simp] theorem State.laneDone_fixed (s : State) (l : Nat) (h : HostModel) (r : TileRead) (compute : Bool) :
    (State.laneDone s l h r compute).fixed = s.fixed := by
  unfold State.laneDone
  simp [apply_ite State.fixed, apply_ite Prod.fst, apply_ite Prod.snd]

@[simp] theorem State.arbAsk_fixed (s : State) (l : Nat) (res : TileRes) :
    (State.arbAsk s l res).fixed = s.fixed := by
  unfold State.arbAsk
  dsimp only
  (repeat' split) <;> simp [apply_ite State.fixed, apply_ite Prod.fst, apply_ite Prod.snd]

@[simp] theorem State.tileDone_fixed (s : State) (l : Nat) :
    (State.tileDone s l).fixed = s.fixed := by
  unfold State.tileDone
  (repeat' split) <;> simp [apply_ite State.fixed, apply_ite Prod.fst, apply_ite Prod.snd]

@[simp] theorem State.recomputed_fixed (s : State) (l : Nat) :
    (State.recomputed s l).fixed = s.fixed := by
  unfold State.recomputed
  (repeat' split) <;> simp [apply_ite State.fixed, apply_ite Prod.fst, apply_ite Prod.snd]

@[simp] theorem State.knownAnswer_fixed (s : State) :
    (State.knownAnswer s).fixed = s.fixed := by
  unfold State.knownAnswer
  (repeat' split) <;> simp [apply_ite State.fixed, apply_ite Prod.fst, apply_ite Prod.snd]

@[simp] theorem State.checkBound_fixed (s : State) (q : Nat) :
    (State.checkBound s q).fixed = s.fixed := by
  unfold State.checkBound
  simp [apply_ite State.fixed, apply_ite Prod.fst, apply_ite Prod.snd]
  (repeat' split) <;> simp_all [apply_ite State.fixed, apply_ite Prod.fst, apply_ite Prod.snd]

@[simp] theorem State.checkerLatch_fixed (s : State) :
    (State.checkerLatch s).fixed = s.fixed := by
  unfold State.checkerLatch
  simp [apply_ite State.fixed, apply_ite Prod.fst, apply_ite Prod.snd]

end Sys2Proof.Machine
end

