-- ==== Sys2Proof/Laws/KeepsTrace.lean ====
section
/-! SUPPORT. No function of Machine/Trace.lean changes what stays fixed while the block runs (`State.fixed`: the role,
the build's taps, the queue of waiting commands, the sixteen queues and lanes). -/

namespace Sys2Proof.Machine

set_option maxRecDepth 100000
set_option linter.all false

@[simp] theorem State.setTr_fixed (s : State) (f : TraceUnit → TraceUnit) :
    (State.setTr s f).fixed = s.fixed := by
  unfold State.setTr
  simp [apply_ite State.fixed, apply_ite Prod.fst, apply_ite Prod.snd]

@[simp] theorem State.traceFrozen_fixed (s : State) :
    (State.traceFrozen s).fixed = s.fixed := by
  unfold State.traceFrozen
  simp [apply_ite State.fixed, apply_ite Prod.fst, apply_ite Prod.snd]

@[simp] theorem State.traceKeep_fixed (s : State) (i : Nat) :
    (State.traceKeep s i).fixed = s.fixed := by
  unfold State.traceKeep
  simp [apply_ite State.fixed, apply_ite Prod.fst, apply_ite Prod.snd]

@[simp] theorem State.traceTriggered_fixed (s : State) (r : TraceRec) (i : Nat) :
    (State.traceTriggered s r i).fixed = s.fixed := by
  unfold State.traceTriggered
  simp [apply_ite State.fixed, apply_ite Prod.fst, apply_ite Prod.snd]

@[simp] theorem State.traceWrite_fixed (s : State) (r : TraceRec) :
    (State.traceWrite s r).fixed = s.fixed := by
  unfold State.traceWrite
  simp [apply_ite State.fixed, apply_ite Prod.fst, apply_ite Prod.snd]

@[simp] theorem State.traceLoss_fixed (s : State) :
    (State.traceLoss s).fixed = s.fixed := by
  unfold State.traceLoss
  (repeat' split) <;> simp [apply_ite State.fixed, apply_ite Prod.fst, apply_ite Prod.snd]

@[simp] theorem State.traceStall_fixed (s : State) :
    (State.traceStall s).fixed = s.fixed := by
  unfold State.traceStall
  simp [apply_ite State.fixed, apply_ite Prod.fst, apply_ite Prod.snd]

@[simp] theorem State.traceDrain_fixed  (x1_ : Nat) (s : State) :
    (State.traceDrain x1_ s).fixed = s.fixed := by
  induction x1_ generalizing s with
  | zero => rfl
  | succ n ih =>
    unfold State.traceDrain
    dsimp only
    repeat' split
    all_goals simp [ih]

@[simp] theorem State.traceCycle_fixed (s : State) :
    (State.traceCycle s).fixed = s.fixed := by
  unfold State.traceCycle
  simp [apply_ite State.fixed, apply_ite Prod.fst, apply_ite Prod.snd]

@[simp] theorem State.tracePush_fixed (s : State) (r : TraceRec) :
    (State.tracePush s r).fixed = s.fixed := by
  unfold State.tracePush
  simp [apply_ite State.fixed, apply_ite Prod.fst, apply_ite Prod.snd]

@[simp] theorem State.markerIn_fixed (s : State) (r : TraceRec) :
    (State.markerIn s r).fixed = s.fixed := by
  unfold State.markerIn
  simp [apply_ite State.fixed, apply_ite Prod.fst, apply_ite Prod.snd]

@[simp] theorem State.traceCatch_fixed (s : State) :
    (State.traceCatch s).fixed = s.fixed := by
  unfold State.traceCatch
  simp [apply_ite State.fixed, apply_ite Prod.fst, apply_ite Prod.snd]

@[simp] theorem State.traceMark_fixed (s : State) (r : TraceRec) :
    (State.traceMark s r).fixed = s.fixed := by
  unfold State.traceMark
  simp [apply_ite State.fixed, apply_ite Prod.fst, apply_ite Prod.snd]

@[simp] theorem State.traceMarker_fixed (s : State) (r : TraceRec) :
    (State.traceMarker s r).fixed = s.fixed := by
  unfold State.traceMarker
  simp [apply_ite State.fixed, apply_ite Prod.fst, apply_ite Prod.snd]

@[simp] theorem State.traceTrigger_fixed (s : State) (r : TraceRec) :
    (State.traceTrigger s r).fixed = s.fixed := by
  unfold State.traceTrigger
  simp [apply_ite State.fixed, apply_ite Prod.fst, apply_ite Prod.snd]

@[simp] theorem State.traceTaken_fixed (s : State) (r : TraceIn) :
    (State.traceTaken s r).fixed = s.fixed := by
  unfold State.traceTaken
  simp [apply_ite State.fixed, apply_ite Prod.fst, apply_ite Prod.snd]

@[simp] theorem State.traceRecord_fixed (s : State) (r : TraceIn) :
    (State.traceRecord s r).fixed = s.fixed := by
  unfold State.traceRecord
  simp [apply_ite State.fixed, apply_ite Prod.fst, apply_ite Prod.snd]

@[simp] theorem State.traceArm_fixed (s : State) :
    (State.traceArm s).fixed = s.fixed := by
  unfold State.traceArm
  simp [apply_ite State.fixed, apply_ite Prod.fst, apply_ite Prod.snd]

@[simp] theorem State.traceTrig_fixed (s : State) :
    (State.traceTrig s).fixed = s.fixed := by
  unfold State.traceTrig
  simp [apply_ite State.fixed, apply_ite Prod.fst, apply_ite Prod.snd]

@[simp] theorem State.traceOff_fixed (s : State) :
    (State.traceOff s).fixed = s.fixed := by
  unfold State.traceOff
  simp [apply_ite State.fixed, apply_ite Prod.fst, apply_ite Prod.snd]

@[simp] theorem State.wTrCtrl_fixed (s : State) (v : Nat) :
    (State.wTrCtrl s v).fixed = s.fixed := by
  unfold State.wTrCtrl
  simp [apply_ite State.fixed, apply_ite Prod.fst, apply_ite Prod.snd]

@[simp] theorem State.traceHalt_fixed (s : State) :
    (State.traceHalt s).fixed = s.fixed := by
  unfold State.traceHalt
  dsimp only
  (repeat' split) <;> simp [apply_ite State.fixed, apply_ite Prod.fst, apply_ite Prod.snd]

@[simp] theorem State.traceEdge_fixed (s : State) (kind : Nat) :
    (State.traceEdge s kind).fixed = s.fixed := by
  unfold State.traceEdge
  simp [apply_ite State.fixed, apply_ite Prod.fst, apply_ite Prod.snd]

@[simp] theorem State.traceWake_fixed (s : State) :
    (State.traceWake s).fixed = s.fixed := by
  unfold State.traceWake
  dsimp only
  (repeat' split) <;> simp [apply_ite State.fixed, apply_ite Prod.fst, apply_ite Prod.snd]

@[simp] theorem State.traceLatch_fixed (s : State) (word3 : Nat) :
    (State.traceLatch s word3).fixed = s.fixed := by
  unfold State.traceLatch
  simp [apply_ite State.fixed, apply_ite Prod.fst, apply_ite Prod.snd]

@[simp] theorem State.traceWait_fixed (s : State) :
    (State.traceWait s).fixed = s.fixed := by
  unfold State.traceWait
  simp [apply_ite State.fixed, apply_ite Prod.fst, apply_ite Prod.snd]

end Sys2Proof.Machine
end

