-- ==== Sys2Proof/Laws/KeepsStrike.lean ====
section
/-! SUPPORT. No function of Machine/Strike.lean changes what stays fixed while the block runs (`State.fixed`: the role,
the build's taps, the queue of waiting commands, the sixteen queues and lanes). -/

namespace Sys2Proof.Machine

set_option maxRecDepth 100000
set_option linter.all false

@[simp] theorem State.latchUnits_fixed (s : State) (units : Nat) (seq : Nat) (issuer : Nat) (fleet : Bool) (late : Bool) :
    (State.latchUnits s units seq issuer fleet late).fixed = s.fixed := by
  unfold State.latchUnits
  simp [apply_ite State.fixed, apply_ite Prod.fst, apply_ite Prod.snd]

@[simp] theorem State.strikeFire_fixed (s : State) (k : Strike) (late : Bool) :
    (State.strikeFire s k late).fixed = s.fixed := by
  unfold State.strikeFire
  simp [apply_ite State.fixed, apply_ite Prod.fst, apply_ite Prod.snd]

@[simp] theorem State.strikeAdd_fixed (s : State) (k : Strike) :
    (State.strikeAdd s k).fixed = s.fixed := by
  unfold State.strikeAdd
  simp [apply_ite State.fixed, apply_ite Prod.fst, apply_ite Prod.snd]

@[simp] theorem State.strikeSend_fixed (s : State) (k : Strike) :
    (State.strikeSend s k).2.fixed = s.fixed := by
  unfold State.strikeSend
  simp [apply_ite State.fixed, apply_ite Prod.fst, apply_ite Prod.snd]

@[simp] theorem State.runSnapshot_fixed (s : State) (q : Nat) (f : Flight) :
    (State.runSnapshot s q f).fixed = s.fixed := by
  unfold State.runSnapshot
  simp [apply_ite State.fixed, apply_ite Prod.fst, apply_ite Prod.snd]

@[simp] theorem State.strikeLatch_fixed (s : State) :
    (State.strikeLatch s).fixed = s.fixed := by
  unfold State.strikeLatch
  split
  · rfl
  · dsimp only
    rw [State.strikeFire_fixed, State.fixed_tb, State.passToFleet_fixed]

@[simp] theorem State.strikeReceive_fixed (s : State) (pen : List Byte) :
    (State.strikeReceive s pen).fixed = s.fixed := by
  unfold State.strikeReceive
  simp [apply_ite State.fixed, apply_ite Prod.fst, apply_ite Prod.snd]

end Sys2Proof.Machine
end

