-- ==== Sys2Proof/Laws/KeepsReceiver.lean ====
section
/-! SUPPORT. No function of Machine/Receiver.lean changes what stays fixed while the block runs (`State.fixed`: the role,
the build's taps, the queue of waiting commands, the sixteen queues and lanes). -/

namespace Sys2Proof.Machine

set_option maxRecDepth 100000
set_option linter.all false

@[simp] theorem State.setDc_fixed (s : State) (f : Dumping → Dumping) :
    (State.setDc s f).fixed = s.fixed := by
  unfold State.setDc
  simp [apply_ite State.fixed, apply_ite Prod.fst, apply_ite Prod.snd]

@[simp] theorem State.setCoder_fixed (s : State) (k : Nat) (f : Coder → Coder) :
    (State.setCoder s k f).fixed = s.fixed := by
  unfold State.setCoder
  simp [apply_ite State.fixed, apply_ite Prod.fst, apply_ite Prod.snd]

@[simp] theorem State.rxWrite_fixed (s : State) (r : RxStored) :
    (State.rxWrite s r).fixed = s.fixed := by
  unfold State.rxWrite
  dsimp only
  have h := State.fsRing_fixed s (s.get Reg.DC_RX_AREA_base * 2 ^ 20) (s.get Reg.DC_RX_AREA_size * 2 ^ 20) (s.rd Reg.DC_RX_WR)
    (s.rd Reg.DC_RX_RD) (r.bytes s.fleet)
  revert h
  generalize s.fsRing _ _ _ _ _ = o
  intro h
  cases o with
  | none => exact State.bump_fixed s _ _
  | some t =>
    rw [Option.elim_some]
    split
    · rw [State.notice_fixed, State.raise_fixed, State.incr_fixed, h t rfl]
    · rw [State.incr_fixed, h t rfl]

@[simp] theorem State.setCtx_fixed (s : State) (slot : Nat) (f : RxCtx → RxCtx) :
    (State.setCtx s slot f).fixed = s.fixed := by
  unfold State.setCtx
  simp [apply_ite State.fixed, apply_ite Prod.fst, apply_ite Prod.snd]

@[simp] theorem State.chunkAccept_fixed (s : State) (c : RxCtx) (p : List Byte) :
    (State.chunkAccept s c p).fixed = s.fixed := by
  unfold State.chunkAccept
  simp [apply_ite State.fixed, apply_ite Prod.fst, apply_ite Prod.snd]

@[simp] theorem State.chunkKnown_fixed (s : State) (c : RxCtx) (p : List Byte) :
    (State.chunkKnown s c p).fixed = s.fixed := by
  unfold State.chunkKnown
  simp [apply_ite State.fixed, apply_ite Prod.fst, apply_ite Prod.snd]

@[simp] theorem State.chunkReceive_fixed (s : State) (p : List Byte) :
    (State.chunkReceive s p).fixed = s.fixed := by
  unfold State.chunkReceive
  (repeat' split) <;> simp [apply_ite State.fixed, apply_ite Prod.fst, apply_ite Prod.snd]

@[simp] theorem State.ctxLoad_fixed (s : State) (k : Nat) (slot : Nat) :
    (State.ctxLoad s k slot).fixed = s.fixed := by
  unfold State.ctxLoad
  (repeat' split) <;> simp [apply_ite State.fixed, apply_ite Prod.fst, apply_ite Prod.snd]

@[simp] theorem State.segStore_fixed (s : State) (k : Nat) (g : RxSeg) :
    (State.segStore s k g).fixed = s.fixed := by
  unfold State.segStore
  split
  · rfl
  · dsimp only
    split
    · rw [State.rxWrite_fixed, State.setCtx_fixed, State.ctxLoad_fixed]
    · rw [State.rxWrite_fixed, State.setCtx_fixed, State.setDc_fixed, State.bump_fixed, State.bump_fixed, State.fault_fixed,
        State.ctxLoad_fixed]

@[simp] theorem State.segmentStore_fixed (s : State) :
    (State.segmentStore s).fixed = s.fixed := by
  unfold State.segmentStore
  (repeat' split) <;> simp [apply_ite State.fixed, apply_ite Prod.fst, apply_ite Prod.snd]

@[simp] theorem State.ctxIdleFree_fixed (s : State) (slot : Nat) :
    (State.ctxIdleFree s slot).fixed = s.fixed := by
  unfold State.ctxIdleFree
  (repeat' split) <;> simp [apply_ite State.fixed, apply_ite Prod.fst, apply_ite Prod.snd]

@[simp] theorem State.rxSwap_fixed (s : State) :
    (State.rxSwap s).fixed = s.fixed := by
  unfold State.rxSwap
  simp [apply_ite State.fixed, apply_ite Prod.fst, apply_ite Prod.snd]

end Sys2Proof.Machine
end

