-- ==== Sys2Proof/Laws/KeepsImages.lean ====
section
/-! SUPPORT. No function of Machine/Images.lean changes what stays fixed while the block runs (`State.fixed`: the role,
the build's taps, the queue of waiting commands, the sixteen queues and lanes). -/

namespace Sys2Proof.Machine

set_option maxRecDepth 100000
set_option linter.all false

@[simp] theorem State.setSt_fixed (s : State) (f : Steward → Steward) :
    (State.setSt s f).fixed = s.fixed := by
  unfold State.setSt
  simp [apply_ite State.fixed, apply_ite Prod.fst, apply_ite Prod.snd]

@[simp] theorem State.setHart_fixed (s : State) (f : Hart → Hart) :
    (State.setHart s f).fixed = s.fixed := by
  unfold State.setHart
  simp [apply_ite State.fixed, apply_ite Prod.fst, apply_ite Prod.snd]

@[simp] theorem State.setBank_fixed (s : State) (k : Nat) (f : ImBank → ImBank) :
    (State.setBank s k f).fixed = s.fixed := by
  unfold State.setBank
  simp [apply_ite State.fixed, apply_ite Prod.fst, apply_ite Prod.snd]

@[simp] theorem State.wdSync_fixed (s : State) :
    (State.wdSync s).fixed = s.fixed := by
  unfold State.wdSync
  simp [apply_ite State.fixed, apply_ite Prod.fst, apply_ite Prod.snd]

@[simp] theorem State.hartStart_fixed (s : State) :
    (State.hartStart s).fixed = s.fixed := by
  unfold State.hartStart
  simp [apply_ite State.fixed, apply_ite Prod.fst, apply_ite Prod.snd]

@[simp] theorem State.swapBanks_fixed (s : State) :
    (State.swapBanks s).fixed = s.fixed := by
  unfold State.swapBanks
  simp [apply_ite State.fixed, apply_ite Prod.fst, apply_ite Prod.snd]

@[simp] theorem State.wSwapKey_fixed (s : State) (req : Nat) (v : Nat) :
    ∀ t_, State.wSwapKey s req v = some t_ → t_.fixed = s.fixed := by
  intro t_ h
  unfold State.wSwapKey at h
  (repeat' split at h) <;> simp_all
  all_goals first | (subst h; simp [apply_ite State.fixed, apply_ite Prod.fst, apply_ite Prod.snd]) | (cases h; simp [apply_ite State.fixed, apply_ite Prod.fst, apply_ite Prod.snd]) | skip

@[simp] theorem State.imgFetch_fixed (s : State) (l : ImLoad) (from_ : Nat) (n : Nat) :
    (State.imgFetch s l from_ n).fixed = s.fixed := by
  unfold State.imgFetch
  simp [apply_ite State.fixed, apply_ite Prod.fst, apply_ite Prod.snd]

@[simp] theorem State.imgLine_fixed (s : State) (i : Nat) (bs : List Byte) (err : Option Nat) :
    (State.imgLine s i bs err).fixed = s.fixed := by
  unfold State.imgLine
  simp [apply_ite State.fixed, apply_ite Prod.fst, apply_ite Prod.snd]

@[simp] theorem State.imgStart_fixed (s : State) (l : ImLoad) :
    (State.imgStart s l).fixed = s.fixed := by
  unfold State.imgStart
  split
  · rw [State.setSt_fixed]
  · rw [State.imgFetch_fixed]

@[simp] theorem State.wImLoad_fixed (s : State) (v : Nat) :
    ∀ t_, State.wImLoad s v = some t_ → t_.fixed = s.fixed := by
  intro t_ h
  unfold State.wImLoad at h
  dsimp only at h
  split at h
  · rw [← Option.some.inj h, State.wr_fixed]
  · split at h
    · cases h
    · rw [← Option.some.inj h, State.imgStart_fixed, State.setSt_fixed, State.setBank_fixed, State.put_fixed, State.wr_fixed]

@[simp] theorem State.imageLoadEnd_fixed (s : State) :
    (State.imageLoadEnd s).fixed = s.fixed := by
  unfold State.imageLoadEnd
  (repeat' split) <;> simp [apply_ite State.fixed, apply_ite Prod.fst, apply_ite Prod.snd]

@[simp] theorem State.setBoot_fixed (s : State) (f : RomBoot → RomBoot) :
    (State.setBoot s f).fixed = s.fixed := by
  unfold State.setBoot
  simp [apply_ite State.fixed, apply_ite Prod.fst, apply_ite Prod.snd]

@[simp] theorem State.bootTry_fixed (s : State) (slot : Nat) :
    (State.bootTry s slot).fixed = s.fixed := by
  unfold State.bootTry
  simp [apply_ite State.fixed, apply_ite Prod.fst, apply_ite Prod.snd]

@[simp] theorem State.bootFailed_fixed (s : State) (code : Nat) :
    (State.bootFailed s code).fixed = s.fixed := by
  unfold State.bootFailed
  simp [apply_ite State.fixed, apply_ite Prod.fst, apply_ite Prod.snd]

@[simp] theorem State.bootEnd_fixed (s : State) (code : Nat) (img : ImBank) :
    (State.bootEnd s code img).fixed = s.fixed := by
  unfold State.bootEnd
  simp [apply_ite State.fixed, apply_ite Prod.fst, apply_ite Prod.snd]

@[simp] theorem State.bootStep_fixed (s : State) :
    (State.bootStep s).fixed = s.fixed := by
  unfold State.bootStep
  (repeat' split) <;> simp [apply_ite State.fixed, apply_ite Prod.fst, apply_ite Prod.snd]

@[simp] theorem State.romBoot_fixed (s : State) :
    (State.romBoot s).fixed = s.fixed := by
  unfold State.romBoot
  simp [apply_ite State.fixed, apply_ite Prod.fst, apply_ite Prod.snd]

@[simp] theorem State.wBootCfg_fixed (s : State) (v : Nat) :
    (State.wBootCfg s v).fixed = s.fixed := by
  unfold State.wBootCfg
  dsimp only
  (repeat' split) <;> simp [apply_ite State.fixed, apply_ite Prod.fst, apply_ite Prod.snd]

@[simp] theorem State.wSecFloor_fixed (s : State) (req : Nat) (v : Nat) :
    ∀ t_, State.wSecFloor s req v = some t_ → t_.fixed = s.fixed := by
  intro t_ h
  unfold State.wSecFloor at h
  (repeat' split at h) <;> simp_all
  all_goals first | (subst h; simp [apply_ite State.fixed, apply_ite Prod.fst, apply_ite Prod.snd]) | (cases h; simp [apply_ite State.fixed, apply_ite Prod.fst, apply_ite Prod.snd]) | skip

@[simp] theorem State.wFlCmd_fixed (s : State) (v : Nat) :
    ∀ t_, State.wFlCmd s v = some t_ → t_.fixed = s.fixed := by
  intro t_ h
  unfold State.wFlCmd at h
  split at h
  · injection h with h; rw [← h]
  · extract_lets go s1 sect op at h
    have h1 : s1.fixed = s.fixed := State.wr_fixed s _ _
    split at h
    · injection h with h; rw [← h]; exact h1
    · split at h
      · cases h
      · injection h with h
        rw [← h, State.flPump_fixed]
        rw [State.fixed_ev, State.put_fixed, h1]

@[simp] theorem State.wEvPut_fixed (s : State) (v : Nat) :
    (State.wEvPut s v).fixed = s.fixed := by
  unfold State.wEvPut
  simp [apply_ite State.fixed, apply_ite Prod.fst, apply_ite Prod.snd]

@[simp] theorem State.stewardTimer_fixed (s : State) :
    (State.stewardTimer s).fixed = s.fixed := by
  unfold State.stewardTimer
  simp [apply_ite State.fixed, apply_ite Prod.fst, apply_ite Prod.snd]

@[simp] theorem State.wdKick_fixed (s : State) :
    (State.wdKick s).fixed = s.fixed := by
  unfold State.wdKick
  simp [apply_ite State.fixed, apply_ite Prod.fst, apply_ite Prod.snd]

@[simp] theorem State.wdExpire_fixed (s : State) :
    (State.wdExpire s).fixed = s.fixed := by
  unfold State.wdExpire
  simp [apply_ite State.fixed, apply_ite Prod.fst, apply_ite Prod.snd]

end Sys2Proof.Machine
end

