-- ==== Sys2Proof/Laws/KeepsBundles.lean ====
section
/-! SUPPORT. No function of Machine/Bundles.lean changes what stays fixed while the block runs (`State.fixed`: the role,
the build's taps, the queue of waiting commands, the sixteen queues and lanes). -/

namespace Sys2Proof.Machine

set_option maxRecDepth 100000
set_option linter.all false

@[simp] theorem State.setShadow_fixed (s : State) (off : Nat) (v : Nat) :
    (State.setShadow s off v).fixed = s.fixed := by
  unfold State.setShadow
  simp [apply_ite State.fixed, apply_ite Prod.fst, apply_ite Prod.snd]

@[simp] theorem State.goLive_fixed (s : State) (off : Nat) :
    (State.goLive s off).fixed = s.fixed := by
  unfold State.goLive
  simp [apply_ite State.fixed, apply_ite Prod.fst, apply_ite Prod.snd]

@[simp] theorem State.asLive_fixed (s : State) :
    (State.asLive s).fixed = s.fixed := by
  unfold State.asLive
  simp [apply_ite State.fixed, apply_ite Prod.fst, apply_ite Prod.snd]

@[simp] theorem State.copyBack_fixed (s : State) :
    (State.copyBack s).fixed = s.fixed := by
  unfold State.copyBack
  simp [apply_ite State.fixed, apply_ite Prod.fst, apply_ite Prod.snd]

end Sys2Proof.Machine
end

