-- ==== Sys2Proof/Laws/KeepsDumps.lean ====
section
/-! SUPPORT. No function of Machine/Dumps.lean changes what stays fixed while the block runs (`State.fixed`: the role,
the build's taps, the queue of waiting commands, the sixteen queues and lanes). -/

namespace Sys2Proof.Machine

set_option maxRecDepth 100000
set_option linter.all false

@[simp] theorem State.abandon_fixed (s : State) (o : Owner) :
    (State.abandon s o).fixed = s.fixed := by
  unfold State.abandon
  simp [apply_ite State.fixed, apply_ite Prod.fst, apply_ite Prod.snd]

@[simp] theorem State.setDump_fixed (s : State) (k : Nat) (f : DumpJob → DumpJob) :
    (State.setDump s k f).fixed = s.fixed := by
  unfold State.setDump
  simp [apply_ite State.fixed, apply_ite Prod.fst, apply_ite Prod.snd]

@[simp] theorem State.dumpTap_fixed (s : State) (a : Nat) (bs : List Byte) :
    (State.dumpTap s a bs).fixed = s.fixed := by
  unfold State.dumpTap
  (repeat' split) <;> simp [apply_ite State.fixed, apply_ite Prod.fst, apply_ite Prod.snd]

@[simp] theorem State.dumpLine_fixed (s : State) (k : Nat) (a : Nat) (idx : Nat) (bs : List Byte) (err : Bool) :
    (State.dumpLine s k a idx bs err).fixed = s.fixed := by
  unfold State.dumpLine
  simp [apply_ite State.fixed, apply_ite Prod.fst, apply_ite Prod.snd]

@[simp] theorem State.dumpRead_fixed (s : State) (k : Nat) :
    (State.dumpRead s k).fixed = s.fixed := by
  unfold State.dumpRead
  (repeat' split) <;> simp [apply_ite State.fixed, apply_ite Prod.fst, apply_ite Prod.snd]

@[simp] theorem State.dumpCut_fixed (s : State) (k : Nat) :
    (State.dumpCut s k).fixed = s.fixed := by
  unfold State.dumpCut
  simp [apply_ite State.fixed, apply_ite Prod.fst, apply_ite Prod.snd]

@[simp] theorem State.dumpEnded_fixed (s : State) (cut : Bool) :
    (State.dumpEnded s cut).fixed = s.fixed := by
  unfold State.dumpEnded
  simp [apply_ite State.fixed, apply_ite Prod.fst, apply_ite Prod.snd]

@[simp] theorem State.dumpAbandon_fixed (s : State) (k : Nat) :
    (State.dumpAbandon s k).fixed = s.fixed := by
  unfold State.dumpAbandon
  (repeat' split) <;> simp [apply_ite State.fixed, apply_ite Prod.fst, apply_ite Prod.snd]

@[simp] theorem State.checkAbandon_fixed (s : State) (l : Nat) :
    (State.checkAbandon s l).fixed = s.fixed := by
  unfold State.checkAbandon
  dsimp only
  (repeat' split) <;> simp [apply_ite State.fixed, apply_ite Prod.fst, apply_ite Prod.snd]

@[simp] theorem State.haltAll_fixed (s : State) :
    (State.haltAll s).fixed = s.fixed := by
  unfold State.haltAll
  simp [apply_ite State.fixed, apply_ite Prod.fst, apply_ite Prod.snd]

@[simp] theorem State.dumpHalt_fixed (s : State) (k : Nat) :
    (State.dumpHalt s k).fixed = s.fixed := by
  unfold State.dumpHalt
  simp [apply_ite State.fixed, apply_ite Prod.fst, apply_ite Prod.snd]

@[simp] theorem State.nextStrike_fixed (s : State) :
    (State.nextStrike s).fixed = s.fixed := by
  unfold State.nextStrike
  simp [apply_ite State.fixed, apply_ite Prod.fst, apply_ite Prod.snd]

@[simp] theorem State.hangLatch_fixed (s : State) :
    (State.hangLatch s).fixed = s.fixed := by
  unfold State.hangLatch
  simp [apply_ite State.fixed, apply_ite Prod.fst, apply_ite Prod.snd]

@[simp] theorem State.hangBegin_fixed (s : State) (k : Nat) :
    (State.hangBegin s k).fixed = s.fixed := by
  unfold State.hangBegin
  simp [apply_ite State.fixed, apply_ite Prod.fst, apply_ite Prod.snd]

@[simp] theorem State.dumpStart_fixed (s : State) (k : Nat) (j : DumpJob) :
    (State.dumpStart s k j).fixed = s.fixed := by
  unfold State.dumpStart
  simp [apply_ite State.fixed, apply_ite Prod.fst, apply_ite Prod.snd]

@[simp] theorem State.dumpPump_fixed  (x1_ : Nat) (s : State) :
    (State.dumpPump x1_ s).fixed = s.fixed := by
  induction x1_ generalizing s with
  | zero => rfl
  | succ n ih =>
    unfold State.dumpPump
    split
    · rfl
    · split
      · rw [ih]; simp
      · rfl

@[simp] theorem State.runDump_fixed (s : State) (q : Nat) (f : Flight) :
    (State.runDump s q f).fixed = s.fixed := by
  unfold State.runDump
  dsimp only
  (repeat' split) <;> simp [apply_ite State.fixed, apply_ite Prod.fst, apply_ite Prod.snd]

@[simp] theorem State.wHangGo_fixed (s : State) (v : Nat) :
    ∀ t_, State.wHangGo s v = some t_ → t_.fixed = s.fixed := by
  intro t_ h
  unfold State.wHangGo at h
  (repeat' split at h) <;> simp_all
  all_goals first | (subst h; simp [apply_ite State.fixed, apply_ite Prod.fst, apply_ite Prod.snd]) | (cases h; simp [apply_ite State.fixed, apply_ite Prod.fst, apply_ite Prod.snd]) | skip

@[simp] theorem State.sendChunks_fixed (s : State) (x1_ : List (List Byte)) :
    (State.sendChunks s x1_).fixed = s.fixed := by
  induction x1_ generalizing s with
  | nil => rfl
  | cons p ps ih =>
    unfold State.sendChunks
    extract_lets r
    have h : r.2.fixed = s.fixed := State.offer_fixed s _
    split
    · rw [ih, h]
    · exact h

@[simp] theorem State.dumpEnd_fixed (s : State) (k : Nat) (j : DumpJob) :
    (State.dumpEnd s k j).fixed = s.fixed := by
  unfold State.dumpEnd
  (repeat' split) <;> simp [apply_ite State.fixed, apply_ite Prod.fst, apply_ite Prod.snd]

@[simp] theorem State.segmentSend_fixed (s : State) (k : Nat) :
    (State.segmentSend s k).fixed = s.fixed := by
  unfold State.segmentSend
  dsimp only
  split <;> simp [apply_ite State.fixed, apply_ite Prod.fst, apply_ite Prod.snd] <;> (repeat' split) <;> simp_all [apply_ite State.fixed, apply_ite Prod.fst, apply_ite Prod.snd]

@[simp] theorem State.dumpBound_fixed (s : State) (q : Nat) :
    (State.dumpBound s q).fixed = s.fixed := by
  unfold State.dumpBound
  (repeat' split) <;> simp [apply_ite State.fixed, apply_ite Prod.fst, apply_ite Prod.snd]

@[simp] theorem State.wEngCtrl_fixed (s : State) (k : Nat) (v : Nat) :
    ∀ t_, State.wEngCtrl s k v = some t_ → t_.fixed = s.fixed := by
  intro t_ h
  unfold State.wEngCtrl at h
  dsimp only at h
  (repeat' split at h) <;> first | cases h | skip
  all_goals simp_all [apply_ite State.fixed, apply_ite Prod.fst, apply_ite Prod.snd]

@[simp] theorem State.wEngHi_fixed (s : State) (k : Nat) (v : Nat) :
    ∀ t_, State.wEngHi s k v = some t_ → t_.fixed = s.fixed := by
  intro t_ h
  unfold State.wEngHi at h
  dsimp only at h
  (repeat' split at h) <;> first | cases h | skip
  all_goals simp_all [apply_ite State.fixed, apply_ite Prod.fst, apply_ite Prod.snd]

@[simp] theorem State.imageLine_fixed (s : State) (k : Nat) (idx : Nat) (bs : List Byte) (err : Bool) :
    (State.imageLine s k idx bs err).fixed = s.fixed := by
  unfold State.imageLine
  simp [apply_ite State.fixed, apply_ite Prod.fst, apply_ite Prod.snd]

@[simp] theorem State.imageDone_fixed (s : State) (k : Nat) :
    (State.imageDone s k).fixed = s.fixed := by
  unfold State.imageDone
  dsimp only
  (repeat' split) <;> simp [apply_ite State.fixed, apply_ite Prod.fst, apply_ite Prod.snd]

@[simp] theorem State.engineLine_fixed (s : State) (k : Nat) (a : Nat) (idx : Nat) (bs : List Byte) (err : Bool) :
    (State.engineLine s k a idx bs err).fixed = s.fixed := by
  unfold State.engineLine
  simp [apply_ite State.fixed, apply_ite Prod.fst, apply_ite Prod.snd]

end Sys2Proof.Machine
end

