-- ==== Sys2Proof/Laws/KeepsHoistLoad.lean ====
section
/-! SUPPORT. No function of Machine/HoistLoad.lean changes what stays fixed while the block runs (`State.fixed`: the role,
the build's taps, the queue of waiting commands, the sixteen queues and lanes). -/

namespace Sys2Proof.Machine

set_option maxRecDepth 100000
set_option linter.all false

@[simp] theorem State.setLd_fixed (s : State) (f : Loader → Loader) :
    (State.setLd s f).fixed = s.fixed := by
  unfold State.setLd
  simp [apply_ite State.fixed, apply_ite Prod.fst, apply_ite Prod.snd]

@[simp] theorem State.hoistWords_fixed (s : State) (w0 : Nat) (x1_ : List Nat) :
    (State.hoistWords s w0 x1_).fixed = s.fixed := by
  induction x1_ generalizing s w0 with
  | nil => rfl
  | cons w ws ih => unfold State.hoistWords; rw [ih]; simp

@[simp] theorem State.placeEntry_fixed (s : State) (sec : Nat) (e : Nat) (bs : List Byte) :
    (State.placeEntry s sec e bs).fixed = s.fixed := by
  unfold State.placeEntry
  simp [apply_ite State.fixed, apply_ite Prod.fst, apply_ite Prod.snd]

@[simp] theorem State.placeAll_fixed (s : State) (sec : Nat) (size : Nat) (x1_ : Nat) (x2_ : Nat) (x3_ : List Byte) :
    (State.placeAll s sec size x1_ x2_ x3_).fixed = s.fixed := by
  induction x1_ generalizing s x2_ x3_ with
  | zero => rfl
  | succ n ih => unfold State.placeAll; rw [ih]; simp

@[simp] theorem State.hoistRecord_fixed (s t : State) (sec : Nat) (bs rest : List Byte) (h : s.hoistRecord sec bs = .inr (t, rest)) :
    t.fixed = s.fixed := by
  unfold State.hoistRecord at h
  dsimp only at h
  repeat' split at h
  all_goals first | (injection h with h; injection h with h1 h2; subst h1; simp) | injection h

@[simp] theorem hoistRecords_fixed (sec : Nat) (x1_ : Nat) (s : State) (x3_ : List Byte) :
    (hoistRecords sec x1_ s x3_).1.fixed = s.fixed := by
  induction x1_ generalizing s x3_ with
  | zero => rfl
  | succ n ih =>
    unfold hoistRecords
    split
    · rfl
    · split
      · rfl
      · split
        · rfl
        · rename_i h
          rw [ih, State.hoistRecord_fixed _ _ _ _ _ h]

@[simp] theorem State.eraseSection_fixed (s : State) (sec : Nat) :
    (State.eraseSection s sec).fixed = s.fixed := by
  unfold State.eraseSection
  simp [apply_ite State.fixed, apply_ite Prod.fst, apply_ite Prod.snd]

@[simp] theorem State.applySection_fixed (s : State) (full : Bool) (x : HSec) (img : List Byte) :
    (State.applySection s full x img).1.fixed = s.fixed := by
  unfold State.applySection
  dsimp only
  (repeat' split) <;> simp [apply_ite State.fixed, apply_ite Prod.fst, apply_ite Prod.snd]

@[simp] theorem State.fateOf_fixed (s : State) (cs : List Nat) (taints : Bool) :
    (State.fateOf s cs taints).fixed = s.fixed := by
  unfold State.fateOf
  simp [apply_ite State.fixed, apply_ite Prod.fst, apply_ite Prod.snd]

@[simp] theorem State.shadowReset_fixed (s : State) :
    (State.shadowReset s).fixed = s.fixed := by
  unfold State.shadowReset
  simp [apply_ite State.fixed, apply_ite Prod.fst, apply_ite Prod.snd]

@[simp] theorem State.readRest_fixed (s : State) :
    (State.readRest s).fixed = s.fixed := by
  unfold State.readRest
  simp [apply_ite State.fixed, apply_ite Prod.fst, apply_ite Prod.snd]

@[simp] theorem State.loadHeader_fixed (s : State) :
    (State.loadHeader s).fixed = s.fixed := by
  unfold State.loadHeader
  dsimp only
  (repeat' split) <;> simp [apply_ite State.fixed, apply_ite Prod.fst, apply_ite Prod.snd]

@[simp] theorem State.loadDir_fixed (s : State) :
    (State.loadDir s).fixed = s.fixed := by
  unfold State.loadDir
  dsimp only
  (repeat' split) <;> simp [apply_ite State.fixed, apply_ite Prod.fst, apply_ite Prod.snd]

@[simp] theorem State.loadSection_fixed (s : State) :
    (State.loadSection s).fixed = s.fixed := by
  unfold State.loadSection
  dsimp only
  (repeat' split) <;> simp [apply_ite State.fixed, apply_ite Prod.fst, apply_ite Prod.snd]

@[simp] theorem State.loadSig_fixed (s : State) :
    (State.loadSig s).fixed = s.fixed := by
  unfold State.loadSig
  simp [apply_ite State.fixed, apply_ite Prod.fst, apply_ite Prod.snd]

@[simp] theorem State.loadStep_fixed (s : State) :
    (State.loadStep s).fixed = s.fixed := by
  unfold State.loadStep
  simp [apply_ite State.fixed, apply_ite Prod.fst, apply_ite Prod.snd]

@[simp] theorem loadRun_fixed  (x1_ : Nat) (s : State) :
    (loadRun x1_ s).fixed = s.fixed := by
  induction x1_ generalizing s with
  | zero => rfl
  | succ n ih => unfold loadRun; rw [ih]; simp

@[simp] theorem State.loadGo_fixed (s : State) :
    (State.loadGo s).fixed = s.fixed := by
  unfold State.loadGo
  simp [apply_ite State.fixed, apply_ite Prod.fst, apply_ite Prod.snd]

@[simp] theorem State.loadEnd_fixed (s : State) (c : Nat) (others : List Nat) (taints : Bool) :
    (State.loadEnd s c others taints).fixed = s.fixed := by
  unfold State.loadEnd
  dsimp only
  rw [State.record_fixed, State.need_fixed]
  have key : ∀ t : State, (List.foldl (fun t d => t.refusal d Unit_.hoist 0 0) (State.raise { t with ho := { t.ho with ld := {} } } 33) others).fixed
      = t.fixed := by
    intro t
    rw [foldl_fixed _ (fun t d => State.refusal_fixed t _ _ _ _), State.raise_fixed, State.fixed_ho]
  split
  · rw [State.fault_fixed, key]
    split
    · simp only [State.fixed_ho, State.put_fixed, State.abandon_fixed]
    · split <;> simp only [State.put_fixed, State.abandon_fixed]
  · rw [key]
    split
    · simp only [State.fixed_ho, State.put_fixed, State.abandon_fixed]
    · split <;> simp only [State.put_fixed, State.abandon_fixed]

@[simp] theorem State.refuseBusy_fixed (s : State) :
    (State.refuseBusy s).fixed = s.fixed := by
  unfold State.refuseBusy
  simp [apply_ite State.fixed, apply_ite Prod.fst, apply_ite Prod.snd]

@[simp] theorem State.wHoLoad_fixed (s : State) (v : Nat) :
    (State.wHoLoad s v).1.fixed = s.fixed := by
  unfold State.wHoLoad
  simp [apply_ite State.fixed, apply_ite Prod.fst, apply_ite Prod.snd]

@[simp] theorem State.hoistLine_fixed (s : State) (i : Nat) (bs : List Byte) (err : Bool) :
    (State.hoistLine s i bs err).fixed = s.fixed := by
  unfold State.hoistLine
  simp [apply_ite State.fixed, apply_ite Prod.fst, apply_ite Prod.snd]

@[simp] theorem State.wHoFeed_fixed (s : State) (v : Nat) :
    (State.wHoFeed s v).1.fixed = s.fixed := by
  unfold State.wHoFeed
  simp [apply_ite State.fixed, apply_ite Prod.fst, apply_ite Prod.snd]

end Sys2Proof.Machine
end

