-- ==== Sys2Proof/Laws/KeepsCommit.lean ====
section
/-! SUPPORT. No function of Machine/Commit.lean changes what stays fixed while the block runs (`State.fixed`: the role,
the build's taps, the queue of waiting commands, the sixteen queues and lanes). -/

namespace Sys2Proof.Machine

set_option maxRecDepth 100000
set_option linter.all false

@[simp] theorem State.setHo_fixed (s : State) (f : Hoist → Hoist) :
    (State.setHo s f).fixed = s.fixed := by
  unfold State.setHo
  simp [apply_ite State.fixed, apply_ite Prod.fst, apply_ite Prod.snd]

@[simp] theorem State.commitOver_fixed (s : State) (c : Nat) :
    (State.commitOver s c).fixed = s.fixed := by
  unfold State.commitOver
  simp [apply_ite State.fixed, apply_ite Prod.fst, apply_ite Prod.snd]

@[simp] theorem State.commitFail_fixed (s : State) (c : Nat) (bundle : Nat) :
    (State.commitFail s c bundle).fixed = s.fixed := by
  unfold State.commitFail
  simp [apply_ite State.fixed, apply_ite Prod.fst, apply_ite Prod.snd]

@[simp] theorem State.drainBegin_fixed (s : State) :
    (State.drainBegin s).fixed = s.fixed := by
  unfold State.drainBegin
  simp [apply_ite State.fixed, apply_ite Prod.fst, apply_ite Prod.snd]

@[simp] theorem State.commitCheck_fixed (s : State) (gen : Nat) :
    (State.commitCheck s gen).fixed = s.fixed := by
  unfold State.commitCheck
  simp [apply_ite State.fixed, apply_ite Prod.fst, apply_ite Prod.snd]

@[simp] theorem State.wHoCommit_fixed (s : State) (v : Nat) :
    (State.wHoCommit s v).1.fixed = s.fixed := by
  unfold State.wHoCommit
  simp [apply_ite State.fixed, apply_ite Prod.fst, apply_ite Prod.snd]

@[simp] theorem State.runHeld_fixed (s : State) (q : Nat) (f : Flight) :
    (State.runHeld s q f).fixed = s.fixed := by
  unfold State.runHeld
  (repeat' split) <;> simp [apply_ite State.fixed, apply_ite Prod.fst, apply_ite Prod.snd]

@[simp] theorem State.releaseHeld_fixed (s : State) :
    (State.releaseHeld s).fixed = s.fixed := by
  unfold State.releaseHeld
  refine foldl_fixed _ (fun t q => ?_) _ _
  extract_lets hs gen t1
  rw [foldl_fixed]
  · exact State.setQueue_fixed t _ _
  · intro u f
    split
    · split
      · simp
      · rfl
    · rfl

@[simp] theorem State.nameLive_fixed (s : State) (types : Option (Nat × Sparse Word)) :
    (State.nameLive s types).fixed = s.fixed := by
  unfold State.nameLive
  simp [apply_ite State.fixed, apply_ite Prod.fst, apply_ite Prod.snd]

@[simp] theorem State.pendEntry_fixed (s : State) (gen : Nat) (base : Nat) (words : Sparse Word) :
    (State.pendEntry s gen base words).fixed = s.fixed := by
  unfold State.pendEntry
  simp [apply_ite State.fixed, apply_ite Prod.fst, apply_ite Prod.snd]

@[simp] theorem State.goLiveAll_fixed (s : State) :
    (State.goLiveAll s).1.fixed = s.fixed := by
  unfold State.goLiveAll
  simp [apply_ite State.fixed, apply_ite Prod.fst, apply_ite Prod.snd]

@[simp] theorem State.swapQueues_fixed (s : State) :
    (State.swapQueues s).fixed = s.fixed := by
  unfold State.swapQueues
  simp [apply_ite State.fixed, apply_ite Prod.fst, apply_ite Prod.snd]

@[simp] theorem State.follow_fixed (s : State) (old : State) (touched : Nat → Bool) :
    (State.follow s old touched).fixed = s.fixed := by
  unfold State.follow
  simp [apply_ite State.fixed, apply_ite Prod.fst, apply_ite Prod.snd]

@[simp] theorem State.followWork_fixed (s : State) (old : State) (flagCfg : Bool) (first : Bool) :
    (State.followWork s old flagCfg first).fixed = s.fixed := by
  unfold State.followWork
  simp [apply_ite State.fixed, apply_ite Prod.fst, apply_ite Prod.snd]

@[simp] theorem State.plovEntered_fixed (s t : State) :
    (s.plovEntered t).fixed = t.fixed := by
  unfold State.plovEntered
  refine foldl_fixed _ (fun u q => ?_) _ _
  split
  · exact State.setQueue_fixed _ _ _
  · exact State.clearRank_fixed _ _

@[simp] theorem State.commitSwap_fixed (s : State) :
    (State.commitSwap s).fixed = s.fixed := by
  unfold State.commitSwap
  dsimp only
  rw [State.followWork_fixed, State.releaseHeld_fixed, State.follow_fixed, State.fixed_ev, State.setHo_fixed,
    State.plovEntered_fixed, State.swapQueues_fixed, State.nameLive_fixed, State.goLiveAll_fixed, State.tickBuckets_fixed]

@[simp] theorem State.copyBackDone_fixed (s : State) :
    (State.copyBackDone s).fixed = s.fixed := by
  unfold State.copyBackDone
  simp [apply_ite State.fixed, apply_ite Prod.fst, apply_ite Prod.snd]

@[simp] theorem State.discard_fixed (s : State) :
    (State.discard s).fixed = s.fixed := by
  unfold State.discard
  simp [apply_ite State.fixed, apply_ite Prod.fst, apply_ite Prod.snd]

@[simp] theorem State.wHoCtrl_fixed (s : State) (v : Nat) :
    (State.wHoCtrl s v).1.fixed = s.fixed := by
  unfold State.wHoCtrl
  simp [apply_ite State.fixed, apply_ite Prod.fst, apply_ite Prod.snd]

@[simp] theorem State.liveWrite_fixed (s : State) (ws : List (Nat × Nat)) :
    (State.liveWrite s ws).1.fixed = s.fixed := by
  unfold State.liveWrite
  simp [apply_ite State.fixed, apply_ite Prod.fst, apply_ite Prod.snd]

@[simp] theorem State.shadowWrite_fixed (s : State) (req : Nat) (ws : List (Nat × Nat)) :
    (State.shadowWrite s req ws).1.fixed = s.fixed := by
  unfold State.shadowWrite
  simp [apply_ite State.fixed, apply_ite Prod.fst, apply_ite Prod.snd]

@[simp] theorem State.shWrite_fixed (s : State) (req : Nat) (ws : List (Nat × Nat)) :
    (State.shWrite s req ws).1.fixed = s.fixed := by
  unfold State.shWrite
  simp [apply_ite State.fixed, apply_ite Prod.fst, apply_ite Prod.snd]

@[simp] theorem State.entryLive_fixed (s : State) (base : Nat) (c : Content) :
    (State.entryLive s base c).fixed = s.fixed := by
  unfold State.entryLive
  simp [apply_ite State.fixed, apply_ite Prod.fst, apply_ite Prod.snd]

@[simp] theorem State.epochSwitch_fixed (s : State) (p : PendCopy) :
    (State.epochSwitch s p).fixed = s.fixed := by
  unfold State.epochSwitch
  simp [apply_ite State.fixed, apply_ite Prod.fst, apply_ite Prod.snd]

end Sys2Proof.Machine
end

