-- ==== Sys2Proof/Laws/KeepsReset.lean ====
section
/-! SUPPORT. No function of Machine/Reset.lean changes what stays fixed while the block runs (`State.fixed`: the role,
the build's taps, the queue of waiting commands, the sixteen queues and lanes),
but the release of aon_rst_n, which samples the role. -/

namespace Sys2Proof.Machine

set_option maxRecDepth 100000
set_option linter.all false

@[simp] theorem State.fastCleared_fixed (s : State) :
    s.fastCleared.fixed = (s.role, s.memTaps, s.linkTaps, s.pending, s.queues.length, 16) := by
  unfold State.fastCleared
  simp only [State.fixed_mk, List.length_map]
  rfl

@[simp] theorem State.fastKept_fixed (s t : State) :
    (s.fastKept t).fixed = (t.role, t.memTaps, t.linkTaps, t.pending, t.queues.length, s.hl.lanes.length) := by
  unfold State.fastKept
  simp only [State.fixed_mk, List.length_map]

@[simp] theorem State.fastReset_fixed (s : State) (cause : Nat) :
    (State.fastReset s cause).fixed = s.fixed := by
  have h : (s.aonEdge.fastKept s.aonEdge.fastCleared).fixed = s.fixed := by
    rw [State.fastKept_fixed, ← State.aonEdge_fixed s]
    show (s.aonEdge.role, s.aonEdge.memTaps, s.aonEdge.linkTaps, s.aonEdge.pending, (s.aonEdge.queues.map fun _ => ({} : Queue)).length, s.aonEdge.hl.lanes.length) = _
    rw [List.length_map]
    rfl
  unfold State.fastReset
  dsimp only
  rw [State.thrStep_fixed, State.recordAon_fixed, State.wr_fixed, State.wr_fixed, State.fixed_pw, h]

@[simp] theorem State.wWarm_fixed (s : State) (v : Nat) :
    (State.wWarm s v).fixed = s.fixed := by
  unfold State.wWarm
  simp [apply_ite State.fixed, apply_ite Prod.fst, apply_ite Prod.snd]

@[simp] theorem State.aonCleared_fixed (s : State) (st : PState) :
    (State.aonCleared s st).fixed = s.fixed := by
  unfold State.aonCleared
  simp only [State.fixed_mk, List.length_map]
  rfl

@[simp] theorem State.aonRelease_fixed (s : State) (r : Bool) :
    (s.aonRelease r).fixed = (b2n r, s.fixed.2) := by
  have h := State.aonCleared_fixed s .fastReset
  unfold State.aonRelease
  dsimp only
  simp only [State.fixed_mk]
  unfold State.fixed at *
  simp only [Prod.mk.injEq] at *
  exact ⟨trivial, h.2⟩

@[simp] theorem State.join_fixed (s : State) :
    (State.join s).fixed = s.fixed := by
  unfold State.join
  simp [apply_ite State.fixed, apply_ite Prod.fst, apply_ite Prod.snd]

@[simp] theorem State.wPmBoot_fixed (s : State) (req : Nat) (v : Nat) :
    (State.wPmBoot s req v).1.fixed = s.fixed := by
  unfold State.wPmBoot
  simp [apply_ite State.fixed, apply_ite Prod.fst, apply_ite Prod.snd]

@[simp] theorem State.intFDone_fixed (s : State) :
    (State.intFDone s).fixed = s.fixed := by
  unfold State.intFDone
  simp [apply_ite State.fixed, apply_ite Prod.fst, apply_ite Prod.snd]

end Sys2Proof.Machine
end

