-- ==== Sys2Proof/Laws/KeepsDeliver.lean ====
section
/-! SUPPORT. No function of Machine/Deliver.lean changes what stays fixed while the block runs (`State.fixed`: the role,
the build's taps, the queue of waiting commands, the sixteen queues and lanes). -/

namespace Sys2Proof.Machine

set_option maxRecDepth 100000
set_option linter.all false

@[simp] theorem State.lateness_fixed (s : State) (pen : List Byte) :
    (State.lateness s pen).fixed = s.fixed := by
  unfold State.lateness
  simp [apply_ite State.fixed, apply_ite Prod.fst, apply_ite Prod.snd]

@[simp] theorem State.faultRing_fixed (s : State) (pen : List Byte) :
    (State.faultRing s pen).fixed = s.fixed := by
  unfold State.faultRing
  have h := State.fsRing_fixed s (s.get Reg.EV_FR_AREA_base * 2 ^ 20) (s.get Reg.EV_FR_AREA_size * 2 ^ 20) (s.rd Reg.EV_FR_WR)
    (s.rd Reg.EV_FR_RD) (padTo 64 pen)
  rw [State.raise_fixed]
  revert h
  generalize s.fsRing _ _ _ _ _ = o
  intro h
  cases o with
  | none => exact State.bump_fixed s _ _
  | some t => rw [Option.elim_some, State.incr_fixed, h t rfl]

@[simp] theorem State.forwardWide_fixed (s : State) (pen : List Byte) :
    (State.forwardWide s pen).fixed = s.fixed := by
  unfold State.forwardWide
  simp [apply_ite State.fixed, apply_ite Prod.fst, apply_ite Prod.snd]

@[simp] theorem State.trayConsumes_fixed (s : State) (f : Nat) (l : Local) :
    (State.trayConsumes s f l).fixed = s.fixed := by
  unfold State.trayConsumes
  simp [apply_ite State.fixed, apply_ite Prod.fst, apply_ite Prod.snd]

@[simp] theorem State.dieConsumesPen_fixed (s : State) (f : Nat) (l : Local) :
    (State.dieConsumesPen s f l).fixed = s.fixed := by
  unfold State.dieConsumesPen
  simp [apply_ite State.fixed, apply_ite Prod.fst, apply_ite Prod.snd]

@[simp] theorem State.consume_fixed (s : State) (l : Local) :
    (State.consume s l).fixed = s.fixed := by
  unfold State.consume
  simp [apply_ite State.fixed, apply_ite Prod.fst, apply_ite Prod.snd]

@[simp] theorem consumeAll_fixed  (x1_ : Nat) (s : State) :
    (consumeAll x1_ s).fixed = s.fixed := by
  have key : ∀ (t : State) (x : List Local), State.fixed { t with hl := { t.hl with locals := x } } = t.fixed := fun _ _ => rfl
  induction x1_ generalizing s with
  | zero => rfl
  | succ n ih =>
    unfold consumeAll
    split
    · rfl
    · rw [ih, State.consume_fixed, key s]

@[simp] theorem State.settle_fixed (s : State) :
    (State.settle s).fixed = s.fixed := by
  unfold State.settle
  simp [apply_ite State.fixed, apply_ite Prod.fst, apply_ite Prod.snd]

@[simp] theorem State.arrival_fixed (s : State) (x1_ : Arrival) :
    (State.arrival s x1_).fixed = s.fixed := by
  unfold State.arrival
  (repeat' split) <;> simp [apply_ite State.fixed, apply_ite Prod.fst, apply_ite Prod.snd]

@[simp] theorem State.takeArrived_fixed (s : State) :
    (State.takeArrived s).fixed = s.fixed := by
  unfold State.takeArrived
  simp [apply_ite State.fixed, apply_ite Prod.fst, apply_ite Prod.snd]

end Sys2Proof.Machine
end

