-- ==== Sys2Proof/Laws/KeepsProtect.lean ====
section
/-! SUPPORT. No function of Machine/Protect.lean changes what stays fixed while the block runs (`State.fixed`: the role,
the build's taps, the queue of waiting commands, the sixteen queues and lanes). -/

namespace Sys2Proof.Machine

set_option maxRecDepth 100000
set_option linter.all false

@[simp] theorem State.loseLive_fixed (s : State) :
    (State.loseLive s).fixed = s.fixed := by
  unfold State.loseLive
  simp [apply_ite State.fixed, apply_ite Prod.fst, apply_ite Prod.snd]

@[simp] theorem State.loseTap_fixed (s : State) :
    (State.loseTap s).fixed = s.fixed := by
  unfold State.loseTap
  dsimp only
  (repeat' split) <;> simp [apply_ite State.fixed, apply_ite Prod.fst, apply_ite Prod.snd]

@[simp] theorem State.loseBuffer_fixed (s : State) :
    (State.loseBuffer s).fixed = s.fixed := by
  unfold State.loseBuffer
  dsimp only
  (repeat' split) <;> simp [apply_ite State.fixed, apply_ite Prod.fst, apply_ite Prod.snd]

@[simp] theorem State.loseTrace_fixed (s : State) (k : Nat) :
    (State.loseTrace s k).fixed = s.fixed := by
  unfold State.loseTrace
  simp [apply_ite State.fixed, apply_ite Prod.fst, apply_ite Prod.snd]

@[simp] theorem State.loseSteward_fixed (s : State) (k : Nat) :
    (State.loseSteward s k).fixed = s.fixed := by
  unfold State.loseSteward
  dsimp only
  (repeat' split) <;> simp [apply_ite State.fixed, apply_ite Prod.fst, apply_ite Prod.snd]

@[simp] theorem State.loseCodeword_fixed (s : State) (m : Nat) (k : Nat) :
    (State.loseCodeword s m k).fixed = s.fixed := by
  unfold State.loseCodeword
  (repeat' split) <;> simp [apply_ite State.fixed, apply_ite Prod.fst, apply_ite Prod.snd]

@[simp] theorem State.corrected_fixed (s : State) (m : Nat) :
    (State.corrected s m).fixed = s.fixed := by
  unfold State.corrected
  dsimp only
  (repeat' split) <;> simp [apply_ite State.fixed, apply_ite Prod.fst, apply_ite Prod.snd]

@[simp] theorem State.scrubNext_fixed (s : State) :
    (State.scrubNext s).fixed = s.fixed := by
  unfold State.scrubNext
  simp [apply_ite State.fixed, apply_ite Prod.fst, apply_ite Prod.snd]

@[simp] theorem State.flEffect_fixed (s : State) (erase : Bool) (a : Nat) (bs : List Byte) :
    (State.flEffect s erase a bs).fixed = s.fixed := by
  unfold State.flEffect
  simp [apply_ite State.fixed, apply_ite Prod.fst, apply_ite Prod.snd]

@[simp] theorem State.flCmdEnd_fixed (s : State) (code : Nat) :
    (State.flCmdEnd s code).fixed = s.fixed := by
  unfold State.flCmdEnd
  simp [apply_ite State.fixed, apply_ite Prod.fst, apply_ite Prod.snd]

@[simp] theorem State.nvFail_fixed (s : State) (erase : Bool) (a : Nat) (bs : List Byte) :
    (State.nvFail s erase a bs).fixed = s.fixed := by
  unfold State.nvFail
  dsimp only
  (repeat' split) <;> simp [apply_ite State.fixed, apply_ite Prod.fst, apply_ite Prod.snd]

@[simp] theorem State.flTimeout_fixed (s : State) (erase : Bool) (a : Nat) (bs : List Byte) (who : Nat) :
    (State.flTimeout s erase a bs who).fixed = s.fixed := by
  unfold State.flTimeout
  simp [apply_ite State.fixed, apply_ite Prod.fst, apply_ite Prod.snd]

end Sys2Proof.Machine
end

