-- ==== Sys2Proof/Laws/KeepsResponses.lean ====
section
/-! SUPPORT. No function of Machine/Responses.lean changes what stays fixed while the block runs (`State.fixed`: the role,
the build's taps, the queue of waiting commands, the sixteen queues and lanes). -/

namespace Sys2Proof.Machine

set_option maxRecDepth 100000
set_option linter.all false

@[simp] theorem State.badTag_fixed (s : State) :
    (State.badTag s).fixed = s.fixed := by
  unfold State.badTag
  simp [apply_ite State.fixed, apply_ite Prod.fst, apply_ite Prod.snd]

@[simp] theorem State.hostLineTo_fixed (s : State) (r : Req) (bs : List Byte) (err : Bool) :
    (State.hostLineTo s r bs err).fixed = s.fixed := by
  unfold State.hostLineTo
  (repeat' split) <;> simp [apply_ite State.fixed, apply_ite Prod.fst, apply_ite Prod.snd]

@[simp] theorem State.storeLineTo_fixed (s : State) (r : Req) (bs : List Byte) (err : Bool) :
    (State.storeLineTo s r bs err).fixed = s.fixed := by
  unfold State.storeLineTo
  (repeat' split) <;> simp [apply_ite State.fixed, apply_ite Prod.fst, apply_ite Prod.snd]

end Sys2Proof.Machine
end

