-- ==== Sys2Proof/Laws/KeepsBus.lean ====
section
/-! SUPPORT. No function of Machine/Bus.lean changes what stays fixed while the block runs (`State.fixed`: the role,
the build's taps, the queue of waiting commands, the sixteen queues and lanes). -/

namespace Sys2Proof.Machine

set_option maxRecDepth 100000
set_option linter.all false

@[simp] theorem State.setHolding_fixed (s : State) (req : Nat) (f : Holding → Holding) :
    (State.setHolding s req f).fixed = s.fixed := by
  unfold State.setHolding
  simp [apply_ite State.fixed, apply_ite Prod.fst, apply_ite Prod.snd]

@[simp] theorem State.readCleared_fixed (s : State) (d : RegDef) (off : Nat) :
    (State.readCleared s d off).fixed = s.fixed := by
  unfold State.readCleared
  simp [apply_ite State.fixed, apply_ite Prod.fst, apply_ite Prod.snd]

@[simp] theorem State.readEffect_fixed (s : State) (off : Nat) :
    (State.readEffect s off).fixed = s.fixed := by
  unfold State.readEffect
  (repeat' split) <;> simp [apply_ite State.fixed, apply_ite Prod.fst, apply_ite Prod.snd]

@[simp] theorem State.catchUp_fixed (s : State) (off : Nat) :
    (State.catchUp s off).fixed = s.fixed := by
  unfold State.catchUp
  simp [apply_ite State.fixed, apply_ite Prod.fst, apply_ite Prod.snd]

@[simp] theorem State.busRead_fixed (s : State) (req : Nat) (off : Nat) :
    (State.busRead s req off).2.fixed = s.fixed := by
  unfold State.busRead
  dsimp only
  (repeat' split) <;> simp [apply_ite State.fixed, apply_ite Prod.fst, apply_ite Prod.snd]

@[simp] theorem State.orRefuse_fixed (s : State) (o : Option State) (h : ∀ t, o = some t → t.fixed = s.fixed) :
    (s.orRefuse o).1.fixed = s.fixed := by
  unfold State.orRefuse
  split
  · exact h _ rfl
  · rfl

@[simp] theorem State.plainWrite_fixed (s : State) (d : RegDef) (off : Nat) (v : Nat) :
    (State.plainWrite s d off v).fixed = s.fixed := by
  unfold State.plainWrite
  simp [apply_ite State.fixed, apply_ite Prod.fst, apply_ite Prod.snd]

@[simp] theorem State.writeAon_fixed (s : State) (req : Nat) (off : Nat) (v : Nat) :
    ∀ t_, State.writeAon s req off v = some t_ → t_.1.fixed = s.fixed := by
  intro t_ h
  unfold State.writeAon at h
  refine ite_elim h (fun h => ?_) (fun h => ?_)
  · rw [← Option.some.inj h]
    exact ite_prop (P := fun x : State => x.fixed = s.fixed) (by simp) (by simp)
  repeat' refine ite_elim h (fun h => ?_) (fun h => ?_)
  all_goals first | (cases h; done) | (rw [← Option.some.inj h])
  all_goals first
    | (refine State.orRefuse_fixed _ _ ?_; intro t ht
       first | exact State.wFlagExt_fixed _ _ _ _ ht | exact State.wSwap_fixed _ _ _ _ ht | exact State.wPbCmd_fixed _ _ _ ht
             | exact State.wRate_fixed _ _ _ ht | exact State.wTod_fixed _ _ _ ht | exact State.wHangGo_fixed _ _ _ ht
             | exact State.wEngCtrl_fixed _ _ _ _ ht | exact State.wEngHi_fixed _ _ _ _ ht | exact State.wClear_fixed _ _ _ ht
             | exact State.wLife_fixed _ _ _ _ ht | exact State.wSecFloor_fixed _ _ _ _ ht | exact State.wImLoad_fixed _ _ _ ht
             | exact State.wSwapKey_fixed _ _ _ _ ht | exact State.wFlCmd_fixed _ _ _ ht | exact State.wRing_fixed _ _ _ _ ht)
    | rfl
    | simp
    | (split <;> simp)

@[simp] theorem State.writeQueues_fixed (s : State) (req : Nat) (off : Nat) (v : Nat) :
    ∀ t_, State.writeQueues s req off v = some t_ → t_.1.fixed = s.fixed := by
  intro t_ h
  unfold State.writeQueues at h
  try dsimp only at h
  repeat' refine ite_elim h (fun h => ?_) (fun h => ?_)
  all_goals first | (cases h; done) | (rw [← Option.some.inj h])
  all_goals first
    | (refine State.orRefuse_fixed _ _ ?_; intro t ht
       first | exact State.wFlagExt_fixed _ _ _ _ ht | exact State.wSwap_fixed _ _ _ _ ht | exact State.wPbCmd_fixed _ _ _ ht
             | exact State.wRate_fixed _ _ _ ht | exact State.wTod_fixed _ _ _ ht | exact State.wHangGo_fixed _ _ _ ht
             | exact State.wEngCtrl_fixed _ _ _ _ ht | exact State.wEngHi_fixed _ _ _ _ ht | exact State.wClear_fixed _ _ _ ht
             | exact State.wLife_fixed _ _ _ _ ht | exact State.wSecFloor_fixed _ _ _ _ ht | exact State.wImLoad_fixed _ _ _ ht
             | exact State.wSwapKey_fixed _ _ _ _ ht | exact State.wFlCmd_fixed _ _ _ ht | exact State.wRing_fixed _ _ _ _ ht)
    | rfl
    | simp
    | (split <;> simp)

@[simp] theorem State.writeWork_fixed (s : State) (off : Nat) (v : Nat) :
    ∀ t_, State.writeWork s off v = some t_ → t_.1.fixed = s.fixed := by
  intro t_ h
  unfold State.writeWork at h
  try dsimp only at h
  repeat' refine ite_elim h (fun h => ?_) (fun h => ?_)
  all_goals first | (cases h; done) | (rw [← Option.some.inj h])
  all_goals first
    | (refine State.orRefuse_fixed _ _ ?_; intro t ht
       first | exact State.wFlagExt_fixed _ _ _ _ ht | exact State.wSwap_fixed _ _ _ _ ht | exact State.wPbCmd_fixed _ _ _ ht
             | exact State.wRate_fixed _ _ _ ht | exact State.wTod_fixed _ _ _ ht | exact State.wHangGo_fixed _ _ _ ht
             | exact State.wEngCtrl_fixed _ _ _ _ ht | exact State.wEngHi_fixed _ _ _ _ ht | exact State.wClear_fixed _ _ _ ht
             | exact State.wLife_fixed _ _ _ _ ht | exact State.wSecFloor_fixed _ _ _ _ ht | exact State.wImLoad_fixed _ _ _ ht
             | exact State.wSwapKey_fixed _ _ _ _ ht | exact State.wFlCmd_fixed _ _ _ ht | exact State.wRing_fixed _ _ _ _ ht)
    | rfl
    | simp
    | (split <;> simp)

@[simp] theorem State.writeService_fixed (s : State) (req : Nat) (off : Nat) (v : Nat) :
    ∀ t_, State.writeService s req off v = some t_ → t_.1.fixed = s.fixed := by
  intro t_ h
  unfold State.writeService at h
  try dsimp only at h
  repeat' refine ite_elim h (fun h => ?_) (fun h => ?_)
  all_goals first | (cases h; done) | (rw [← Option.some.inj h])
  all_goals first
    | (refine State.orRefuse_fixed _ _ ?_; intro t ht
       first | exact State.wFlagExt_fixed _ _ _ _ ht | exact State.wSwap_fixed _ _ _ _ ht | exact State.wPbCmd_fixed _ _ _ ht
             | exact State.wRate_fixed _ _ _ ht | exact State.wTod_fixed _ _ _ ht | exact State.wHangGo_fixed _ _ _ ht
             | exact State.wEngCtrl_fixed _ _ _ _ ht | exact State.wEngHi_fixed _ _ _ _ ht | exact State.wClear_fixed _ _ _ ht
             | exact State.wLife_fixed _ _ _ _ ht | exact State.wSecFloor_fixed _ _ _ _ ht | exact State.wImLoad_fixed _ _ _ ht
             | exact State.wSwapKey_fixed _ _ _ _ ht | exact State.wFlCmd_fixed _ _ _ ht | exact State.wRing_fixed _ _ _ _ ht)
    | rfl
    | simp
    | (split <;> simp)

@[simp] theorem State.specialWrite_fixed (s : State) (req : Nat) (off : Nat) (v : Nat) :
    ∀ t_, State.specialWrite s req off v = some t_ → t_.1.fixed = s.fixed := by
  intro t_ h
  unfold State.specialWrite at h
  split at h
  · exact State.writeAon_fixed _ _ _ _ _ h
  · split at h
    · exact State.writeQueues_fixed _ _ _ _ _ h
    · split at h
      · exact State.writeWork_fixed _ _ _ _ h
      · exact State.writeService_fixed _ _ _ _ _ h

@[simp] theorem State.regWrite_fixed (s : State) (req : Nat) (d : RegDef) (off : Nat) (v : Nat) :
    (State.regWrite s req d off v).1.fixed = s.fixed := by
  unfold State.regWrite
  split
  · rename_i h
    exact State.specialWrite_fixed _ _ _ _ _ h
  · dsimp only
    split
    · rw [State.plainWrite_fixed]
    · split
      · rw [State.plainWrite_fixed, State.shWrite_fixed]
      · rw [State.shWrite_fixed]

@[simp] theorem State.highRefused_fixed (s : State) (req : Nat) (d : RegDef) (off : Nat) (v : Nat) :
    ∀ t_, State.highRefused s req d off v = some t_ → t_.fixed = s.fixed := by
  intro t_ h
  unfold State.highRefused at h
  dsimp only at h
  repeat' split at h
  all_goals first | (cases h; done) | (rw [← Option.some.inj h])
  rw [State.shWrite_fixed]

@[simp] theorem State.pairWrite_fixed (s : State) (req : Nat) (d : RegDef) (lo : Nat) (v : Nat) (h : Nat) :
    (State.pairWrite s req d lo v h).1.fixed = s.fixed := by
  unfold State.pairWrite
  (repeat' split) <;> simp [apply_ite State.fixed, apply_ite Prod.fst, apply_ite Prod.snd]

@[simp] theorem State.windowWrite_fixed (s : State) (off : Nat) (v : Nat) :
    ∀ t_, State.windowWrite s off v = some t_ → t_.1.fixed = s.fixed := by
  intro t_ h
  unfold State.windowWrite at h
  try dsimp only at h
  repeat' refine ite_elim h (fun h => ?_) (fun h => ?_)
  all_goals first | (cases h; done) | (rw [← Option.some.inj h])
  all_goals first
    | (refine State.orRefuse_fixed _ _ ?_; intro t ht
       first | exact State.wFlagExt_fixed _ _ _ _ ht | exact State.wSwap_fixed _ _ _ _ ht | exact State.wPbCmd_fixed _ _ _ ht
             | exact State.wRate_fixed _ _ _ ht | exact State.wTod_fixed _ _ _ ht | exact State.wHangGo_fixed _ _ _ ht
             | exact State.wEngCtrl_fixed _ _ _ _ ht | exact State.wEngHi_fixed _ _ _ _ ht | exact State.wClear_fixed _ _ _ ht
             | exact State.wLife_fixed _ _ _ _ ht | exact State.wSecFloor_fixed _ _ _ _ ht | exact State.wImLoad_fixed _ _ _ ht
             | exact State.wSwapKey_fixed _ _ _ _ ht | exact State.wFlCmd_fixed _ _ _ ht | exact State.wRing_fixed _ _ _ _ ht)
    | rfl
    | simp
    | (split <;> simp)

@[simp] theorem State.heldWrite_fixed (s : State) (req : Nat) (d : RegDef) (off : Nat) (v : Nat) :
    (State.heldWrite s req d off v).1.fixed = s.fixed := by
  unfold State.heldWrite
  split
  · split
    · rename_i h
      exact State.highRefused_fixed _ _ _ _ _ _ h
    · rw [State.setHolding_fixed]
  · split
    · split
      · dsimp only
        split
        · rw [State.setHolding_fixed, State.pairWrite_fixed]
        · rw [State.pairWrite_fixed]
      · rw [State.regWrite_fixed]
    · rw [State.regWrite_fixed]

@[simp] theorem State.busWrite_fixed (s : State) (req : Nat) (off : Nat) (v : Nat) :
    (State.busWrite s req off v).1.fixed = s.fixed := by
  unfold State.busWrite
  dsimp only
  split
  · rename_i h
    rw [State.windowWrite_fixed _ _ _ _ h, State.catchUp_fixed]
  · split
    · rw [State.catchUp_fixed]
    · rw [State.heldWrite_fixed, State.catchUp_fixed]

@[simp] theorem State.debugDone_fixed (s : State) (a : Access) (data : Nat) (refused : Bool) :
    (State.debugDone s a data refused).fixed = s.fixed := by
  unfold State.debugDone
  simp [apply_ite State.fixed, apply_ite Prod.fst, apply_ite Prod.snd]

@[simp] theorem State.respond_fixed (s : State) (a : Access) (data : Nat) (refused : Bool) :
    (State.respond s a data refused).fixed = s.fixed := by
  unfold State.respond
  simp [apply_ite State.fixed, apply_ite Prod.fst, apply_ite Prod.snd]

@[simp] theorem State.holdAfter_fixed (s : State) (a : Access) :
    (State.holdAfter s a).fixed = s.fixed := by
  unfold State.holdAfter
  simp [apply_ite State.fixed, apply_ite Prod.fst, apply_ite Prod.snd]

@[simp] theorem State.perform_fixed (s : State) (a : Access) :
    (State.perform s a).fixed = s.fixed := by
  unfold State.perform
  simp [apply_ite State.fixed, apply_ite Prod.fst, apply_ite Prod.snd]

@[simp] theorem State.debugDenied_fixed (s : State) (a : Access) :
    (State.debugDenied s a).fixed = s.fixed := by
  unfold State.debugDenied
  simp [apply_ite State.fixed, apply_ite Prod.fst, apply_ite Prod.snd]

@[simp] theorem State.performAllowed_fixed (s : State) (a : Access) :
    (State.performAllowed s a).fixed = s.fixed := by
  unfold State.performAllowed
  simp [apply_ite State.fixed, apply_ite Prod.fst, apply_ite Prod.snd]

@[simp] theorem State.performWaiting_fixed (s : State) :
    (State.performWaiting s).fixed = s.fixed := by
  unfold State.performWaiting
  simp [apply_ite State.fixed, apply_ite Prod.fst, apply_ite Prod.snd]

@[simp] theorem State.access_fixed (s : State) (a : Access) :
    (State.access s a).fixed = s.fixed := by
  unfold State.access
  simp [apply_ite State.fixed, apply_ite Prod.fst, apply_ite Prod.snd]

@[simp] theorem State.readBy_fixed (s : State) (who : Who) (off : Nat) :
    (State.readBy s who off).fixed = s.fixed := by
  unfold State.readBy
  simp [apply_ite State.fixed, apply_ite Prod.fst, apply_ite Prod.snd]

@[simp] theorem State.writeBy_fixed (s : State) (who : Who) (off : Nat) (v : Nat) :
    (State.writeBy s who off v).fixed = s.fixed := by
  unfold State.writeBy
  simp [apply_ite State.fixed, apply_ite Prod.fst, apply_ite Prod.snd]

end Sys2Proof.Machine
end

