-- ==== Sys2Proof/Laws/KeepsPower.lean ====
section
/-! SUPPORT. No function of Machine/Power.lean changes what stays fixed while the block runs (`State.fixed`: the role,
the build's taps, the queue of waiting commands, the sixteen queues and lanes). -/

namespace Sys2Proof.Machine

set_option maxRecDepth 100000
set_option linter.all false

@[simp] theorem State.setPw_fixed (s : State) (f : Power → Power) :
    (State.setPw s f).fixed = s.fixed := by
  unfold State.setPw
  simp [apply_ite State.fixed, apply_ite Prod.fst, apply_ite Prod.snd]

@[simp] theorem State.gate_fixed (s : State) (st : PState) :
    (State.gate s st).fixed = s.fixed := by
  unfold State.gate
  simp [apply_ite State.fixed, apply_ite Prod.fst, apply_ite Prod.snd]

@[simp] theorem State.wakeFaults_fixed (s : State) :
    (State.wakeFaults s).fixed = s.fixed := by
  unfold State.wakeFaults
  simp [apply_ite State.fixed, apply_ite Prod.fst, apply_ite Prod.snd]

@[simp] theorem State.ungate_fixed (s : State) :
    (State.ungate s).fixed = s.fixed := by
  unfold State.ungate
  simp [apply_ite State.fixed, apply_ite Prod.fst, apply_ite Prod.snd]

@[simp] theorem State.startUp_fixed (s : State) :
    (State.startUp s).fixed = s.fixed := by
  unfold State.startUp
  simp [apply_ite State.fixed, apply_ite Prod.fst, apply_ite Prod.snd]

@[simp] theorem State.startIf_fixed (s : State) :
    (State.startIf s).fixed = s.fixed := by
  unfold State.startIf
  simp [apply_ite State.fixed, apply_ite Prod.fst, apply_ite Prod.snd]

@[simp] theorem State.dueWake_fixed (s : State) :
    (State.dueWake s).fixed = s.fixed := by
  unfold State.dueWake
  (repeat' split) <;> simp [apply_ite State.fixed, apply_ite Prod.fst, apply_ite Prod.snd]

@[simp] theorem State.wakeEnd_fixed (s : State) :
    (State.wakeEnd s).fixed = s.fixed := by
  unfold State.wakeEnd
  simp [apply_ite State.fixed, apply_ite Prod.fst, apply_ite Prod.snd]

@[simp] theorem State.ackRise_fixed (s : State) :
    (State.ackRise s).fixed = s.fixed := by
  unfold State.ackRise
  simp [apply_ite State.fixed, apply_ite Prod.fst, apply_ite Prod.snd]

@[simp] theorem State.clockLoss_fixed (s : State) :
    (State.clockLoss s).fixed = s.fixed := by
  unfold State.clockLoss
  simp [apply_ite State.fixed, apply_ite Prod.fst, apply_ite Prod.snd]

@[simp] theorem State.ackFall_fixed (s : State) :
    (State.ackFall s).fixed = s.fixed := by
  unfold State.ackFall
  (repeat' split) <;> simp [apply_ite State.fixed, apply_ite Prod.fst, apply_ite Prod.snd]

@[simp] theorem State.wakeLate_fixed (s : State) :
    (State.wakeLate s).fixed = s.fixed := by
  unfold State.wakeLate
  simp [apply_ite State.fixed, apply_ite Prod.fst, apply_ite Prod.snd]

@[simp] theorem State.clockRelease_fixed (s : State) :
    (State.clockRelease s).fixed = s.fixed := by
  unfold State.clockRelease
  simp [apply_ite State.fixed, apply_ite Prod.fst, apply_ite Prod.snd]

@[simp] theorem State.fastRelease_fixed (s : State) :
    (State.fastRelease s).fixed = s.fixed := by
  unfold State.fastRelease
  simp [apply_ite State.fixed, apply_ite Prod.fst, apply_ite Prod.snd]

@[simp] theorem State.idle_fixed (s : State) :
    (State.idle s).fixed = s.fixed := by
  unfold State.idle
  simp [apply_ite State.fixed, apply_ite Prod.fst, apply_ite Prod.snd]

end Sys2Proof.Machine
end

