-- ==== Sys2Proof/Laws/KeepsSteward.lean ====
section
/-! SUPPORT. No function of Machine/Steward.lean changes what stays fixed while the block runs (`State.fixed`: the role,
the build's taps, the queue of waiting commands, the sixteen queues and lanes). -/

namespace Sys2Proof.Machine

set_option maxRecDepth 100000
set_option linter.all false

@[simp] theorem State.setX_fixed (s : State) (r : Nat) (v : Word) :
    (State.setX s r v).fixed = s.fixed := by
  unfold State.setX
  simp [apply_ite State.fixed, apply_ite Prod.fst, apply_ite Prod.snd]

@[simp] theorem State.goto_fixed (s : State) (pc : Nat) :
    (State.goto s pc).fixed = s.fixed := by
  unfold State.goto
  simp [apply_ite State.fixed, apply_ite Prod.fst, apply_ite Prod.snd]

@[simp] theorem State.retire_fixed (s : State) :
    (State.retire s).fixed = s.fixed := by
  unfold State.retire
  simp [apply_ite State.fixed, apply_ite Prod.fst, apply_ite Prod.snd]

@[simp] theorem State.trapTo_fixed (s : State) (interrupt : Bool) (cause : Nat) (tval : Nat) :
    (State.trapTo s interrupt cause tval).fixed = s.fixed := by
  unfold State.trapTo
  simp [apply_ite State.fixed, apply_ite Prod.fst, apply_ite Prod.snd]

@[simp] theorem State.trapVal_fixed (s : State) (cause : Nat) (v : Nat) :
    (State.trapVal s cause v).fixed = s.fixed := by
  unfold State.trapVal
  simp [apply_ite State.fixed, apply_ite Prod.fst, apply_ite Prod.snd]

@[simp] theorem State.setCsr_fixed (s : State) (n : Nat) (v : Nat) :
    (State.setCsr s n v).fixed = s.fixed := by
  unfold State.setCsr
  simp [apply_ite State.fixed, apply_ite Prod.fst, apply_ite Prod.snd]

@[simp] theorem State.poisonTrap_fixed (s : State) :
    (State.poisonTrap s).fixed = s.fixed := by
  unfold State.poisonTrap
  simp [apply_ite State.fixed, apply_ite Prod.fst, apply_ite Prod.snd]

@[simp] theorem State.fetchHalf_fixed (s : State) (a : Nat) :
    (State.fetchHalf s a).1.fixed = s.fixed := by
  unfold State.fetchHalf
  simp [apply_ite State.fixed, apply_ite Prod.fst, apply_ite Prod.snd]

@[simp] theorem State.noteRefused_fixed (s : State) (off : Nat) :
    (State.noteRefused s off).fixed = s.fixed := by
  unfold State.noteRefused
  simp [apply_ite State.fixed, apply_ite Prod.fst, apply_ite Prod.snd]

@[simp] theorem State.windowLoad_fixed (s : State) (off : Nat) :
    (State.windowLoad s off).1.fixed = s.fixed := by
  unfold State.windowLoad
  simp [apply_ite State.fixed, apply_ite Prod.fst, apply_ite Prod.snd]

@[simp] theorem State.loadMem_fixed (s : State) (a : Nat) (n : Nat) :
    (State.loadMem s a n).1.fixed = s.fixed := by
  unfold State.loadMem
  refine ite_prop (P := fun x : State × HartAcc => x.1.fixed = s.fixed) rfl ?_
  refine ite_prop (P := fun x : State × HartAcc => x.1.fixed = s.fixed) rfl ?_
  refine ite_prop (P := fun x : State × HartAcc => x.1.fixed = s.fixed) rfl ?_
  refine ite_prop (P := fun x : State × HartAcc => x.1.fixed = s.fixed) ?_ ?_
  · exact ite_prop (P := fun x : State × HartAcc => x.1.fixed = s.fixed) (State.poisonTrap_fixed s) rfl
  · exact ite_prop (P := fun x : State × HartAcc => x.1.fixed = s.fixed) (State.windowLoad_fixed s _) rfl

@[simp] theorem State.storeMem_fixed (s : State) (a : Nat) (n : Nat) (v : Nat) :
    (State.storeMem s a n v).1.fixed = s.fixed := by
  unfold State.storeMem
  simp [apply_ite State.fixed, apply_ite Prod.fst, apply_ite Prod.snd]

@[simp] theorem State.dataAccess_fixed (s : State) (wr : Bool) (a : Nat) (n : Nat) (v : Nat) :
    (State.dataAccess s wr a n v).1.fixed = s.fixed := by
  unfold State.dataAccess
  dsimp only
  (repeat' split) <;> simp [apply_ite State.fixed, apply_ite Prod.fst, apply_ite Prod.snd]

@[simp] theorem State.setSlot_fixed (s : State) (i : Nat) (x : Option Staged) :
    (State.setSlot s i x).fixed = s.fixed := by
  unfold State.setSlot
  simp [apply_ite State.fixed, apply_ite Prod.fst, apply_ite Prod.snd]

@[simp] theorem State.pnOpen_fixed (s : State) (a : Nat) (b : Nat) :
    (State.pnOpen s a b).1.fixed = s.fixed := by
  unfold State.pnOpen
  (repeat' split) <;> simp [apply_ite State.fixed, apply_ite Prod.fst, apply_ite Prod.snd]

@[simp] theorem State.pnPut_fixed (s : State) (a : Nat) (b : Nat) :
    (State.pnPut s a b).1.fixed = s.fixed := by
  unfold State.pnPut
  (repeat' split) <;> simp [apply_ite State.fixed, apply_ite Prod.fst, apply_ite Prod.snd]

@[simp] theorem State.pnDrop_fixed (s : State) (a : Nat) :
    (State.pnDrop s a).1.fixed = s.fixed := by
  unfold State.pnDrop
  (repeat' split) <;> simp [apply_ite State.fixed, apply_ite Prod.fst, apply_ite Prod.snd]

@[simp] theorem State.pnSend_fixed (s : State) (a : Nat) :
    (State.pnSend s a).1.fixed = s.fixed := by
  unfold State.pnSend
  (repeat' split) <;> simp [apply_ite State.fixed, apply_ite Prod.fst, apply_ite Prod.snd]

@[simp] theorem State.dbRing_fixed (s : State) (a : Nat) :
    (State.dbRing s a).1.fixed = s.fixed := by
  unfold State.dbRing
  simp [apply_ite State.fixed, apply_ite Prod.fst, apply_ite Prod.snd]

@[simp] theorem State.tmRd_fixed (s : State) (a : Nat) :
    (State.tmRd s a).1.fixed = s.fixed := by
  unfold State.tmRd
  simp [apply_ite State.fixed, apply_ite Prod.fst, apply_ite Prod.snd]

@[simp] theorem State.xbospen_fixed (s : State) (f3 : Nat) (a : Nat) (b : Nat) :
    ∀ t_, State.xbospen s f3 a b = some t_ → t_.1.fixed = s.fixed := by
  intro t_ h
  unfold State.xbospen at h
  (repeat' split at h) <;> simp_all
  all_goals first | (subst h; simp [apply_ite State.fixed, apply_ite Prod.fst, apply_ite Prod.snd]) | (cases h; simp [apply_ite State.fixed, apply_ite Prod.fst, apply_ite Prod.snd]) | skip

@[simp] theorem State.illegal_fixed (s : State) (w : Nat) :
    (State.illegal s w).fixed = s.fixed := by
  unfold State.illegal
  simp [apply_ite State.fixed, apply_ite Prod.fst, apply_ite Prod.snd]

@[simp] theorem State.result_fixed (s : State) (w : Nat) (len : Nat) (v : Word) :
    (State.result s w len v).fixed = s.fixed := by
  unfold State.result
  simp [apply_ite State.fixed, apply_ite Prod.fst, apply_ite Prod.snd]

@[simp] theorem State.rvLoad_fixed (s : State) (w : Nat) (len : Nat) :
    (State.rvLoad s w len).fixed = s.fixed := by
  unfold State.rvLoad
  dsimp only
  (repeat' split) <;> simp [apply_ite State.fixed, apply_ite Prod.fst, apply_ite Prod.snd]

@[simp] theorem State.rvStore_fixed (s : State) (w : Nat) (len : Nat) :
    (State.rvStore s w len).fixed = s.fixed := by
  unfold State.rvStore
  dsimp only
  (repeat' split) <;> simp [apply_ite State.fixed, apply_ite Prod.fst, apply_ite Prod.snd]

@[simp] theorem State.rvCsr_fixed (s : State) (w : Nat) (len : Nat) :
    (State.rvCsr s w len).fixed = s.fixed := by
  unfold State.rvCsr
  dsimp only
  (repeat' split) <;> simp [apply_ite State.fixed, apply_ite Prod.fst, apply_ite Prod.snd]

@[simp] theorem State.rvSystem_fixed (s : State) (w : Nat) (len : Nat) :
    (State.rvSystem s w len).fixed = s.fixed := by
  unfold State.rvSystem
  simp [apply_ite State.fixed, apply_ite Prod.fst, apply_ite Prod.snd]

@[simp] theorem State.rvCustom_fixed (s : State) (w : Nat) (len : Nat) :
    (State.rvCustom s w len).fixed = s.fixed := by
  unfold State.rvCustom
  split
  · rw [State.illegal_fixed]
  · split
    · rfl
    · split
      · rw [State.illegal_fixed]
      · rename_i h
        rw [State.result_fixed]
        exact State.xbospen_fixed _ _ _ _ _ h

@[simp] theorem State.rvExec_fixed (s : State) (w : Nat) (len : Nat) :
    (State.rvExec s w len).fixed = s.fixed := by
  unfold State.rvExec
  dsimp only
  (repeat' split) <;> simp [apply_ite State.fixed, apply_ite Prod.fst, apply_ite Prod.snd]

@[simp] theorem State.rvStep_fixed (s : State) :
    (State.rvStep s).fixed = s.fixed := by
  unfold State.rvStep
  dsimp only
  (repeat' split) <;> simp [apply_ite State.fixed, apply_ite Prod.fst, apply_ite Prod.snd]

@[simp] theorem State.wakeHart_fixed (s : State) :
    (State.wakeHart s).fixed = s.fixed := by
  unfold State.wakeHart
  simp [apply_ite State.fixed, apply_ite Prod.fst, apply_ite Prod.snd]

@[simp] theorem State.stewardStep_fixed (s : State) :
    (State.stewardStep s).fixed = s.fixed := by
  unfold State.stewardStep
  dsimp only
  (repeat' split) <;> simp [apply_ite State.fixed, apply_ite Prod.fst, apply_ite Prod.snd]

@[simp] theorem State.xbospenRow_fixed (s : State) (f3 : Nat) (rd : BitVec 5) (rs1 : BitVec 5) (rs2 : BitVec 5) :
    (State.xbospenRow s f3 rd rs1 rs2).fixed = s.fixed := by
  unfold State.xbospenRow
  simp [apply_ite State.fixed, apply_ite Prod.fst, apply_ite Prod.snd]

end Sys2Proof.Machine
end

