-- ==== Sys2Proof/Laws/KeepsExec.lean ====
section
/-! SUPPORT. No command but the release of aon_rst_n changes what stays fixed while the block runs: one lemma a meaning. -/

namespace Sys2Proof.Machine

set_option maxRecDepth 100000
set_option linter.all false

theorem execPowerOn_fixed (s : State) (t : State) (h : execPowerOn s = .next t) : t.fixed = s.fixed := by
  cases h
  simp [apply_ite State.fixed, apply_ite Prod.fst, apply_ite Prod.snd]

theorem execPowerOff_fixed (s : State) (t : State) (h : execPowerOff s = .next t) : t.fixed = s.fixed := by
  cases h
  simp [apply_ite State.fixed, apply_ite Prod.fst, apply_ite Prod.snd]

theorem execAonResetAssert_fixed (s : State) (t : State) (h : execAonResetAssert s = .next t) : t.fixed = s.fixed := by
  cases h
  simp [apply_ite State.fixed, apply_ite Prod.fst, apply_ite Prod.snd]

theorem execFastResetAssert_fixed (s : State) (t : State) (h : execFastResetAssert s = .next t) : t.fixed = s.fixed := by
  cases h
  simp [apply_ite State.fixed, apply_ite Prod.fst, apply_ite Prod.snd]

theorem execFastResetRelease_fixed (s : State) (t : State) (h : execFastResetRelease s = .next t) : t.fixed = s.fixed := by
  cases h
  simp [apply_ite State.fixed, apply_ite Prod.fst, apply_ite Prod.snd]

theorem execLaneReset_fixed (lane : Fin 16) (assert : Bool) (s : State) (t : State) (h : execLaneReset lane assert s = .next t) : t.fixed = s.fixed := by
  cases h
  simp [apply_ite State.fixed, apply_ite Prod.fst, apply_ite Prod.snd]

theorem execPortReset_fixed (port : Fin 4) (assert : Bool) (s : State) (t : State) (h : execPortReset port assert s = .next t) : t.fixed = s.fixed := by
  cases h
  simp [apply_ite State.fixed, apply_ite Prod.fst, apply_ite Prod.snd]

theorem execFastClockNeed_fixed (s : State) (t : State) (h : execFastClockNeed s = .next t) : t.fixed = s.fixed := by
  cases h
  simp [apply_ite State.fixed, apply_ite Prod.fst, apply_ite Prod.snd]

theorem execDueWake_fixed (s : State) (t : State) (h : execDueWake s = .next t) : t.fixed = s.fixed := by
  cases h
  simp [apply_ite State.fixed, apply_ite Prod.fst, apply_ite Prod.snd]

theorem execFclkAckRise_fixed (s : State) (t : State) (h : execFclkAckRise s = .next t) : t.fixed = s.fixed := by
  cases h
  simp [apply_ite State.fixed, apply_ite Prod.fst, apply_ite Prod.snd]

theorem execFclkAckFall_fixed (s : State) (t : State) (h : execFclkAckFall s = .next t) : t.fixed = s.fixed := by
  cases h
  simp [apply_ite State.fixed, apply_ite Prod.fst, apply_ite Prod.snd]

theorem execWakeLateTimer_fixed (s : State) (t : State) (h : execWakeLateTimer s = .next t) : t.fixed = s.fixed := by
  cases h
  simp [apply_ite State.fixed, apply_ite Prod.fst, apply_ite Prod.snd]

theorem execFastClockRelease_fixed (s : State) (t : State) (h : execFastClockRelease s = .next t) : t.fixed = s.fixed := by
  cases h
  simp [apply_ite State.fixed, apply_ite Prod.fst, apply_ite Prod.snd]

theorem execWarmResetKey_fixed (who : Who) (data : Word) (s : State) (t : State) (h : execWarmResetKey who data s = .next t) : t.fixed = s.fixed := by
  cases h
  simp [apply_ite State.fixed, apply_ite Prod.fst, apply_ite Prod.snd]

theorem execWarmResetRelease_fixed (s : State) (t : State) (h : execWarmResetRelease s = .next t) : t.fixed = s.fixed := by
  cases h
  simp [apply_ite State.fixed, apply_ite Prod.fst, apply_ite Prod.snd]

theorem execSramInitDone_fixed (s : State) (t : State) (h : execSramInitDone s = .next t) : t.fixed = s.fixed := by
  cases h
  simp [apply_ite State.fixed, apply_ite Prod.fst, apply_ite Prod.snd]

theorem execRomBoot_fixed (s : State) (t : State) (h : execRomBoot s = .next t) : t.fixed = s.fixed := by
  cases h
  simp [apply_ite State.fixed, apply_ite Prod.fst, apply_ite Prod.snd]

theorem execBootGo_fixed (who : Who) (data : Word) (s : State) (t : State) (h : execBootGo who data s = .next t) : t.fixed = s.fixed := by
  cases h
  simp [apply_ite State.fixed, apply_ite Prod.fst, apply_ite Prod.snd]

theorem execPmBootStageWrite_fixed (who : Who) (data : Word) (s : State) (t : State) (h : execPmBootStageWrite who data s = .next t) : t.fixed = s.fixed := by
  cases h
  simp [apply_ite State.fixed, apply_ite Prod.fst, apply_ite Prod.snd]

theorem execRegisterWrite_fixed (who : Who) (addr : BitVec 18) (data : Word) (s : State) (t : State) (h : execRegisterWrite who addr data s = .next t) : t.fixed = s.fixed := by
  cases h
  simp [apply_ite State.fixed, apply_ite Prod.fst, apply_ite Prod.snd]

theorem execReadClear_fixed (who : Who) (addr : BitVec 18) (s : State) (t : State) (h : execReadClear who addr s = .next t) : t.fixed = s.fixed := by
  cases h
  simp [apply_ite State.fixed, apply_ite Prod.fst, apply_ite Prod.snd]

theorem execPairLowRead_fixed (who : Who) (addr : BitVec 18) (s : State) (t : State) (h : execPairLowRead who addr s = .next t) : t.fixed = s.fixed := by
  cases h
  simp [apply_ite State.fixed, apply_ite Prod.fst, apply_ite Prod.snd]

theorem execPairHighRead_fixed (who : Who) (addr : BitVec 18) (s : State) (t : State) (h : execPairHighRead who addr s = .next t) : t.fixed = s.fixed := by
  cases h
  simp [apply_ite State.fixed, apply_ite Prod.fst, apply_ite Prod.snd]

theorem execPairHighWrite_fixed (who : Who) (addr : BitVec 18) (data : Word) (s : State) (t : State) (h : execPairHighWrite who addr data s = .next t) : t.fixed = s.fixed := by
  cases h
  simp [apply_ite State.fixed, apply_ite Prod.fst, apply_ite Prod.snd]

theorem execPairLowWrite_fixed (who : Who) (addr : BitVec 18) (data : Word) (s : State) (t : State) (h : execPairLowWrite who addr data s = .next t) : t.fixed = s.fixed := by
  cases h
  simp [apply_ite State.fixed, apply_ite Prod.fst, apply_ite Prod.snd]

theorem execShadowWrite_fixed (who : Who) (addr : BitVec 18) (data : Word) (s : State) (t : State) (h : execShadowWrite who addr data s = .next t) : t.fixed = s.fixed := by
  cases h
  simp [apply_ite State.fixed, apply_ite Prod.fst, apply_ite Prod.snd]

theorem execLiveWrite_fixed (who : Who) (addr : BitVec 18) (data : Word) (s : State) (t : State) (h : execLiveWrite who addr data s = .next t) : t.fixed = s.fixed := by
  cases h
  simp [apply_ite State.fixed, apply_ite Prod.fst, apply_ite Prod.snd]

theorem execDebugUpdateDr_fixed (s : State) (t : State) (h : execDebugUpdateDr s = .next t) : t.fixed = s.fixed := by
  unfold execDebugUpdateDr at h
  (repeat' split at h) <;> cases h <;> simp [apply_ite State.fixed, apply_ite Prod.fst, apply_ite Prod.snd]

theorem execDebugCaptureDr_fixed (s : State) (t : State) (h : execDebugCaptureDr s = .next t) : t.fixed = s.fixed := by
  cases h
  simp [apply_ite State.fixed, apply_ite Prod.fst, apply_ite Prod.snd]

theorem execDebugReset_fixed (s : State) (t : State) (h : execDebugReset s = .next t) : t.fixed = s.fixed := by
  cases h
  simp [apply_ite State.fixed, apply_ite Prod.fst, apply_ite Prod.snd]

theorem execSecAuthChange_fixed (level : Bool) (s : State) (t : State) (h : execSecAuthChange level s = .next t) : t.fixed = s.fixed := by
  cases h
  simp [apply_ite State.fixed, apply_ite Prod.fst, apply_ite Prod.snd]

theorem execEventInputCount_fixed (levels : BitVec 1024) (s : State) (t : State) (h : execEventInputCount levels s = .next t) : t.fixed = s.fixed := by
  cases h
  simp [apply_ite State.fixed, apply_ite Prod.fst, apply_ite Prod.snd]

theorem execGapCount_fixed (s : State) (t : State) (h : execGapCount s = .next t) : t.fixed = s.fixed := by
  cases h
  simp [apply_ite State.fixed, apply_ite Prod.fst, apply_ite Prod.snd]

theorem execBuntingIncrement_fixed (incs : BitVec 512) (s : State) (t : State) (h : execBuntingIncrement incs s = .next t) : t.fixed = s.fixed := by
  cases h
  simp [apply_ite State.fixed, apply_ite Prod.fst, apply_ite Prod.snd]

theorem execHostQueueMonitor_fixed (levels : BitVec 1024) (s : State) (t : State) (h : execHostQueueMonitor levels s = .next t) : t.fixed = s.fixed := by
  cases h
  simp [apply_ite State.fixed, apply_ite Prod.fst, apply_ite Prod.snd]

theorem execPlanLatch_fixed (plan : Fin 16) (s : State) (t : State) (h : execPlanLatch plan s = .next t) : t.fixed = s.fixed := by
  cases h
  simp [apply_ite State.fixed, apply_ite Prod.fst, apply_ite Prod.snd]

theorem execLatchBankDrain_fixed (s : State) (t : State) (h : execLatchBankDrain s = .next t) : t.fixed = s.fixed := by
  cases h
  simp [apply_ite State.fixed, apply_ite Prod.fst, apply_ite Prod.snd]

theorem execSample_fixed (q : Fin 16) (s : State) (t : State) (h : execSample q s = .next t) : t.fixed = s.fixed := by
  cases h
  simp [apply_ite State.fixed, apply_ite Prod.fst, apply_ite Prod.snd]

theorem execSnapshot_fixed (q : Fin 16) (s : State) (t : State) (h : execSnapshot q s = .next t) : t.fixed = s.fixed := by
  cases h
  simp [apply_ite State.fixed, apply_ite Prod.fst, apply_ite Prod.snd]

theorem execStrikeLatch_fixed (s : State) (t : State) (h : execStrikeLatch s = .next t) : t.fixed = s.fixed := by
  cases h
  simp [apply_ite State.fixed, apply_ite Prod.fst, apply_ite Prod.snd]

theorem execScore_fixed (q : Fin 16) (s : State) (t : State) (h : execScore q s = .next t) : t.fixed = s.fixed := by
  cases h
  simp [apply_ite State.fixed, apply_ite Prod.fst, apply_ite Prod.snd]

theorem execScoreVectorDone_fixed (q : Fin 16) (s : State) (t : State) (h : execScoreVectorDone q s = .next t) : t.fixed = s.fixed := by
  cases h
  simp [apply_ite State.fixed, apply_ite Prod.fst, apply_ite Prod.snd]

theorem execScoreBound_fixed (q : Fin 16) (s : State) (t : State) (h : execScoreBound q s = .next t) : t.fixed = s.fixed := by
  cases h
  simp [apply_ite State.fixed, apply_ite Prod.fst, apply_ite Prod.snd]

theorem execCheck_fixed (q : Fin 16) (s : State) (t : State) (h : execCheck q s = .next t) : t.fixed = s.fixed := by
  cases h
  simp [apply_ite State.fixed, apply_ite Prod.fst, apply_ite Prod.snd]

theorem execTileSummary_fixed (lane : Fin 2) (s : State) (t : State) (h : execTileSummary lane s = .next t) : t.fixed = s.fixed := by
  cases h
  simp [apply_ite State.fixed, apply_ite Prod.fst, apply_ite Prod.snd]

theorem execRecomputeDone_fixed (lane : Fin 2) (s : State) (t : State) (h : execRecomputeDone lane s = .next t) : t.fixed = s.fixed := by
  cases h
  simp [apply_ite State.fixed, apply_ite Prod.fst, apply_ite Prod.snd]

theorem execKnownAnswerDone_fixed (s : State) (t : State) (h : execKnownAnswerDone s = .next t) : t.fixed = s.fixed := by
  cases h
  simp [apply_ite State.fixed, apply_ite Prod.fst, apply_ite Prod.snd]

theorem execCheckBound_fixed (q : Fin 16) (s : State) (t : State) (h : execCheckBound q s = .next t) : t.fixed = s.fixed := by
  cases h
  simp [apply_ite State.fixed, apply_ite Prod.fst, apply_ite Prod.snd]

theorem execDump_fixed (q : Fin 16) (s : State) (t : State) (h : execDump q s = .next t) : t.fixed = s.fixed := by
  cases h
  simp [apply_ite State.fixed, apply_ite Prod.fst, apply_ite Prod.snd]

theorem execSend_fixed (q : Fin 16) (s : State) (t : State) (h : execSend q s = .next t) : t.fixed = s.fixed := by
  cases h
  simp [apply_ite State.fixed, apply_ite Prod.fst, apply_ite Prod.snd]

theorem execWaitFlag_fixed (q : Fin 16) (s : State) (t : State) (h : execWaitFlag q s = .next t) : t.fixed = s.fixed := by
  cases h
  simp [apply_ite State.fixed, apply_ite Prod.fst, apply_ite Prod.snd]

theorem execWaitFlagSatisfied_fixed (q : Fin 16) (s : State) (t : State) (h : execWaitFlagSatisfied q s = .next t) : t.fixed = s.fixed := by
  cases h
  simp [apply_ite State.fixed, apply_ite Prod.fst, apply_ite Prod.snd]

theorem execCycleDetected_fixed (q : Fin 16) (s : State) (t : State) (h : execCycleDetected q s = .next t) : t.fixed = s.fixed := by
  cases h
  simp [apply_ite State.fixed, apply_ite Prod.fst, apply_ite Prod.snd]

theorem execWaitFlagTimeout_fixed (q : Fin 16) (s : State) (t : State) (h : execWaitFlagTimeout q s = .next t) : t.fixed = s.fixed := by
  cases h
  simp [apply_ite State.fixed, apply_ite Prod.fst, apply_ite Prod.snd]

theorem execSetFlag_fixed (q : Fin 16) (s : State) (t : State) (h : execSetFlag q s = .next t) : t.fixed = s.fixed := by
  cases h
  simp [apply_ite State.fixed, apply_ite Prod.fst, apply_ite Prod.snd]

theorem execClearFlag_fixed (q : Fin 16) (s : State) (t : State) (h : execClearFlag q s = .next t) : t.fixed = s.fixed := by
  cases h
  simp [apply_ite State.fixed, apply_ite Prod.fst, apply_ite Prod.snd]

theorem execWaitTime_fixed (q : Fin 16) (s : State) (t : State) (h : execWaitTime q s = .next t) : t.fixed = s.fixed := by
  cases h
  simp [apply_ite State.fixed, apply_ite Prod.fst, apply_ite Prod.snd]

theorem execWaitTimeReached_fixed (q : Fin 16) (s : State) (t : State) (h : execWaitTimeReached q s = .next t) : t.fixed = s.fixed := by
  cases h
  simp [apply_ite State.fixed, apply_ite Prod.fst, apply_ite Prod.snd]

theorem execFence_fixed (q : Fin 16) (s : State) (t : State) (h : execFence q s = .next t) : t.fixed = s.fixed := by
  cases h
  simp [apply_ite State.fixed, apply_ite Prod.fst, apply_ite Prod.snd]

theorem execCommandCompletion_fixed (q : Fin 16) (slot : Fin 128) (s : State) (t : State) (h : execCommandCompletion q slot s = .next t) : t.fixed = s.fixed := by
  cases h
  simp [apply_ite State.fixed, apply_ite Prod.fst, apply_ite Prod.snd]

theorem execPlovWatchdog_fixed (q : Fin 16) (s : State) (t : State) (h : execPlovWatchdog q s = .next t) : t.fixed = s.fixed := by
  cases h
  simp [apply_ite State.fixed, apply_ite Prod.fst, apply_ite Prod.snd]

theorem execRingSlotWrite_fixed (who : Who) (addr : BitVec 14) (data : Word) (s : State) (t : State) (h : execRingSlotWrite who addr data s = .next t) : t.fixed = s.fixed := by
  cases h
  simp [apply_ite State.fixed, apply_ite Prod.fst, apply_ite Prod.snd]

theorem execQueueDoorbell_fixed (who : Who) (q : Fin 16) (data : Word) (s : State) (t : State) (h : execQueueDoorbell who q data s = .next t) : t.fixed = s.fixed := by
  cases h
  simp [apply_ite State.fixed, apply_ite Prod.fst, apply_ite Prod.snd]

theorem execSwapRequest_fixed (who : Who) (q : Fin 16) (data : Word) (s : State) (t : State) (h : execSwapRequest who q data s = .next t) : t.fixed = s.fixed := by
  cases h
  simp [apply_ite State.fixed, apply_ite Prod.fst, apply_ite Prod.snd]

theorem execQueueBankSwap_fixed (q : Fin 16) (s : State) (t : State) (h : execQueueBankSwap q s = .next t) : t.fixed = s.fixed := by
  cases h
  simp [apply_ite State.fixed, apply_ite Prod.fst, apply_ite Prod.snd]

theorem execQueueResume_fixed (who : Who) (q : Fin 16) (s : State) (t : State) (h : execQueueResume who q s = .next t) : t.fixed = s.fixed := by
  cases h
  simp [apply_ite State.fixed, apply_ite Prod.fst, apply_ite Prod.snd]

theorem execQueueReset_fixed (who : Who) (q : Fin 16) (s : State) (t : State) (h : execQueueReset who q s = .next t) : t.fixed = s.fixed := by
  cases h
  simp [apply_ite State.fixed, apply_ite Prod.fst, apply_ite Prod.snd]

theorem execPredSet_fixed (who : Who) (data : Word) (s : State) (t : State) (h : execPredSet who data s = .next t) : t.fixed = s.fixed := by
  cases h
  simp [apply_ite State.fixed, apply_ite Prod.fst, apply_ite Prod.snd]

theorem execPredClr_fixed (who : Who) (data : Word) (s : State) (t : State) (h : execPredClr who data s = .next t) : t.fixed = s.fixed := by
  cases h
  simp [apply_ite State.fixed, apply_ite Prod.fst, apply_ite Prod.snd]

theorem execFlagSetExternal_fixed (who : Who) (data : Word) (s : State) (t : State) (h : execFlagSetExternal who data s = .next t) : t.fixed = s.fixed := by
  cases h
  simp [apply_ite State.fixed, apply_ite Prod.fst, apply_ite Prod.snd]

theorem execFlagClrExternal_fixed (who : Who) (data : Word) (s : State) (t : State) (h : execFlagClrExternal who data s = .next t) : t.fixed = s.fixed := by
  cases h
  simp [apply_ite State.fixed, apply_ite Prod.fst, apply_ite Prod.snd]

theorem execDoorbell_fixed (who : Who) (data : Word) (s : State) (t : State) (h : execDoorbell who data s = .next t) : t.fixed = s.fixed := by
  cases h
  simp [apply_ite State.fixed, apply_ite Prod.fst, apply_ite Prod.snd]

theorem execClaimHost_fixed (who : Who) (s : State) (t : State) (h : execClaimHost who s = .next t) : t.fixed = s.fixed := by
  cases h
  simp [apply_ite State.fixed, apply_ite Prod.fst, apply_ite Prod.snd]

theorem execClaimSteward_fixed (who : Who) (s : State) (t : State) (h : execClaimSteward who s = .next t) : t.fixed = s.fixed := by
  cases h
  simp [apply_ite State.fixed, apply_ite Prod.fst, apply_ite Prod.snd]

theorem execHoistLoad_fixed (who : Who) (s : State) (t : State) (h : execHoistLoad who s = .next t) : t.fixed = s.fixed := by
  cases h
  simp [apply_ite State.fixed, apply_ite Prod.fst, apply_ite Prod.snd]

theorem execHoistLoadEnd_fixed (s : State) (t : State) (h : execHoistLoadEnd s = .next t) : t.fixed = s.fixed := by
  unfold execHoistLoadEnd at h
  (repeat' split at h) <;> cases h <;> simp [apply_ite State.fixed, apply_ite Prod.fst, apply_ite Prod.snd]

theorem execHoistFeedWord_fixed (who : Who) (data : Word) (s : State) (t : State) (h : execHoistFeedWord who data s = .next t) : t.fixed = s.fixed := by
  cases h
  simp [apply_ite State.fixed, apply_ite Prod.fst, apply_ite Prod.snd]

theorem execFeedTimeout_fixed (s : State) (t : State) (h : execFeedTimeout s = .next t) : t.fixed = s.fixed := by
  cases h
  simp [apply_ite State.fixed, apply_ite Prod.fst, apply_ite Prod.snd]

theorem execHoistCommit_fixed (who : Who) (data : Word) (s : State) (t : State) (h : execHoistCommit who data s = .next t) : t.fixed = s.fixed := by
  cases h
  simp [apply_ite State.fixed, apply_ite Prod.fst, apply_ite Prod.snd]

theorem execCommitSwap_fixed (s : State) (t : State) (h : execCommitSwap s = .next t) : t.fixed = s.fixed := by
  cases h
  simp [apply_ite State.fixed, apply_ite Prod.fst, apply_ite Prod.snd]

theorem execCommitDrainTimeout_fixed (s : State) (t : State) (h : execCommitDrainTimeout s = .next t) : t.fixed = s.fixed := by
  cases h
  simp [apply_ite State.fixed, apply_ite Prod.fst, apply_ite Prod.snd]

theorem execCopyBackDone_fixed (s : State) (t : State) (h : execCopyBackDone s = .next t) : t.fixed = s.fixed := by
  cases h
  simp [apply_ite State.fixed, apply_ite Prod.fst, apply_ite Prod.snd]

theorem execHoistDiscard_fixed (who : Who) (s : State) (t : State) (h : execHoistDiscard who s = .next t) : t.fixed = s.fixed := by
  cases h
  simp [apply_ite State.fixed, apply_ite Prod.fst, apply_ite Prod.snd]

theorem execRequireSigWrite_fixed (who : Who) (data : Word) (s : State) (t : State) (h : execRequireSigWrite who data s = .next t) : t.fixed = s.fixed := by
  cases h
  simp [apply_ite State.fixed, apply_ite Prod.fst, apply_ite Prod.snd]

theorem execEpochSwitch_fixed (base : BitVec 20) (s : State) (t : State) (h : execEpochSwitch base s = .next t) : t.fixed = s.fixed := by
  cases h
  dsimp only
  (repeat' split) <;> simp [apply_ite State.fixed, apply_ite Prod.fst, apply_ite Prod.snd]

theorem execRateWrite_fixed (who : Who) (data : Word) (s : State) (t : State) (h : execRateWrite who data s = .next t) : t.fixed = s.fixed := by
  cases h
  simp [apply_ite State.fixed, apply_ite Prod.fst, apply_ite Prod.snd]

theorem execOffsetStep_fixed (who : Who) (data : Word) (s : State) (t : State) (h : execOffsetStep who data s = .next t) : t.fixed = s.fixed := by
  cases h
  simp [apply_ite State.fixed, apply_ite Prod.fst, apply_ite Prod.snd]

theorem execTodArm_fixed (who : Who) (data : Word) (s : State) (t : State) (h : execTodArm who data s = .next t) : t.fixed = s.fixed := by
  cases h
  simp [apply_ite State.fixed, apply_ite Prod.fst, apply_ite Prod.snd]

theorem execPpsEdge_fixed (tick : BitVec 4) (s : State) (t : State) (h : execPpsEdge tick s = .next t) : t.fixed = s.fixed := by
  cases h
  simp [apply_ite State.fixed, apply_ite Prod.fst, apply_ite Prod.snd]

theorem execCaptureEdge_fixed (input : Fin 4) (tick : BitVec 4) (s : State) (t : State) (h : execCaptureEdge input tick s = .next t) : t.fixed = s.fixed := by
  cases h
  simp [apply_ite State.fixed, apply_ite Prod.fst, apply_ite Prod.snd]

theorem execPulseFire_fixed (output : Fin 4) (s : State) (t : State) (h : execPulseFire output s = .next t) : t.fixed = s.fixed := by
  cases h
  simp [apply_ite State.fixed, apply_ite Prod.fst, apply_ite Prod.snd]

theorem execSyncExchangeStart_fixed (s : State) (t : State) (h : execSyncExchangeStart s = .next t) : t.fixed = s.fixed := by
  cases h
  simp [apply_ite State.fixed, apply_ite Prod.fst, apply_ite Prod.snd]

theorem execSyncExchangeLost_fixed (s : State) (t : State) (h : execSyncExchangeLost s = .next t) : t.fixed = s.fixed := by
  unfold execSyncExchangeLost at h
  (repeat' split at h) <;> cases h <;> simp [apply_ite State.fixed, apply_ite Prod.fst, apply_ite Prod.snd]

theorem execSyncMiss_fixed (s : State) (t : State) (h : execSyncMiss s = .next t) : t.fixed = s.fixed := by
  cases h
  simp [apply_ite State.fixed, apply_ite Prod.fst, apply_ite Prod.snd]

theorem execHoldWrite_fixed (who : Who) (data : Word) (s : State) (t : State) (h : execHoldWrite who data s = .next t) : t.fixed = s.fixed := by
  cases h
  simp [apply_ite State.fixed, apply_ite Prod.fst, apply_ite Prod.snd]

theorem execLapChange_fixed (s : State) (t : State) (h : execLapChange s = .next t) : t.fixed = s.fixed := by
  cases h
  simp [apply_ite State.fixed, apply_ite Prod.fst, apply_ite Prod.snd]

theorem execMemoryTapBeat_fixed (tap : Fin 16) (granules : List (Option Granule)) (drop : Bool) (s : State) (t : State) (h : execMemoryTapBeat tap granules drop s = .next t) : t.fixed = s.fixed := by
  cases h
  simp [apply_ite State.fixed, apply_ite Prod.fst, apply_ite Prod.snd]

theorem execMemoryTapDrop_fixed (tap : Fin 16) (s : State) (t : State) (h : execMemoryTapDrop tap s = .next t) : t.fixed = s.fixed := by
  cases h
  simp [apply_ite State.fixed, apply_ite Prod.fst, apply_ite Prod.snd]

theorem execTrackerAgeOut_fixed (region : Fin 64) (frame : BitVec 52) (wr : Bool) (s : State) (t : State) (h : execTrackerAgeOut region frame wr s = .next t) : t.fixed = s.fixed := by
  cases h
  simp [apply_ite State.fixed, apply_ite Prod.fst, apply_ite Prod.snd]

theorem execLinkTapBeat_fixed (tap : Fin 8) (ingress sof eof : Bool) (data : List Byte) (peer : BitVec 17) (err drop : Bool) (s : State) (t : State) (h : execLinkTapBeat tap ingress sof eof data peer err drop s = .next t) : t.fixed = s.fixed := by
  cases h
  simp [apply_ite State.fixed, apply_ite Prod.fst, apply_ite Prod.snd]

theorem execTaintEntryExpire_fixed (entry : Fin 16) (s : State) (t : State) (h : execTaintEntryExpire entry s = .next t) : t.fixed = s.fixed := by
  cases h
  simp [apply_ite State.fixed, apply_ite Prod.fst, apply_ite Prod.snd]

theorem execDrainedWrite_fixed (who : Who) (data : Word) (s : State) (t : State) (h : execDrainedWrite who data s = .next t) : t.fixed = s.fixed := by
  cases h
  simp [apply_ite State.fixed, apply_ite Prod.fst, apply_ite Prod.snd]

theorem execDrainLateTimer_fixed (s : State) (t : State) (h : execDrainLateTimer s = .next t) : t.fixed = s.fixed := by
  cases h
  simp [apply_ite State.fixed, apply_ite Prod.fst, apply_ite Prod.snd]

theorem execLaneTrainStart_fixed (lane : Fin 16) (lock : Bool) (s : State) (t : State) (h : execLaneTrainStart lane lock s = .next t) : t.fixed = s.fixed := by
  cases h
  simp [apply_ite State.fixed, apply_ite Prod.fst, apply_ite Prod.snd]

theorem execAnnounceTimer_fixed (lane : Fin 16) (s : State) (t : State) (h : execAnnounceTimer lane s = .next t) : t.fixed = s.fixed := by
  cases h
  simp [apply_ite State.fixed, apply_ite Prod.fst, apply_ite Prod.snd]

theorem execLaneBlockReceive_fixed (lane : Fin 16) (block : List Byte) (s : State) (t : State) (h : execLaneBlockReceive lane block s = .next t) : t.fixed = s.fixed := by
  unfold execLaneBlockReceive at h
  (repeat' split at h) <;> cases h <;> simp [apply_ite State.fixed, apply_ite Prod.fst, apply_ite Prod.snd]

theorem execLaneLockLoss_fixed (lane : Fin 16) (s : State) (t : State) (h : execLaneLockLoss lane s = .next t) : t.fixed = s.fixed := by
  cases h
  simp [apply_ite State.fixed, apply_ite Prod.fst, apply_ite Prod.snd]

theorem execLaneReplayTimeout_fixed (lane : Fin 16) (s : State) (t : State) (h : execLaneReplayTimeout lane s = .next t) : t.fixed = s.fixed := by
  cases h
  simp [apply_ite State.fixed, apply_ite Prod.fst, apply_ite Prod.snd]

theorem execLaneRetrainTimer_fixed (lane : Fin 16) (s : State) (t : State) (h : execLaneRetrainTimer lane s = .next t) : t.fixed = s.fixed := by
  cases h
  simp [apply_ite State.fixed, apply_ite Prod.fst, apply_ite Prod.snd]

theorem execEgressBoundary_fixed (egress : Fin 20) (s : State) (t : State) (h : execEgressBoundary egress s = .next t) : t.fixed = s.fixed := by
  cases h
  simp [apply_ite State.fixed, apply_ite Prod.fst, apply_ite Prod.snd]

theorem execEthernetFrameReceive_fixed (port : Fin 4) (frame : List Byte) (fcsErr : Bool) (s : State) (t : State) (h : execEthernetFrameReceive port frame fcsErr s = .next t) : t.fixed = s.fixed := by
  cases h
  simp [apply_ite State.fixed, apply_ite Prod.fst, apply_ite Prod.snd]

theorem execEthernetLinkChange_fixed (port : Fin 4) (up : Bool) (s : State) (t : State) (h : execEthernetLinkChange port up s = .next t) : t.fixed = s.fixed := by
  cases h
  simp [apply_ite State.fixed, apply_ite Prod.fst, apply_ite Prod.snd]

theorem execAssociationRto_fixed (peer : BitVec 14) (s : State) (t : State) (h : execAssociationRto peer s = .next t) : t.fixed = s.fixed := by
  cases h
  simp [apply_ite State.fixed, apply_ite Prod.fst, apply_ite Prod.snd]

theorem execAssociationAnnounce_fixed (peer : BitVec 14) (s : State) (t : State) (h : execAssociationAnnounce peer s = .next t) : t.fixed = s.fixed := by
  cases h
  simp [apply_ite State.fixed, apply_ite Prod.fst, apply_ite Prod.snd]

theorem execAckTimer_fixed (peer : BitVec 14) (s : State) (t : State) (h : execAckTimer peer s = .next t) : t.fixed = s.fixed := by
  cases h
  simp [apply_ite State.fixed, apply_ite Prod.fst, apply_ite Prod.snd]

theorem execRefusalSummary_fixed (s : State) (t : State) (h : execRefusalSummary s = .next t) : t.fixed = s.fixed := by
  cases h
  simp [apply_ite State.fixed, apply_ite Prod.fst, apply_ite Prod.snd]

theorem execEpochFold_fixed (base : BitVec 20) (s : State) (t : State) (h : execEpochFold base s = .next t) : t.fixed = s.fixed := by
  cases h
  simp [apply_ite State.fixed, apply_ite Prod.fst, apply_ite Prod.snd]

theorem execResultPublish_fixed (s : State) (t : State) (h : execResultPublish s = .next t) : t.fixed = s.fixed := by
  cases h
  simp [apply_ite State.fixed, apply_ite Prod.fst, apply_ite Prod.snd]

theorem execRetiredTagExpire_fixed (place : Fin 128) (s : State) (t : State) (h : execRetiredTagExpire place s = .next t) : t.fixed = s.fixed := by
  unfold execRetiredTagExpire at h
  (repeat' split at h) <;> cases h <;> simp [apply_ite State.fixed, apply_ite Prod.fst, apply_ite Prod.snd]

theorem execCubeTokenRefill_fixed (cube : Fin 2048) (s : State) (t : State) (h : execCubeTokenRefill cube s = .next t) : t.fixed = s.fixed := by
  cases h
  simp [apply_ite State.fixed, apply_ite Prod.fst, apply_ite Prod.snd]

theorem execSparesAdd_fixed (who : Who) (data : Word) (s : State) (t : State) (h : execSparesAdd who data s = .next t) : t.fixed = s.fixed := by
  cases h
  simp [apply_ite State.fixed, apply_ite Prod.fst, apply_ite Prod.snd]

theorem execAdmitTimeReached_fixed (slot : Fin 8) (s : State) (t : State) (h : execAdmitTimeReached slot s = .next t) : t.fixed = s.fixed := by
  cases h
  simp [apply_ite State.fixed, apply_ite Prod.fst, apply_ite Prod.snd]

theorem execSatWindowEnd_fixed (s : State) (t : State) (h : execSatWindowEnd s = .next t) : t.fixed = s.fixed := by
  cases h
  simp [apply_ite State.fixed, apply_ite Prod.fst, apply_ite Prod.snd]

theorem execLevelSatWindow_fixed (s : State) (t : State) (h : execLevelSatWindow s = .next t) : t.fixed = s.fixed := by
  cases h
  simp [apply_ite State.fixed, apply_ite Prod.fst, apply_ite Prod.snd]

theorem execSensorReading_fixed (id : BitVec 8) (value : BitVec 16) (s : State) (t : State) (h : execSensorReading id value s = .next t) : t.fixed = s.fixed := by
  cases h
  simp [apply_ite State.fixed, apply_ite Prod.fst, apply_ite Prod.snd]

theorem execDroopReport_fixed (monitor : Fin 16) (s : State) (t : State) (h : execDroopReport monitor s = .next t) : t.fixed = s.fixed := by
  cases h
  simp [apply_ite State.fixed, apply_ite Prod.fst, apply_ite Prod.snd]

theorem execVinPoll_fixed (s : State) (t : State) (h : execVinPoll s = .next t) : t.fixed = s.fixed := by
  cases h
  simp [apply_ite State.fixed, apply_ite Prod.fst, apply_ite Prod.snd]

theorem execPmbusFwCommand_fixed (who : Who) (data : Word) (s : State) (t : State) (h : execPmbusFwCommand who data s = .next t) : t.fixed = s.fixed := by
  cases h
  simp [apply_ite State.fixed, apply_ite Prod.fst, apply_ite Prod.snd]

theorem execPmbusTransactionEnd_fixed (answer : PbEnd) (s : State) (t : State) (h : execPmbusTransactionEnd answer s = .next t) : t.fixed = s.fixed := by
  cases h
  simp [apply_ite State.fixed, apply_ite Prod.fst, apply_ite Prod.snd]

theorem execPmbusAlert_fixed (s : State) (t : State) (h : execPmbusAlert s = .next t) : t.fixed = s.fixed := by
  cases h
  simp [apply_ite State.fixed, apply_ite Prod.fst, apply_ite Prod.snd]

theorem execThrottleFallTimer_fixed (s : State) (t : State) (h : execThrottleFallTimer s = .next t) : t.fixed = s.fixed := by
  cases h
  simp [apply_ite State.fixed, apply_ite Prod.fst, apply_ite Prod.snd]

theorem execThrottleAck_fixed (s : State) (t : State) (h : execThrottleAck s = .next t) : t.fixed = s.fixed := by
  cases h
  simp [apply_ite State.fixed, apply_ite Prod.fst, apply_ite Prod.snd]

theorem execThrottleAckRelease_fixed (s : State) (t : State) (h : execThrottleAckRelease s = .next t) : t.fixed = s.fixed := by
  cases h
  simp [apply_ite State.fixed, apply_ite Prod.fst, apply_ite Prod.snd]

theorem execThrottleAckLate_fixed (s : State) (t : State) (h : execThrottleAckLate s = .next t) : t.fixed = s.fixed := by
  cases h
  simp [apply_ite State.fixed, apply_ite Prod.fst, apply_ite Prod.snd]

theorem execThrottleGrant_fixed (level : BitVec 3) (s : State) (t : State) (h : execThrottleGrant level s = .next t) : t.fixed = s.fixed := by
  cases h
  simp [apply_ite State.fixed, apply_ite Prod.fst, apply_ite Prod.snd]

theorem execHostReadResponse_fixed (tag : BitVec 10) (data : List Byte) (err : Bool) (s : State) (t : State) (h : execHostReadResponse tag data err s = .next t) : t.fixed = s.fixed := by
  unfold execHostReadResponse at h
  (repeat' split at h) <;> cases h <;> simp [apply_ite State.fixed, apply_ite Prod.fst, apply_ite Prod.snd]

theorem execFleetStoreResponse_fixed (tag : BitVec 8) (data : List Byte) (err : Bool) (s : State) (t : State) (h : execFleetStoreResponse tag data err s = .next t) : t.fixed = s.fixed := by
  unfold execFleetStoreResponse at h
  (repeat' split at h) <;> cases h <;> simp [apply_ite State.fixed, apply_ite Prod.fst, apply_ite Prod.snd]

theorem execFlashOperationEnd_fixed (s : State) (t : State) (h : execFlashOperationEnd s = .next t) : t.fixed = s.fixed := by
  cases h
  dsimp only
  (repeat' split) <;> simp [apply_ite State.fixed, apply_ite Prod.fst, apply_ite Prod.snd]

theorem execFlashBusyTimeout_fixed (s : State) (t : State) (h : execFlashBusyTimeout s = .next t) : t.fixed = s.fixed := by
  unfold execFlashBusyTimeout at h
  (repeat' split at h) <;> cases h <;> simp [apply_ite State.fixed, apply_ite Prod.fst, apply_ite Prod.snd]

theorem execTraceRecord_fixed (r : TraceIn) (s : State) (t : State) (h : execTraceRecord r s = .next t) : t.fixed = s.fixed := by
  cases h
  simp [apply_ite State.fixed, apply_ite Prod.fst, apply_ite Prod.snd]

theorem execLowPowerEntry_fixed (s : State) (t : State) (h : execLowPowerEntry s = .next t) : t.fixed = s.fixed := by
  cases h
  simp [apply_ite State.fixed, apply_ite Prod.fst, apply_ite Prod.snd]

theorem execLowPowerExit_fixed (s : State) (t : State) (h : execLowPowerExit s = .next t) : t.fixed = s.fixed := by
  cases h
  simp [apply_ite State.fixed, apply_ite Prod.fst, apply_ite Prod.snd]

theorem execTraceArm_fixed (who : Who) (data : Word) (s : State) (t : State) (h : execTraceArm who data s = .next t) : t.fixed = s.fixed := by
  cases h
  simp [apply_ite State.fixed, apply_ite Prod.fst, apply_ite Prod.snd]

theorem execTraceTriggerWrite_fixed (who : Who) (data : Word) (s : State) (t : State) (h : execTraceTriggerWrite who data s = .next t) : t.fixed = s.fixed := by
  cases h
  simp [apply_ite State.fixed, apply_ite Prod.fst, apply_ite Prod.snd]

theorem execTraceOff_fixed (who : Who) (data : Word) (s : State) (t : State) (h : execTraceOff who data s = .next t) : t.fixed = s.fixed := by
  cases h
  simp [apply_ite State.fixed, apply_ite Prod.fst, apply_ite Prod.snd]

theorem execHangDumpKey_fixed (who : Who) (data : Word) (s : State) (t : State) (h : execHangDumpKey who data s = .next t) : t.fixed = s.fixed := by
  cases h
  simp [apply_ite State.fixed, apply_ite Prod.fst, apply_ite Prod.snd]

theorem execSegmentSend_fixed (engine : Fin 4) (s : State) (t : State) (h : execSegmentSend engine s = .next t) : t.fixed = s.fixed := by
  cases h
  simp [apply_ite State.fixed, apply_ite Prod.fst, apply_ite Prod.snd]

theorem execDumpBound_fixed (q : Fin 16) (s : State) (t : State) (h : execDumpBound q s = .next t) : t.fixed = s.fixed := by
  cases h
  simp [apply_ite State.fixed, apply_ite Prod.fst, apply_ite Prod.snd]

theorem execEngineSave_fixed (who : Who) (engine : Fin 4) (data : Word) (s : State) (t : State) (h : execEngineSave who engine data s = .next t) : t.fixed = s.fixed := by
  cases h
  simp [apply_ite State.fixed, apply_ite Prod.fst, apply_ite Prod.snd]

theorem execEngineRestore_fixed (who : Who) (engine : Fin 4) (data : Word) (s : State) (t : State) (h : execEngineRestore who engine data s = .next t) : t.fixed = s.fixed := by
  cases h
  simp [apply_ite State.fixed, apply_ite Prod.fst, apply_ite Prod.snd]

theorem execEngineReset_fixed (who : Who) (engine : Fin 4) (data : Word) (s : State) (t : State) (h : execEngineReset who engine data s = .next t) : t.fixed = s.fixed := by
  cases h
  simp [apply_ite State.fixed, apply_ite Prod.fst, apply_ite Prod.snd]

theorem execEngineImageDone_fixed (engine : Fin 4) (s : State) (t : State) (h : execEngineImageDone engine s = .next t) : t.fixed = s.fixed := by
  cases h
  simp [apply_ite State.fixed, apply_ite Prod.fst, apply_ite Prod.snd]

theorem execSegmentStore_fixed (s : State) (t : State) (h : execSegmentStore s = .next t) : t.fixed = s.fixed := by
  cases h
  simp [apply_ite State.fixed, apply_ite Prod.fst, apply_ite Prod.snd]

theorem execContextIdleFree_fixed (context : Fin 1024) (s : State) (t : State) (h : execContextIdleFree context s = .next t) : t.fixed = s.fixed := by
  cases h
  simp [apply_ite State.fixed, apply_ite Prod.fst, apply_ite Prod.snd]

theorem execLogRecordWrite_fixed (s : State) (t : State) (h : execLogRecordWrite s = .next t) : t.fixed = s.fixed := by
  cases h
  simp [apply_ite State.fixed, apply_ite Prod.fst, apply_ite Prod.snd]

theorem execOverflowMarker_fixed (s : State) (t : State) (h : execOverflowMarker s = .next t) : t.fixed = s.fixed := by
  cases h
  simp [apply_ite State.fixed, apply_ite Prod.fst, apply_ite Prod.snd]

theorem execLogFreeze_fixed (who : Who) (data : Word) (s : State) (t : State) (h : execLogFreeze who data s = .next t) : t.fixed = s.fixed := by
  cases h
  simp [apply_ite State.fixed, apply_ite Prod.fst, apply_ite Prod.snd]

theorem execFreezeTimeout_fixed (s : State) (t : State) (h : execFreezeTimeout s = .next t) : t.fixed = s.fixed := by
  unfold execFreezeTimeout at h
  (repeat' split at h) <;> cases h <;> simp [apply_ite State.fixed, apply_ite Prod.fst, apply_ite Prod.snd]

theorem execLogClear_fixed (who : Who) (data : Word) (s : State) (t : State) (h : execLogClear who data s = .next t) : t.fixed = s.fixed := by
  cases h
  simp [apply_ite State.fixed, apply_ite Prod.fst, apply_ite Prod.snd]

theorem execLifeBaseWrite_fixed (who : Who) (pcc : Bool) (data : Word) (s : State) (t : State) (h : execLifeBaseWrite who pcc data s = .next t) : t.fixed = s.fixed := by
  cases h
  simp [apply_ite State.fixed, apply_ite Prod.fst, apply_ite Prod.snd]

theorem execOpsecTick_fixed (s : State) (t : State) (h : execOpsecTick s = .next t) : t.fixed = s.fixed := by
  rw [execOpsecTick] at h
  dsimp only at h
  rw [← Host.Outcome.next.inj h]
  have key : ∀ (u : State) (x : Recorder), State.fixed { u with ev := x } = u.fixed := fun _ _ => rfl
  rw [key]
  exact (State.bump_fixed _ _ _).trans (State.passTo_fixed _ _)

theorem execLifeSave_fixed (s : State) (t : State) (h : execLifeSave s = .next t) : t.fixed = s.fixed := by
  cases h
  simp [apply_ite State.fixed, apply_ite Prod.fst, apply_ite Prod.snd]

theorem execNvPageProgram_fixed (s : State) (t : State) (h : execNvPageProgram s = .next t) : t.fixed = s.fixed := by
  unfold execNvPageProgram at h
  (repeat' split at h) <;> cases h <;> simp [apply_ite State.fixed, apply_ite Prod.fst, apply_ite Prod.snd]

theorem execLogRebuild_fixed (s : State) (t : State) (h : execLogRebuild s = .next t) : t.fixed = s.fixed := by
  cases h
  simp [apply_ite State.fixed, apply_ite Prod.fst, apply_ite Prod.snd]

theorem execScrubStep_fixed (found : Codeword) (s : State) (t : State) (h : execScrubStep found s = .next t) : t.fixed = s.fixed := by
  cases h
  dsimp only
  (repeat' split) <;> simp [apply_ite State.fixed, apply_ite Prod.fst, apply_ite Prod.snd]

theorem execScrubLate_fixed (s : State) (t : State) (h : execScrubLate s = .next t) : t.fixed = s.fixed := by
  unfold execScrubLate at h
  rw [← Host.Outcome.next.inj h]
  have key : ∀ (u : State) (x : Recorder), State.fixed { u with ev := x } = u.fixed := fun _ _ => rfl
  refine ite_prop (P := fun u : State => u.fixed = s.fixed) ?_ rfl
  rw [State.fault_fixed, key]
  simp

theorem execStewardInstruction_fixed (s : State) (t : State) (h : execStewardInstruction s = .next t) : t.fixed = s.fixed := by
  cases h
  simp [apply_ite State.fixed, apply_ite Prod.fst, apply_ite Prod.snd]

theorem execPnOpen_fixed (rd rs1 rs2 : BitVec 5) (s : State) (t : State) (h : execPnOpen rd rs1 rs2 s = .next t) : t.fixed = s.fixed := by
  cases h
  simp [apply_ite State.fixed, apply_ite Prod.fst, apply_ite Prod.snd]

theorem execPnPut_fixed (rd rs1 rs2 : BitVec 5) (s : State) (t : State) (h : execPnPut rd rs1 rs2 s = .next t) : t.fixed = s.fixed := by
  cases h
  simp [apply_ite State.fixed, apply_ite Prod.fst, apply_ite Prod.snd]

theorem execPnDrop_fixed (rd rs1 rs2 : BitVec 5) (s : State) (t : State) (h : execPnDrop rd rs1 rs2 s = .next t) : t.fixed = s.fixed := by
  cases h
  simp [apply_ite State.fixed, apply_ite Prod.fst, apply_ite Prod.snd]

theorem execPnSend_fixed (rd rs1 rs2 : BitVec 5) (s : State) (t : State) (h : execPnSend rd rs1 rs2 s = .next t) : t.fixed = s.fixed := by
  cases h
  simp [apply_ite State.fixed, apply_ite Prod.fst, apply_ite Prod.snd]

theorem execDbRing_fixed (rd rs1 rs2 : BitVec 5) (s : State) (t : State) (h : execDbRing rd rs1 rs2 s = .next t) : t.fixed = s.fixed := by
  cases h
  simp [apply_ite State.fixed, apply_ite Prod.fst, apply_ite Prod.snd]

theorem execTmRd_fixed (rd rs1 rs2 : BitVec 5) (s : State) (t : State) (h : execTmRd rd rs1 rs2 s = .next t) : t.fixed = s.fixed := by
  cases h
  simp [apply_ite State.fixed, apply_ite Prod.fst, apply_ite Prod.snd]

theorem execStewardTimer_fixed (s : State) (t : State) (h : execStewardTimer s = .next t) : t.fixed = s.fixed := by
  cases h
  simp [apply_ite State.fixed, apply_ite Prod.fst, apply_ite Prod.snd]

theorem execStewardWatchdog_fixed (s : State) (t : State) (h : execStewardWatchdog s = .next t) : t.fixed = s.fixed := by
  cases h
  simp [apply_ite State.fixed, apply_ite Prod.fst, apply_ite Prod.snd]

theorem execWdogKick_fixed (who : Who) (data : Word) (s : State) (t : State) (h : execWdogKick who data s = .next t) : t.fixed = s.fixed := by
  cases h
  simp [apply_ite State.fixed, apply_ite Prod.fst, apply_ite Prod.snd]

theorem execFirmwareRecord_fixed (who : Who) (data : Word) (s : State) (t : State) (h : execFirmwareRecord who data s = .next t) : t.fixed = s.fixed := by
  cases h
  simp [apply_ite State.fixed, apply_ite Prod.fst, apply_ite Prod.snd]

theorem execImageLoad_fixed (who : Who) (data : Word) (s : State) (t : State) (h : execImageLoad who data s = .next t) : t.fixed = s.fixed := by
  cases h
  simp [apply_ite State.fixed, apply_ite Prod.fst, apply_ite Prod.snd]

theorem execImageLoadEnd_fixed (s : State) (t : State) (h : execImageLoadEnd s = .next t) : t.fixed = s.fixed := by
  cases h
  simp [apply_ite State.fixed, apply_ite Prod.fst, apply_ite Prod.snd]

theorem execImageSwap_fixed (who : Who) (data : Word) (s : State) (t : State) (h : execImageSwap who data s = .next t) : t.fixed = s.fixed := by
  cases h
  simp [apply_ite State.fixed, apply_ite Prod.fst, apply_ite Prod.snd]

theorem execFlashCommand_fixed (who : Who) (data : Word) (s : State) (t : State) (h : execFlashCommand who data s = .next t) : t.fixed = s.fixed := by
  cases h
  simp [apply_ite State.fixed, apply_ite Prod.fst, apply_ite Prod.snd]

theorem execSecFloorWrite_fixed (who : Who) (data : Word) (s : State) (t : State) (h : execSecFloorWrite who data s = .next t) : t.fixed = s.fixed := by
  cases h
  simp [apply_ite State.fixed, apply_ite Prod.fst, apply_ite Prod.snd]

theorem execDebugShiftDr_fixed (tdi : Bool) (s : State) (t : State) (h : execDebugShiftDr tdi s = .next t) : t.fixed = s.fixed := by
  cases h
  simp [apply_ite State.fixed, apply_ite Prod.fst, apply_ite Prod.snd]

theorem execUnknownOpcode_fixed (q : Fin 16) (s : State) (t : State) (h : execUnknownOpcode q s = .next t) : t.fixed = s.fixed := by
  cases h
  simp [apply_ite State.fixed, apply_ite Prod.fst, apply_ite Prod.snd]

theorem execQueuedPennantBound_fixed (lane : Fin 16) (s : State) (t : State) (h : execQueuedPennantBound lane s = .next t) : t.fixed = s.fixed := by
  cases h
  simp [apply_ite State.fixed, apply_ite Prod.fst, apply_ite Prod.snd]

theorem execMtErrReportTimeout_fixed (region : Fin 64) (frame : BitVec 52) (wr : Bool) (s : State) (t : State) (h : execMtErrReportTimeout region frame wr s = .next t) : t.fixed = s.fixed := by
  cases h
  simp [apply_ite State.fixed, apply_ite Prod.fst, apply_ite Prod.snd]

theorem execLifeBlockReadEnd_fixed (s : State) (t : State) (h : execLifeBlockReadEnd s = .next t) : t.fixed = s.fixed := by
  cases h
  simp [apply_ite State.fixed, apply_ite Prod.fst, apply_ite Prod.snd]

end Sys2Proof.Machine
end

