-- ==== Sys2Proof/Laws/Writes.lean ====
section
/-! SUPPORT. What a write of each register with a rule of its own does, as the bus performs it. -/

namespace Sys2Proof.Machine

set_option linter.all false

/-- Outside the trace page nothing is caught up before an access. -/
theorem State.catchUp_quiet (s : State) (off : Nat) (h : off < 0x70000 ∨ 0x80000 ≤ off) : s.catchUp off = s := by
  unfold State.catchUp
  rw [if_neg (by omega)]

/-- A register of the map in the state's role, at a port that is there, is present. -/
theorem State.reg_present (s : State) (off : Nat) (d : RegDef) (hf : findReg off = some d) (h : s.hasReg d = true)
    (hp : s.absentPort off = false) : s.reg? off = some d := by
  unfold State.reg?
  rw [hf]
  simp [h, hp]

/-- A register with a rule of its own, outside the trace page and no half of a pair, takes a write by that rule. -/
theorem State.busWrite_special (s : State) (req off v : Nat) (r : State × Bool)
    (hc : off < 0x70000 ∨ 0x80000 ≤ off) (hw : s.windowWrite off v = none) (hr : (s.reg? off).isSome = true)
    (hh : highHalf off = false) (hl : lowHalf off = false) (hs : s.specialWrite req off v = some r) :
    s.busWrite req off v = r := by
  obtain ⟨d, hd⟩ := Option.isSome_iff_exists.mp hr
  unfold State.busWrite
  rw [State.catchUp_quiet s off hc]
  dsimp only
  rw [hw]
  dsimp only
  rw [hd]
  dsimp only
  unfold State.heldWrite
  rw [hh, hl]
  simp only [Bool.false_eq_true, if_false]
  unfold State.regWrite
  rw [hs]

theorem State.busWrite_PM_BOOT (s : State) (req v : Nat) : s.busWrite req Reg.PM_BOOT v = s.wPmBoot req v := by
  refine s.busWrite_special req Reg.PM_BOOT v _ (by decide) ?_ ?_ (by decide) (by decide) ?_
  · simp [State.windowWrite, Reg.PM_BOOT]
  · cases hf : findReg Reg.PM_BOOT with
    | none => exact absurd hf (by decide)
    | some d =>
      have hd : d.role = 0 := by
        have : ((findReg Reg.PM_BOOT).map (·.role)) = some 0 := by decide
        rw [hf] at this
        simpa using this
      rw [State.reg_present s _ d hf (by simp [State.hasReg, hd]) (by simp [State.absentPort, Reg.PM_BOOT])]
      rfl
  · simp [State.specialWrite, State.writeAon, Reg.PM_CTRL, Reg.PM_BOOT, Reg.PM_WARM, Reg.PM_THR_FW, Reg.PM_PB_CMD, Reg.IC_DOORBELL, Reg.TB_OFF_LO, Reg.TB_OFF_HI, Reg.TB_RATE, Reg.TB_CTRL, Reg.TB_TOD_NS]

theorem State.busWrite_PM_WARM (s : State) (req v : Nat) : s.busWrite req Reg.PM_WARM v = (s.wWarm v, true) := by
  refine s.busWrite_special req Reg.PM_WARM v _ (by decide) ?_ ?_ (by decide) (by decide) ?_
  · simp [State.windowWrite, Reg.PM_WARM]
  · cases hf : findReg Reg.PM_WARM with
    | none => exact absurd hf (by decide)
    | some d =>
      have hd : d.role = 0 := by
        have : ((findReg Reg.PM_WARM).map (·.role)) = some 0 := by decide
        rw [hf] at this
        simpa using this
      rw [State.reg_present s _ d hf (by simp [State.hasReg, hd]) (by simp [State.absentPort, Reg.PM_WARM])]
      rfl
  · simp [State.specialWrite, State.writeAon, Reg.PM_CTRL, Reg.PM_BOOT, Reg.PM_WARM, Reg.PM_THR_FW, Reg.PM_PB_CMD, Reg.IC_DOORBELL, Reg.TB_OFF_LO, Reg.TB_OFF_HI, Reg.TB_RATE, Reg.TB_CTRL, Reg.TB_TOD_NS]

theorem State.busWrite_PM_PB_CMD (s : State) (req v : Nat) (h : s.tray = true) : s.busWrite req Reg.PM_PB_CMD v = s.orRefuse (s.wPbCmd v) := by
  refine s.busWrite_special req Reg.PM_PB_CMD v _ (by decide) ?_ ?_ (by decide) (by decide) ?_
  · simp [State.windowWrite, Reg.PM_PB_CMD, h]
  · cases hf : findReg Reg.PM_PB_CMD with
    | none => exact absurd hf (by decide)
    | some d =>
      have hd : d.role = 2 := by
        have : ((findReg Reg.PM_PB_CMD).map (·.role)) = some 2 := by decide
        rw [hf] at this
        simpa using this
      rw [State.reg_present s _ d hf (by simp [State.hasReg, hd, h]) (by simp [State.absentPort, Reg.PM_PB_CMD])]
      rfl
  · simp [State.specialWrite, State.writeAon, Reg.PM_CTRL, Reg.PM_BOOT, Reg.PM_WARM, Reg.PM_THR_FW, Reg.PM_PB_CMD, Reg.IC_DOORBELL, Reg.TB_OFF_LO, Reg.TB_OFF_HI, Reg.TB_RATE, Reg.TB_CTRL, Reg.TB_TOD_NS]

theorem State.busWrite_IC_DOORBELL (s : State) (req v : Nat) : s.busWrite req Reg.IC_DOORBELL v = (s.doorbell (v % 2 ^ 11) (req != 14 && req != 15), true) := by
  refine s.busWrite_special req Reg.IC_DOORBELL v _ (by decide) ?_ ?_ (by decide) (by decide) ?_
  · simp [State.windowWrite, Reg.IC_DOORBELL]
  · cases hf : findReg Reg.IC_DOORBELL with
    | none => exact absurd hf (by decide)
    | some d =>
      have hd : d.role = 0 := by
        have : ((findReg Reg.IC_DOORBELL).map (·.role)) = some 0 := by decide
        rw [hf] at this
        simpa using this
      rw [State.reg_present s _ d hf (by simp [State.hasReg, hd]) (by simp [State.absentPort, Reg.IC_DOORBELL])]
      rfl
  · simp [State.specialWrite, State.writeAon, Reg.PM_CTRL, Reg.PM_BOOT, Reg.PM_WARM, Reg.PM_THR_FW, Reg.PM_PB_CMD, Reg.IC_DOORBELL, Reg.TB_OFF_LO, Reg.TB_OFF_HI, Reg.TB_RATE, Reg.TB_CTRL, Reg.TB_TOD_NS]

theorem State.busWrite_TB_RATE (s : State) (req v : Nat) : s.busWrite req Reg.TB_RATE v = s.orRefuse (s.wRate v) := by
  refine s.busWrite_special req Reg.TB_RATE v _ (by decide) ?_ ?_ (by decide) (by decide) ?_
  · simp [State.windowWrite, Reg.TB_RATE]
  · cases hf : findReg Reg.TB_RATE with
    | none => exact absurd hf (by decide)
    | some d =>
      have hd : d.role = 0 := by
        have : ((findReg Reg.TB_RATE).map (·.role)) = some 0 := by decide
        rw [hf] at this
        simpa using this
      rw [State.reg_present s _ d hf (by simp [State.hasReg, hd]) (by simp [State.absentPort, Reg.TB_RATE])]
      rfl
  · simp [State.specialWrite, State.writeAon, Reg.PM_CTRL, Reg.PM_BOOT, Reg.PM_WARM, Reg.PM_THR_FW, Reg.PM_PB_CMD, Reg.IC_DOORBELL, Reg.TB_OFF_LO, Reg.TB_OFF_HI, Reg.TB_RATE, Reg.TB_CTRL, Reg.TB_TOD_NS]

theorem State.busWrite_TB_CTRL (s : State) (req v : Nat) : s.busWrite req Reg.TB_CTRL v = (s.wTbCtrl v, true) := by
  refine s.busWrite_special req Reg.TB_CTRL v _ (by decide) ?_ ?_ (by decide) (by decide) ?_
  · simp [State.windowWrite, Reg.TB_CTRL]
  · cases hf : findReg Reg.TB_CTRL with
    | none => exact absurd hf (by decide)
    | some d =>
      have hd : d.role = 0 := by
        have : ((findReg Reg.TB_CTRL).map (·.role)) = some 0 := by decide
        rw [hf] at this
        simpa using this
      rw [State.reg_present s _ d hf (by simp [State.hasReg, hd]) (by simp [State.absentPort, Reg.TB_CTRL])]
      rfl
  · simp [State.specialWrite, State.writeAon, Reg.PM_CTRL, Reg.PM_BOOT, Reg.PM_WARM, Reg.PM_THR_FW, Reg.PM_PB_CMD, Reg.IC_DOORBELL, Reg.TB_OFF_LO, Reg.TB_OFF_HI, Reg.TB_RATE, Reg.TB_CTRL, Reg.TB_TOD_NS]

theorem State.busWrite_TB_TOD_NS (s : State) (req v : Nat) (h : s.tray = true) : s.busWrite req Reg.TB_TOD_NS v = s.orRefuse (s.wTod v) := by
  refine s.busWrite_special req Reg.TB_TOD_NS v _ (by decide) ?_ ?_ (by decide) (by decide) ?_
  · simp [State.windowWrite, Reg.TB_TOD_NS, h]
  · cases hf : findReg Reg.TB_TOD_NS with
    | none => exact absurd hf (by decide)
    | some d =>
      have hd : d.role = 2 := by
        have : ((findReg Reg.TB_TOD_NS).map (·.role)) = some 2 := by decide
        rw [hf] at this
        simpa using this
      rw [State.reg_present s _ d hf (by simp [State.hasReg, hd, h]) (by simp [State.absentPort, Reg.TB_TOD_NS])]
      rfl
  · simp [State.specialWrite, State.writeAon, Reg.PM_CTRL, Reg.PM_BOOT, Reg.PM_WARM, Reg.PM_THR_FW, Reg.PM_PB_CMD, Reg.IC_DOORBELL, Reg.TB_OFF_LO, Reg.TB_OFF_HI, Reg.TB_RATE, Reg.TB_CTRL, Reg.TB_TOD_NS]

theorem State.busWrite_HO_CTRL (s : State) (req v : Nat) : s.busWrite req Reg.HO_CTRL v = s.wHoCtrl v := by
  refine s.busWrite_special req Reg.HO_CTRL v _ (by decide) ?_ ?_ (by decide) (by decide) ?_
  · simp [State.windowWrite, Reg.HO_CTRL]
  · cases hf : findReg Reg.HO_CTRL with
    | none => exact absurd hf (by decide)
    | some d =>
      have hd : d.role = 0 := by
        have : ((findReg Reg.HO_CTRL).map (·.role)) = some 0 := by decide
        rw [hf] at this
        simpa using this
      rw [State.reg_present s _ d hf (by simp [State.hasReg, hd]) (by simp [State.absentPort, Reg.HO_CTRL])]
      rfl
  · simp [State.specialWrite, State.writeQueues, Reg.HO_CTRL, Reg.HO_WRITERS, Reg.HO_LIVE_SEL, Reg.HO_LOAD, Reg.HO_FEED, Reg.HO_COMMIT, Reg.QE_PRED_SET, Reg.QE_PRED_CLR, Reg.QE_FLAG_SET, Reg.QE_FLAG_CLR]

theorem State.busWrite_HO_LOAD (s : State) (req v : Nat) : s.busWrite req Reg.HO_LOAD v = s.wHoLoad v := by
  refine s.busWrite_special req Reg.HO_LOAD v _ (by decide) ?_ ?_ (by decide) (by decide) ?_
  · simp [State.windowWrite, Reg.HO_LOAD]
  · cases hf : findReg Reg.HO_LOAD with
    | none => exact absurd hf (by decide)
    | some d =>
      have hd : d.role = 0 := by
        have : ((findReg Reg.HO_LOAD).map (·.role)) = some 0 := by decide
        rw [hf] at this
        simpa using this
      rw [State.reg_present s _ d hf (by simp [State.hasReg, hd]) (by simp [State.absentPort, Reg.HO_LOAD])]
      rfl
  · simp [State.specialWrite, State.writeQueues, Reg.HO_CTRL, Reg.HO_WRITERS, Reg.HO_LIVE_SEL, Reg.HO_LOAD, Reg.HO_FEED, Reg.HO_COMMIT, Reg.QE_PRED_SET, Reg.QE_PRED_CLR, Reg.QE_FLAG_SET, Reg.QE_FLAG_CLR]

theorem State.busWrite_HO_FEED (s : State) (req v : Nat) : s.busWrite req Reg.HO_FEED v = s.wHoFeed v := by
  refine s.busWrite_special req Reg.HO_FEED v _ (by decide) ?_ ?_ (by decide) (by decide) ?_
  · simp [State.windowWrite, Reg.HO_FEED]
  · cases hf : findReg Reg.HO_FEED with
    | none => exact absurd hf (by decide)
    | some d =>
      have hd : d.role = 0 := by
        have : ((findReg Reg.HO_FEED).map (·.role)) = some 0 := by decide
        rw [hf] at this
        simpa using this
      rw [State.reg_present s _ d hf (by simp [State.hasReg, hd]) (by simp [State.absentPort, Reg.HO_FEED])]
      rfl
  · simp [State.specialWrite, State.writeQueues, Reg.HO_CTRL, Reg.HO_WRITERS, Reg.HO_LIVE_SEL, Reg.HO_LOAD, Reg.HO_FEED, Reg.HO_COMMIT, Reg.QE_PRED_SET, Reg.QE_PRED_CLR, Reg.QE_FLAG_SET, Reg.QE_FLAG_CLR]

theorem State.busWrite_HO_COMMIT (s : State) (req v : Nat) : s.busWrite req Reg.HO_COMMIT v = s.wHoCommit v := by
  refine s.busWrite_special req Reg.HO_COMMIT v _ (by decide) ?_ ?_ (by decide) (by decide) ?_
  · simp [State.windowWrite, Reg.HO_COMMIT]
  · cases hf : findReg Reg.HO_COMMIT with
    | none => exact absurd hf (by decide)
    | some d =>
      have hd : d.role = 0 := by
        have : ((findReg Reg.HO_COMMIT).map (·.role)) = some 0 := by decide
        rw [hf] at this
        simpa using this
      rw [State.reg_present s _ d hf (by simp [State.hasReg, hd]) (by simp [State.absentPort, Reg.HO_COMMIT])]
      rfl
  · simp [State.specialWrite, State.writeQueues, Reg.HO_CTRL, Reg.HO_WRITERS, Reg.HO_LIVE_SEL, Reg.HO_LOAD, Reg.HO_FEED, Reg.HO_COMMIT, Reg.QE_PRED_SET, Reg.QE_PRED_CLR, Reg.QE_FLAG_SET, Reg.QE_FLAG_CLR]

theorem State.busWrite_QE_PRED_SET (s : State) (req v : Nat) : s.busWrite req Reg.QE_PRED_SET v = (s.wPredSet v, true) := by
  refine s.busWrite_special req Reg.QE_PRED_SET v _ (by decide) ?_ ?_ (by decide) (by decide) ?_
  · simp [State.windowWrite, Reg.QE_PRED_SET]
  · cases hf : findReg Reg.QE_PRED_SET with
    | none => exact absurd hf (by decide)
    | some d =>
      have hd : d.role = 0 := by
        have : ((findReg Reg.QE_PRED_SET).map (·.role)) = some 0 := by decide
        rw [hf] at this
        simpa using this
      rw [State.reg_present s _ d hf (by simp [State.hasReg, hd]) (by simp [State.absentPort, Reg.QE_PRED_SET])]
      rfl
  · simp [State.specialWrite, State.writeQueues, Reg.HO_CTRL, Reg.HO_WRITERS, Reg.HO_LIVE_SEL, Reg.HO_LOAD, Reg.HO_FEED, Reg.HO_COMMIT, Reg.QE_PRED_SET, Reg.QE_PRED_CLR, Reg.QE_FLAG_SET, Reg.QE_FLAG_CLR]

theorem State.busWrite_QE_PRED_CLR (s : State) (req v : Nat) : s.busWrite req Reg.QE_PRED_CLR v = (s.wPredClr v, true) := by
  refine s.busWrite_special req Reg.QE_PRED_CLR v _ (by decide) ?_ ?_ (by decide) (by decide) ?_
  · simp [State.windowWrite, Reg.QE_PRED_CLR]
  · cases hf : findReg Reg.QE_PRED_CLR with
    | none => exact absurd hf (by decide)
    | some d =>
      have hd : d.role = 0 := by
        have : ((findReg Reg.QE_PRED_CLR).map (·.role)) = some 0 := by decide
        rw [hf] at this
        simpa using this
      rw [State.reg_present s _ d hf (by simp [State.hasReg, hd]) (by simp [State.absentPort, Reg.QE_PRED_CLR])]
      rfl
  · simp [State.specialWrite, State.writeQueues, Reg.HO_CTRL, Reg.HO_WRITERS, Reg.HO_LIVE_SEL, Reg.HO_LOAD, Reg.HO_FEED, Reg.HO_COMMIT, Reg.QE_PRED_SET, Reg.QE_PRED_CLR, Reg.QE_FLAG_SET, Reg.QE_FLAG_CLR]

theorem State.busWrite_QE_FLAG_SET (s : State) (req v : Nat) : s.busWrite req Reg.QE_FLAG_SET v = s.orRefuse (s.wFlagExt v true) := by
  refine s.busWrite_special req Reg.QE_FLAG_SET v _ (by decide) ?_ ?_ (by decide) (by decide) ?_
  · simp [State.windowWrite, Reg.QE_FLAG_SET]
  · cases hf : findReg Reg.QE_FLAG_SET with
    | none => exact absurd hf (by decide)
    | some d =>
      have hd : d.role = 0 := by
        have : ((findReg Reg.QE_FLAG_SET).map (·.role)) = some 0 := by decide
        rw [hf] at this
        simpa using this
      rw [State.reg_present s _ d hf (by simp [State.hasReg, hd]) (by simp [State.absentPort, Reg.QE_FLAG_SET])]
      rfl
  · simp [State.specialWrite, State.writeQueues, Reg.HO_CTRL, Reg.HO_WRITERS, Reg.HO_LIVE_SEL, Reg.HO_LOAD, Reg.HO_FEED, Reg.HO_COMMIT, Reg.QE_PRED_SET, Reg.QE_PRED_CLR, Reg.QE_FLAG_SET, Reg.QE_FLAG_CLR]

theorem State.busWrite_QE_FLAG_CLR (s : State) (req v : Nat) : s.busWrite req Reg.QE_FLAG_CLR v = s.orRefuse (s.wFlagExt v false) := by
  refine s.busWrite_special req Reg.QE_FLAG_CLR v _ (by decide) ?_ ?_ (by decide) (by decide) ?_
  · simp [State.windowWrite, Reg.QE_FLAG_CLR]
  · cases hf : findReg Reg.QE_FLAG_CLR with
    | none => exact absurd hf (by decide)
    | some d =>
      have hd : d.role = 0 := by
        have : ((findReg Reg.QE_FLAG_CLR).map (·.role)) = some 0 := by decide
        rw [hf] at this
        simpa using this
      rw [State.reg_present s _ d hf (by simp [State.hasReg, hd]) (by simp [State.absentPort, Reg.QE_FLAG_CLR])]
      rfl
  · simp [State.specialWrite, State.writeQueues, Reg.HO_CTRL, Reg.HO_WRITERS, Reg.HO_LIVE_SEL, Reg.HO_LOAD, Reg.HO_FEED, Reg.HO_COMMIT, Reg.QE_PRED_SET, Reg.QE_PRED_CLR, Reg.QE_FLAG_SET, Reg.QE_FLAG_CLR]

theorem State.busWrite_XC_YJ_CTRL (s : State) (req v : Nat) (h : s.tray = false) : s.busWrite req Reg.XC_YJ_CTRL v = (s.wDrained v, true) := by
  refine s.busWrite_special req Reg.XC_YJ_CTRL v _ (by decide) ?_ ?_ (by decide) (by decide) ?_
  · simp [State.windowWrite, Reg.XC_YJ_CTRL]
  · cases hf : findReg Reg.XC_YJ_CTRL with
    | none => exact absurd hf (by decide)
    | some d =>
      have hd : d.role = 1 := by
        have : ((findReg Reg.XC_YJ_CTRL).map (·.role)) = some 1 := by decide
        rw [hf] at this
        simpa using this
      rw [State.reg_present s _ d hf (by simp [State.hasReg, hd, h]) (by simp [State.absentPort, Reg.XC_YJ_CTRL])]
      rfl
  · simp [State.specialWrite, State.writeWork, Reg.XC_YJ_CTRL, Reg.RD_TS_EXCL, Reg.FA_QB_ADD, Reg.TR_CTRL, Reg.DC_HANG_GO]

theorem State.busWrite_FA_QB_ADD (s : State) (req v : Nat) (h : s.tray = true) : s.busWrite req Reg.FA_QB_ADD v = (s.wSpares v, true) := by
  refine s.busWrite_special req Reg.FA_QB_ADD v _ (by decide) ?_ ?_ (by decide) (by decide) ?_
  · simp [State.windowWrite, Reg.FA_QB_ADD, h]
  · cases hf : findReg Reg.FA_QB_ADD with
    | none => exact absurd hf (by decide)
    | some d =>
      have hd : d.role = 2 := by
        have : ((findReg Reg.FA_QB_ADD).map (·.role)) = some 2 := by decide
        rw [hf] at this
        simpa using this
      rw [State.reg_present s _ d hf (by simp [State.hasReg, hd, h]) (by simp [State.absentPort, Reg.FA_QB_ADD])]
      rfl
  · simp [State.specialWrite, State.writeWork, Reg.XC_YJ_CTRL, Reg.RD_TS_EXCL, Reg.FA_QB_ADD, Reg.TR_CTRL, Reg.DC_HANG_GO]

theorem State.busWrite_DC_HANG_GO (s : State) (req v : Nat) : s.busWrite req Reg.DC_HANG_GO v = s.orRefuse (s.wHangGo v) := by
  refine s.busWrite_special req Reg.DC_HANG_GO v _ (by decide) ?_ ?_ (by decide) (by decide) ?_
  · simp [State.windowWrite, Reg.DC_HANG_GO]
  · cases hf : findReg Reg.DC_HANG_GO with
    | none => exact absurd hf (by decide)
    | some d =>
      have hd : d.role = 0 := by
        have : ((findReg Reg.DC_HANG_GO).map (·.role)) = some 0 := by decide
        rw [hf] at this
        simpa using this
      rw [State.reg_present s _ d hf (by simp [State.hasReg, hd]) (by simp [State.absentPort, Reg.DC_HANG_GO])]
      rfl
  · simp [State.specialWrite, State.writeWork, Reg.XC_YJ_CTRL, Reg.RD_TS_EXCL, Reg.FA_QB_ADD, Reg.TR_CTRL, Reg.DC_HANG_GO]

theorem State.busWrite_EV_CTRL (s : State) (req v : Nat) : s.busWrite req Reg.EV_CTRL v = (s.wFreeze v, true) := by
  refine s.busWrite_special req Reg.EV_CTRL v _ (by decide) ?_ ?_ (by decide) (by decide) ?_
  · simp [State.windowWrite, Reg.EV_CTRL]
  · cases hf : findReg Reg.EV_CTRL with
    | none => exact absurd hf (by decide)
    | some d =>
      have hd : d.role = 0 := by
        have : ((findReg Reg.EV_CTRL).map (·.role)) = some 0 := by decide
        rw [hf] at this
        simpa using this
      rw [State.reg_present s _ d hf (by simp [State.hasReg, hd]) (by simp [State.absentPort, Reg.EV_CTRL])]
      rfl
  · simp [State.specialWrite, State.writeService, Reg.EV_CTRL, Reg.EV_CLEAR, Reg.EV_LIFE_OPS, Reg.EV_LIFE_PCC, Reg.ST_BOOT_CFG, Reg.ST_SEC_FLOOR, Reg.ST_IM_LOAD, Reg.ST_IM_SWAP, Reg.ST_WDOG, Reg.ST_WDOG_KICK, Reg.ST_EV_PUT, Reg.ST_FL_CMD]

theorem State.busWrite_EV_CLEAR (s : State) (req v : Nat) : s.busWrite req Reg.EV_CLEAR v = s.orRefuse (s.wClear v) := by
  refine s.busWrite_special req Reg.EV_CLEAR v _ (by decide) ?_ ?_ (by decide) (by decide) ?_
  · simp [State.windowWrite, Reg.EV_CLEAR]
  · cases hf : findReg Reg.EV_CLEAR with
    | none => exact absurd hf (by decide)
    | some d =>
      have hd : d.role = 0 := by
        have : ((findReg Reg.EV_CLEAR).map (·.role)) = some 0 := by decide
        rw [hf] at this
        simpa using this
      rw [State.reg_present s _ d hf (by simp [State.hasReg, hd]) (by simp [State.absentPort, Reg.EV_CLEAR])]
      rfl
  · simp [State.specialWrite, State.writeService, Reg.EV_CTRL, Reg.EV_CLEAR, Reg.EV_LIFE_OPS, Reg.EV_LIFE_PCC, Reg.ST_BOOT_CFG, Reg.ST_SEC_FLOOR, Reg.ST_IM_LOAD, Reg.ST_IM_SWAP, Reg.ST_WDOG, Reg.ST_WDOG_KICK, Reg.ST_EV_PUT, Reg.ST_FL_CMD]

theorem State.busWrite_EV_LIFE_OPS (s : State) (req v : Nat) (h : s.tray = false) : s.busWrite req Reg.EV_LIFE_OPS v = s.orRefuse (s.wLife false v) := by
  refine s.busWrite_special req Reg.EV_LIFE_OPS v _ (by decide) ?_ ?_ (by decide) (by decide) ?_
  · simp [State.windowWrite, Reg.EV_LIFE_OPS]
  · cases hf : findReg Reg.EV_LIFE_OPS with
    | none => exact absurd hf (by decide)
    | some d =>
      have hd : d.role = 1 := by
        have : ((findReg Reg.EV_LIFE_OPS).map (·.role)) = some 1 := by decide
        rw [hf] at this
        simpa using this
      rw [State.reg_present s _ d hf (by simp [State.hasReg, hd, h]) (by simp [State.absentPort, Reg.EV_LIFE_OPS])]
      rfl
  · simp [State.specialWrite, State.writeService, Reg.EV_CTRL, Reg.EV_CLEAR, Reg.EV_LIFE_OPS, Reg.EV_LIFE_PCC, Reg.ST_BOOT_CFG, Reg.ST_SEC_FLOOR, Reg.ST_IM_LOAD, Reg.ST_IM_SWAP, Reg.ST_WDOG, Reg.ST_WDOG_KICK, Reg.ST_EV_PUT, Reg.ST_FL_CMD]

theorem State.busWrite_EV_LIFE_PCC (s : State) (req v : Nat) (h : s.tray = false) : s.busWrite req Reg.EV_LIFE_PCC v = s.orRefuse (s.wLife true v) := by
  refine s.busWrite_special req Reg.EV_LIFE_PCC v _ (by decide) ?_ ?_ (by decide) (by decide) ?_
  · simp [State.windowWrite, Reg.EV_LIFE_PCC]
  · cases hf : findReg Reg.EV_LIFE_PCC with
    | none => exact absurd hf (by decide)
    | some d =>
      have hd : d.role = 1 := by
        have : ((findReg Reg.EV_LIFE_PCC).map (·.role)) = some 1 := by decide
        rw [hf] at this
        simpa using this
      rw [State.reg_present s _ d hf (by simp [State.hasReg, hd, h]) (by simp [State.absentPort, Reg.EV_LIFE_PCC])]
      rfl
  · simp [State.specialWrite, State.writeService, Reg.EV_CTRL, Reg.EV_CLEAR, Reg.EV_LIFE_OPS, Reg.EV_LIFE_PCC, Reg.ST_BOOT_CFG, Reg.ST_SEC_FLOOR, Reg.ST_IM_LOAD, Reg.ST_IM_SWAP, Reg.ST_WDOG, Reg.ST_WDOG_KICK, Reg.ST_EV_PUT, Reg.ST_FL_CMD]

theorem State.busWrite_ST_BOOT_CFG (s : State) (req v : Nat) : s.busWrite req Reg.ST_BOOT_CFG v = (s.wBootCfg v, true) := by
  refine s.busWrite_special req Reg.ST_BOOT_CFG v _ (by decide) ?_ ?_ (by decide) (by decide) ?_
  · simp [State.windowWrite, Reg.ST_BOOT_CFG]
  · cases hf : findReg Reg.ST_BOOT_CFG with
    | none => exact absurd hf (by decide)
    | some d =>
      have hd : d.role = 0 := by
        have : ((findReg Reg.ST_BOOT_CFG).map (·.role)) = some 0 := by decide
        rw [hf] at this
        simpa using this
      rw [State.reg_present s _ d hf (by simp [State.hasReg, hd]) (by simp [State.absentPort, Reg.ST_BOOT_CFG])]
      rfl
  · simp [State.specialWrite, State.writeService, Reg.EV_CTRL, Reg.EV_CLEAR, Reg.EV_LIFE_OPS, Reg.EV_LIFE_PCC, Reg.ST_BOOT_CFG, Reg.ST_SEC_FLOOR, Reg.ST_IM_LOAD, Reg.ST_IM_SWAP, Reg.ST_WDOG, Reg.ST_WDOG_KICK, Reg.ST_EV_PUT, Reg.ST_FL_CMD]

theorem State.busWrite_ST_SEC_FLOOR (s : State) (req v : Nat) : s.busWrite req Reg.ST_SEC_FLOOR v = s.orRefuse (s.wSecFloor req v) := by
  refine s.busWrite_special req Reg.ST_SEC_FLOOR v _ (by decide) ?_ ?_ (by decide) (by decide) ?_
  · simp [State.windowWrite, Reg.ST_SEC_FLOOR]
  · cases hf : findReg Reg.ST_SEC_FLOOR with
    | none => exact absurd hf (by decide)
    | some d =>
      have hd : d.role = 0 := by
        have : ((findReg Reg.ST_SEC_FLOOR).map (·.role)) = some 0 := by decide
        rw [hf] at this
        simpa using this
      rw [State.reg_present s _ d hf (by simp [State.hasReg, hd]) (by simp [State.absentPort, Reg.ST_SEC_FLOOR])]
      rfl
  · simp [State.specialWrite, State.writeService, Reg.EV_CTRL, Reg.EV_CLEAR, Reg.EV_LIFE_OPS, Reg.EV_LIFE_PCC, Reg.ST_BOOT_CFG, Reg.ST_SEC_FLOOR, Reg.ST_IM_LOAD, Reg.ST_IM_SWAP, Reg.ST_WDOG, Reg.ST_WDOG_KICK, Reg.ST_EV_PUT, Reg.ST_FL_CMD]

theorem State.busWrite_ST_IM_LOAD (s : State) (req v : Nat) : s.busWrite req Reg.ST_IM_LOAD v = s.orRefuse (s.wImLoad v) := by
  refine s.busWrite_special req Reg.ST_IM_LOAD v _ (by decide) ?_ ?_ (by decide) (by decide) ?_
  · simp [State.windowWrite, Reg.ST_IM_LOAD]
  · cases hf : findReg Reg.ST_IM_LOAD with
    | none => exact absurd hf (by decide)
    | some d =>
      have hd : d.role = 0 := by
        have : ((findReg Reg.ST_IM_LOAD).map (·.role)) = some 0 := by decide
        rw [hf] at this
        simpa using this
      rw [State.reg_present s _ d hf (by simp [State.hasReg, hd]) (by simp [State.absentPort, Reg.ST_IM_LOAD])]
      rfl
  · simp [State.specialWrite, State.writeService, Reg.EV_CTRL, Reg.EV_CLEAR, Reg.EV_LIFE_OPS, Reg.EV_LIFE_PCC, Reg.ST_BOOT_CFG, Reg.ST_SEC_FLOOR, Reg.ST_IM_LOAD, Reg.ST_IM_SWAP, Reg.ST_WDOG, Reg.ST_WDOG_KICK, Reg.ST_EV_PUT, Reg.ST_FL_CMD]

theorem State.busWrite_ST_IM_SWAP (s : State) (req v : Nat) : s.busWrite req Reg.ST_IM_SWAP v = s.orRefuse (s.wSwapKey req v) := by
  refine s.busWrite_special req Reg.ST_IM_SWAP v _ (by decide) ?_ ?_ (by decide) (by decide) ?_
  · simp [State.windowWrite, Reg.ST_IM_SWAP]
  · cases hf : findReg Reg.ST_IM_SWAP with
    | none => exact absurd hf (by decide)
    | some d =>
      have hd : d.role = 0 := by
        have : ((findReg Reg.ST_IM_SWAP).map (·.role)) = some 0 := by decide
        rw [hf] at this
        simpa using this
      rw [State.reg_present s _ d hf (by simp [State.hasReg, hd]) (by simp [State.absentPort, Reg.ST_IM_SWAP])]
      rfl
  · simp [State.specialWrite, State.writeService, Reg.EV_CTRL, Reg.EV_CLEAR, Reg.EV_LIFE_OPS, Reg.EV_LIFE_PCC, Reg.ST_BOOT_CFG, Reg.ST_SEC_FLOOR, Reg.ST_IM_LOAD, Reg.ST_IM_SWAP, Reg.ST_WDOG, Reg.ST_WDOG_KICK, Reg.ST_EV_PUT, Reg.ST_FL_CMD]

theorem State.busWrite_ST_WDOG_KICK (s : State) (req v : Nat) : s.busWrite req Reg.ST_WDOG_KICK v = (s.wdKick, true) := by
  refine s.busWrite_special req Reg.ST_WDOG_KICK v _ (by decide) ?_ ?_ (by decide) (by decide) ?_
  · simp [State.windowWrite, Reg.ST_WDOG_KICK]
  · cases hf : findReg Reg.ST_WDOG_KICK with
    | none => exact absurd hf (by decide)
    | some d =>
      have hd : d.role = 0 := by
        have : ((findReg Reg.ST_WDOG_KICK).map (·.role)) = some 0 := by decide
        rw [hf] at this
        simpa using this
      rw [State.reg_present s _ d hf (by simp [State.hasReg, hd]) (by simp [State.absentPort, Reg.ST_WDOG_KICK])]
      rfl
  · simp [State.specialWrite, State.writeService, Reg.EV_CTRL, Reg.EV_CLEAR, Reg.EV_LIFE_OPS, Reg.EV_LIFE_PCC, Reg.ST_BOOT_CFG, Reg.ST_SEC_FLOOR, Reg.ST_IM_LOAD, Reg.ST_IM_SWAP, Reg.ST_WDOG, Reg.ST_WDOG_KICK, Reg.ST_EV_PUT, Reg.ST_FL_CMD]

theorem State.busWrite_ST_EV_PUT (s : State) (req v : Nat) : s.busWrite req Reg.ST_EV_PUT v = (s.wEvPut v, true) := by
  refine s.busWrite_special req Reg.ST_EV_PUT v _ (by decide) ?_ ?_ (by decide) (by decide) ?_
  · simp [State.windowWrite, Reg.ST_EV_PUT]
  · cases hf : findReg Reg.ST_EV_PUT with
    | none => exact absurd hf (by decide)
    | some d =>
      have hd : d.role = 0 := by
        have : ((findReg Reg.ST_EV_PUT).map (·.role)) = some 0 := by decide
        rw [hf] at this
        simpa using this
      rw [State.reg_present s _ d hf (by simp [State.hasReg, hd]) (by simp [State.absentPort, Reg.ST_EV_PUT])]
      rfl
  · simp [State.specialWrite, State.writeService, Reg.EV_CTRL, Reg.EV_CLEAR, Reg.EV_LIFE_OPS, Reg.EV_LIFE_PCC, Reg.ST_BOOT_CFG, Reg.ST_SEC_FLOOR, Reg.ST_IM_LOAD, Reg.ST_IM_SWAP, Reg.ST_WDOG, Reg.ST_WDOG_KICK, Reg.ST_EV_PUT, Reg.ST_FL_CMD]

theorem State.busWrite_ST_FL_CMD (s : State) (req v : Nat) (h : s.tray = true) : s.busWrite req Reg.ST_FL_CMD v = s.orRefuse (s.wFlCmd v) := by
  refine s.busWrite_special req Reg.ST_FL_CMD v _ (by decide) ?_ ?_ (by decide) (by decide) ?_
  · simp [State.windowWrite, Reg.ST_FL_CMD, h]
  · cases hf : findReg Reg.ST_FL_CMD with
    | none => exact absurd hf (by decide)
    | some d =>
      have hd : d.role = 2 := by
        have : ((findReg Reg.ST_FL_CMD).map (·.role)) = some 2 := by decide
        rw [hf] at this
        simpa using this
      rw [State.reg_present s _ d hf (by simp [State.hasReg, hd, h]) (by simp [State.absentPort, Reg.ST_FL_CMD])]
      rfl
  · simp [State.specialWrite, State.writeService, Reg.EV_CTRL, Reg.EV_CLEAR, Reg.EV_LIFE_OPS, Reg.EV_LIFE_PCC, Reg.ST_BOOT_CFG, Reg.ST_SEC_FLOOR, Reg.ST_IM_LOAD, Reg.ST_IM_SWAP, Reg.ST_WDOG, Reg.ST_WDOG_KICK, Reg.ST_EV_PUT, Reg.ST_FL_CMD]

/-- The trace control register, with the FIFO drained up to now (R460). -/
theorem State.busWrite_TR_CTRL (s : State) (req v : Nat) :
    s.busWrite req Reg.TR_CTRL v = ((s.catchUp Reg.TR_CTRL).wTrCtrl v, true) := by
  unfold State.busWrite
  have hr : ((s.catchUp Reg.TR_CTRL).reg? Reg.TR_CTRL).isSome = true := by
    cases hf : findReg Reg.TR_CTRL with
    | none => exact absurd hf (by decide)
    | some d =>
      have hd : d.role = 0 := by
        have : ((findReg Reg.TR_CTRL).map (·.role)) = some 0 := by decide
        rw [hf] at this
        simpa using this
      rw [State.reg_present _ _ d hf (by simp [State.hasReg, hd]) (by simp [State.absentPort, Reg.TR_CTRL])]
      rfl
  dsimp only
  rw [show (s.catchUp Reg.TR_CTRL).windowWrite Reg.TR_CTRL v = none from by simp [State.windowWrite, Reg.TR_CTRL]]
  dsimp only
  obtain ⟨d, hd⟩ := Option.isSome_iff_exists.mp hr
  rw [hd]
  dsimp only
  unfold State.heldWrite
  rw [show highHalf Reg.TR_CTRL = false from by decide, show lowHalf Reg.TR_CTRL = false from by decide]
  simp only [Bool.false_eq_true, if_false]
  unfold State.regWrite
  rw [show (s.catchUp Reg.TR_CTRL).specialWrite req Reg.TR_CTRL v = some ((s.catchUp Reg.TR_CTRL).wTrCtrl v, true) from by
    simp [State.specialWrite, State.writeWork, Reg.TR_CTRL, Reg.XC_YJ_CTRL, Reg.RD_TS_EXCL, Reg.FA_QB_ADD]]

/-- The control registers of queue `q`. -/
theorem State.reg_queue (s : State) (q i : Nat) (hq : q < 16) (hi : i = 0x20 ∨ i = 0x18 ∨ i = 0x1C) :
    (s.reg? (0x4400 + 64 * q + i)).isSome = true := by
  have hf : ∀ q < 16, ∀ i ∈ [0x20, 0x18, 0x1C], (findReg (0x4400 + 64 * q + i)).map (·.role) = some 0 := by decide
  have := hf q hq i (by simpa using hi)
  cases h : findReg (0x4400 + 64 * q + i) with
  | none => simp [h] at this
  | some d =>
    rw [h] at this
    simp at this
    rw [State.reg_present _ _ d h (by simp [State.hasReg, this]) (by simp [State.absentPort]; omega)]
    rfl

theorem State.busWrite_QE_Qn_SWAP (s : State) (req q v : Nat) (hq : q < 16) :
    s.busWrite req (Reg.QE_Qn_SWAP q) v = s.orRefuse (s.wSwap q v) := by
  have he : Reg.QE_Qn_SWAP q = 0x4400 + 64 * q + 28 := by simp [Reg.QE_Qn_SWAP]; omega
  have hp : ∀ q < 16, highHalf (Reg.QE_Qn_SWAP q) = false ∧ lowHalf (Reg.QE_Qn_SWAP q) = false := by decide
  refine s.busWrite_special req (Reg.QE_Qn_SWAP q) v _ (by rw [he]; omega) ?_ ?_ (hp q hq).1 (hp q hq).2 ?_
  · unfold State.windowWrite
    rw [if_neg (by rw [he]; omega), if_neg (by rw [he]; omega)]
  · rw [he]
    exact s.reg_queue q 28 hq (by simp)
  · have hdiv : (Reg.QE_Qn_SWAP q - 0x4400) / 64 = q := by rw [he]; omega
    unfold State.specialWrite
    rw [if_neg (by rw [he]; omega), if_pos (by rw [he]; omega)]
    unfold State.writeQueues
    have h : ∀ c, c < 0x4400 → Reg.QE_Qn_SWAP q ≠ c := by intro c hc; rw [he]; omega
    rw [if_neg (h Reg.HO_CTRL (by decide)), if_neg (not_or.mpr ⟨h Reg.HO_WRITERS (by decide), h Reg.HO_LIVE_SEL (by decide)⟩),
      if_neg (h Reg.HO_LOAD (by decide)), if_neg (h Reg.HO_FEED (by decide)), if_neg (h Reg.HO_COMMIT (by decide)),
      if_neg (h Reg.QE_PRED_SET (by decide)), if_neg (h Reg.QE_PRED_CLR (by decide)), if_neg (h Reg.QE_FLAG_SET (by decide)),
      if_neg (h Reg.QE_FLAG_CLR (by decide)), if_pos (show 0x4400 ≤ Reg.QE_Qn_SWAP q ∧ Reg.QE_Qn_SWAP q < 0x4800 by rw [he]; omega)]
    dsimp only
    rw [hdiv]
    rw [if_neg (show Reg.QE_Qn_SWAP q ≠ Reg.QE_Qn_TAIL q by simp [Reg.QE_Qn_SWAP, Reg.QE_Qn_TAIL]), if_pos rfl]

theorem State.busWrite_QE_Qn_TAIL (s : State) (req q v : Nat) (hq : q < 16) :
    s.busWrite req (Reg.QE_Qn_TAIL q) v = ((s.wTail q v).1, !(s.wTail q v).2) := by
  have he : Reg.QE_Qn_TAIL q = 0x4400 + 64 * q + 24 := by simp [Reg.QE_Qn_TAIL]; omega
  have hp : ∀ q < 16, highHalf (Reg.QE_Qn_TAIL q) = false ∧ lowHalf (Reg.QE_Qn_TAIL q) = false := by decide
  refine s.busWrite_special req (Reg.QE_Qn_TAIL q) v _ (by rw [he]; omega) ?_ ?_ (hp q hq).1 (hp q hq).2 ?_
  · unfold State.windowWrite
    rw [if_neg (by rw [he]; omega), if_neg (by rw [he]; omega)]
  · rw [he]
    exact s.reg_queue q 24 hq (by simp)
  · have hdiv : (Reg.QE_Qn_TAIL q - 0x4400) / 64 = q := by rw [he]; omega
    unfold State.specialWrite
    rw [if_neg (by rw [he]; omega), if_pos (by rw [he]; omega)]
    unfold State.writeQueues
    have h : ∀ c, c < 0x4400 → Reg.QE_Qn_TAIL q ≠ c := by intro c hc; rw [he]; omega
    rw [if_neg (h Reg.HO_CTRL (by decide)), if_neg (not_or.mpr ⟨h Reg.HO_WRITERS (by decide), h Reg.HO_LIVE_SEL (by decide)⟩),
      if_neg (h Reg.HO_LOAD (by decide)), if_neg (h Reg.HO_FEED (by decide)), if_neg (h Reg.HO_COMMIT (by decide)),
      if_neg (h Reg.QE_PRED_SET (by decide)), if_neg (h Reg.QE_PRED_CLR (by decide)), if_neg (h Reg.QE_FLAG_SET (by decide)),
      if_neg (h Reg.QE_FLAG_CLR (by decide)), if_pos (show 0x4400 ≤ Reg.QE_Qn_TAIL q ∧ Reg.QE_Qn_TAIL q < 0x4800 by rw [he]; omega)]
    dsimp only
    rw [hdiv]
    rw [if_pos rfl]

theorem State.busWrite_QE_Qn_CTRL (s : State) (req q v : Nat) (hq : q < 16) :
    s.busWrite req (Reg.QE_Qn_CTRL q) v = (s.wQctrl q v, true) := by
  have he : Reg.QE_Qn_CTRL q = 0x4400 + 64 * q + 32 := by simp [Reg.QE_Qn_CTRL]; omega
  have hp : ∀ q < 16, highHalf (Reg.QE_Qn_CTRL q) = false ∧ lowHalf (Reg.QE_Qn_CTRL q) = false := by decide
  refine s.busWrite_special req (Reg.QE_Qn_CTRL q) v _ (by rw [he]; omega) ?_ ?_ (hp q hq).1 (hp q hq).2 ?_
  · unfold State.windowWrite
    rw [if_neg (by rw [he]; omega), if_neg (by rw [he]; omega)]
  · rw [he]
    exact s.reg_queue q 32 hq (by simp)
  · have hdiv : (Reg.QE_Qn_CTRL q - 0x4400) / 64 = q := by rw [he]; omega
    unfold State.specialWrite
    rw [if_neg (by rw [he]; omega), if_pos (by rw [he]; omega)]
    unfold State.writeQueues
    have h : ∀ c, c < 0x4400 → Reg.QE_Qn_CTRL q ≠ c := by intro c hc; rw [he]; omega
    rw [if_neg (h Reg.HO_CTRL (by decide)), if_neg (not_or.mpr ⟨h Reg.HO_WRITERS (by decide), h Reg.HO_LIVE_SEL (by decide)⟩),
      if_neg (h Reg.HO_LOAD (by decide)), if_neg (h Reg.HO_FEED (by decide)), if_neg (h Reg.HO_COMMIT (by decide)),
      if_neg (h Reg.QE_PRED_SET (by decide)), if_neg (h Reg.QE_PRED_CLR (by decide)), if_neg (h Reg.QE_FLAG_SET (by decide)),
      if_neg (h Reg.QE_FLAG_CLR (by decide)), if_pos (show 0x4400 ≤ Reg.QE_Qn_CTRL q ∧ Reg.QE_Qn_CTRL q < 0x4800 by rw [he]; omega)]
    dsimp only
    rw [hdiv]
    rw [if_neg (show Reg.QE_Qn_CTRL q ≠ Reg.QE_Qn_TAIL q by simp [Reg.QE_Qn_CTRL, Reg.QE_Qn_TAIL]), if_neg (show Reg.QE_Qn_CTRL q ≠ Reg.QE_Qn_SWAP q by simp [Reg.QE_Qn_CTRL, Reg.QE_Qn_SWAP]), if_pos rfl]

theorem State.busWrite_DC_ENG_CTRL (s : State) (req k v : Nat) (hk : k < s.engines) (h4 : s.engines = if s.tray then 4 else 1) :
    s.busWrite req (Reg.DC_ENG_CTRL_k k) v = s.orRefuse (s.wEngCtrl k v) := by
  have hk4 : k < 4 := by
    rw [h4] at hk
    split at hk <;> omega
  have hp : ∀ k < 4, highHalf (Reg.DC_ENG_CTRL_k k) = false ∧ lowHalf (Reg.DC_ENG_CTRL_k k) = false ∧
      (findReg (Reg.DC_ENG_CTRL_k k)).map (·.role) = some 0 := by decide
  have hv : Reg.DC_ENG_CTRL_k k = 0x80100 + 32 * k := rfl
  refine s.busWrite_special req (Reg.DC_ENG_CTRL_k k) v _ (by rw [hv]; omega) ?_ ?_ (hp k hk4).1 (hp k hk4).2.1 ?_
  · unfold State.windowWrite
    rw [if_neg (by rw [hv]; omega), if_neg (by rw [hv]; omega)]
  · have := (hp k hk4).2.2
    cases hf : findReg (Reg.DC_ENG_CTRL_k k) with
    | none => simp [hf] at this
    | some d =>
      rw [hf] at this
      simp at this
      rw [State.reg_present _ _ d hf (by simp [State.hasReg, this]) ?_]
      · rfl
      · rw [hv]
        unfold State.absentPort
        rw [h4] at hk
        cases ht : s.tray <;> simp [ht] at hk ⊢ <;> omega
  · have hdiv : (Reg.DC_ENG_CTRL_k k - 0x80100) / 32 = k := by rw [hv]; omega
    unfold State.specialWrite
    rw [if_neg (by rw [hv]; omega), if_neg (by rw [hv]; omega), if_pos (by rw [hv]; omega)]
    unfold State.writeWork
    rw [hdiv]
    simp only [Reg.DC_ENG_CTRL_k, Reg.XC_YJ_CTRL, Reg.RD_TS_EXCL, Reg.FA_QB_ADD, Reg.TR_CTRL, Reg.DC_HANG_GO]
    split_ifs <;> first | rfl | (exfalso; omega)

/-- The ring window takes a write by the queues' rule (R161). -/
theorem State.busWrite_ring (s : State) (req a v : Nat) (ha : a < 0x10000) :
    s.busWrite req (0xC0000 + a) v = s.orRefuse (s.wRing a v) := by
  unfold State.busWrite
  rw [State.catchUp_quiet s _ (by omega)]
  dsimp only
  unfold State.windowWrite
  rw [if_pos (by omega), show 0xC0000 + a - 0xC0000 = a by omega]

end Sys2Proof.Machine
end

