-- ==== Sys2Proof/WellFormed.lean ====
section
/-! DEFINITION. Commands that the ports can carry: the lengths of what arrives on a port (R65, R67, R70, R72, R81, R87,
R369). The widths of the other operands are in their types. -/

namespace Sys2Proof

/-- A granule lane carries 256 bytes (R65). -/
def Granule.wellFormed (g : Granule) : Bool := g.data.length == 256

/-- A memory tap beat has at most four lanes, filled from 0 upward (R65, R66). -/
def granulesOk (gs : List (Option Granule)) : Bool :=
  decide (gs.length ≤ 4) && gs.all fun g => match g with | some x => x.wellFormed | none => true

/-- A record's access size (R72). -/
def TraceIn.wellFormed (r : TraceIn) : Bool := [1, 2, 4, 8].contains r.size.toNat || r.kind == 2

/-- The command is one that the ports can carry.
[DESIGN CHOICE, safe: log entry 25] -/
def Instr.wellFormed : Instr → Bool
  | .memoryTapBeat _ gs _ => granulesOk gs
  | .linkTapBeat _ _ _ eof data _ _ _ => if eof then decide (1 ≤ data.length) && decide (data.length ≤ 32) else data.length == 32
  | .laneBlockReceive _ block => block.length == 72
  | .hostReadResponse _ data _ => data.length == 64
  | .fleetStoreResponse _ data _ => data.length == 64
  | .traceRecord r => r.wellFormed
  | _ => true

end Sys2Proof
end

