-- ==== Sys2Proof/Tests/Slice0.lean ====
section
/-! SUPPORT. Tests: what the well-formedness checks refuse, one command a step on small states with values worked out from the
spec, and for every statement with hypotheses states and operands that meet them. -/

open Sys2Proof Sys2Proof.Machine

namespace Sys2Proof.Tests

set_option Elab.async false

/-! ### Well-formedness: an ill-formed term for each check -/

/-- A granule of 256 zero bytes. -/
def granule (n : Nat) : Granule := { gaddr := 0, wr := true, smask := 0xFF, err := false, data := List.replicate n 0 }

theorem test_granule_of_255_bytes_refused : (granule 255).wellFormed = false := by decide +kernel
theorem test_five_granule_lanes_refused : granulesOk (List.replicate 5 none) = false := by decide
theorem test_beat_with_a_short_granule_refused : Instr.wellFormed (.memoryTapBeat 0 [some (granule 255)] false) = false := by decide +kernel
theorem test_beat_of_four_granules_taken : Instr.wellFormed (.memoryTapBeat 15 (List.replicate 4 (some (granule 256))) false) = true := by
  decide +kernel
theorem test_short_beat_before_the_end_refused : Instr.wellFormed (.linkTapBeat 0 true true false [0] 0 false false) = false := by decide
theorem test_empty_last_beat_refused : Instr.wellFormed (.linkTapBeat 0 true false true [] 0 false false) = false := by decide
theorem test_block_of_71_bytes_refused : Instr.wellFormed (.laneBlockReceive 0 (List.replicate 71 0)) = false := by decide +kernel
theorem test_host_line_of_65_bytes_refused : Instr.wellFormed (.hostReadResponse 0 (List.replicate 65 0) false) = false := by decide +kernel
theorem test_store_line_of_63_bytes_refused : Instr.wellFormed (.fleetStoreResponse 0 (List.replicate 63 0) false) = false := by decide +kernel
theorem test_trace_size_3_refused :
    Instr.wellFormed (.traceRecord { steward := false, kind := 0, addr := 0, data := 0, size := 3, priv := false, sec := false }) = false := by
  decide

/-! ### Values of the spec -/

/-- R248: the check value of "123456789". -/
theorem test_crc32c_check_value :
    crc32c [0x31, 0x32, 0x33, 0x34, 0x35, 0x36, 0x37, 0x38, 0x39] = 0xE3069283 := by decide +kernel

/-- R17: generation 0x0002 is later than 0xFFFE. -/
theorem test_later_wraps : later 16 0x0002 0xFFFE = true ∧ later 16 0xFFFE 0x0002 = false := by decide

/-- R122: `PM_IDLE_HOLD` is 1,000 cycles after reset; R5: `GL_VERSION` is 3.2. -/
theorem test_reset_values : State.reset.rd Reg.PM_IDLE_HOLD = 1000 ∧ State.reset.rd Reg.GL_VERSION = 0x00030002 := by decide +kernel


/-! ### States for the witnesses -/

/-- A die with the fast clock running. -/
def act : State := { State.reset with pw := { State.reset.pw with st := .active, ack := true, fastRst := false, laneRst := 0, portRst := 0 } }

/-- A tray with the fast clock running. -/
def actT : State := { act with role := 1 }

/-- The power state set. -/
def inState (s : State) (p : PState) : State := { s with pw := { s.pw with st := p } }

/-- A 32-byte command from its first bytes. -/
def cmd (l : List Nat) : List Byte := l.map (BitVec.ofNat 8) ++ List.replicate (32 - l.length) 0

/-- Command `c` at the head of queue 0, in slot 0. -/
def rung (s : State) (c : List Byte) : State :=
  { s with rings := s.rings.put 0 c, queues := { tail := 1 } :: List.replicate 15 {} }

/-- A flight of queue 0 issued from slot 0. -/
def flying (c : List Byte) (d : Option Done) : Flight := { bank := 0, slot := 0, seq := 0, cmd := c, at_ := 0, gen := 0, done := d }

/-- Queue 0 with one flight. -/
def withFlight (s : State) (f : Flight) : State := { s with queues := { flights := [f] } :: List.replicate 15 {} }

/-- A strike due at fleet time `t`. -/
def strike (t : Nat) : Strike := { at_ := t, units := 1, seq := 0, issuer := 0, fleet := false, waiters := [] }

/-- A property of every number below 1,024, run through in 32 runs of 32. -/
theorem below1024 (p : Nat → Bool) (h : ((List.range 32).all fun a => (List.range 32).all fun b => p (32 * a + b)) = true) :
    ∀ k < 1024, p k = true := by
  intro k hk
  have h1 := List.all_eq_true.mp (List.all_eq_true.mp h (k / 32) (List.mem_range.mpr (by omega))) (k % 32) (List.mem_range.mpr (by omega))
  rwa [Nat.div_add_mod] at h1

/-- Every bunting counter off. -/
def quietBunting : State := (upto 128).foldl (fun t b => t.put (Reg.CF_BTX_b_en b) 0) act

/-- A dump on engine 0 whose next segment carries no data. -/
def dumpJob : DumpJob :=
  { q := some (0, 0), kind := 0, engine := some 0, at_ := 0, bound := 1, cfg := 0, parts := [{ skind := 0, base := 0, step := 0, n := 1, layout := 0 }] }

/-- A die that serves `dumpJob`, with a pennant type for its chunks. -/
def dumping (j : DumpJob) : State := { act.wr (Reg.HL_TYPE_t 16) 0xC00F0000 with dc := { act.dc with jobs := [j] } }

/-- A tray with an open association to tray 5, its port 0 up. -/
def linked : State :=
  let t := (actT.put (Reg.HL_EP_CFG_p_en 0) 1).wr Reg.HL_MAC_PFX 0
  { t with hl := { t.hl with linkUp := 1, assocs := [{ peer := 5, state := 2 }] } }

/-- A frame with no block from tray 5 to tray 0. -/
def frame5 : List Byte :=
  [0, 0, 0, 0, 0, 0, 0, 0, 0, 0, 0, 5, 0x81, 0, 0xC0, 0, 0x88, 0xB5, 1, 0, 5, 0, 0, 0] ++ List.replicate 36 0

/-- A pennant of zeros with its CRC, in its two codewords. -/
def pen0 : List Byte := List.replicate 60 0 ++ leBytes 4 (crc32c (List.replicate 60 0))
def block0 : List Byte := rsEncode (pen0.take 32) ++ rsEncode (pen0.drop 32)

/-- An event record. -/
def rec0 : EvRec := { code := 0x01, cls := 5, unit := 12 }

/-- A job entry with one content in force. -/
def entry0 : Entry := { base := 0x61000, state := 2, cont := [{ from_ := 0, stamp := 0, words := [] }], next := 0 }

/-- A write presented on the trace port. -/
def traceIn : TraceIn := { steward := false, kind := 0, addr := 0, data := 0, size := 8, priv := false, sec := false }

/-- A tray of duty 3 with every level of the analytics on. -/
def analysing : State := (actT.put Reg.GL_DUTY_duty 3).put Reg.FA_CFG_en 7

/-- A steward that runs. -/
def running : State := { act with st := { act.st with runs := true, hart := { act.st.hart with wfi := false } } }

/-- The steward at the first word of its image, `addi x1, x0, 1`. -/
def fetching : State :=
  { running with st := { running.st with
      bank := 0, banks := [{ code := [(0, 0x93), (2, 0x10)], ok := true }, {}]
      hart := { running.st.hart with pc := 0x10000000, inRom := false } } }

/-- A latch bank with an empty record. -/
def bankOf (p : Option Nat) : Bank :=
  { area := 15, kind := 0, id := (0, 0), plan := p, flags := 0, first := 0, count := 0, time := 0, gen := 0, ents := [] }

/-- A CHECK of one tile under the host model of input 0. -/
def check0 : CheckJob := { q := 0, seq := 0, desc := 0, count := 1, step := 0, model := act.hostModel 0, tb := 0, lb := 0 }

/-- A LINK block of zeros, in its two codewords. -/
def link0 : List Byte := controlBlock 0x001 (List.replicate 9 0)
def linkBlock0 : List Byte := rsEncode (link0.take 32) ++ rsEncode (link0.drop 32)

/-- A queue without flights holds none. -/
theorem noFlights (s : State) (h : (s.queues.all fun u => u.flights.isEmpty) = true) : ∀ q, ∀ f ∈ (s.queue q).flights, f.held = false := by
  intro q f hf
  have h0 : (s.queue q).flights = [] := by
    rw [State.queue, List.getD_eq_getElem?_getD]
    cases hq : s.queues[q]? with
    | none => rfl
    | some u => exact List.isEmpty_iff.mp (List.all_eq_true.mp h u (List.mem_of_getElem? hq))
  rw [h0] at hf; cases hf

/-! ### One command each on a small state -/

/-- The next state, or the reset state when there is none. -/
def after (c : Instr) (s : State) : State := match exec c s with | .next t => t | _ => State.reset

/-- R369: a lane block of 71 bytes spells none. -/
theorem test_short_block_refused : exec (.laneBlockReceive 0 (List.replicate 71 0)) act = .refused .illFormed := by rfl

/-- R99, R100: the supplies bring the block into AON_RESET; its release samples the tie-off and the request rises 16 cycles later. -/
theorem test_power_on : (after .powerOn (inState State.reset .off)).pw.st = .aonReset := by decide +kernel
theorem test_release_samples_the_role :
    (after (.aonResetRelease true) (inState State.reset .aonReset)).role = 1 ∧
    (after (.aonResetRelease true) (inState State.reset .aonReset)).pw.reqAt = 16 := by decide +kernel

/-- R119, R122: the warm-reset key notes cause 4. -/
theorem test_warm_key : (after (.warmResetKey .steward 0xA5A5) act).rd Reg.PM_RESET_CAUSE = 4 := by decide +kernel

/-- R14: a write of GL_SCRATCH sets it, and a read answers it. -/
theorem test_scratch : (after (.registerWrite .steward 5 0xCAFE0001) act).rd Reg.GL_SCRATCH = 0xCAFE0001 := by decide +kernel

/-- R60: `rp_src` 14 is refused. -/
theorem test_source_14_refused : (after (.registerWrite (.port 14) 5 1) act).rd Reg.GL_SCRATCH = 0 := by decide +kernel

/-- R179: a flag is set by its owner alone. -/
theorem test_set_flag :
    (after (.setFlag 0) ((rung act (cmd [8, 0, 0, 0, 0, 0, 0, 0, 63])).put (Reg.QE_FLAG_CFG_f_owner 63) 0)).flag 63 = true ∧
    (after (.setFlag 0) ((rung act (cmd [8, 0, 0, 0, 0, 0, 0, 0, 63])).put (Reg.QE_FLAG_CFG_f_owner 63) 1)).flag 63 = false := by decide +kernel

/-- R163: 128 commands may be pending, not 129. -/
theorem test_doorbell_full :
    ((after (.queueDoorbell .steward 0 128) act).queue 0).tail = 128 ∧ ((after (.queueDoorbell .steward 0 129) act).queue 0).tail = 0 := by
  decide +kernel

/-- R191, R192: source 200 pends; a second doorbell is counted as coalesced. -/
theorem test_doorbell_pends :
    (after (.doorbell .steward 200) act).srcPending 200 = true ∧
    (after (.doorbell .steward 200) (after (.doorbell .steward 200) act)).get Reg.IC_COALESCED_count = 1 := by decide +kernel

/-- R228: a counter at 2^48 - 1 wraps, or stays. -/
theorem test_count48 : count48 false (2 ^ 48 - 1) 1 = (0, true, false) ∧ count48 true (2 ^ 48 - 1) 1 = (2 ^ 48 - 1, false, true) := by decide

/-- R369: a codeword with one byte changed is corrected. -/
theorem test_rs_corrects :
    rsDecode ((rsEncode (List.replicate 32 0x5A)).set 7 0xFF) = .corrected (List.replicate 32 0x5A) := by decide +kernel

/-- R165: a requested swap takes effect at the boundary and changes the bank. -/
theorem test_bank_swap :
    ((after (.queueBankSwap 3) (after (.swapRequest .steward 3 0x10002) act)).queue 3).bank = 1 := by decide +kernel

/-- R85: a level that is not the one asked for is counted. -/
theorem test_grant_differs : (after (.throttleGrant 7) act).get Reg.PM_THR_DIFF_count = 1 := by decide +kernel

/-- R516: `pn.open` takes the lowest free slot. -/
theorem test_pn_open : (act.pnOpen 0x1234 5).2 = 0 ∧ ((act.pnOpen 0x1234 5).1.pnOpen 0 0).2 = 1 := by decide +kernel

theorem witness_EveryStepKeepsTheMachineSound : ∃ s t : State, s.sound ∧ step s = .next t :=
  ⟨act, _, by unfold State.sound; decide +kernel, rfl⟩

theorem witness_OnlyTheAlwaysOnResetSetsTheRole_steps :
    (∃ s t : State, step s = .next t ∧ s.pending.head? = some (.aonResetRelease true)) ∧
    (∃ s t : State, step s = .next t ∧ ∀ r, s.pending.head? ≠ some (.aonResetRelease r)) :=
  ⟨⟨{ inState act .aonReset with pending := [.aonResetRelease true] }, _, rfl, rfl⟩, ⟨{ act with pending := [.powerOff] }, _, rfl, by decide⟩⟩

/-! ### An image of the right check sequence, without running the code over its 65,596 bytes -/

theorem crcBit_lt {c : Nat} (h : c < 2 ^ 32) : crcBit c < 2 ^ 32 := by
  unfold crcBit
  split
  · exact Nat.xor_lt_two_pow (by omega) (by decide)
  · omega

theorem crcByte_lt {c : Nat} (b : Byte) (h : c < 2 ^ 32) : crcByte c b < 2 ^ 32 := by
  have hb : b.toNat < 2 ^ 32 := Nat.lt_of_lt_of_le b.isLt (by decide)
  have hx : c ^^^ b.toNat < 2 ^ 32 := Nat.xor_lt_two_pow h hb
  exact crcBit_lt (crcBit_lt (crcBit_lt (crcBit_lt (crcBit_lt (crcBit_lt (crcBit_lt (crcBit_lt hx)))))))

theorem crcFold_lt (bs : List Byte) : ∀ c, c < 2 ^ 32 → bs.foldl crcByte c < 2 ^ 32 := by
  induction bs with
  | nil => exact fun c h => h
  | cons b bs ih => exact fun c h => ih _ (crcByte_lt b h)

theorem crc32c_lt (bs : List Byte) : crc32c bs < 2 ^ 32 :=
  Nat.xor_lt_two_pow (crcFold_lt bs _ (by decide)) (by decide)

theorem leNat_leBytes4 {c : Nat} (h : c < 2 ^ 32) : leNat (leBytes 4 c) = c := by
  simp only [leBytes, leNat, BitVec.toNat_ofNat]
  omega

theorem zeros_flatMap (n : Nat) : (List.range n).flatMap (fun _ => List.replicate 64 (0 : Byte)) = List.replicate (64 * n) 0 := by
  induction n with
  | zero => rfl
  | succ n ih => rw [List.range_succ, List.flatMap_append, ih, Nat.mul_succ, ← List.replicate_append_replicate]; simp

/-- The last line of an image of zeros. -/
def lastLine : List Byte := List.replicate 60 0 ++ leBytes 4 (crc32c (List.replicate 65596 0))

def zeroLines : Sparse (List Byte) := [(1024, lastLine)]

theorem zeroImage (g : Sparse (List Byte)) (hg : g = zeroLines) :
    (upto 1025).flatMap (fun i => Sparse.get (fun _ => List.replicate 64 (0 : Byte)) g i) =
      List.replicate 65596 0 ++ leBytes 4 (crc32c (List.replicate 65596 0)) := by
  subst hg
  have h1 : (List.range 1024).flatMap (fun i => Sparse.get (fun _ => List.replicate 64 (0 : Byte)) zeroLines i) =
      (List.range 1024).flatMap (fun _ => List.replicate 64 (0 : Byte)) := by
    rw [List.flatMap_def, List.flatMap_def]
    refine congrArg List.flatten (List.map_congr_left fun i hi => ?_)
    have : i < 1024 := List.mem_range.mp hi
    simp only [zeroLines, Sparse.get]
    simp; omega
  unfold upto
  rw [List.range_succ, List.flatMap_append, h1, zeros_flatMap]
  simp only [List.flatMap_cons, List.flatMap_nil, List.append_nil]
  have h2 : Sparse.get (fun _ => List.replicate 64 (0 : Byte)) zeroLines 1024 = lastLine := by
    simp only [zeroLines, Sparse.get]; simp
  rw [h2, lastLine, ← List.append_assoc, List.replicate_append_replicate]

/-- The field of `w` bytes behind `n` bytes. -/
theorem field_behind (xs ys : List Byte) (n w : Nat) (hx : xs.length = n) (hy : ys.length = w) : field (xs ++ ys) n w = leNat ys := by
  subst hx; subst hy
  rw [field, List.drop_left, List.take_length]

theorem zeroImage_crc (g : Sparse (List Byte)) (hg : g = zeroLines) :
    crc32c (((upto 1025).flatMap fun i => Sparse.get (fun _ => List.replicate 64 (0 : Byte)) g i).take 65596) =
      field ((upto 1025).flatMap fun i => Sparse.get (fun _ => List.replicate 64 (0 : Byte)) g i) 65596 4 := by
  rw [zeroImage g hg, List.take_left' List.length_replicate, field_behind _ _ 65596 4 List.length_replicate rfl,
    leNat_leBytes4 (crc32c_lt _)]

/-! ### States that meet the hypotheses of the statements -/

/-- Meets the hypotheses of `Obligations.StepRunsTheFrontCommand`. -/
theorem witness_StepRunsTheFrontCommand :
    ∃ (c : Instr) (cs : List Instr) (s : State), s.pending = c :: cs :=
  ⟨.powerOn, [], { act with pending := [.powerOn] }, by decide +kernel⟩

/-- Meets the hypotheses of `Obligations.EmptyQueuePassesOneCycle`. -/
theorem witness_EmptyQueuePassesOneCycle :
    ∃ (s : State), s.pending = [] :=
  ⟨act, by decide +kernel⟩

/-- Meets the hypotheses of `Obligations.OnlyTheAlwaysOnResetSetsTheRole`. -/
theorem witness_OnlyTheAlwaysOnResetSetsTheRole :
    ∃ (s : State) (r : Bool), s.pw.st = .aonReset :=
  ⟨{ act with pw := { act.pw with st := .aonReset } }, true, by decide +kernel⟩

/-- Meets the hypotheses of `Obligations.SuppliesAndTheAlwaysOnReset`, clause by clause. -/
theorem witness_SuppliesAndTheAlwaysOnReset :
    (∃ (s : State), s.pw.st = .off) ∧
    (∃ (s : State), s.pw.st ≠ .off) ∧
    (∃ (s : State) (r : Bool), s.pw.st = .aonReset) :=
  ⟨⟨{ act with pw := { act.pw with st := .off } }, by decide +kernel⟩,
   ⟨act, by decide +kernel⟩,
   ⟨{ act with pw := { act.pw with st := .aonReset } }, true, by decide +kernel⟩⟩

/-- Meets the hypotheses of `Obligations.FastResetClearsTheFastDomain`, clause by clause. -/
theorem witness_FastResetClearsTheFastDomain :
    (∃ (s : State), s.pw.fastRst = false ∧ s.aonUp = true) ∧
    (∃ (s : State) (who : Who) (d : Word), s.ready who ∧ d.toNat = 0xA5A5) ∧
    (∃ (s : State) (who : Who) (d : Word), s.ready who ∧ d.toNat ≠ 0xA5A5) :=
  ⟨⟨act, by decide +kernel⟩,
   ⟨act, .steward, 0xA5A5, by unfold State.ready; decide +kernel⟩,
   ⟨act, .steward, 0, by unfold State.ready; decide +kernel⟩⟩

/-- Meets the hypotheses of `Obligations.ResetReleasesAndLooseResets`, clause by clause. -/
theorem witness_ResetReleasesAndLooseResets :
    (∃ (s : State), s.pw.orderChk = true) ∧
    (∃ (s : State), s.pw.orderChk = true ∧ s.pw.st = .fastReset ∧ s.pw.ack = true ∧ s.pw.intF = false ∧ s.waiting = [] ∧
      s.hl.arrived = [] ∧ s.hl.locals = [] ∧ s.hl.seen = []) ∧
    (∃ (s : State), s.pw.st = .fastReset ∧ s.pw.intF = true ∧ s.pw.ack = true ∧ s.pw.fastRst = false ∧ s.waiting = [] ∧
      s.hl.arrived = [] ∧ s.hl.locals = [] ∧ s.hl.seen = []) ∧
    (∃ (s : State), s.pw.st = .fastReset ∧ s.pw.intF = true ∧ s.pw.ack = true) ∧
    (∃ (s : State) (n : Fin 16), n.val < s.laneCount ∧ s.pw.fastRst = false) ∧
    (∃ (s : State) (n : Fin 16), n.val < s.laneCount ∧ s.pw.fastRst = false ∧ s.hl.lanes.length = 16 ∧
      (s.lane n.val).state = 0 ∧ (s.lane n.val).queues = [[], [], []]) ∧
    (∃ (s : State) (p : Fin 4) (a : Bool), s.tray = true ∧ s.pw.fastRst = false) ∧
    (∃ (s : State) (n : Fin 16) (a : Bool), s.laneCount ≤ n.val) ∧
    (∃ (s : State) (p : Fin 4) (a : Bool), s.tray = false) :=
  ⟨⟨act, by decide +kernel⟩,
   ⟨{ act with pw := { act.pw with st := .fastReset, orderChk := true, intF := false } }, by decide +kernel⟩,
   ⟨{ act with pw := { act.pw with st := .fastReset, intF := true } }, by decide +kernel⟩,
   ⟨{ act with pw := { act.pw with st := .fastReset, intF := true } }, by decide +kernel⟩,
   ⟨act, 0, by decide +kernel⟩,
   ⟨act, 0, by decide +kernel⟩,
   ⟨actT, 0, false, by decide +kernel⟩,
   ⟨act, 15, false, by decide +kernel⟩,
   ⟨act, 0, false, by decide +kernel⟩⟩

/-- Meets the hypotheses of `Obligations.ClockNeedsWakeAndIdleStops`, clause by clause. -/
theorem witness_ClockNeedsWakeAndIdleStops :
    (∃ (s : State), s.pw.st = .sleep) ∧
    (∃ (s : State), s.pw.st = .active) ∧
    (∃ (s : State), s.pw.st = .stopping ∧ s.pw.need = false) ∧
    (∃ (s : State) (d : Nat) (c : Nat), c = max s.cyc (s.cyc + s.cyclesTo d - 400) ∧ s.pw.st = .sleep ∧ s.firstDue = some d) ∧
    (∃ (s : State), s.pw.st = .sleep ∧ s.firstDue = none) ∧
    (∃ (s : State), s.pw.req = true ∧ s.pw.ack = false ∧ s.pw.lateDue = false ∧ s.pw.quiet = false ∧
      (s.pw.st = .waking ∨ s.pw.st = .fastReset)) ∧
    (∃ (s : State), (s.pw.quiet = true ∨ s.pw.lateDue = true)) ∧
    (∃ (s : State) (c : Nat), c = max s.cyc (max (s.pw.idleFrom + s.get Reg.PM_IDLE_HOLD_cycles) s.pw.regHold) ∧
      s.active = true ∧ s.working = false ∧ s.tapsEnabled = false ∧ s.holdCtrl = false ∧ ({ s with cyc := c }).held = false) :=
  ⟨⟨{ act with pw := { act.pw with st := .sleep } }, by decide +kernel⟩,
   ⟨act, by decide +kernel⟩,
   ⟨{ act with pw := { act.pw with st := .stopping } }, by decide +kernel⟩,
   ⟨{ ((inState act .sleep).put Reg.EV_SCRUB_max_s 0) with tb := { act.tb with strikes := [strike 32000] } }, 32000, _, rfl,
     by decide +kernel⟩,
   ⟨((inState act .sleep).put Reg.EV_SCRUB_max_s 0), by decide +kernel⟩,
   ⟨{ act with pw := { act.pw with st := .waking, ack := false } }, by decide +kernel⟩,
   ⟨{ act with pw := { act.pw with st := .waking, lateDue := true } }, by decide +kernel⟩,
   ⟨act, _, rfl, by decide +kernel⟩⟩

/-- Meets the hypotheses of `Obligations.AcknowledgeEndsTheWake`, clause by clause. -/
theorem witness_AcknowledgeEndsTheWake :
    (∃ (s : State), s.pw.st = .waking ∧ s.pw.req = true ∧ s.pw.ack = false) ∧
    (∃ (s : State), s.pw.st = .fastReset ∧ s.pw.req = true ∧ s.pw.ack = false ∧ s.pw.fastRst = true) ∧
    (∃ (s : State), s.pw.st = .stopping ∧ s.pw.ack = true ∧ s.pw.need = false) ∧
    (∃ (s : State) (c : Nat), c = max s.cyc (s.pw.reqAt + 3) ∧ s.pw.st = .stopping ∧ s.pw.ack = true ∧ s.pw.need = true) ∧
    (∃ (s : State), s.pw.st = .active ∧ s.pw.ack = true) :=
  ⟨⟨{ act with pw := { act.pw with st := .waking, ack := false } }, by decide +kernel⟩,
   ⟨{ act with pw := { act.pw with st := .fastReset, ack := false, fastRst := true } }, by decide +kernel⟩,
   ⟨{ act with pw := { act.pw with st := .stopping } }, by decide +kernel⟩,
   ⟨{ act with pw := { act.pw with st := .stopping, need := true } }, _, rfl, by decide +kernel⟩,
   ⟨act, by decide +kernel⟩⟩

/-- Meets the hypotheses of `Obligations.StartUpStagesAdvance`, clause by clause. -/
theorem witness_StartUpStagesAdvance :
    (∃ (s : State), s.active = true ∧ s.pw.sramInit = true) ∧
    (∃ (s : State) (d : Word), s.ready .steward ∧ 4 ≤ d.toNat % 16 ∧ d.toNat % 16 ≤ 7) ∧
    (∃ (s : State) (who : Who) (d : Word), s.ready who ∧ (who ≠ .steward ∨ d.toNat % 16 < 4 ∨ 8 < d.toNat % 16)) :=
  ⟨⟨{ act with pw := { act.pw with st := .active, sramInit := true } }, by decide +kernel⟩,
   ⟨act, 4, by unfold State.ready; decide +kernel⟩,
   ⟨act, .steward, 0, by unfold State.ready; decide +kernel⟩⟩

/-- Meets the hypotheses of `Obligations.PlainWritesSetTheirFields`, clause by clause. -/
theorem witness_PlainWritesSetTheirFields :
    (∃ (s : State) (who : Who) (a : BitVec 18) (d : Word) (r : RegDef), s.ready who ∧
      ((byteOff a < 0x70000 ∨ 0x80000 ≤ byteOff a)) ∧ s.windowWrite (byteOff a) d.toNat = none ∧ s.reg? (byteOff a) = some r ∧
      r.sh = 0 ∧ s.specialWrite (Who.num who) (byteOff a) d.toNat = none ∧ lowHalf (byteOff a) = false ∧
      highHalf (byteOff a) = false) ∧
    (∃ (s : State) (who : Who) (a : BitVec 18) (d : Word), s.ready who ∧ ((byteOff a < 0x70000 ∨ 0x80000 ≤ byteOff a)) ∧
      s.windowWrite (byteOff a) d.toNat = none ∧ s.reg? (byteOff a) = none) :=
  ⟨⟨act, .port 13, 0x5, 1, { base := 0x14, rw := 0xFFFFFFFF }, by unfold State.ready; decide +kernel⟩,
   ⟨act, .steward, 0x7, 1, by unfold State.ready; decide +kernel⟩⟩

/-- Meets the hypotheses of `Obligations.ReadsAnswerTheViewAndClearReadClearFields`, clause by clause. -/
theorem witness_ReadsAnswerTheViewAndClearReadClearFields :
    (∃ (s : State) (who : Who) (a : BitVec 18) (r : RegDef), s.ready who ∧ ((byteOff a < 0x70000 ∨ 0x80000 ≤ byteOff a)) ∧
      s.reg? (byteOff a) = some r ∧ byteOff a ≠ Reg.IC_CLAIM_H ∧ byteOff a ≠ Reg.IC_CLAIM_S ∧ (¬ (0x8200 ≤ byteOff a ∧
      byteOff a < 0x8240)) ∧ lowHalf (byteOff a) = false ∧ highHalf (byteOff a) = false) ∧
    (∃ (s : State) (who : Who) (a : BitVec 18), s.ready who ∧ ((byteOff a < 0x70000 ∨ 0x80000 ≤ byteOff a)) ∧
      s.reg? (byteOff a) = none ∧ s.viewWindow (byteOff a) = none ∧ lowHalf (byteOff a) = false ∧ highHalf (byteOff a) = false) :=
  ⟨⟨act, .steward, 0x407, { base := 0x0101C, rc := 0xFFFFFFFF }, by unfold State.ready; decide +kernel⟩,
   ⟨act, .steward, 0x7, by unfold State.ready; decide +kernel⟩⟩

/-- Meets the hypotheses of `Obligations.PairsAreCoherent`, clause by clause. -/
theorem witness_PairsAreCoherent :
    (∃ (s : State) (who : Who) (a : BitVec 18), s.ready who ∧ ((byteOff a < 0x70000 ∨ 0x80000 ≤ byteOff a)) ∧
      lowHalf (byteOff a) = true ∧ highHalf (byteOff a) = false ∧ (s.reg? (byteOff a)).isSome = true) ∧
    (∃ (s : State) (who : Who) (a : BitVec 18) (lo : Nat) (h : Nat), s.ready who ∧
      ((byteOff a < 0x70000 ∨ 0x80000 ≤ byteOff a)) ∧ highHalf (byteOff a) = true ∧
      (s.holding (Who.num who)).rd = some (lo, h) ∧ lo + 4 = byteOff a) ∧
    (∃ (s : State) (who : Who) (a : BitVec 18), s.ready who ∧ ((byteOff a < 0x70000 ∨ 0x80000 ≤ byteOff a)) ∧
      highHalf (byteOff a) = true ∧ (s.holding (Who.num who)).rd = none) ∧
    (∃ (s : State) (who : Who) (a : BitVec 18) (d : Word) (r : RegDef), s.ready who ∧
      ((byteOff a < 0x70000 ∨ 0x80000 ≤ byteOff a)) ∧ s.windowWrite (byteOff a) d.toNat = none ∧ s.reg? (byteOff a) = some r ∧
      highHalf (byteOff a) = true ∧ s.highRefused (Who.num who) r (byteOff a) d.toNat = none) ∧
    (∃ (s : State) (who : Who) (a : BitVec 18) (d : Word) (r : RegDef) (e : RegDef) (h : Nat), s.ready who ∧
      ((byteOff a < 0x70000 ∨ 0x80000 ≤ byteOff a)) ∧ s.windowWrite (byteOff a) d.toNat = none ∧ s.reg? (byteOff a) = some r ∧
      s.reg? (byteOff a + 4) = some e ∧ lowHalf (byteOff a) = true ∧ highHalf (byteOff a) = false ∧
      (s.holding (Who.num who)).wr = some (byteOff a, h) ∧ r.sh = 0 ∧ e.sh = 0 ∧
      s.specialWrite (Who.num who) (byteOff a) d.toNat = none ∧
      (s.plainWrite r (byteOff a) d.toNat).specialWrite (Who.num who) (byteOff a + 4) h = none) :=
  ⟨⟨act, .steward, 0x28015, by unfold State.ready; decide +kernel⟩,
   ⟨act.setHolding 14 fun x => { x with rd := some (0xA0054, 7) }, .steward, 0x28016, 0xA0054, 7,
     by unfold State.ready; decide +kernel⟩,
   ⟨act, .steward, 0x28016, by unfold State.ready; decide +kernel⟩,
   ⟨act, .steward, 0x28016, 1, { base := 0xA0058, rw := 0xFFFFFFFF }, by unfold State.ready; decide +kernel⟩,
   ⟨act.setHolding 14 fun x => { x with wr := some (0xA0054, 7) }, .steward, 0x28015, 0x40,
     { base := 0xA0054, rw := 0xFFFFFFFF }, { base := 0xA0058, rw := 0xFFFFFFFF }, 7, by unfold State.ready; decide +kernel⟩⟩

/-- Meets the hypotheses of `Obligations.ShadowAndLiveWrites`, clause by clause. -/
theorem witness_ShadowAndLiveWrites :
    (∃ (s : State) (who : Who) (a : BitVec 18) (d : Word), s.shPlain who (byteOff a) d ∧
      bit (s.rd Reg.HO_LIVE_SEL) (Who.num who) = false ∧ bit (s.rd Reg.HO_WRITERS) (Who.num who) = true ∧ s.ho.phase = 0) ∧
    (∃ (s : State) (who : Who) (a : BitVec 18) (d : Word), s.shPlain who (byteOff a) d ∧
      bit (s.rd Reg.HO_LIVE_SEL) (Who.num who) = false ∧ (bit (s.rd Reg.HO_WRITERS) (Who.num who) = false ∨ s.ho.phase ≠ 0)) ∧
    (∃ (s : State) (who : Who) (a : BitVec 18) (d : Word), s.shPlain who (byteOff a) d ∧
      bit (s.rd Reg.HO_LIVE_SEL) (Who.num who) = true ∧ s.ho.phase ≠ 0) ∧
    (∃ (s : State) (who : Who) (a : BitVec 18) (d : Word), s.shPlain who (byteOff a) d ∧
      bit (s.rd Reg.HO_LIVE_SEL) (Who.num who) = true ∧ s.ho.phase = 0 ∧ bundlesOf (byteOff a) ≠ []) ∧
    (∃ (s : State) (who : Who) (a : BitVec 18) (d : Word), s.shPlain who (byteOff a) d ∧
      bit (s.rd Reg.HO_LIVE_SEL) (Who.num who) = true ∧ s.ho.phase = 0 ∧ bundlesOf (byteOff a) = [] ∧
      maskIn (s.rd (byteOff a)) (shBits (byteOff a)) d.toNat = s.rd (byteOff a) ∧ byteOff a ≠ Reg.HO_LIVE) ∧
    (∃ (s : State) (who : Who) (a : BitVec 18) (d : Word), s.shPlain who (byteOff a) d ∧
      bit (s.rd Reg.HO_LIVE_SEL) (Who.num who) = true ∧ s.ho.phase = 0 ∧ bundlesOf (byteOff a) = [] ∧
      maskIn (s.rd (byteOff a)) (shBits (byteOff a)) d.toNat ≠ s.rd (byteOff a) ∧ byteOff a ≠ Reg.HO_LIVE) :=
  ⟨⟨act, .steward, 0x1880, 1,
     ⟨by unfold State.ready; decide +kernel, by decide +kernel, by decide +kernel, ⟨_, rfl, by decide +kernel⟩, by decide +kernel⟩,
     by decide +kernel⟩,
   ⟨{ act with ho := { act.ho with phase := 1 } }, .steward, 0x1880, 1,
     ⟨by unfold State.ready; decide +kernel, by decide +kernel, by decide +kernel, ⟨_, rfl, by decide +kernel⟩, by decide +kernel⟩,
     by decide +kernel⟩,
   ⟨{ (act.wr Reg.HO_LIVE_SEL 0xFFFF) with ho := { act.ho with phase := 1 } }, .steward, 0x1880, 1,
     ⟨by unfold State.ready; decide +kernel, by decide +kernel, by decide +kernel, ⟨_, rfl, by decide +kernel⟩, by decide +kernel⟩,
     by decide +kernel⟩,
   ⟨(act.wr Reg.HO_LIVE_SEL 0xFFFF), .steward, 0x600, 1,
     ⟨by unfold State.ready; decide +kernel, by decide +kernel, by decide +kernel, ⟨_, rfl, by decide +kernel⟩, by decide +kernel⟩,
     by decide +kernel⟩,
   ⟨(act.wr Reg.HO_LIVE_SEL 0xFFFF), .steward, 0x1880, 0,
     ⟨by unfold State.ready; decide +kernel, by decide +kernel, by decide +kernel, ⟨_, rfl, by decide +kernel⟩, by decide +kernel⟩,
     by decide +kernel⟩,
   ⟨(act.wr Reg.HO_LIVE_SEL 0xFFFF), .steward, 0x1880, 1,
     ⟨by unfold State.ready; decide +kernel, by decide +kernel, by decide +kernel, ⟨_, rfl, by decide +kernel⟩, by decide +kernel⟩,
     by decide +kernel⟩⟩

/-- Meets the hypotheses of `Obligations.AccessesThatWait`, clause by clause. -/
theorem witness_AccessesThatWait :
    (∃ (s : State) (src : BitVec 4) (a : BitVec 18) (d : Word), s.pw.st = .sleep ∧ s.waiting = [] ∧ src.toNat < 14 ∧
      aonPage (byteOff a) = false) ∧
    (∃ (s : State) (src : BitVec 4) (a : BitVec 18) (d : Word), s.aonUp = true ∧ s.waiting = [] ∧ 14 ≤ src.toNat) :=
  ⟨⟨inState act .sleep, 13, 0x10000, 0, by decide +kernel⟩,
   ⟨act, 14, 0, 0, by decide +kernel⟩⟩

/-- Meets the hypotheses of `Obligations.DebugAccess`, clause by clause. -/
theorem witness_DebugAccess :
    (∃ (s : State), s.waiting ≠ [] ∧ (∀ a ∈ s.waiting, a.port = false)) ∧
    (∃ (s : State), s.ready .debug ∧ s.dbg.dr % 4 = 2) ∧
    (∃ (s : State), s.active = true ∧ s.waiting = [] ∧ s.secAuth = false ∧ (s.dbg.dr % 4 = 1 ∨ s.dbg.dr % 4 = 2)) ∧
    (∃ (s : State), (s.dbg.dr % 4 = 0 ∨ s.dbg.dr % 4 = 3)) :=
  ⟨⟨{ act with waiting := [{ req := 15, port := false, write := false, off := 0, val := 0 }] }, by decide +kernel⟩,
   ⟨{ act with secAuth := true, dbg := { act.dbg with dr := 2 } }, by unfold State.ready; decide +kernel⟩,
   ⟨{ act with dbg := { act.dbg with dr := 1 } }, by decide +kernel⟩,
   ⟨act, by decide +kernel⟩⟩

/-- Meets the hypotheses of `Obligations.FlagCommandsSetAndClear`, clause by clause. -/
theorem witness_FlagCommandsSetAndClear :
    (∃ (s : State) (q : Fin 16) (slot : Nat) (c : List Byte), s.queues.length = 16 ∧ s.starts q.val slot c ∧ cmdOp c = 0x08 ∧
      s.mayFlag q.val (field c 8 1) = true) ∧
    (∃ (s : State) (q : Fin 16) (slot : Nat) (c : List Byte), s.queues.length = 16 ∧ s.starts q.val slot c ∧ cmdOp c = 0x09 ∧
      s.mayFlag q.val (field c 8 1) = true) ∧
    (∃ (s : State) (q : Fin 16) (slot : Nat) (c : List Byte), s.queues.length = 16 ∧ s.starts q.val slot c ∧ cmdOp c = 0x08 ∧
      s.mayFlag q.val (field c 8 1) = false) ∧
    (∃ (s : State) (q : Fin 16) (slot : Nat) (c : List Byte), s.queues.length = 16 ∧ s.starts q.val slot c ∧ cmdOp c = 0x09 ∧
      s.mayFlag q.val (field c 8 1) = false) :=
  ⟨⟨(rung act (cmd [8])).put (Reg.QE_FLAG_CFG_f_owner 0) 0, 0, 0, cmd [8], by unfold State.starts; decide +kernel⟩,
   ⟨(rung act (cmd [9])).put (Reg.QE_FLAG_CFG_f_owner 0) 0, 0, 0, cmd [9], by unfold State.starts; decide +kernel⟩,
   ⟨rung act (cmd [8]), 0, 0, cmd [8], by unfold State.starts; decide +kernel⟩,
   ⟨rung act (cmd [9]), 0, 0, cmd [9], by unfold State.starts; decide +kernel⟩⟩

/-- Meets the hypotheses of `Obligations.FlagWaitsEndOrStand`, clause by clause. -/
theorem witness_FlagWaitsEndOrStand :
    (∃ (s : State) (q : Fin 16) (slot : Nat) (c : List Byte), s.queues.length = 16 ∧ s.starts q.val slot c ∧ cmdOp c = 0x07 ∧
      s.plovQueue q.val = false ∧ s.flag (field c 8 1) = (field c 9 1 == 1)) ∧
    (∃ (s : State) (q : Fin 16) (slot : Nat) (c : List Byte), s.queues.length = 16 ∧ s.starts q.val slot c ∧ cmdOp c = 0x07 ∧
      s.plovQueue q.val = false ∧ s.flag (field c 8 1) ≠ (field c 9 1 == 1) ∧ s.get (Reg.QE_Qn_BOUND_us q.val) = 0) ∧
    (∃ (s : State) (q : Fin 16) (slot : Nat) (c : List Byte), s.queues.length = 16 ∧ s.starts q.val slot c ∧ cmdOp c = 0x07 ∧
      s.plovQueue q.val = false ∧ s.flag (field c 8 1) ≠ (field c 9 1 == 1) ∧ s.get (Reg.QE_Qn_BOUND_us q.val) ≠ 0) ∧
    (∃ (s : State) (q : Fin 16) (f : Flight), s.queues.length = 16 ∧ s.active = true ∧ s.waitOf q.val = some f ∧
      s.flag (field f.cmd 8 1) = (field f.cmd 9 1 == 1)) ∧
    (∃ (s : State) (q : Fin 16) (f : Flight), s.queues.length = 16 ∧ s.active = true ∧ s.waitOf q.val = some f ∧
      s.plovQueue q.val = false) ∧
    (∃ (s : State) (q : Fin 16) (f : Flight) (ms : List Nat), s.queues.length = 16 ∧ s.active = true ∧
      (s.queue q.val).cycleDue = true ∧ s.waitOf q.val = some f ∧
      (s.setQueue q.val fun u => { u with cycleDue := false }).walk q.val 16 q.val = some ms) :=
  ⟨⟨rung act (cmd [7]), 0, 0, cmd [7], by unfold State.starts; decide +kernel⟩,
   ⟨(rung act (cmd [7, 0, 0, 0, 0, 0, 0, 0, 0, 1])).put (Reg.QE_Qn_BOUND_us 0) 0, 0, 0, cmd [7, 0, 0, 0, 0, 0, 0, 0, 0, 1],
     by unfold State.starts; decide +kernel⟩,
   ⟨(rung act (cmd [7, 0, 0, 0, 0, 0, 0, 0, 0, 1])).put (Reg.QE_Qn_BOUND_us 0) 5, 0, 0, cmd [7, 0, 0, 0, 0, 0, 0, 0, 0, 1],
     by unfold State.starts; decide +kernel⟩,
   ⟨withFlight act (flying (cmd [7]) none), 0, flying (cmd [7]) none, by decide +kernel⟩,
   ⟨withFlight act (flying (cmd [7]) none), 0, flying (cmd [7]) none, by decide +kernel⟩,
   ⟨({ act with queues := { flights := [flying (cmd [7, 0, 0, 0, 0, 0, 0, 0, 0, 1]) none], cycleDue := true } :: List.replicate 15 {} }).put (Reg.QE_FLAG_CFG_f_owner 0) 0,
     0, flying (cmd [7, 0, 0, 0, 0, 0, 0, 0, 0, 1]) none, [0], by decide +kernel⟩⟩

/-- Meets the hypotheses of `Obligations.TimedWaitsAndFences`, clause by clause. -/
theorem witness_TimedWaitsAndFences :
    (∃ (s : State) (q : Fin 16) (slot : Nat) (c : List Byte), s.queues.length = 16 ∧ s.starts q.val slot c ∧ cmdOp c = 0x0A ∧
      s.reached (field c 8 8) = true) ∧
    (∃ (s : State) (q : Fin 16) (slot : Nat) (c : List Byte), s.queues.length = 16 ∧ s.starts q.val slot c ∧ cmdOp c = 0x0A ∧
      s.reached (field c 8 8) = false) ∧
    (∃ (s : State) (q : Fin 16) (f : Flight), s.queues.length = 16 ∧ s.active = true ∧
      ((s.queue q.val).flights.find? fun f => f.standing && cmdOp f.cmd == 0x0A) = some f) ∧
    (∃ (s : State) (q : Fin 16) (slot : Nat) (c : List Byte), s.queues.length = 16 ∧ s.starts q.val slot c ∧ cmdOp c = 0x0B) ∧
    (∃ (s : State) (q : Fin 16) (slot : Nat) (c : List Byte), s.queues.length = 16 ∧ s.issuable q.val = some (slot, c) ∧
      (cmdOp c = 0 ∨ 0x0B < cmdOp c) ∧ s.ev.ringBad.contains (ringAddr (s.queue q.val).bank q.val slot / 32) = false ∧
      ((cmdPredEn c = false ∨ bit (s.rd Reg.QE_PRED) (cmdPred c) ≠ cmdPredInv c))) :=
  ⟨⟨rung act (cmd [10]), 0, 0, cmd [10], by unfold State.starts; decide +kernel⟩,
   ⟨rung act (cmd [10, 0, 0, 0, 0, 0, 0, 0, 0, 1]), 0, 0, cmd [10, 0, 0, 0, 0, 0, 0, 0, 0, 1],
     by unfold State.starts; decide +kernel⟩,
   ⟨withFlight act (flying (cmd [10]) none), 0, flying (cmd [10]) none, by decide +kernel⟩,
   ⟨rung act (cmd [11]), 0, 0, cmd [11], by unfold State.starts; decide +kernel⟩,
   ⟨rung act (cmd [12]), 0, 0, cmd [12], by decide +kernel⟩⟩

/-- Meets the hypotheses of `Obligations.WorkCommandsStartTheirUnit`, clause by clause. -/
theorem witness_WorkCommandsStartTheirUnit :
    (∃ (s : State) (q : Fin 16) (slot : Nat) (c : List Byte), s.queues.length = 16 ∧ s.starts q.val slot c ∧ cmdOp c = 0x01) ∧
    (∃ (s : State) (q : Fin 16) (slot : Nat) (c : List Byte), s.queues.length = 16 ∧ s.starts q.val slot c ∧ cmdOp c = 0x02) ∧
    (∃ (s : State) (q : Fin 16) (slot : Nat) (c : List Byte), s.queues.length = 16 ∧ s.starts q.val slot c ∧ cmdOp c = 0x03) ∧
    (∃ (s : State) (q : Fin 16) (slot : Nat) (c : List Byte), s.queues.length = 16 ∧ s.starts q.val slot c ∧ cmdOp c = 0x04) ∧
    (∃ (s : State) (q : Fin 16) (slot : Nat) (c : List Byte), s.queues.length = 16 ∧ s.starts q.val slot c ∧ cmdOp c = 0x05) ∧
    (∃ (s : State) (q : Fin 16) (slot : Nat) (c : List Byte), s.queues.length = 16 ∧ s.starts q.val slot c ∧ cmdOp c = 0x06) ∧
    (∃ (s : State) (q : Fin 16) (slot : Nat) (c : List Byte), s.queues.length = 16 ∧ s.starts q.val slot c) ∧
    (∃ (s : State) (q : Fin 16), s.issuable q.val = none) ∧
    (∃ (s : State) (q : Fin 16) (slot : Nat) (c : List Byte), s.queues.length = 16 ∧ s.starts q.val slot c ∧ cmdOp c = 0x01) ∧
    (∃ (s : State) (q : Fin 16) (slot : Nat) (c : List Byte), s.queues.length = 16 ∧ s.starts q.val slot c ∧ cmdOp c = 0x01 ∧
      s.areaRefuses (field c 12 1) (recLen (8 * field c 10 2)) = false ∧ s.bankFree = true) ∧
    (∃ (s : State) (q : Fin 16) (slot : Nat) (c : List Byte), s.queues.length = 16 ∧ s.starts q.val slot c ∧ cmdOp c = 0x01) ∧
    (∃ (s : State) (q : Fin 16) (slot : Nat) (c : List Byte), s.queues.length = 16 ∧ s.starts q.val slot c ∧ cmdOp c = 0x01 ∧
      s.areaRefuses (field c 12 1) (recLen (8 * field c 10 2)) = false ∧ s.bankFree = false) ∧
    (∃ (s : State) (q : Fin 16) (slot : Nat) (c : List Byte), s.queues.length = 16 ∧ s.starts q.val slot c ∧ cmdOp c = 0x02 ∧
      field c 8 1 = 0) ∧
    (∃ (s : State) (q : Fin 16) (slot : Nat) (c : List Byte), s.queues.length = 16 ∧ s.starts q.val slot c ∧ cmdOp c = 0x02 ∧
      field c 8 1 ≠ 0 ∧ s.strikeFull (field c 16 8) = false ∧
      ((field c 8 1 = 2 → later 64 ((s.fleet + s.strikeLead) % 2 ^ 64) (field c 16 8) = false))) ∧
    (∃ (s : State) (q : Fin 16) (slot : Nat) (c : List Byte), s.queues.length = 16 ∧ s.starts q.val slot c ∧ cmdOp c = 0x03 ∧
      s.get (Reg.SC_MD_CFG_m_ntrees (field c 8 1)) ≠ 0 ∧ s.badScore c = false ∧ s.get Reg.SC_BOUND_us ≠ 0) ∧
    (∃ (s : State) (q : Fin 16) (slot : Nat) (c : List Byte), s.queues.length = 16 ∧ s.starts q.val slot c ∧ cmdOp c = 0x03 ∧
      s.get (Reg.SC_MD_CFG_m_ntrees (field c 8 1)) = 0) ∧
    (∃ (s : State) (q : Fin 16) (slot : Nat) (c : List Byte), s.queues.length = 16 ∧ s.starts q.val slot c ∧ cmdOp c = 0x04 ∧
      field c 16 1 ≤ 15 ∧ s.get (Reg.XC_HM_IN_n_a_fmt (field c 16 1)) ≠ 0 ∧ s.get Reg.XC_BOUND_ms ≠ 0 ∧ field c 18 2 ≠ 0 ∧
      s.xc.lanes = [{}, {}] ∧ s.xc.arb = none ∧ s.xc.arbQ = [] ∧
      ((∀ f ∈ (s.queue q.val).flights, f.seq ≠ (s.queue q.val).seq))) ∧
    (∃ (s : State) (q : Fin 16) (slot : Nat) (c : List Byte), s.queues.length = 16 ∧ s.starts q.val slot c ∧ cmdOp c = 0x04 ∧
      field c 16 1 ≤ 15 ∧ s.get (Reg.XC_HM_IN_n_a_fmt (field c 16 1)) ≠ 0 ∧ s.get Reg.XC_BOUND_ms ≠ 0 ∧ s.xc.lanes.length = 2 ∧
      (s.xlane 0).tile.isSome = true ∧ (s.xlane 1).tile.isSome = true ∧ s.xc.arb = none ∧ s.xc.arbQ = []) ∧
    (∃ (s : State) (q : Fin 16) (slot : Nat) (c : List Byte), ((field c 24 1 = 0 ∧ ∃ e, s.dumpEntry (field c 8 8) = some e ∧
      s.get (Reg.DC_DL_CFG_e_layout e) ≠ 3) ∨ (field c 24 1 = 1 ∧ field c 8 8 % 64 = 0 ∧
      field c 8 8 + 4096 * field c 20 4 ≤ 2 ^ 52)) ∧ s.queues.length = 16 ∧ s.starts q.val slot c ∧ cmdOp c = 0x05 ∧
      ((∀ j ∈ s.dc.jobs, j.engine ≠ none)) ∧ s.drainHas 0x11 = false ∧ ((upto s.engines).find? s.engineIdle).isSome = true) ∧
    (∃ (s : State) (q : Fin 16) (slot : Nat) (c : List Byte), ((field c 24 1 = 0 ∧ ∃ e, s.dumpEntry (field c 8 8) = some e ∧
      s.get (Reg.DC_DL_CFG_e_layout e) ≠ 3) ∨ (field c 24 1 = 1 ∧ field c 8 8 % 64 = 0 ∧
      field c 8 8 + 4096 * field c 20 4 ≤ 2 ^ 52) ∨ (field c 24 1 = 2 ∧ field c 20 4 ≤ 32)) ∧ s.queues.length = 16 ∧
      s.starts q.val slot c ∧ cmdOp c = 0x05 ∧ (upto s.engines).find? s.engineIdle = none) ∧
    (∃ (s : State) (q : Fin 16) (slot : Nat) (c : List Byte), s.queues.length = 16 ∧ s.starts q.val slot c ∧ cmdOp c = 0x05 ∧
      field c 24 1 = 0 ∧ s.dumpEntry (field c 8 8) = none) ∧
    (∃ (s : State) (q : Fin 16) (slot : Nat) (c : List Byte), s.queues.length = 16 ∧ s.starts q.val slot c ∧ cmdOp c = 0x06 ∧
      (if field c 17 1 = 1 then s.dmemSize else 524288) ≥ field c 12 4 + field c 16 1 ∧
      lostIn (if field c 17 1 = 1 then s.st.dmBad else s.cf.sbufBad) (field c 12 4) (field c 16 1) = false) :=
  ⟨⟨rung act (cmd [1, 0, 0, 0, 0, 0, 0, 0, 0, 0, 1]), 0, 0, cmd [1, 0, 0, 0, 0, 0, 0, 0, 0, 0, 1],
     by unfold State.starts; decide +kernel⟩,
   ⟨rung act (cmd [2, 0, 0, 0, 0, 0, 0, 0, 0, 0, 0, 0, 1]), 0, 0, cmd [2, 0, 0, 0, 0, 0, 0, 0, 0, 0, 0, 0, 1],
     by unfold State.starts; decide +kernel⟩,
   ⟨rung act (cmd [3, 0, 0, 0, 0, 0, 0, 0, 0, 0, 1]), 0, 0, cmd [3, 0, 0, 0, 0, 0, 0, 0, 0, 0, 1],
     by unfold State.starts; decide +kernel⟩,
   ⟨rung act (cmd [4, 0, 0, 0, 0, 0, 0, 0, 0, 0, 0, 0, 0, 0, 0, 0, 0, 0, 1]), 0, 0,
     cmd [4, 0, 0, 0, 0, 0, 0, 0, 0, 0, 0, 0, 0, 0, 0, 0, 0, 0, 1], by unfold State.starts; decide +kernel⟩,
   ⟨rung act (cmd [5, 0, 0, 0, 0, 0, 0, 0, 0, 0, 0, 0, 0, 0, 0, 0, 0, 0, 0, 0, 1]), 0, 0,
     cmd [5, 0, 0, 0, 0, 0, 0, 0, 0, 0, 0, 0, 0, 0, 0, 0, 0, 0, 0, 0, 1], by unfold State.starts; decide +kernel⟩,
   ⟨rung act (cmd [6, 0, 0, 0, 0, 0, 0, 0, 0, 0, 0, 0, 0, 0, 0, 0, 1]), 0, 0,
     cmd [6, 0, 0, 0, 0, 0, 0, 0, 0, 0, 0, 0, 0, 0, 0, 0, 1], by unfold State.starts; decide +kernel⟩,
   ⟨rung act (cmd [11]), 0, 0, cmd [11], by unfold State.starts; decide +kernel⟩,
   ⟨act, 0, by decide +kernel⟩,
   ⟨rung act (cmd [1, 0, 0, 0, 0, 0, 0, 0, 0, 0, 1]), 0, 0, cmd [1, 0, 0, 0, 0, 0, 0, 0, 0, 0, 1],
     by unfold State.starts; decide +kernel⟩,
   ⟨(rung act (cmd [1, 0, 0, 0, 0, 0, 0, 0, 0, 0, 1])).put (Reg.CF_AREA_p_size 0) 64, 0, 0,
     cmd [1, 0, 0, 0, 0, 0, 0, 0, 0, 0, 1], by unfold State.starts; decide +kernel⟩,
   ⟨rung act (cmd [1, 0, 0, 0, 0, 0, 0, 0, 0, 0, 1]), 0, 0, cmd [1, 0, 0, 0, 0, 0, 0, 0, 0, 0, 1],
     by unfold State.starts; decide +kernel⟩,
   ⟨{ (rung act (cmd [1, 0, 0, 0, 0, 0, 0, 0, 0, 0, 1])).put (Reg.CF_AREA_p_size 0) 64 with cf := { act.cf with banks := List.replicate 4 (bankOf none) } },
     0, 0, cmd [1, 0, 0, 0, 0, 0, 0, 0, 0, 0, 1], by unfold State.starts; decide +kernel⟩,
   ⟨rung act (cmd [2, 0, 0, 0, 0, 0, 0, 0, 0, 0, 0, 0, 1]), 0, 0, cmd [2, 0, 0, 0, 0, 0, 0, 0, 0, 0, 0, 0, 1],
     by unfold State.starts; decide +kernel⟩,
   ⟨rung act (cmd [2, 0, 0, 0, 0, 0, 0, 0, 1, 0, 0, 0, 1]), 0, 0, cmd [2, 0, 0, 0, 0, 0, 0, 0, 1, 0, 0, 0, 1],
     by unfold State.starts; decide +kernel⟩,
   ⟨((rung act (cmd [3, 0, 0, 0, 0, 0, 0, 0, 0, 0, 1, 0, 0, 0, 0, 0, 32])).put (Reg.SC_MD_CFG_m_ntrees 0) 1).put Reg.SC_BOUND_us 1,
     0, 0, cmd [3, 0, 0, 0, 0, 0, 0, 0, 0, 0, 1, 0, 0, 0, 0, 0, 32], by unfold State.starts; decide +kernel⟩,
   ⟨rung act (cmd [3, 0, 0, 0, 0, 0, 0, 0, 0, 0, 1, 0, 0, 0, 0, 0, 32]), 0, 0,
     cmd [3, 0, 0, 0, 0, 0, 0, 0, 0, 0, 1, 0, 0, 0, 0, 0, 32], by unfold State.starts; decide +kernel⟩,
   ⟨((rung act (cmd [4, 0, 0, 0, 0, 0, 0, 0, 0, 0, 0, 0, 0, 0, 0, 0, 0, 0, 1])).put (Reg.XC_HM_IN_n_a_fmt 0) 1).put Reg.XC_BOUND_ms 1,
     0, 0, cmd [4, 0, 0, 0, 0, 0, 0, 0, 0, 0, 0, 0, 0, 0, 0, 0, 0, 0, 1], by unfold State.starts; decide +kernel⟩,
   ⟨{ ((rung act (cmd [4, 0, 0, 0, 0, 0, 0, 0, 0, 0, 0, 0, 0, 0, 0, 0, 0, 0, 1])).put (Reg.XC_HM_IN_n_a_fmt 0) 1).put Reg.XC_BOUND_ms 1 with xc := { act.xc with lanes := [{ tile := some (0, []) }, { tile := some (0, []) }] } },
     0, 0, cmd [4, 0, 0, 0, 0, 0, 0, 0, 0, 0, 0, 0, 0, 0, 0, 0, 0, 0, 1], by unfold State.starts; decide +kernel⟩,
   ⟨rung act (cmd ([5] ++ List.replicate 19 0 ++ [1, 0, 0, 0, 1])), 0, 0, cmd ([5] ++ List.replicate 19 0 ++ [1, 0, 0, 0, 1]),
     .inr (by decide +kernel), by unfold State.starts; decide +kernel⟩,
   ⟨{ rung act (cmd ([5] ++ List.replicate 19 0 ++ [1, 0, 0, 0, 1])) with dc := { act.dc with coders := List.replicate 4 { image := some false } } },
     0, 0, cmd ([5] ++ List.replicate 19 0 ++ [1, 0, 0, 0, 1]), .inr (.inl (by decide +kernel)),
     by unfold State.starts; decide +kernel⟩,
   ⟨rung act (cmd ([5] ++ List.replicate 19 0 ++ [1])), 0, 0, cmd ([5] ++ List.replicate 19 0 ++ [1]),
     by unfold State.starts; decide +kernel⟩,
   ⟨rung act (cmd ([6] ++ List.replicate 15 0 ++ [1])), 0, 0, cmd ([6] ++ List.replicate 15 0 ++ [1]),
     by unfold State.starts; decide +kernel⟩⟩

/-- Meets the hypotheses of `Obligations.CompletionRetiresTheCommand`, clause by clause. -/
theorem witness_CompletionRetiresTheCommand :
    (∃ (s : State) (q : Fin 16) (slot : Fin 128) (f : Flight) (d : Done), s.queues.length = 16 ∧ s.active = true ∧
      ((s.queue q.val).flights.find? fun f => f.slot == slot.val && f.done.isSome) = some f ∧ f.done = some d) ∧
    (∃ (s : State) (q : Fin 16) (slot : Fin 128) (f : Flight) (d : Done), s.queues.length = 16 ∧ s.active = true ∧
      ((s.queue q.val).flights.find? fun f => f.slot == slot.val && f.done.isSome) = some f ∧ f.done = some d ∧
      isFault d.code = true) ∧
    (∃ (s : State) (q : Fin 16), s.queues.length = 16 ∧ s.active = true ∧ s.plovQueue q.val = true ∧ s.get Reg.QE_WDOG_us ≠ 0 ∧
      (s.queue q.val).flights ≠ [] ∧ s.waitOf q.val = none) :=
  ⟨⟨withFlight act (flying (cmd [11]) (some { code := 1 })), 0, 0, flying (cmd [11]) (some { code := 1 }), { code := 1 },
     by decide +kernel⟩,
   ⟨withFlight act (flying (cmd [11]) (some { code := Code.DEADLINE_MISS })), 0, 0,
     flying (cmd [11]) (some { code := Code.DEADLINE_MISS }), { code := Code.DEADLINE_MISS }, by decide +kernel⟩,
   ⟨((withFlight act (flying (cmd [3]) none)).put (Reg.QE_Qn_PROG_mode 0) 1).put Reg.QE_WDOG_us 5, 0, by decide +kernel⟩⟩

/-- Meets the hypotheses of `Obligations.RingWritesTailsAndSwaps`, clause by clause. -/
theorem witness_RingWritesTailsAndSwaps :
    (∃ (s : State) (who : Who) (a : BitVec 14) (d : Word), s.ready who ∧ (s.wRing (4 * a.toNat) d.toNat).isSome = true) ∧
    (∃ (s : State) (who : Who) (a : BitVec 14) (d : Word), s.ready who ∧
      bits (s.rd Reg.QE_WIN_SEL) (4 * a.toNat / 4096 % 16) 1 = (s.queue (4 * a.toNat / 4096 % 16)).bank ∧
      (s.queue (4 * a.toNat / 4096 % 16)).holdsSlot (4 * a.toNat / 32 % 128) = true) ∧
    (∃ (s : State) (who : Who) (a : BitVec 14) (d : Word) (q : Nat), s.ready who ∧ q = 4 * a.toNat / 4096 % 16 ∧
      bits (s.rd Reg.QE_WIN_SEL) q 1 ≠ (s.queue q).bank ∧
      ((s.queue q).swap.isSome = true ∨ (s.queue q).hoistSwap = true ∨ bit s.ho.placedQ q = true)) ∧
    (∃ (s : State) (who : Who) (q : Fin 16) (d : Word), s.ready who ∧ (s.queue q.val).loop = false ∧
      (s.queue q.val).swap = none ∧ (s.queue q.val).hoistSwap = false ∧
      (d.toNat % 256 + 256 - (s.queue q.val).head) % 256 ≤ 128) ∧
    (∃ (s : State) (who : Who) (q : Fin 16) (d : Word), s.ready who ∧
      ((s.queue q.val).loop = true ∨ (s.queue q.val).swap.isSome = true ∨ (s.queue q.val).hoistSwap = true ∨ 128 < (d.toNat % 256 + 256 - (s.queue q.val).head) % 256)) ∧
    (∃ (s : State) (who : Who) (q : Fin 16) (d : Word), s.ready who ∧ bit d.toNat 16 = true ∧ (s.queue q.val).swap = none ∧
      (s.queue q.val).hoistSwap = false ∧ 1 ≤ d.toNat % 256 ∧ d.toNat % 256 ≤ 128) ∧
    (∃ (s : State) (who : Who) (q : Fin 16) (d : Word), s.ready who ∧ bit d.toNat 16 = true ∧
      ((s.queue q.val).swap.isSome = true ∨ (s.queue q.val).hoistSwap = true ∨ 128 < d.toNat % 256)) ∧
    (∃ (s : State) (q : Fin 16) (n : Nat) (l : Bool), s.active = true ∧ (s.queue q.val).swap = some (n, l) ∧
      (s.queue q.val).atBoundary = true ∧ s.queues.length = 16) :=
  ⟨⟨act, .steward, 0x3FFF, 1, by unfold State.ready; decide +kernel⟩,
   ⟨rung act (cmd [11]), .steward, 0, 0, by unfold State.ready; decide +kernel⟩,
   ⟨{ act with queues := { bank := 1, hoistSwap := true } :: List.replicate 15 {} }, .steward, 0, 0, 0,
     by unfold State.ready; decide +kernel⟩,
   ⟨act, .steward, 0, 128, by unfold State.ready; decide +kernel⟩,
   ⟨act, .steward, 0, 129, by unfold State.ready; decide +kernel⟩,
   ⟨act, .steward, 0, 0x10080, by unfold State.ready; decide +kernel⟩,
   ⟨act, .steward, 0, 0x10081, by unfold State.ready; decide +kernel⟩,
   ⟨{ act with queues := { swap := some (1, true) } :: List.replicate 15 {} }, 0, 1, true, by decide +kernel⟩⟩

/-- Meets the hypotheses of `Obligations.QueueControlPredicatesAndFlags`, clause by clause. -/
theorem witness_QueueControlPredicatesAndFlags :
    (∃ (s : State) (who : Who) (q : Fin 16), s.ready who) ∧
    (∃ (s : State) (who : Who) (q : Fin 16), s.ready who ∧ s.queues.length = 16) ∧
    (∃ (s : State) (who : Who) (d : Word), s.ready who) ∧
    (∃ (s : State) (who : Who) (d : Word), s.ready who) ∧
    (∃ (s : State) (who : Who) (d : Word), s.ready who ∧ s.get (Reg.QE_FLAG_CFG_f_owner (d.toNat % 64)) = 16) ∧
    (∃ (s : State) (who : Who) (d : Word), s.ready who ∧ s.get (Reg.QE_FLAG_CFG_f_owner (d.toNat % 64)) = 16) ∧
    (∃ (s : State) (who : Who) (d : Word), s.ready who ∧ s.get (Reg.QE_FLAG_CFG_f_owner (d.toNat % 64)) ≠ 16) :=
  ⟨⟨act, .steward, 0, by unfold State.ready; decide +kernel⟩,
   ⟨act, .steward, 0, by unfold State.ready; decide +kernel⟩,
   ⟨act, .steward, 0, by unfold State.ready; decide +kernel⟩,
   ⟨act, .steward, 0, by unfold State.ready; decide +kernel⟩,
   ⟨act.put (Reg.QE_FLAG_CFG_f_owner 63) 16, .steward, 63, by unfold State.ready; decide +kernel⟩,
   ⟨act.put (Reg.QE_FLAG_CFG_f_owner 63) 16, .steward, 63, by unfold State.ready; decide +kernel⟩,
   ⟨act.put (Reg.QE_FLAG_CFG_f_owner 0) 3, .steward, 0, by unfold State.ready; decide +kernel⟩⟩

/-- Meets the hypotheses of `Obligations.DoorbellsRaiseTheirSource`, clause by clause. -/
theorem witness_DoorbellsRaiseTheirSource :
    (∃ (s : State) (who : Who) (d : Word) (n : Nat), n = d.toNat % 2 ^ 11 ∧ s.ready who ∧ 1 ≤ n ∧ n < s.srcCount ∧
      ((Who.num who ≠ 14 → Who.num who ≠ 15 → 64 ≤ n)) ∧ s.srcPending n = false) ∧
    (∃ (s : State) (who : Who) (d : Word) (n : Nat), n = d.toNat % 2 ^ 11 ∧ s.ready who ∧ 1 ≤ n ∧ n < s.srcCount ∧
      ((Who.num who ≠ 14 → Who.num who ≠ 15 → 64 ≤ n)) ∧ s.srcPending n = true) ∧
    (∃ (s : State) (who : Who) (d : Word) (n : Nat), s.ready who ∧ n = d.toNat % 2 ^ 11 ∧
      (n = 0 ∨ s.srcCount ≤ n ∨ (Who.num who ≠ 14 ∧ Who.num who ≠ 15 ∧ n < 64))) :=
  ⟨⟨act, .port 0, 255, _, rfl, by unfold State.ready; decide +kernel⟩,
   ⟨act.wr (Reg.IC_PEND_k 0) 2, .steward, 1, _, rfl, by unfold State.ready; decide +kernel⟩,
   ⟨act, .port 0, 63, 63, by unfold State.ready; decide +kernel⟩⟩

/-- Meets the hypotheses of `Obligations.ClaimsTakeTheHighestSource`, clause by clause. -/
theorem witness_ClaimsTakeTheHighestSource :
    (∃ (s : State) (who : Who) (k : Nat), s.ready who ∧ k < s.srcCount ∧ k ≠ 0 ∧ s.srcPending k = true ∧ s.enHost k = true) ∧
    (∃ (s : State) (who : Who) (k : Nat), s.ready who ∧ k < s.srcCount ∧ k ≠ 0 ∧ s.srcPending k = true ∧ s.enStew k = true) ∧
    (∃ (s : State) (who : Who), s.ready who) ∧
    (∃ (s : State) (who : Who), s.ready who ∧ (∀ k < s.srcCount, k ≠ 0 → ¬ (s.srcPending k = true ∧ s.enHost k = true)) ∧
      (∀ k < s.srcCount, k ≠ 0 → ¬ (s.srcPending k = true ∧ s.enStew k = true))) :=
  ⟨⟨(act.wr (Reg.IC_PEND_k 7) 0x80000000).wr (Reg.IC_EN_H_k 7) 0x80000000, .steward, 255,
     by unfold State.ready; decide +kernel⟩,
   ⟨(act.wr (Reg.IC_PEND_k 7) 0x80000000).wr (Reg.IC_EN_S_k 7) 0x80000000, .steward, 255,
     by unfold State.ready; decide +kernel⟩,
   ⟨act, .steward, by unfold State.ready; decide +kernel⟩,
   ⟨act, .steward, by unfold State.ready; decide +kernel⟩⟩

/-- Meets the hypotheses of `Obligations.LoadsBeginAndEnd`, clause by clause. -/
theorem witness_LoadsBeginAndEnd :
    (∃ (s : State) (who : Who), s.ready who ∧ s.ho.phase = 0 ∧ s.ho.ld.busy = false ∧ s.get Reg.HO_SRC_HI_kind = 2 ∧
      1 ≤ s.rd Reg.HO_SRC_LEN ∧ s.rd Reg.HO_SRC_LEN ≤ 2 ^ 24) ∧
    (∃ (s : State) (who : Who), s.ready who ∧ s.ho.phase ≠ 0) ∧
    (∃ (s : State) (who : Who) (d : Word), s.ready who ∧ (s.ho.ld.busy = false ∨ s.ho.ld.kind ≠ 2)) ∧
    (∃ (s : State) (who : Who) (d : Word), s.ready who ∧ s.ho.ld.busy = true ∧ s.ho.ld.kind = 2 ∧ s.ho.ld.fate.isSome = true ∧
      s.ho.ld.feed.length < 256) ∧
    (∃ (s : State) (c : Nat) (o : List Nat) (t : Bool), s.active = true ∧ s.ho.ld.fate = some (c, o, t)) ∧
    (∃ (s : State) (c : Nat) (o : List Nat) (t : Bool), c < 256 ∧ s.active = true ∧ s.ho.ld.fate = some (c, o, t)) ∧
    (∃ (s : State) (c : Nat) (o : List Nat) (t : Bool), c < 256 ∧ s.active = true ∧ s.ho.ld.fate = some (c, o, t) ∧
      c = Code.OK ∧ 10 ≤ s.ho.ld.got.length) ∧
    (∃ (s : State) (c : Nat) (o : List Nat) (t : Bool), c < 256 ∧ s.active = true ∧ s.ho.ld.fate = some (c, o, t) ∧
      c ≠ Code.OK ∧ t = true) ∧
    (∃ (s : State), s.active = true ∧ s.ho.ld.busy = true ∧ s.ho.ld.kind = 2 ∧ s.ho.ld.fate = none) ∧
    (∃ (s : State) (c : Nat) (o : List Nat) (t : Bool), c < 256) :=
  ⟨⟨(act.put Reg.HO_SRC_HI_kind 2).wr Reg.HO_SRC_LEN 0x1000000, .steward, by unfold State.ready; decide +kernel⟩,
   ⟨{ act with ho := { act.ho with phase := 1 } }, .steward, by unfold State.ready; decide +kernel⟩,
   ⟨act, .steward, 0, by unfold State.ready; decide +kernel⟩,
   ⟨{ act with ho := { act.ho with ld := { busy := true, kind := 2, fate := some (1, [], false), feed := List.replicate 255 0 } } },
     .steward, 0, by unfold State.ready; decide +kernel⟩,
   ⟨{ act with ho := { act.ho with ld := { busy := true, kind := 2, fate := some (1, [], false) } } }, 1, [], false,
     by decide +kernel⟩,
   ⟨{ act with ho := { act.ho with ld := { busy := true, kind := 2, fate := some (1, [], true) } } }, 1, [], true,
     by decide +kernel⟩,
   ⟨{ act with ho := { act.ho with ld := { busy := true, kind := 2, fate := some (0, [], false), got := List.replicate 10 0 } } },
     0, [], false, by decide +kernel⟩,
   ⟨{ act with ho := { act.ho with ld := { busy := true, kind := 2, fate := some (1, [], true) } } }, 1, [], true,
     by decide +kernel⟩,
   ⟨{ act with ho := { act.ho with ld := { busy := true, kind := 2 } } }, by decide +kernel⟩,
   ⟨act, 255, [], false, by decide +kernel⟩⟩

/-- Meets the hypotheses of `Obligations.CommitsAreRequestedAndDecided`, clause by clause. -/
theorem witness_CommitsAreRequestedAndDecided :
    (∃ (s : State) (who : Who) (d : Word), s.ready who ∧ bit d.toNat 16 = true ∧ s.ho.phase ≠ 0) ∧
    (∃ (s : State) (who : Who) (d : Word), s.ready who ∧ bit d.toNat 16 = false) ∧
    (∃ (s : State) (who : Who) (d : Word), s.ready who ∧ bit d.toNat 16 = true ∧ s.ho.phase = 0 ∧ s.ho.ld.busy = false ∧
      s.get Reg.HO_SHADOW_taint ≠ 0) ∧
    (∃ (s : State) (who : Who) (d : Word), s.ready who ∧ bit d.toNat 16 = true ∧ s.ho.phase = 0 ∧ s.ho.ld.busy = false ∧
      s.get Reg.HO_SHADOW_taint = 0) ∧
    (∃ (s : State) (who : Who), s.ready who ∧ s.ho.phase = 0 ∧ s.ho.ld.busy = false) ∧
    (∃ (s : State) (who : Who), s.ready who ∧ s.ho.phase ≠ 0) ∧
    (∃ (s : State) (who : Who), s.ready who ∧ s.ho.phase = 0 ∧ s.ho.ld.busy = true) ∧
    (∃ (s : State) (who : Who) (d : Word), s.ready who ∧ bit d.toNat 1 = false ∧ bit d.toNat 2 = true) ∧
    (∃ (s : State) (who : Who) (d : Word), s.ready who ∧ bit d.toNat 1 = false ∧ bit d.toNat 2 = false ∧
      s.get Reg.HO_CTRL_require_sig = 1 ∧ s.secAuth = false) :=
  ⟨⟨{ act with ho := { act.ho with phase := 2 } }, .steward, 0x10000, by unfold State.ready; decide +kernel⟩,
   ⟨act, .steward, 0, by unfold State.ready; decide +kernel⟩,
   ⟨act.put Reg.HO_SHADOW_taint 1, .steward, 0x1FFFF, by unfold State.ready; decide +kernel⟩,
   ⟨act, .steward, 0x1FFFF, by unfold State.ready; decide +kernel⟩,
   ⟨act, .steward, by unfold State.ready; decide +kernel⟩,
   ⟨{ act with ho := { act.ho with phase := 1 } }, .steward, by unfold State.ready; decide +kernel⟩,
   ⟨{ act with ho := { act.ho with ld := { busy := true } } }, .steward, by unfold State.ready; decide +kernel⟩,
   ⟨act, .steward, 4, by unfold State.ready; decide +kernel⟩,
   ⟨act.put Reg.HO_CTRL_require_sig 1, .steward, 0, by unfold State.ready; decide +kernel⟩⟩

/-- Meets the hypotheses of `Obligations.DrainsSwapsAndCopyBacks`, clause by clause. -/
theorem witness_DrainsSwapsAndCopyBacks :
    (∃ (s : State), s.active = true ∧ s.ho.phase = 1 ∧ s.drained = true ∧ s.cyc ≤ s.drainLimit) ∧
    (∃ (s : State), ((∀ q, ∀ f ∈ (s.queue q).flights, f.held = false)) ∧ s.active = true ∧ s.ho.phase = 1 ∧ s.drained = true ∧
      s.cyc ≤ s.drainLimit) ∧
    (∃ (s : State), s.active = true ∧ s.ho.phase = 1 ∧ s.drained = false) ∧
    (∃ (s : State), ((∀ q, ∀ f ∈ (s.queue q).flights, f.held = false)) ∧ s.active = true ∧ s.ho.phase = 1 ∧ s.drained = false) ∧
    (∃ (s : State), s.active = true ∧ s.ho.phase = 2) ∧
    (∃ (s : State) (b : BitVec 20), s.pendOf b.toNat = none) ∧
    (∃ (s : State) (b : BitVec 20) (p : PendCopy), s.active = true ∧ s.pendOf b.toNat = some p) ∧
    (∃ (s : State) (b : BitVec 20) (p : PendCopy), s.active = true ∧ s.pendOf b.toNat = some p) ∧
    (∃ (s : State) (b : BitVec 20) (p : PendCopy), s.active = true ∧ s.pendOf b.toNat = some p ∧ p.content.valid = true ∧
      (s.entry? p.base).isSome = true) :=
  ⟨⟨{ act with ho := { act.ho with phase := 1 } }, by decide +kernel⟩,
   ⟨{ act with ho := { act.ho with phase := 1 } }, noFlights _ (by decide +kernel), by decide +kernel⟩,
   ⟨{ act with ho := { act.ho with phase := 1, swapQ := 1 }, queues := { tail := 1, hoistSwap := true } :: List.replicate 15 {} },
     by decide +kernel⟩,
   ⟨{ act with ho := { act.ho with phase := 1, swapQ := 1 }, queues := { tail := 1, hoistSwap := true } :: List.replicate 15 {} },
     noFlights _ (by decide +kernel), by decide +kernel⟩,
   ⟨{ act with ho := { act.ho with phase := 2 } }, by decide +kernel⟩,
   ⟨act, 0, by decide +kernel⟩,
   ⟨{ act with ho := { act.ho with pend := [{ base := 0x61000, stamp := 1, from_ := 2, words := [] }] } }, 0x61000,
     { base := 0x61000, stamp := 1, from_ := 2, words := [] }, by decide +kernel⟩,
   ⟨{ act with ho := { act.ho with pend := [{ base := 0x61000, stamp := 1, from_ := 2, words := [] }] } }, 0x61000,
     { base := 0x61000, stamp := 1, from_ := 2, words := [] }, by decide +kernel⟩,
   ⟨{ actT with ho := { actT.ho with pend := [{ base := 0x61000, stamp := 1, from_ := 2, words := [(0, 0x80000000)] }] }, red := { actT.red with entries := [entry0] } },
     0x61000, { base := 0x61000, stamp := 1, from_ := 2, words := [(0, 0x80000000)] }, by decide +kernel⟩⟩

/-- Meets the hypotheses of `Obligations.TimeRegistersStepFleetTime`, clause by clause. -/
theorem witness_TimeRegistersStepFleetTime :
    (∃ (s : State) (who : Who) (d : Word), s.ready who ∧ s.servo = false) ∧
    (∃ (s : State) (who : Who) (d : Word) (h : Nat), s.ready who ∧ s.servo = false ∧ h < 2 ^ 32 ∧
      (s.holding (Who.num who)).wr = some (Reg.TB_OFF_LO, h)) ∧
    (∃ (s : State) (who : Who) (d : Word), s.ready who ∧ s.servo = true) ∧
    (∃ (s : State) (who : Who) (d : Word), s.ready who ∧ s.tray = true ∧ d.toNat % 2 ^ 30 < 1000000000) ∧
    (∃ (s : State) (who : Who) (d : Word), s.ready who ∧ s.tray = true ∧ 1000000000 ≤ d.toNat % 2 ^ 30) ∧
    (∃ (s : State) (who : Who) (d : Word), s.ready who ∧ bit d.toNat 1 = false) ∧
    (∃ (s : State) (who : Who) (d : Word), s.ready who ∧ bit d.toNat 1 = true ∧ s.get Reg.TB_ALIGN_state = 2) :=
  ⟨⟨act.put Reg.TB_CTRL_servo 0, .steward, 0, by unfold State.ready; decide +kernel⟩,
   ⟨(act.put Reg.TB_CTRL_servo 0).setHolding 14 fun x => { x with wr := some (Reg.TB_OFF_LO, 7) }, .steward, 0, 7,
     by unfold State.ready; decide +kernel⟩,
   ⟨act, .steward, 0, by unfold State.ready; decide +kernel⟩,
   ⟨actT, .steward, 999999999, by unfold State.ready; decide +kernel⟩,
   ⟨actT, .steward, 1000000000, by unfold State.ready; decide +kernel⟩,
   ⟨act, .steward, 1, by unfold State.ready; decide +kernel⟩,
   ⟨act.put Reg.TB_ALIGN_state 2, .steward, 2, by unfold State.ready; decide +kernel⟩⟩

/-- Meets the hypotheses of `Obligations.EdgesCapturesAndPulses`, clause by clause. -/
theorem witness_EdgesCapturesAndPulses :
    (∃ (s : State) (k : BitVec 4), s.aonUp = true ∧ s.tray = true ∧ s.duty = 3 ∧ s.tb.todArmed = false) ∧
    (∃ (s : State) (k : BitVec 4), (s.tray = false ∨ s.duty ≠ 3)) ∧
    (∃ (s : State) (i : Fin 4) (k : BitVec 4), s.get (Reg.TB_CAP_CTRL_k_en i.val) = 1 ∧ s.active = true ∧
      bit s.tb.capUnread i.val = false ∧ s.get (Reg.TB_CAP_CTRL_k_irq i.val) = 0) ∧
    (∃ (s : State) (i : Fin 4) (k : BitVec 4), s.get (Reg.TB_CAP_CTRL_k_en i.val) = 0) ∧
    (∃ (s : State) (i : Fin 4) (d : Nat), (s.pulse i.val).next = some d ∧ s.pulsePer i.val = 0 ∧
      s.get (Reg.TB_PLS_CTRL_k_irq i.val) = 0 ∧ s.tb.pulses.length = 4) ∧
    (∃ (s : State) (i : Fin 4) (d : Nat), (s.pulse i.val).next = some d ∧ s.pulsePer i.val ≠ 0 ∧ s.reached d = true ∧
      s.get (Reg.TB_PLS_CTRL_k_fine i.val) = 1 ∧ s.get (Reg.TB_PLS_CTRL_k_irq i.val) = 0 ∧ s.tb.pulses.length = 4) ∧
    (∃ (s : State) (i : Fin 4), (s.pulse i.val).next = none) :=
  ⟨⟨actT.put Reg.GL_DUTY_duty 3, 0, by decide +kernel⟩,
   ⟨act, 0, by decide +kernel⟩,
   ⟨act.put (Reg.TB_CAP_CTRL_k_en 3) 1, 3, 15, by decide +kernel⟩,
   ⟨act, 0, 0, by decide +kernel⟩,
   ⟨{ act with tb := { act.tb with pulses := [{ next := some 100 }, {}, {}, {}] } }, 0, 100, by decide +kernel⟩,
   ⟨((act.wr (Reg.TB_PLS_CTRL_k 0) 0).put (Reg.TB_PLS_CTRL_k_fine 0) 1).put (Reg.TB_PLS_PER_LO_k_value 0) 1 |> fun t => { t with tb := { t.tb with pulses := [{ next := some 0 }, {}, {}, {}] } },
     0, 0, by decide +kernel⟩,
   ⟨act, 0, by decide +kernel⟩⟩

/-- Meets the hypotheses of `Obligations.ExchangesAndMisses`, clause by clause. -/
theorem witness_ExchangesAndMisses :
    (∃ (s : State), s.active = true ∧ s.drainHas 3 = false ∧ s.servo = true ∧ s.get Reg.TB_SYNC_CFG_period_us ≠ 0 ∧
      (s.get Reg.TB_PARENT_kind = 1 ∨ s.get Reg.TB_PARENT_kind = 2)) ∧
    (∃ (s : State) (e : Exchange), s.tb.exch = some e) ∧
    (∃ (s : State), s.get Reg.TB_ALIGN_state = 2 ∧ s.get Reg.TB_SYNC_CFG_miss ≠ 0 ∧ s.windowUs ≠ 0 ∧ s.freeRoot = false) ∧
    (∃ (s : State), (s.get Reg.TB_ALIGN_state = 0 ∨ s.get Reg.TB_ALIGN_state = 3)) ∧
    (∃ (s : State), (s.get Reg.TB_ALIGN_state = 1 ∨ s.get Reg.TB_ALIGN_state = 2) ∧ s.get Reg.TB_SYNC_CFG_miss ≠ 0 ∧
      s.windowUs ≠ 0 ∧ s.freeRoot = false) ∧
    (∃ (s : State), s.lapNow ≠ s.tb.lap ∧ s.tray = true ∧ s.duty = 3) ∧
    (∃ (s : State), s.lapNow ≠ s.tb.lap ∧ (s.tray = false ∨ s.duty ≠ 3)) ∧
    (∃ (s : State), s.lapNow = s.tb.lap) :=
  ⟨⟨(act.put Reg.TB_PARENT_kind 1).put Reg.TB_SYNC_CFG_period_us 1, by decide +kernel⟩,
   ⟨{ act with tb := { act.tb with exch := some { id := 1, t1 := none, since := 0 } } }, { id := 1, t1 := none, since := 0 },
     by decide +kernel⟩,
   ⟨((((act.put Reg.TB_PARENT_kind 1).put Reg.TB_ALIGN_state 2).put Reg.TB_SYNC_CFG_miss 1).put Reg.TB_SYNC_CFG_period_us 1),
     by decide +kernel⟩,
   ⟨act.put Reg.TB_ALIGN_state 3, by decide +kernel⟩,
   ⟨((((act.put Reg.TB_PARENT_kind 1).put Reg.TB_ALIGN_state 2).put Reg.TB_SYNC_CFG_miss 1).put Reg.TB_SYNC_CFG_period_us 1),
     by decide +kernel⟩,
   ⟨{ actT.put Reg.GL_DUTY_duty 3 with tb := { actT.tb with lap := 255 } }, by decide +kernel⟩,
   ⟨{ act with tb := { act.tb with lap := 255 } }, by decide +kernel⟩,
   ⟨actT.put Reg.GL_DUTY_duty 3, by decide +kernel⟩⟩

/-- Meets the hypotheses of `Obligations.SensorsDroopsAndPmbus`, clause by clause. -/
theorem witness_SensorsDroopsAndPmbus :
    (∃ (s : State) (n : BitVec 8) (v : BitVec 16), s.aonUp = true ∧ s.get (Reg.PM_SN_CFG_n_kind n.toNat) = 0) ∧
    (∃ (s : State) (n : BitVec 8) (v : BitVec 16), s.aonUp = true ∧ 1 ≤ s.get (Reg.PM_SN_CFG_n_kind n.toNat) ∧
      s.get (Reg.PM_SN_CFG_n_kind n.toNat) ≤ 5 ∧
      sensorNext (s.get (Reg.PM_SN_VAL_n_state n.toNat)) (toSigned 16 v.toNat) (toSigned 16 (s.get (Reg.PM_SN_THR_n_warn n.toNat))) (toSigned 16 (s.get (Reg.PM_SN_THR_n_crit n.toNat))) (s.get (Reg.PM_SN_CFG_n_hyst n.toNat)) = s.get (Reg.PM_SN_VAL_n_state n.toNat)) ∧
    (∃ (s : State) (n : BitVec 8) (v : BitVec 16) (x : Nat), s.aonUp = true ∧ 1 ≤ s.get (Reg.PM_SN_CFG_n_kind n.toNat) ∧
      s.get (Reg.PM_SN_CFG_n_kind n.toNat) ≤ 5 ∧ x ≠ s.get (Reg.PM_SN_VAL_n_state n.toNat) ∧ x < 2 ∧
      s.get (Reg.PM_SN_VAL_n_state n.toNat) < 3 ∧
      sensorNext (s.get (Reg.PM_SN_VAL_n_state n.toNat)) (toSigned 16 v.toNat) (toSigned 16 (s.get (Reg.PM_SN_THR_n_warn n.toNat))) (toSigned 16 (s.get (Reg.PM_SN_THR_n_crit n.toNat))) (s.get (Reg.PM_SN_CFG_n_hyst n.toNat)) = x) ∧
    (∃ (s : State) (k : Fin 16), s.aonUp = true) ∧
    (∃ (s : State), s.aonUp = true ∧ s.tray = true ∧ s.get Reg.PM_PB_CFG_vin_en = 1 ∧ s.get Reg.PM_PB_CFG_poll_us ≠ 0 ∧
      s.pb.cur = none ∧ s.pb.alertDue = false) ∧
    (∃ (s : State), s.aonUp = true ∧ s.tray = true ∧ s.pb.cur = none) ∧
    (∃ (s : State) (who : Who) (d : Word), s.ready who ∧ s.tray = true ∧ pmbusCodes.contains (bits d.toNat 8 8) = false) ∧
    (∃ (s : State) (who : Who) (d : Word), s.ready who ∧ s.tray = true ∧ pmbusCodes.contains (bits d.toNat 8 8) = true ∧
      bit d.toNat 18 = true ∧ s.get Reg.PM_PB_CMD_go = 0 ∧ s.pb.cur = none ∧ s.pb.alertDue = false ∧ s.pb.vinDue = false) ∧
    (∃ (s : State) (k : PbKind), s.aonUp = true ∧ s.pb.cur = some k ∧ s.pb.tries < 3) ∧
    (∃ (s : State) (v : BitVec 16), s.aonUp = true ∧ s.pb.paging = false ∧ s.pb.cur = some .fw ∧ s.pb.alertDue = false ∧
      s.pb.vinDue = false ∧ s.pb.fwDue = false ∧ s.pb.code ≠ 0x03) ∧
    (∃ (s : State) (v : BitVec 16), s.aonUp = true ∧ s.pb.paging = false ∧ s.pb.cur = some .alert ∧ s.pb.alertDue = false ∧
      s.pb.vinDue = false ∧ s.pb.fwDue = false) ∧
    (∃ (s : State) (v : BitVec 16) (k : PbKind), s.aonUp = true ∧ s.pb.paging = true ∧ s.pb.cur = some k) :=
  ⟨⟨act, 0, 0, by decide +kernel⟩,
   ⟨(((act.put (Reg.PM_SN_CFG_n_kind 255) 5).put (Reg.PM_SN_THR_n_warn 255) 10).put (Reg.PM_SN_THR_n_crit 255) 20).put (Reg.PM_SN_VAL_n_state 255) 0,
     255, 9, by decide +kernel⟩,
   ⟨(((act.put (Reg.PM_SN_CFG_n_kind 255) 1).put (Reg.PM_SN_THR_n_warn 255) 10).put (Reg.PM_SN_THR_n_crit 255) 20).put (Reg.PM_SN_VAL_n_state 255) 0,
     255, 10, 1, by decide +kernel⟩,
   ⟨act, 0, by decide +kernel⟩,
   ⟨(actT.put Reg.PM_PB_CFG_vin_en 1).put Reg.PM_PB_CFG_poll_us 1, by decide +kernel⟩,
   ⟨actT, by decide +kernel⟩,
   ⟨actT, .steward, 0x0100, by unfold State.ready; decide +kernel⟩,
   ⟨actT, .steward, 0x48800, by unfold State.ready; decide +kernel⟩,
   ⟨{ actT with pb := { cur := some .fw, tries := 2 } }, .fw, by decide +kernel⟩,
   ⟨{ actT with pb := { cur := some .fw, code := 0x88 } }, 0, by decide +kernel⟩,
   ⟨{ actT with pb := { cur := some .alert } }, 0, by decide +kernel⟩,
   ⟨{ actT with pb := { cur := some .fw, paging := true } }, 0, .fw, by decide +kernel⟩⟩

/-- Meets the hypotheses of `Obligations.TheThrottleHandshake`, clause by clause. -/
theorem witness_TheThrottleHandshake :
    (∃ (s : State), s.aonUp = true ∧ s.thr.busy = true ∧ s.thr.req = true) ∧
    (∃ (s : State), s.aonUp = true ∧ s.thr.busy = true ∧ s.thr.req = false ∧ s.thr.newest = none) ∧
    (∃ (s : State) (l : Nat), s.aonUp = true ∧ s.thr.busy = true ∧ s.thr.req = false ∧ s.thr.newest = some l) ∧
    (∃ (s : State) (c : Nat), s.aonUp = true ∧ s.thr.lowSince = some c ∧ s.thr.busy = false) ∧
    (∃ (s : State), s.aonUp = true ∧ s.thr.busy = true ∧ s.thr.req = true ∧ s.thr.lateRec = false) ∧
    (∃ (s : State) (l : BitVec 3), s.aonUp = true ∧ l.toNat = s.thr.level) ∧
    (∃ (s : State) (l : BitVec 3), s.aonUp = true ∧ l.toNat ≠ s.thr.level) :=
  ⟨⟨{ act with thr := { busy := true, req := true } }, by decide +kernel⟩,
   ⟨{ act with thr := { busy := true } }, by decide +kernel⟩,
   ⟨{ act with thr := { busy := true, newest := some 3 } }, 3, by decide +kernel⟩,
   ⟨{ act with thr := { lowSince := some 5 } }, 5, by decide +kernel⟩,
   ⟨{ act with thr := { busy := true, req := true } }, by decide +kernel⟩,
   ⟨act, 0, by decide +kernel⟩,
   ⟨act, 7, by decide +kernel⟩⟩

/-- Meets the hypotheses of `Obligations.CountersCountTheirInputs`, clause by clause. -/
theorem witness_CountersCountTheirInputs :
    (∃ (s : State) (v : BitVec 1024), s.active = true) ∧
    (∃ (s : State) (v : BitVec 1024), s.active = false) ∧
    (∃ (s : State), s.stopped = true ∧ s.evEnabled ≠ 0) ∧
    (∃ (s : State), (s.stopped = false ∨ s.evEnabled = 0)) ∧
    (∃ (s : State) (v : BitVec 1024), s.active = true) :=
  ⟨⟨act, 0, by decide +kernel⟩,
   ⟨inState act .sleep, 0, by decide +kernel⟩,
   ⟨inState act .sleep, by decide +kernel⟩,
   ⟨act, by decide +kernel⟩,
   ⟨act, 0, by decide +kernel⟩⟩

/-- Meets the hypotheses of `Obligations.TheBuntingAndTheMonitors`, clause by clause. -/
theorem witness_TheBuntingAndTheMonitors :
    (∃ (s : State) (v : BitVec 512), s.pw.aonRst = false ∧ s.pw.st ≠ .off) ∧
    (∃ (s : State) (v : BitVec 512), (s.pw.aonRst = true ∨ s.pw.st = .off)) ∧
    (∃ (s : State) (v : BitVec 1024), s.active = true) :=
  ⟨⟨act, 0, by decide +kernel⟩,
   ⟨inState act .off, 0, by decide +kernel⟩,
   ⟨act, 0, by decide +kernel⟩⟩

/-- Meets the hypotheses of `Obligations.PlansLatchAndBanksDrain`, clause by clause. -/
theorem witness_PlansLatchAndBanksDrain :
    (∃ (s : State) (p : Fin 16), s.active = true ∧ s.planFires p.val = false) ∧
    (∃ (s : State) (p : Fin 16) (u : State), u = s.passToFleet (s.planNext p.val) ∧ s.active = true ∧
      s.planFires p.val = true ∧ u.sinceFleet (s.planNext p.val) < s.planPer p.val ∧ s.planHeld = false) ∧
    (∃ (s : State) (p : Fin 16) (u : State), u = s.passToFleet (s.planNext p.val) ∧ s.active = true ∧
      s.planFires p.val = true ∧ u.sinceFleet (s.planNext p.val) < s.planPer p.val ∧ s.planHeld = false ∧ s.bankFree = true) ∧
    (∃ (s : State) (p : Fin 16) (u : State), u = s.passToFleet (s.planNext p.val) ∧ s.active = true ∧
      s.planFires p.val = true ∧ u.sinceFleet (s.planNext p.val) < s.planPer p.val ∧ s.planHeld = false ∧ s.bankFree = true ∧
      s.areaRefuses p.val (recLen ((if s.get (Reg.CF_PLAN_CFG_p_kind p.val) = 1 then 16 else 8) * s.get (Reg.CF_PLAN_CFG_p_len p.val))) = false) ∧
    (∃ (s : State) (p : Fin 16) (u : State), u = s.passToFleet (s.planNext p.val) ∧ s.active = true ∧
      s.planFires p.val = true ∧ u.sinceFleet (s.planNext p.val) < s.planPer p.val ∧ s.planHeld = false ∧ s.bankFree = false) ∧
    (∃ (s : State) (p : Nat) (due : Nat), s.bankFree = false) ∧
    (∃ (s : State), s.active = true ∧ s.cf.banks = []) ∧
    (∃ (s : State) (b : Bank) (bs : List Bank), ((∀ p, b.plan = some p → p < 16)) ∧ s.active = true ∧ s.cf.banks = b :: bs ∧
      s.cf.waiting = [] ∧ s.cf.snapWait = 0 ∧ b.area < 16) ∧
    (∃ (s : State) (k : Strike), s.active = true ∧ firstStrike s.tb.strikes = some k) ∧
    (∃ (s : State) (k : Strike), s.active = true ∧ firstStrike s.tb.strikes = some k) ∧
    (∃ (s : State), s.active = true ∧ s.tb.strikes = []) :=
  ⟨⟨act, 0, by decide +kernel⟩,
   ⟨(((act.put (Reg.CF_PLAN_IVL_p_us 15) 2).put (Reg.CF_PLAN_CFG_p_len 15) 1).put (Reg.CF_AREA_p_size 15) 1), 15, _, rfl,
     by decide +kernel⟩,
   ⟨(((act.put (Reg.CF_PLAN_IVL_p_us 15) 2).put (Reg.CF_PLAN_CFG_p_len 15) 1).put (Reg.CF_AREA_p_size 15) 1), 15, _, rfl,
     by decide +kernel⟩,
   ⟨(((act.put (Reg.CF_PLAN_IVL_p_us 15) 2).put (Reg.CF_PLAN_CFG_p_len 15) 1).put (Reg.CF_AREA_p_size 15) 64), 15, _, rfl,
     by decide +kernel⟩,
   ⟨{ (((act.put (Reg.CF_PLAN_IVL_p_us 15) 2).put (Reg.CF_PLAN_CFG_p_len 15) 1).put (Reg.CF_AREA_p_size 15) 1) with cf := { act.cf with banks := List.replicate 4 (bankOf none) } },
     15, _, rfl, by decide +kernel⟩,
   ⟨{ act with cf := { act.cf with banks := List.replicate 64 { area := 0, kind := 0, id := (0, 0), flags := 0, first := 0, count := 0, time := 0, gen := 0, ents := [] } } },
     0, 0, by decide +kernel⟩,
   ⟨act, by decide +kernel⟩,
   ⟨{ act with cf := { act.cf with banks := [bankOf (some 15)] } }, bankOf (some 15), [], fun p h => by cases h; decide,
     by decide +kernel⟩,
   ⟨{ act with tb := { act.tb with strikes := [strike 100] } }, strike 100, by decide +kernel⟩,
   ⟨{ act with tb := { act.tb with strikes := [strike 100] } }, strike 100, by decide +kernel⟩,
   ⟨act, by decide +kernel⟩⟩

/-- Meets the hypotheses of `Obligations.ScoresAreServedAndBounded`, clause by clause. -/
theorem witness_ScoresAreServedAndBounded :
    (∃ (s : State) (q : Fin 16) (j : ScoreJob), s.active = true ∧ ((s.sc.jobs.take 4).find? fun j => j.q == q.val) = some j ∧
      j.next + 1 < j.count) ∧
    (∃ (s : State) (q : Fin 16) (j : ScoreJob) (f : Flight), s.active = true ∧
      ((s.sc.jobs.take 4).find? fun j => j.q == q.val) = some j ∧ j.next + 1 = j.count ∧ f ∈ (s.queue q.val).flights ∧
      f.seq = j.seq ∧ f.done = none) ∧
    (∃ (s : State) (q : Fin 16), s.active = true ∧ ((∀ j ∈ s.sc.jobs, j.q ≠ q.val))) ∧
    (∃ (s : State) (q : Fin 16), s.active = true ∧ ((∀ f ∈ (s.queue q.val).flights, cmdOp f.cmd = 3 → f.done ≠ none))) ∧
    (∃ (s : State) (q : Fin 16) (f : Flight) (due : Nat), due = (f.at_ + s.get Reg.SC_BOUND_us * 1600) % 2 ^ 64 ∧
      s.active = true ∧ ((s.queue q.val).flights.find? fun f => cmdOp f.cmd == 3 && f.done.isNone) = some f) :=
  ⟨⟨{ act with sc := { act.sc with jobs := [{ q := 0, seq := 0, model := 0, count := 2, src := 0, dst := 0 }] } }, 0,
     { q := 0, seq := 0, model := 0, count := 2, src := 0, dst := 0 }, by decide +kernel⟩,
   ⟨{ withFlight act (flying (cmd [3]) none) with sc := { act.sc with jobs := [{ q := 0, seq := 0, model := 0, count := 1, src := 0, dst := 0 }] } },
     0, { q := 0, seq := 0, model := 0, count := 1, src := 0, dst := 0 }, flying (cmd [3]) none, by decide +kernel⟩,
   ⟨act, 0, by decide +kernel⟩,
   ⟨act, 0, by decide +kernel⟩,
   ⟨{ withFlight act (flying (cmd [3]) none) with sc := { act.sc with jobs := [{ q := 0, seq := 0, model := 0, count := 2, src := 0, dst := 0 }] } },
     0, flying (cmd [3]) none, _, rfl, by decide +kernel⟩⟩

/-- Meets the hypotheses of `Obligations.TapBeatsAndDrops`, clause by clause. -/
theorem witness_TapBeatsAndDrops :
    (∃ (s : State) (m : Fin 16) (gs : List (Option Granule)), s.active = true ∧ s.mtEn m.val = true ∧ s.tray = false ∧
      ((∀ g ∈ gs, g = none))) ∧
    (∃ (s : State) (m : Fin 16) (gs : List (Option Granule)), ((∀ g ∈ gs, g = none))) ∧
    (∃ (s : State) (m : Fin 16), s.active = true ∧ s.mtEn m.val = true ∧ s.tray = false ∧ s.ck.trackers = []) ∧
    (∃ (s : State) (m : Fin 16), s.active = true ∧ s.mtEn m.val = true ∧ s.tray = false ∧
      ((∀ x ∈ s.ck.trackers, x.err = none))) ∧
    (∃ (s : State) (m : Fin 16) (g : Granule), s.active = true ∧ s.mtEn m.val = true ∧ s.tray = false ∧ g.err = false ∧
      s.regionOf (g.gaddr.toNat * 256) = none) ∧
    (∃ (s : State) (m : Fin 16) (g : Granule) (r : Nat) (d : Nat) (f : Nat) (j : Nat) (k : Nat), s.active = true ∧
      s.mtEn m.val = true ∧ s.tray = false ∧ g.err = false ∧ s.regionOf (g.gaddr.toNat * 256) = some r ∧ carriedOf g = [k] ∧
      s.sectorAt r ((g.gaddr.toNat * 256 - s.rgBase r) / 256) k = some (d, f, j) ∧ s.dirOn d g.wr = true ∧
      s.misrouted m.val (g.gaddr.toNat * 256) r = false ∧ s.get Reg.CK_TRK_AGE_us ≠ 0 ∧ s.blindFrame d f = false ∧
      s.ck.trackers = []) ∧
    (∃ (s : State) (m : Fin 16) (gs : List (Option Granule)) (b : Bool), (s.active = false ∨ s.mtEn m.val = false ∨ s.tray = true)) ∧
    (∃ (s : State) (l : Fin 8) (i : Bool) (d : List Byte) (p : BitVec 17) (e : Bool), s.active = true ∧ s.ltEn l.val = true ∧
      s.tray = false ∧ s.ck.links.length = 16 ∧ (s.link (2 * l.val + if i then 1 else 0)).opened = false) ∧
    (∃ (s : State) (l : Fin 8) (i : Bool) (d : List Byte) (p : BitVec 17) (e : Bool), s.active = true ∧ s.ltEn l.val = true ∧
      s.tray = false ∧ s.ck.links.length = 16 ∧ (s.link (2 * l.val + if i then 1 else 0)).opened = true ∧ d ≠ []) ∧
    (∃ (s : State) (l : Fin 8) (i : Bool) (a : Bool) (b : Bool) (d : List Byte) (p : BitVec 17) (e : Bool) (c : Bool), (s.active = false ∨ s.ltEn l.val = false ∨ s.tray = true)) :=
  ⟨⟨(act.put (Reg.CK_MT_CFG_m_en 15) 1), 15, [none, none], by decide +kernel⟩,
   ⟨act, 0, [none], by decide +kernel⟩,
   ⟨(act.put (Reg.CK_MT_CFG_m_en 15) 1), 15, by decide +kernel⟩,
   ⟨(act.put (Reg.CK_MT_CFG_m_en 15) 1), 15, by decide +kernel⟩,
   ⟨(act.put (Reg.CK_MT_CFG_m_en 15) 1), 15, { gaddr := 0, wr := true, smask := 1, data := [], err := false },
     by decide +kernel⟩,
   ⟨((((((act.put (Reg.CK_MT_CFG_m_en 15) 1)).put (Reg.CK_RG_CFG_r_wr 0) 1).put (Reg.CK_RG_CFG_r_layout 0) 1).put (Reg.CK_TRK_AGE_us) 1).put (Reg.CK_RG_SIZE_r_granules 0) 16),
     15, { gaddr := 0, wr := true, smask := 1, data := [], err := false }, 0, 0, 0, 0, 0, by decide +kernel⟩,
   ⟨actT, 0, [], false, by decide +kernel⟩,
   ⟨act.put (Reg.CK_LT_CFG_l_en 7) 1, 7, false, [], 0, false, by decide +kernel⟩,
   ⟨{ act.put (Reg.CK_LT_CFG_l_en 7) 1 with ck := { act.ck with links := List.replicate 16 { opened := true } } }, 7, false,
     [0], 0, false, by decide +kernel⟩,
   ⟨actT, 0, false, false, false, [], 0, false, false, by decide +kernel⟩⟩

/-- Meets the hypotheses of `Obligations.TraversalsTaintsAndTheJackEndInTime`, clause by clause. -/
theorem witness_TraversalsTaintsAndTheJackEndInTime :
    (∃ (s : State) (r : Fin 64) (f : BitVec 52) (w : Bool) (x : Tracker), s.active = true ∧
      (s.ck.trackers.find? fun t => t.region == r.val && t.frame == f.toNat && t.wr == w) = some x) ∧
    (∃ (s : State) (r : Fin 64) (f : BitVec 52) (w : Bool) (x : Tracker) (old : List Tracker), old = (s.ck.trackers.filter fun t => (t.region == r.val && t.frame == f.toNat && t.wr == w) && decide (t.firstAt + s.get Reg.CK_TRK_AGE_us * 100 ≤ max s.cyc (x.firstAt + s.get Reg.CK_TRK_AGE_us * 100))) ∧
      s.active = true ∧ (s.ck.trackers.find? fun t => t.region == r.val && t.frame == f.toNat && t.wr == w) = some x ∧
      ((∀ t ∈ s.ck.trackers, t.err = none))) ∧
    (∃ (s : State) (r : Fin 64) (f : BitVec 52) (w : Bool), s.active = true ∧ ((∀ t ∈ s.ck.trackers, ¬ (t.region = r.val ∧
      t.frame = f.toNat ∧ t.wr = w)))) ∧
    (∃ (s : State) (r : Fin 64) (f : BitVec 52) (w : Bool) (x : Tracker) (m : Nat) (c : Nat), s.active = true ∧
      (s.ck.trackers.find? fun t => t.region == r.val && t.frame == f.toNat && t.wr == w && t.err.isSome && !t.told) = some x ∧
      x.err = some (m, c)) ∧
    (∃ (s : State) (r : Fin 64) (f : BitVec 52) (w : Bool) (x : Tracker) (m : Nat) (c : Nat), s.active = true ∧
      (s.ck.trackers.find? fun t => t.region == r.val && t.frame == f.toNat && t.wr == w && t.err.isSome && !t.told) = some x ∧
      x.err = some (m, c)) ∧
    (∃ (s : State) (e : Fin 16) (x : TaintEntry), s.active = true ∧ s.ck.taint.length = 16 ∧
      s.ck.taint.getD e.val none = some x) ∧
    (∃ (s : State), s.active = true ∧ s.jackState = 1 ∧ s.ck.drainLate = false) ∧
    (∃ (s : State), (s.jackState ≠ 1 ∨ s.ck.drainLate = true)) :=
  ⟨⟨{ act with ck := { act.ck with trackers := [{ region := 63, frame := 5, wr := true, firstAt := 0 }] } }, 63, 5, true,
     { region := 63, frame := 5, wr := true, firstAt := 0 }, by decide +kernel⟩,
   ⟨{ act with ck := { act.ck with trackers := [{ region := 63, frame := 5, wr := true, firstAt := 0 }] } }, 63, 5, true,
     { region := 63, frame := 5, wr := true, firstAt := 0 }, _, rfl, by decide +kernel⟩,
   ⟨act, 0, 0, false, by decide +kernel⟩,
   ⟨{ act with ck := { act.ck with trackers := [{ region := 63, frame := 5, wr := true, firstAt := 0, err := some (3, 9) }] } },
     63, 5, true, { region := 63, frame := 5, wr := true, firstAt := 0, err := some (3, 9) }, 3, 9, by decide +kernel⟩,
   ⟨{ act with ck := { act.ck with trackers := [{ region := 63, frame := 5, wr := true, firstAt := 0, err := some (3, 9) }] } },
     63, 5, true, { region := 63, frame := 5, wr := true, firstAt := 0, err := some (3, 9) }, 3, 9, by decide +kernel⟩,
   ⟨{ act with ck := { act.ck with taint := List.replicate 15 none ++ [some { step := 1, sent := [], inc := false, last := 0 }] } },
     15, { step := 1, sent := [], inc := false, last := 0 }, by decide +kernel⟩,
   ⟨act.put Reg.XC_YJ_state 1, by decide +kernel⟩,
   ⟨act, by decide +kernel⟩⟩

/-- Meets the hypotheses of `Obligations.ChecksRunTilesToVerdicts`, clause by clause. -/
theorem witness_ChecksRunTilesToVerdicts :
    (∃ (s : State) (l : Fin 2) (r : TileRead) (j : CheckJob), s.active = true ∧ (s.xlane l.val).read = some r ∧
      (s.xlane l.val).job = some j ∧ r.again = false ∧ r.desc.isSome = true ∧ r.left = 0) ∧
    (∃ (s : State) (l : Fin 2) (r : TileRead) (j : CheckJob), s.active = true ∧ (s.xlane l.val).read = some r ∧
      (s.xlane l.val).job = some j ∧ r.again = false ∧ r.desc.isSome = true ∧ r.left = 0 ∧ r.unread = false) ∧
    (∃ (s : State) (l : Fin 2) (r : TileRead) (j : CheckJob) (a : Arb), s.active = true ∧ (s.xlane l.val).read = some r ∧
      s.readJob l.val true = some j ∧ s.xc.arb = some a ∧ r.again = true ∧ r.desc.isSome = true ∧ r.left = 0 ∧ a.lane ≠ l.val) ∧
    (∃ (s : State) (a : Arb) (r : TileRes) (p : TileRes) (j : CheckJob) (x : Nat × List Byte), s.active = true ∧
      s.xc.arb = some a ∧ a.stage = 2 ∧ a.res = some r ∧ (s.xlane a.lane).job = some j ∧ (s.xlane a.lane).tile = some x ∧
      (s.xlane a.lane).prim = some p) ∧
    (∃ (s : State) (a : Arb) (r : TileRes) (p : TileRes) (j : CheckJob) (x : Nat × List Byte), s.active = true ∧
      s.xc.arb = some a ∧ a.stage = 2 ∧ a.res = some r ∧ (s.xlane a.lane).job = some j ∧ (s.xlane a.lane).tile = some x ∧
      (s.xlane a.lane).prim = some p ∧ s.xc.arbQ = []) ∧
    (∃ (s : State), s.active = true ∧ s.xc.arb = none) ∧
    (∃ (s : State) (q : Fin 16) (f : Flight) (due : Nat), due = (f.at_ + s.get Reg.XC_BOUND_ms * 1600000) % 2 ^ 64 ∧
      s.active = true ∧ s.queues.length = 16 ∧
      ((s.queue q.val).flights.find? fun f => cmdOp f.cmd == 4 && f.done.isNone) = some f) ∧
    (∃ (s : State) (who : Who) (d : Word), s.ready who ∧ s.tray = false ∧ bit d.toNat 0 = true ∧ s.jackState = 1) ∧
    (∃ (s : State) (who : Who) (d : Word), s.ready who ∧ s.tray = false ∧ (bit d.toNat 0 = false ∨ s.jackState ≠ 1)) :=
  ⟨⟨{ act with xc := { act.xc with lanes := [{}, { job := some check0, tile := some (0, []), read := some { again := false, desc := some [], left := 0, startAt := 0, lastAt := 0 } }], arb := none } },
     1, { again := false, desc := some [], left := 0, startAt := 0, lastAt := 0 }, check0, by decide +kernel⟩,
   ⟨{ act with xc := { act.xc with lanes := [{}, { job := some check0, tile := some (0, []), read := some { again := false, desc := some [], left := 0, startAt := 0, lastAt := 0 } }], arb := none } },
     1, { again := false, desc := some [], left := 0, startAt := 0, lastAt := 0 }, check0, by decide +kernel⟩,
   ⟨{ act with xc := { act.xc with lanes := [{ job := some check0, tile := some (0, []), prim := some { sum := [], dig := none, changed := false, unver := false, unread := false } }, { read := some { again := true, desc := some [], left := 0, startAt := 0, lastAt := 0 } }], arb := some { lane := 0, started := true } } },
     1, { again := true, desc := some [], left := 0, startAt := 0, lastAt := 0 }, check0, { lane := 0, started := true },
     by decide +kernel⟩,
   ⟨{ act with xc := { act.xc with lanes := [{ job := some check0, tile := some (0, []), prim := some { sum := [], dig := none, changed := false, unver := false, unread := false } }, {}], arb := some { lane := 0, stage := 2, started := true, res := some { sum := [], dig := none, changed := false, unver := false, unread := false } } } },
     { lane := 0, stage := 2, started := true, res := some { sum := [], dig := none, changed := false, unver := false, unread := false } },
     { sum := [], dig := none, changed := false, unver := false, unread := false },
     { sum := [], dig := none, changed := false, unver := false, unread := false }, check0, (0, []), by decide +kernel⟩,
   ⟨{ act with xc := { act.xc with lanes := [{ job := some check0, tile := some (0, []), prim := some { sum := [], dig := none, changed := false, unver := false, unread := false } }, {}], arb := some { lane := 0, stage := 2, started := true, res := some { sum := [], dig := none, changed := false, unver := false, unread := false } } } },
     { lane := 0, stage := 2, started := true, res := some { sum := [], dig := none, changed := false, unver := false, unread := false } },
     { sum := [], dig := none, changed := false, unver := false, unread := false },
     { sum := [], dig := none, changed := false, unver := false, unread := false }, check0, (0, []), by decide +kernel⟩,
   ⟨act, by decide +kernel⟩,
   ⟨withFlight act (flying (cmd [4]) none), 0, flying (cmd [4]) none, _, rfl, by decide +kernel⟩,
   ⟨act.put Reg.XC_YJ_state 1, .steward, 1, by unfold State.ready; decide +kernel⟩,
   ⟨act, .steward, 1, by unfold State.ready; decide +kernel⟩⟩

/-- Meets the hypotheses of `Obligations.LanesTrainAndComeBack`, clause by clause. -/
theorem witness_LanesTrainAndComeBack :
    (∃ (s : State) (n : Fin 16), s.active = true ∧ s.hl.lanes.length = 16 ∧ (s.lane n.val).state = 0 ∧
      bit s.pw.laneRst n.val = false ∧ s.genLive = true ∧ n.val < s.laneCount) ∧
    (∃ (s : State) (n : Fin 16) (b : Bool), s.active = true ∧ ((s.lane n.val).state ≠ 0 ∨ b = false)) ∧
    (∃ (s : State) (n : Fin 16) (b : Bool), s.active = false ∧ s.laneAlive n.val = true) ∧
    (∃ (s : State) (n : Fin 16) (b : Bool), s.active = false ∧ s.laneAlive n.val = false) ∧
    (∃ (s : State) (n : Fin 16), s.active = true ∧ s.hl.lanes.length = 16 ∧ (s.lane n.val).state = 1) ∧
    (∃ (s : State) (n : Fin 16), s.active = true) ∧
    (∃ (s : State) (n : Fin 16), s.active = true ∧ s.hl.lanes.length = 16 ∧ (s.lane n.val).state = 2) ∧
    (∃ (s : State) (n : Fin 16), s.active = false ∧ s.laneAlive n.val = true) ∧
    (∃ (s : State) (n : Fin 16), (s.active = true ∨ s.laneAlive n.val = false) ∧ (s.lane n.val).state ≠ 2) ∧
    (∃ (s : State) (n : Fin 16), s.active = true ∧ s.hl.lanes.length = 16 ∧ (s.lane n.val).state = 3) ∧
    (∃ (s : State) (n : Fin 16), (s.lane n.val).state ≠ 3) :=
  ⟨⟨(act.put Reg.GL_PLACE_valid 1), 0, by decide +kernel⟩,
   ⟨act.setLane 15 fun l => { l with state := 2 }, 15, false, by decide +kernel⟩,
   ⟨inState act .sleep, 1, false, by decide +kernel⟩,
   ⟨inState act .sleep, 15, false, by decide +kernel⟩,
   ⟨act.setLane 15 fun l => { l with state := 1 }, 15, by decide +kernel⟩,
   ⟨act, 0, by decide +kernel⟩,
   ⟨act.setLane 15 fun l => { l with state := 2 }, 15, by decide +kernel⟩,
   ⟨inState act .sleep, 1, by decide +kernel⟩,
   ⟨act, 0, by decide +kernel⟩,
   ⟨act.setLane 15 fun l => { l with state := 3 }, 15, by decide +kernel⟩,
   ⟨act, 0, by decide +kernel⟩⟩

/-- Meets the hypotheses of `Obligations.LaneTimersAndSummaries`, clause by clause. -/
theorem witness_LaneTimersAndSummaries :
    (∃ (s : State) (n : Fin 16) (u : Unacked) (us : List Unacked), s.active = true ∧ s.hl.lanes.length = 16 ∧
      (s.lane n.val).state = 2 ∧ (s.lane n.val).unacked = u :: us ∧ (s.lane n.val).rplDue = none ∧
      ((∀ v ∈ (s.lane n.val).rpl, v.bseq ≠ u.bseq))) ∧
    (∃ (s : State) (n : Fin 16) (u : Unacked) (us : List Unacked), s.active = true ∧ s.hl.lanes.length = 16 ∧
      (s.lane n.val).state = 2 ∧ (s.lane n.val).unacked = u :: us ∧ (s.lane n.val).rplDue = none ∧
      ((∀ v ∈ (s.lane n.val).rpl, v.bseq ≠ u.bseq)) ∧ (s.lane n.val).tries < 8) ∧
    (∃ (s : State) (n : Fin 16) (u : Unacked) (us : List Unacked), s.active = true ∧ s.hl.lanes.length = 16 ∧
      (s.lane n.val).state = 2 ∧ (s.lane n.val).unacked = u :: us ∧ (s.lane n.val).rplDue = none ∧
      ((∀ v ∈ (s.lane n.val).rpl, v.bseq ≠ u.bseq)) ∧ 8 ≤ (s.lane n.val).tries) ∧
    (∃ (s : State) (n : Fin 16), (s.lane n.val).unacked = []) ∧
    (∃ (s : State) (n : Fin 16) (c : Nat) (e : QEntry) (left : Int), s.active = true ∧ s.hl.lanes.length = 16 ∧
      s.laneUp n.val = false ∧ s.laneUp (otherLane n.val) = false ∧ s.firstBound n.val = some (c, e, left)) ∧
    (∃ (s : State) (n : Fin 16), (s.laneUp n.val = true ∨ s.laneUp (otherLane n.val) = true ∨ s.firstBound n.val = none)) ∧
    (∃ (s : State), s.active = true ∧ s.get Reg.HL_ADM_SUM_us ≠ 0 ∧ ((∃ c ∈ s.hl.refs.counts, c ≠ 0))) ∧
    (∃ (s : State), (s.get Reg.HL_ADM_SUM_us = 0 ∨ (∀ c ∈ s.hl.refs.counts, c = 0))) :=
  ⟨⟨act.setLane 15 fun l => { l with state := 2, unacked := [{ bseq := 0, ent := { pen := [], ver := 0, src := .own, at_ := 0 }, at_ := 0 }] },
     15, { bseq := 0, ent := { pen := [], ver := 0, src := .own, at_ := 0 }, at_ := 0 }, [], by decide +kernel⟩,
   ⟨act.setLane 15 fun l => { l with state := 2, tries := 0, unacked := [{ bseq := 0, ent := { pen := [], ver := 0, src := .own, at_ := 0 }, at_ := 0 }] },
     15, { bseq := 0, ent := { pen := [], ver := 0, src := .own, at_ := 0 }, at_ := 0 }, [], by decide +kernel⟩,
   ⟨act.setLane 15 fun l => { l with state := 2, tries := 8, unacked := [{ bseq := 0, ent := { pen := [], ver := 0, src := .own, at_ := 0 }, at_ := 0 }] },
     15, { bseq := 0, ent := { pen := [], ver := 0, src := .own, at_ := 0 }, at_ := 0 }, [], by decide +kernel⟩,
   ⟨act, 0, by decide +kernel⟩,
   ⟨(act.setLane 0 fun l => { l with queues := [[{ pen := [], ver := 0, src := .own, at_ := 0 }], [], []] }), 0, 0,
     { pen := [], ver := 0, src := .own, at_ := 0 },
     ((((act.setLane 0 fun l => { l with queues := [[{ pen := [], ver := 0, src := .own, at_ := 0 }], [], []] })).firstBound 0).map fun x => x.2.2).getD 0,
     by decide +kernel⟩,
   ⟨act, 0, by decide +kernel⟩,
   ⟨{ act.put Reg.HL_ADM_SUM_us 1 with hl := { act.hl with refs := { counts := [0, 0, 1] } } }, by decide +kernel⟩,
   ⟨act, by decide +kernel⟩⟩

/-- Meets the hypotheses of `Obligations.AnEgressBoundarySendsOneBlock`, clause by clause. -/
theorem witness_AnEgressBoundarySendsOneBlock :
    (∃ (s : State) (w : State) (e : Fin 20), s.active = true ∧ w = s.need ∧ e.val < 16 ∧ bit s.pw.laneRst e.val = false ∧
      e.val < s.laneCount ∧ s.laneVerOk e.val = true ∧ s.hl.locals = [] ∧ s.hl.seen = []) ∧
    (∃ (s : State) (w : State) (e : Fin 20) (b : List Byte) (bs : List (List Byte)), w = s.need ∧ s.active = true ∧
      e.val < 16 ∧ bit s.pw.laneRst e.val = false ∧ e.val < s.laneCount ∧ s.laneVerOk e.val = true ∧ s.hl.locals = [] ∧
      s.hl.seen = [] ∧ (s.lane e.val).control = b :: bs ∧ penType b ≠ 0x005 ∧ penType b ≠ 0x006) ∧
    (∃ (s : State) (w : State) (e : Fin 20), w = s.need ∧ s.active = true ∧ e.val < 16 ∧ bit s.pw.laneRst e.val = false ∧
      e.val < s.laneCount ∧ s.laneVerOk e.val = true ∧ s.hl.locals = [] ∧ s.hl.seen = [] ∧ (s.lane e.val).control = [] ∧
      (s.lane e.val).state ≠ 2) ∧
    (∃ (s : State) (w : State) (e : Fin 20), w = s.need ∧ s.active = true ∧ e.val < 16 ∧ bit s.pw.laneRst e.val = false ∧
      e.val < s.laneCount ∧ s.laneVerOk e.val = true ∧ s.hl.locals = [] ∧ s.hl.seen = [] ∧ (s.lane e.val).control = [] ∧
      (s.lane e.val).state = 2 ∧ 31 ≤ (s.lane e.val).sinceLink) ∧
    (∃ (s : State) (w : State) (e : Fin 20) (k : Nat), w = s.need ∧ s.active = true ∧ e.val < 16 ∧
      bit s.pw.laneRst e.val = false ∧ e.val < s.laneCount ∧ s.laneVerOk e.val = true ∧ s.hl.locals = [] ∧ s.hl.seen = [] ∧
      (s.lane e.val).control = [] ∧ (s.lane e.val).state = 2 ∧ (s.lane e.val).sinceLink < 31 ∧ (s.lane e.val).rplDue = some k) ∧
    (∃ (s : State) (w : State) (e : Fin 20) (u : Unacked) (us : List Unacked), w = s.need ∧ s.active = true ∧ e.val < 16 ∧
      bit s.pw.laneRst e.val = false ∧ e.val < s.laneCount ∧ s.laneVerOk e.val = true ∧ s.hl.locals = [] ∧ s.hl.seen = [] ∧
      (s.lane e.val).control = [] ∧ (s.lane e.val).state = 2 ∧ (s.lane e.val).sinceLink < 31 ∧ (s.lane e.val).rplDue = none ∧
      (s.lane e.val).rpl = u :: us ∧ s.hl.lanes.length = 16) ∧
    (∃ (s : State) (w : State) (e : Fin 20), w = s.need ∧ s.active = true ∧ e.val < 16 ∧ bit s.pw.laneRst e.val = false ∧
      e.val < s.laneCount ∧ s.laneVerOk e.val = true ∧ s.hl.locals = [] ∧ s.hl.seen = [] ∧ (s.lane e.val).control = [] ∧
      (s.lane e.val).state = 2 ∧ (s.lane e.val).sinceLink < 31 ∧ (s.lane e.val).rplDue = none ∧ (s.lane e.val).rpl = [] ∧
      w.laneChoice e.val = none) ∧
    (∃ (s : State) (w : State) (e : Fin 20) (c : Nat) (p : QEntry), w = s.need ∧ s.active = true ∧ e.val < 16 ∧
      bit s.pw.laneRst e.val = false ∧ e.val < s.laneCount ∧ s.laneVerOk e.val = true ∧ s.hl.locals = [] ∧ s.hl.seen = [] ∧
      (s.lane e.val).control = [] ∧ (s.lane e.val).state = 2 ∧ (s.lane e.val).sinceLink < 31 ∧ (s.lane e.val).rplDue = none ∧
      (s.lane e.val).rpl = [] ∧ w.laneChoice e.val = some (c, p) ∧ (s.lane e.val).unacked.length < w.rplCap) ∧
    (∃ (s : State) (e : Fin 20), s.active = false ∧ s.laneAlive e.val = true) ∧
    (∃ (s : State) (e : Fin 20), s.active = false ∧ s.laneAlive e.val = false) :=
  ⟨⟨act, act, 0, by decide +kernel⟩,
   ⟨act.setLane 1 fun l => { l with control := [controlBlock 0 []] }, _, 1, controlBlock 0 [], [], rfl, by decide +kernel⟩,
   ⟨act, _, 1, rfl, by decide +kernel⟩,
   ⟨act.setLane 1 fun l => { l with state := 2, sinceLink := 31 }, _, 1, rfl, by decide +kernel⟩,
   ⟨act.setLane 1 fun l => { l with state := 2, sinceLink := 30, rplDue := some 65535 }, _, 1, 65535, rfl, by decide +kernel⟩,
   ⟨act.setLane 1 fun l => { l with state := 2, rpl := [{ bseq := 0, ent := { pen := [], ver := 0, src := .own, at_ := 0 }, at_ := 0 }] },
     _, 1, { bseq := 0, ent := { pen := [], ver := 0, src := .own, at_ := 0 }, at_ := 0 }, [], rfl, by decide +kernel⟩,
   ⟨act.setLane 1 fun l => { l with state := 2 }, _, 1, rfl, by decide +kernel⟩,
   ⟨act.setLane 1 fun l => { l with state := 2, limits := [4, 0, 0], queues := [[{ pen := [], ver := 0, src := .own, at_ := 0 }], [], []] },
     _, 1, 0, { pen := [], ver := 0, src := .own, at_ := 0 }, rfl, by decide +kernel⟩,
   ⟨inState act .sleep, 1, by decide +kernel⟩,
   ⟨inState act .sleep, 19, by decide +kernel⟩⟩

/-- Meets the hypotheses of `Obligations.BlocksAndFramesAreReceived`, clause by clause. -/
theorem witness_BlocksAndFramesAreReceived :
    (∃ (s : State) (n : Fin 16) (b : List Byte), b.length = 72 ∧ s.active = true ∧ s.laneAlive n.val = true ∧
      s.hl.locals = [] ∧ s.hl.seen = [] ∧ (s.need.lane n.val).state ≠ 1 ∧ (s.need.lane n.val).state ≠ 2) ∧
    (∃ (s : State) (n : Fin 16) (b : List Byte), b.length = 72 ∧ s.laneAlive n.val = false) ∧
    (∃ (s : State) (n : Fin 16) (b : List Byte), b.length = 72 ∧ s.active = false ∧ s.laneAlive n.val = true) ∧
    (∃ (s : State) (n : Fin 16) (b : List Byte) (x : List Byte) (y : List Byte), b.length = 72 ∧ s.active = true ∧
      s.laneAlive n.val = true ∧ s.hl.lanes.length = 16 ∧ s.hl.locals = [] ∧ s.hl.seen = [] ∧ (s.lane n.val).state = 2 ∧
      rsDecode (b.take 36) = .clean x ∧ rsDecode (b.drop 36) = .clean y ∧ penClass (x ++ y) = 3 ∧ penCrcOk (x ++ y) = true ∧
      field (x ++ y) 0 2 = 0x3001) ∧
    (∃ (s : State) (u : State) (n : Fin 16) (b : List Byte) (x : List Byte) (y : List Byte), u = (s.need.noteSlot n.val false).setLane n.val (fun l => { l with rxIn := (l.rxIn + 1) % 2 ^ 16, rxSeq := (l.rxSeq + 1) % 2 ^ 16 }) ∧
      b.length = 72 ∧ s.active = true ∧ s.laneAlive n.val = true ∧ s.hl.lanes.length = 16 ∧ n.val < s.laneCount ∧
      (s.lane n.val).state = 2 ∧ (s.lane n.val).discard = false ∧ (s.lane n.val).rxIn = (s.lane n.val).rxSeq ∧
      rsDecode (b.take 36) = .clean x ∧ rsDecode (b.drop 36) = .clean y ∧ penClass (x ++ y) ≠ 3 ∧ (s.lane n.val).plov = false ∧
      penCrcOk (x ++ y) = true) ∧
    (∃ (s : State) (p : Fin 4) (f : List Byte) (e : Bool), s.active = true ∧ s.portAlive p.val = true ∧ s.hl.locals = [] ∧
      s.hl.seen = [] ∧ p.val ∉ s.need.portsUp) ∧
    (∃ (s : State) (p : Fin 4) (f : List Byte) (e : Bool), s.active = true ∧ s.portAlive p.val = true ∧ s.hl.locals = [] ∧
      s.hl.seen = [] ∧ p.val ∈ s.need.portsUp ∧ s.need.frameOk p.val f e = none) ∧
    (∃ (s : State) (u : State) (p : Fin 4) (f : List Byte) (e : Bool) (pcp : Nat) (peer : Nat) (bs : List (List Byte)) (a : Assoc), u = s.need.frameHeader peer f ∧
      s.active = true ∧ s.portAlive p.val = true ∧ p.val ∈ s.need.portsUp ∧ s.need.frameOk p.val f e = some (pcp, peer, bs) ∧
      bit (field f 29 1) 0 = false ∧ u.assoc? peer = some a ∧ a.state = 2) ∧
    (∃ (s : State) (p : Fin 4) (f : List Byte) (e : Bool) (pcp : Nat) (peer : Nat) (bs : List (List Byte)) (a : Assoc), s.active = true ∧
      s.portAlive p.val = true ∧ s.hl.locals = [] ∧ s.hl.seen = [] ∧ p.val ∈ s.need.portsUp ∧
      s.need.frameOk p.val f e = some (pcp, peer, bs) ∧ bit (field f 29 1) 0 = false ∧ s.assoc? peer = some a ∧ a.state = 2 ∧
      field f 24 2 ≠ a.rxSeq) ∧
    (∃ (s : State) (p : Fin 4) (f : List Byte) (e : Bool), s.active = false ∧ s.portAlive p.val = true) ∧
    (∃ (s : State) (p : Fin 4) (f : List Byte) (e : Bool), s.portAlive p.val = false) :=
  ⟨⟨act, 0, List.replicate 72 0, by decide +kernel⟩,
   ⟨inState act .off, 0, List.replicate 72 0, by decide +kernel⟩,
   ⟨inState act .sleep, 1, block0, by decide +kernel⟩,
   ⟨act.setLane 1 fun l => { l with state := 2 }, 1, linkBlock0, link0.take 32, link0.drop 32, by decide +kernel⟩,
   ⟨act.setLane 1 fun l => { l with state := 2 }, _, 1, block0, pen0.take 32, pen0.drop 32, rfl, by decide +kernel⟩,
   ⟨actT, 0, [], false, by decide +kernel⟩,
   ⟨linked, 0, [], false, by decide +kernel⟩,
   ⟨linked, _, 0, frame5, false, 6, 5, [], { peer := 5, state := 2 }, rfl, by decide +kernel⟩,
   ⟨linked, 0, frame5.set 24 1, false, 6, 5, [], { peer := 5, state := 2 }, by decide +kernel⟩,
   ⟨inState actT .sleep, 0, [], false, by decide +kernel⟩,
   ⟨inState act .off, 0, [], false, by decide +kernel⟩⟩

/-- Meets the hypotheses of `Obligations.AssociationsAnnounceAcknowledgeAndResend`, clause by clause. -/
theorem witness_AssociationsAnnounceAcknowledgeAndResend :
    (∃ (s : State) (p : Fin 4) (up : Bool), s.tray = true ∧ s.active = true) ∧
    (∃ (s : State) (p : Fin 4) (up : Bool), s.tray = false) ∧
    (∃ (s : State) (p : Fin 4) (up : Bool), s.tray = true ∧ s.active = false) ∧
    (∃ (s : State) (p : BitVec 14) (a : Assoc), s.active = true ∧ s.assoc? p.toNat = some a ∧ a.state ≠ 2) ∧
    (∃ (s : State) (p : BitVec 14) (a : Assoc) (c : Nat), s.active = true ∧ s.assoc? p.toNat = some a ∧ a.ackAt = some c) ∧
    (∃ (s : State) (p : BitVec 14) (a : Assoc), s.active = true ∧ s.assoc? p.toNat = some a) ∧
    (∃ (s : State) (p : BitVec 14) (a : Assoc) (c : Nat), s.active = true ∧ s.assoc? p.toNat = some a ∧ a.ackAt = some c) ∧
    (∃ (s : State) (p : BitVec 14) (a : Assoc) (f : TxFrame) (fs : List TxFrame), s.active = true ∧ s.assoc? p.toNat = some a ∧
      a.state = 2 ∧ a.unacked = f :: fs ∧ ((∀ g ∈ a.retx, g.fseq ≠ f.fseq))) ∧
    (∃ (s : State) (p : BitVec 14) (a : Assoc) (f : TxFrame) (fs : List TxFrame), s.active = true ∧ s.assoc? p.toNat = some a ∧
      a.state = 2 ∧ a.unacked = f :: fs ∧ ((∀ g ∈ a.retx, g.fseq ≠ f.fseq)) ∧ a.tries < 8) ∧
    (∃ (s : State) (p : BitVec 14) (a : Assoc) (f : TxFrame) (fs : List TxFrame), s.active = true ∧ s.assoc? p.toNat = some a ∧
      a.state = 2 ∧ a.unacked = f :: fs ∧ ((∀ g ∈ a.retx, g.fseq ≠ f.fseq)) ∧ 8 ≤ a.tries) ∧
    (∃ (s : State) (p : BitVec 14), s.assoc? p.toNat = none) :=
  ⟨⟨actT, 0, false, by decide +kernel⟩,
   ⟨act, 0, false, by decide +kernel⟩,
   ⟨inState actT .sleep, 0, false, by decide +kernel⟩,
   ⟨{ actT with hl := { actT.hl with assocs := [{ peer := 0x3FFF }] } }, 0x3FFF, { peer := 0x3FFF }, by decide +kernel⟩,
   ⟨{ actT with hl := { actT.hl with assocs := [{ peer := 0x3FFF, ackAt := some 7 }] } }, 0x3FFF,
     { peer := 0x3FFF, ackAt := some 7 }, 7, by decide +kernel⟩,
   ⟨{ actT with hl := { actT.hl with assocs := [{ peer := 0x3FFF }] } }, 0x3FFF, { peer := 0x3FFF }, by decide +kernel⟩,
   ⟨{ actT with hl := { actT.hl with assocs := [{ peer := 0x3FFF, ackAt := some 5 }] } }, 0x3FFF,
     { peer := 0x3FFF, ackAt := some 5 }, 5, by decide +kernel⟩,
   ⟨{ actT with hl := { actT.hl with assocs := [{ peer := 0x3FFF, state := 2, unacked := [{ fseq := 0, cls := 0, ver := 0, ents := [], at_ := 0 }] }] } },
     0x3FFF, { peer := 0x3FFF, state := 2, unacked := [{ fseq := 0, cls := 0, ver := 0, ents := [], at_ := 0 }] },
     { fseq := 0, cls := 0, ver := 0, ents := [], at_ := 0 }, [], by decide +kernel⟩,
   ⟨{ actT with hl := { actT.hl with assocs := [{ peer := 0x3FFF, state := 2, tries := 0, unacked := [{ fseq := 0, cls := 0, ver := 0, ents := [], at_ := 0 }] }] } },
     0x3FFF, { peer := 0x3FFF, state := 2, tries := 0, unacked := [{ fseq := 0, cls := 0, ver := 0, ents := [], at_ := 0 }] },
     { fseq := 0, cls := 0, ver := 0, ents := [], at_ := 0 }, [], by decide +kernel⟩,
   ⟨{ actT with hl := { actT.hl with assocs := [{ peer := 0x3FFF, state := 2, tries := 8, unacked := [{ fseq := 0, cls := 0, ver := 0, ents := [], at_ := 0 }] }] } },
     0x3FFF, { peer := 0x3FFF, state := 2, tries := 8, unacked := [{ fseq := 0, cls := 0, ver := 0, ents := [], at_ := 0 }] },
     { fseq := 0, cls := 0, ver := 0, ents := [], at_ := 0 }, [], by decide +kernel⟩,
   ⟨act, 0, by decide +kernel⟩⟩

/-- Meets the hypotheses of `Obligations.EpochsFoldAndResultsPublish`, clause by clause. -/
theorem witness_EpochsFoldAndResultsPublish :
    (∃ (s : State) (b : BitVec 20) (en : Entry) (c : Content) (u : State), u = ({ s with cyc := (s.passToFleet (s.deadlineOf c (levelOf b.toNat) en.next)).cyc } : State).setEntry b.toNat (fun x => { x with folding := true }) ∧
      s.active = true ∧ s.entry? b.toNat = some en ∧ 2 ≤ en.state ∧ en.folding = false ∧
      ((∀ x, s.pendOf b.toNat = some x → x.from_ ≠ en.next)) ∧ en.retireAt ≠ some en.next ∧ en.at en.next = some c) ∧
    (∃ (s : State) (b : BitVec 20) (en : Entry) (c : Content) (u : State), u = ({ s with cyc := (s.passToFleet (s.deadlineOf c (levelOf b.toNat) en.next)).cyc } : State).setEntry b.toNat (fun x => { x with folding := true }) ∧
      s.active = true ∧ s.entry? b.toNat = some en ∧ 2 ≤ en.state ∧ en.folding = false ∧
      ((∀ x, s.pendOf b.toNat = some x → x.from_ ≠ en.next)) ∧ en.retireAt ≠ some en.next ∧ en.at en.next = some c ∧
      (∃ r ∈ s.red.results, r.base = b.toNat)) ∧
    (∃ (s : State) (b : BitVec 20) (en : Entry) (c : Content) (u : State), u = ({ s with cyc := (s.passToFleet (s.deadlineOf c (levelOf b.toNat) en.next)).cyc } : State).setEntry b.toNat (fun x => { x with folding := true }) ∧
      s.active = true ∧ s.entry? b.toNat = some en ∧ 2 ≤ en.state ∧ en.folding = false ∧
      ((∀ x, s.pendOf b.toNat = some x → x.from_ ≠ en.next)) ∧ en.retireAt ≠ some en.next ∧ en.at en.next = some c ∧
      (∀ r ∈ s.red.results, r.base ≠ b.toNat) ∧ (∀ p ∈ s.red.parts, ¬ (p.base = b.toNat ∧ p.epoch = en.next)) ∧
      s.readsOut b.toNat = false) ∧
    (∃ (s : State) (b : BitVec 20) (en : Entry) (x : PendCopy), s.active = true ∧ s.entry? b.toNat = some en ∧
      s.pendOf b.toNat = some x ∧ x.from_ = en.next ∧ s.red.due = [] ∧ s.hl.seen = []) ∧
    (∃ (s : State) (b : BitVec 20), s.active = true ∧ s.entry? b.toNat = none ∧ s.red.due = [] ∧ s.hl.seen = []) ∧
    (∃ (s : State) (r : Result) (rs : List Result), s.active = true ∧ s.red.results = r :: rs) ∧
    (∃ (s : State), s.active = true ∧ s.red.results = [] ∧ s.red.due = [] ∧ s.hl.seen = []) ∧
    (∃ (s : State) (p : Fin 128) (a : Nat) (tag : Nat) (t : Nat), (s.red.retired.find? fun e => e.1 == p.val) = some (a, tag, t)) ∧
    (∃ (s : State) (p : Fin 128), ((∀ e ∈ s.red.retired, e.1 ≠ p.val))) :=
  ⟨⟨{ actT with red := { actT.red with entries := [entry0] } }, 0x61000, entry0, { from_ := 0, stamp := 0, words := [] }, _,
     rfl, by decide +kernel⟩,
   ⟨{ actT with red := { actT.red with entries := [entry0], results := [{ base := 0x61000, tag := 1, stamp := 1, epoch := 0, series := 0, parts := [], due := 0, bound := 0, cubes := [], fan := false }] } },
     0x61000, entry0, { from_ := 0, stamp := 0, words := [] }, _, rfl, by decide +kernel⟩,
   ⟨{ actT with red := { actT.red with entries := [entry0] } }, 0x61000, entry0, { from_ := 0, stamp := 0, words := [] }, _,
     rfl, by decide +kernel⟩,
   ⟨{ actT with ho := { actT.ho with pend := [{ base := 0x61000, stamp := 1, from_ := 0, words := [] }] }, red := { actT.red with entries := [entry0] } },
     0x61000, entry0, { base := 0x61000, stamp := 1, from_ := 0, words := [] }, by decide +kernel⟩,
   ⟨act, 0, by decide +kernel⟩,
   ⟨{ actT with red := { actT.red with results := [{ base := 0x61000, tag := 1, stamp := 1, epoch := 0, series := 0, parts := [], due := 0, bound := 0, cubes := [], fan := false }] } },
     { base := 0x61000, tag := 1, stamp := 1, epoch := 0, series := 0, parts := [], due := 0, bound := 0, cubes := [], fan := false },
     [], by decide +kernel⟩,
   ⟨act, by decide +kernel⟩,
   ⟨{ actT with red := { actT.red with retired := [(127, (1, 50))] } }, 127, 127, 1, 50, by decide +kernel⟩,
   ⟨act, 0, by decide +kernel⟩⟩

/-- Meets the hypotheses of `Obligations.TokensAndAdmissions`, clause by clause. -/
theorem witness_TokensAndAdmissions :
    (∃ (s : State) (c : Fin 2048), s.active = true ∧ s.faRuns 2 = true ∧ s.get Reg.FA_QB_CUBE_refill_s ≠ 0) ∧
    (∃ (s : State) (c : Fin 2048), (s.faRuns 2 = false ∨ s.get Reg.FA_QB_CUBE_refill_s = 0)) ∧
    (∃ (s : State) (who : Who) (d : Word), s.ready who ∧ s.tray = true) ∧
    (∃ (s : State) (d : Fin 8), s.active = true ∧ s.faRuns 0 = true ∧ s.dieState d.val = 5) ∧
    (∃ (s : State) (d : Fin 8), s.active = true ∧ s.faRuns 0 = true ∧ s.dieState d.val = 5 ∧
      s.fa.jackSeen.getD d.val none = some s.cyc) ∧
    (∃ (s : State) (d : Fin 8), (s.faRuns 0 = false ∨ s.dieState d.val ≠ 5)) :=
  ⟨⟨analysing.put Reg.FA_QB_CUBE_refill_s 1, 2047, by decide +kernel⟩,
   ⟨act, 0, by decide +kernel⟩,
   ⟨actT, .steward, 0xFFFF, by unfold State.ready; decide +kernel⟩,
   ⟨analysing.put (Reg.FA_DIE_s_state 7) 5, 7, by decide +kernel⟩,
   ⟨{ analysing.put (Reg.FA_DIE_s_state 7) 5 with fa := { act.fa with jackSeen := List.replicate 8 (some 0) } }, 7,
     by decide +kernel⟩,
   ⟨act, 0, by decide +kernel⟩⟩

/-- Meets the hypotheses of `Obligations.SaturationWindowsEnd`, clause by clause. -/
theorem witness_SaturationWindowsEnd :
    (∃ (s : State), s.active = true ∧ s.tray = true ∧ s.get Reg.FA_SAT_win_ms ≠ 0 ∧ s.hl.slots = [] ∧ s.red.due = [] ∧
      s.hl.seen = []) ∧
    (∃ (s : State), s.active = true ∧ s.tray = true ∧ s.get Reg.FA_SAT_win_ms ≠ 0 ∧ s.hl.slots = [] ∧ s.red.due = [] ∧
      s.hl.seen = [] ∧ s.hl.satDelay < s.get Reg.FA_SAT_sat_us * 1600) ∧
    (∃ (s : State), s.active = true ∧ s.tray = true ∧ s.get Reg.FA_SAT_win_ms ≠ 0 ∧ s.hl.slots = [] ∧ s.red.due = [] ∧
      s.hl.seen = [] ∧ s.get Reg.FA_SAT_sat_us * 1600 ≤ s.hl.satDelay) ∧
    (∃ (s : State), s.active = true ∧ (s.tray = false ∨ s.get Reg.FA_SAT_win_ms = 0) ∧ s.red.due = [] ∧ s.hl.seen = []) ∧
    (∃ (s : State), s.active = true ∧ s.isHealthRoot = true ∧ s.get Reg.FA_SAT_win_ms ≠ 0 ∧
      ((∀ l < 4, s.fa.tally.getD l 0 < s.get Reg.FA_SAT_N_sat_n))) ∧
    (∃ (s : State), (s.isHealthRoot = false ∨ s.get Reg.FA_SAT_win_ms = 0)) :=
  ⟨⟨actT.put Reg.FA_SAT_win_ms 1, by decide +kernel⟩,
   ⟨(actT.put Reg.FA_SAT_win_ms 1).put Reg.FA_SAT_sat_us 1, by decide +kernel⟩,
   ⟨{ (actT.put Reg.FA_SAT_win_ms 1).put Reg.FA_SAT_sat_us 1 with hl := { act.hl with satDelay := 1600 } }, by decide +kernel⟩,
   ⟨act, by decide +kernel⟩,
   ⟨((actT.put Reg.FA_SAT_win_ms 1).put Reg.HL_ROOT_valid 1).put Reg.FA_SAT_N_sat_n 1, by decide +kernel⟩,
   ⟨act, by decide +kernel⟩⟩

/-- Meets the hypotheses of `Obligations.ResponsesAndFlashOperationsEnd`, clause by clause. -/
theorem witness_ResponsesAndFlashOperationsEnd :
    (∃ (s : State) (g : BitVec 10) (b : List Byte) (e : Bool) (r : Req), b.length = 64 ∧ s.active = true ∧
      (s.host.out.find? fun r => r.tag == g.toNat) = some r) ∧
    (∃ (s : State) (g : BitVec 10) (b : List Byte) (e : Bool), b.length = 64 ∧ s.active = true ∧
      ((∀ r ∈ s.host.out, r.tag ≠ g.toNat))) ∧
    (∃ (s : State) (g : BitVec 10) (b : List Byte) (e : Bool), b.length = 64 ∧ s.active = false) ∧
    (∃ (s : State) (g : BitVec 10) (b : List Byte) (r : Req) (k : Nat), b.length = 64 ∧ s.active = true ∧ s.hl.locals = [] ∧
      s.hl.seen = [] ∧ (s.host.out.find? fun r => r.tag == g.toNat) = some r ∧ r.owner = .dump k ∧ s.dc.coders.length = 4 ∧
      k < 4 ∧ (s.coder k).image = some true ∧ s.host.want = []) ∧
    (∃ (s : State) (g : BitVec 8) (b : List Byte) (e : Bool) (r : Req), b.length = 64 ∧ s.active = true ∧
      (s.fsp.out.find? fun r => r.tag == g.toNat) = some r) ∧
    (∃ (s : State) (g : BitVec 8) (b : List Byte) (e : Bool), b.length = 64 ∧ s.active = true ∧
      ((∀ r ∈ s.fsp.out, r.tag ≠ g.toNat))) ∧
    (∃ (s : State) (g : BitVec 8) (b : List Byte) (e : Bool), b.length = 64 ∧ s.active = false) ∧
    (∃ (s : State) (g : BitVec 8) (b : List Byte) (r : Req) (k : Nat), b.length = 64 ∧ s.active = true ∧ s.hl.locals = [] ∧
      s.hl.seen = [] ∧ (s.fsp.out.find? fun r => r.tag == g.toNat) = some r ∧ r.owner = .dump k ∧ s.dc.coders.length = 4 ∧
      k < 4 ∧ (s.coder k).image = some true ∧ s.fsp.want = []) ∧
    (∃ (s : State) (er : Bool) (a : Nat) (b : List Byte) (who : Nat), s.fl.op = some (er, a, b, who)) ∧
    (∃ (s : State) (er : Bool) (a : Nat) (b : List Byte) (who : Nat), s.fl.op = some (er, a, b, who) ∧ s.ev.nvQueue = [] ∧
      who = 0) ∧
    (∃ (s : State) (er : Bool) (a : Nat) (b : List Byte) (who : Nat), s.fl.op = some (er, a, b, who)) ∧
    (∃ (s : State) (er : Bool) (a : Nat) (b : List Byte) (who : Nat), s.fl.op = some (er, a, b, who) ∧ who = 1 ∧
      s.ev.nvRetry = false) ∧
    (∃ (s : State), s.fl.op = none) :=
  ⟨⟨{ act with host := { out := [{ tag := 1023, addr := 0, write := false, owner := .gone, idx := 0 }] } }, 1023,
     List.replicate 64 0, false, { tag := 1023, addr := 0, write := false, owner := .gone, idx := 0 }, by decide +kernel⟩,
   ⟨act, 0, List.replicate 64 0, false, by decide +kernel⟩,
   ⟨inState act .sleep, 0, List.replicate 64 0, false, by decide +kernel⟩,
   ⟨{ act.setCoder 3 fun c => { c with image := some true } with host := { act.host with out := [{ tag := 0, addr := 0, write := false, owner := .dump 3, idx := 0 }] } },
     0, List.replicate 64 0, { tag := 0, addr := 0, write := false, owner := .dump 3, idx := 0 }, 3, by decide +kernel⟩,
   ⟨{ act with fsp := { out := [{ tag := 255, addr := 0, write := false, owner := .gone, idx := 0 }] } }, 255,
     List.replicate 64 0, false, { tag := 255, addr := 0, write := false, owner := .gone, idx := 0 }, by decide +kernel⟩,
   ⟨act, 0, List.replicate 64 0, false, by decide +kernel⟩,
   ⟨inState act .sleep, 0, List.replicate 64 0, false, by decide +kernel⟩,
   ⟨{ act.setCoder 3 fun c => { c with image := some true } with fsp := { act.fsp with out := [{ tag := 0, addr := 0, write := false, owner := .dump 3, idx := 0 }] } },
     0, List.replicate 64 0, { tag := 0, addr := 0, write := false, owner := .dump 3, idx := 0 }, 3, by decide +kernel⟩,
   ⟨{ act with fl := { op := some (true, 0, [], 0) } }, true, 0, [], 0, by decide +kernel⟩,
   ⟨{ act with fl := { op := some (true, 0, [], 0) } }, true, 0, [], 0, by decide +kernel⟩,
   ⟨{ act with fl := { op := some (false, 0, [], 3) } }, false, 0, [], 3, by decide +kernel⟩,
   ⟨{ act with fl := { op := some (false, 0, [], 1) } }, false, 0, [], 1, by decide +kernel⟩,
   ⟨act, by decide +kernel⟩⟩

/-- Meets the hypotheses of `Obligations.TraceArmsTriggersAndTakesRecords`, clause by clause. -/
theorem witness_TraceArmsTriggersAndTakesRecords :
    (∃ (s : State) (who : Who) (d : Word), s.ready who ∧ d.toNat % 8 = 1) ∧
    (∃ (s : State) (who : Who) (d : Word), s.ready who ∧ d.toNat % 8 = 2 ∧ (s.tr.state = 0 ∨ s.tr.state = 3) ∧ s.tr.fifo = []) ∧
    (∃ (s : State) (who : Who) (d : Word), s.ready who ∧ d.toNat % 8 = 2 ∧ s.tr.state = 1 ∧ s.tr.trigged = false ∧
      s.tr.fifo = [] ∧ s.tr.held = []) ∧
    (∃ (s : State) (who : Who) (d : Word), s.ready who ∧ d.toNat % 8 = 4) ∧
    (∃ (s : State) (r : TraceIn), (s.active = false ∨ s.traceSource r = false)) ∧
    (∃ (s : State) (u : State) (r : TraceIn), u = s.bump Reg.TR_EXCL_count 1 ∧ s.active = true ∧ s.traceSource r = true ∧
      s.cyc ≤ s.tr.drainAt ∧ s.tr.fifo = [] ∧ s.traceExcluded r = true) ∧
    (∃ (s : State) (u : State) (r : TraceIn), u = s.bump Reg.TR_FROZEN_count 1 ∧ s.active = true ∧ s.traceSource r = true ∧
      s.cyc ≤ s.tr.drainAt ∧ s.tr.fifo = [] ∧ s.traceExcluded r = false ∧ s.tr.state = 3) ∧
    (∃ (s : State), s.tpLp = false) ∧
    (∃ (s : State), s.tpLp = true ∧ s.tr.lpRise = some s.cyc) ∧
    (∃ (s : State), s.tpLp = true ∧ s.tr.lpRise ≠ some s.cyc) ∧
    (∃ (s : State), s.tpLp = true ∧ s.tr.lpRise ≠ some s.cyc ∧ s.pw.st = .sleep) ∧
    (∃ (s : State), s.tpLp = true) :=
  ⟨⟨act, .steward, 1, by unfold State.ready; decide +kernel⟩,
   ⟨{ act with tr := { act.tr with state := 3 } }, .steward, 2, by unfold State.ready; decide +kernel⟩,
   ⟨{ act with tr := { act.tr with state := 1 } }, .steward, 2, by unfold State.ready; decide +kernel⟩,
   ⟨act, .steward, 4, by unfold State.ready; decide +kernel⟩,
   ⟨inState act .sleep, traceIn, by decide +kernel⟩,
   ⟨(act.put Reg.TR_CFG_host_en 1), _, { traceIn with priv := true }, rfl, by decide +kernel⟩,
   ⟨{ (act.put Reg.TR_CFG_host_en 1) with tr := { act.tr with state := 3 } }, _, traceIn, rfl, by decide +kernel⟩,
   ⟨act, by decide +kernel⟩,
   ⟨{ act with tpLp := true, tr := { act.tr with lpRise := some 0 } }, by decide +kernel⟩,
   ⟨{ inState act .sleep with tpLp := true }, by decide +kernel⟩,
   ⟨{ inState act .sleep with tpLp := true }, by decide +kernel⟩,
   ⟨{ act with tpLp := true }, by decide +kernel⟩⟩

/-- Meets the hypotheses of `Obligations.DumpsSendTheirSegments`, clause by clause. -/
theorem witness_DumpsSendTheirSegments :
    (∃ (s : State) (who : Who) (d : Word) (j : DumpJob), j = { q := none, kind := 2, at_ := s.fleet, bound := s.get Reg.DC_BOUND_ms, cfg := s.rd Reg.DC_CFG, step := min 32 (s.get Reg.DC_HANG_n) } ∧
      s.ready who ∧ d.toNat = 0xC3C3 ∧ s.hangRuns = false) ∧
    (∃ (s : State) (who : Who) (d : Word), s.ready who ∧ d.toNat = 0xC3C3 ∧ s.hangRuns = true) ∧
    (∃ (s : State) (who : Who) (d : Word), s.ready who ∧ d.toNat ≠ 0xC3C3) ∧
    (∃ (s : State) (k : Fin 4), s.active = true ∧ s.dumpOn k.val = none) ∧
    (∃ (s : State) (k : Fin 4) (j : DumpJob), s.active = true ∧ s.dumpOn k.val = some j ∧
      (j.partial_ = true ∨ s.dumpLate j = false) ∧ j.awaiting ≠ 0) ∧
    (∃ (s : State) (k : Fin 4) (j : DumpJob) (g : Seg) (fl : Nat) (body : List Byte) (c : Coder) (n : Nat) (p : List Byte) (ps : List (List Byte)), g = s.segOf j ∧
      s.active = true ∧ s.dumpOn k.val = some j ∧ (j.partial_ = true ∨ s.dumpLate j = false) ∧ j.awaiting = 0 ∧
      s.ownSink = false ∧ segCode (s.coder k.val) j.cfg g.raw = (fl, body, c, false) ∧ n = (body.length + 35) / 36 + 1 ∧
      s.hl.srcC + 64 * n ≤ s.srcCap ∧
      segChunks k.val fl (s.rd (Reg.DC_ENG_SEG_k k.val)) (g.header body.length j.dumpid) body = p :: ps ∧
      (s.offer (s.chunkOffer p)).1 = Code.OK ∧ g.skind ≠ 6) ∧
    (∃ (s : State) (q : Fin 16) (j : DumpJob) (k : Nat), s.active = true ∧
      (s.dc.jobs.find? fun j => (match j.q with | some (n, _) => n == q.val | none => false) && j.engine.isSome && !j.partial_) = some j ∧
      j.engine = some k) ∧
    (∃ (s : State) (q : Fin 16), ((∀ j ∈ s.dc.jobs, j.engine = none ∨ j.partial_ = true))) :=
  ⟨⟨act, .steward, 0xC3C3, _, rfl, by unfold State.ready; decide +kernel⟩,
   ⟨dumping { dumpJob with kind := 2 }, .steward, 0xC3C3, by unfold State.ready; decide +kernel⟩,
   ⟨act, .steward, 0, by unfold State.ready; decide +kernel⟩,
   ⟨act, 0, by decide +kernel⟩,
   ⟨dumping { dumpJob with awaiting := 1 }, 0, { dumpJob with awaiting := 1 }, by decide +kernel⟩,
   ⟨dumping dumpJob, 0, dumpJob, _, 4, [], { fresh := false, since := 1 }, 1,
     (segChunks 0 4 0 (((dumping dumpJob).segOf dumpJob).header 0 0) []).headD [], [], rfl, by decide +kernel⟩,
   ⟨dumping dumpJob, 0, dumpJob, 0, by decide +kernel⟩,
   ⟨act, 0, by decide +kernel⟩⟩

/-- Meets the hypotheses of `Obligations.EnginesKeepTheirImages`, clause by clause. -/
theorem witness_EnginesKeepTheirImages :
    (∃ (s : State) (who : Who) (k : Fin 4) (d : Word), s.ready who ∧ k.val < s.engines ∧ s.engineIdle k.val = true ∧
      bit d.toNat 2 = true) ∧
    (∃ (s : State) (who : Who) (k : Fin 4) (d : Word), s.ready who ∧ k.val < s.engines ∧ s.engineIdle k.val = true ∧
      d.toNat % 8 % 2 = 1 ∧ bit d.toNat 2 = false ∧ s.dc.coders.length = 4) ∧
    (∃ (s : State) (who : Who) (k : Fin 4) (d : Word), s.ready who ∧ k.val < s.engines ∧ s.engineIdle k.val = true ∧
      d.toNat % 8 = 2 ∧ s.imageInStore k.val = false ∧ s.dc.coders.length = 4) ∧
    (∃ (s : State) (who : Who) (k : Fin 4) (d : Word), s.ready who ∧ k.val < s.engines ∧ s.engineIdle k.val = false ∧
      d.toNat % 8 ≠ 0) ∧
    (∃ (s : State) (k : Fin 4), s.active = true ∧ (s.coder k.val).image = some false) ∧
    (∃ (s : State) (k : Fin 4), s.active = true ∧ (s.coder k.val).image = some false ∧ s.dc.coders.length = 4 ∧ s.dc.jobs = []) ∧
    (∃ (s : State) (k : Fin 4) (b : List Byte), b = (upto 1025).flatMap (fun i => Sparse.get (fun _ => List.replicate 64 (0 : Byte)) (s.coder k.val).lines i) ∧
      crc32c (b.take 65596) = field b 65596 4 ∧ s.active = true ∧ (s.coder k.val).image = some true ∧
      (s.coder k.val).awaiting = 0 ∧ (s.coder k.val).ferr = false) ∧
    (∃ (s : State) (k : Fin 4), s.active = true ∧ (s.coder k.val).image = some true ∧ (s.coder k.val).awaiting = 0 ∧
      (s.coder k.val).ferr = true) ∧
    (∃ (s : State) (k : Fin 4), (s.coder k.val).image = none) ∧
    (∃ (s : State) (g : RxSeg) (gs : List RxSeg) (k : Nat), s.active = true ∧ s.dc.ready = g :: gs ∧ s.decoder g.slot = some k) ∧
    (∃ (s : State) (g : RxSeg) (gs : List RxSeg) (k : Nat) (c : RxCtx) (x : List Byte) (d : Dict), s.active = true ∧
      s.dc.ready = g :: gs ∧ s.decoder g.slot = some k ∧ s.ctx? g.slot = some c ∧ segDecode g c.dict = some (x, d)) ∧
    (∃ (s : State), s.dc.ready = []) ∧
    (∃ (s : State) (c : Fin 1024) (x : RxCtx), s.active = true ∧ s.ctx? c.val = some x ∧ s.get Reg.DC_RX_CFG_idle_ms ≠ 0 ∧
      ((∀ g ∈ s.dc.ready, g.slot ≠ c.val))) ∧
    (∃ (s : State) (c : Fin 1024), (s.ctx? c.val = none ∨ s.get Reg.DC_RX_CFG_idle_ms = 0)) :=
  ⟨⟨act, .steward, 0, 4, by unfold State.ready; decide +kernel⟩,
   ⟨act, .steward, 0, 1, by unfold State.ready; decide +kernel⟩,
   ⟨act, .steward, 0, 2, by unfold State.ready; decide +kernel⟩,
   ⟨(act.setCoder 0 fun c => { c with image := some false }), .steward, 0, 4, by unfold State.ready; decide +kernel⟩,
   ⟨(act.setCoder 0 fun c => { c with image := some false }), 0, by decide +kernel⟩,
   ⟨(act.setCoder 0 fun c => { c with image := some false }), 0, by decide +kernel⟩,
   ⟨act.setCoder 0 fun c => { c with image := some true, lines := zeroLines }, 0, _, rfl, zeroImage_crc _ rfl,
     by decide +kernel⟩,
   ⟨(act.setCoder 0 fun c => { c with image := some true, ferr := true }), 0, by decide +kernel⟩,
   ⟨act, 0, by decide +kernel⟩,
   ⟨{ act with dc := { act.dc with ready := [{ slot := 0, segno := 0, flags := 0, head := [], body := [], gap := false }] } },
     { slot := 0, segno := 0, flags := 0, head := [], body := [], gap := false }, [], 0, by decide +kernel⟩,
   ⟨{ act with dc := { act.dc with ready := [{ slot := 0, segno := 0, flags := 0, head := [], body := [], gap := false }], ctxs := [{ slot := 0, key := (0, 0, 0), segno := 0, chunk := 0, at_ := 0 }] } },
     { slot := 0, segno := 0, flags := 0, head := [], body := [], gap := false }, [], 0,
     { slot := 0, key := (0, 0, 0), segno := 0, chunk := 0, at_ := 0 }, [], [], by decide +kernel⟩,
   ⟨act, by decide +kernel⟩,
   ⟨{ act.put Reg.DC_RX_CFG_idle_ms 1 with dc := { act.dc with ctxs := [{ slot := 1023, key := (0, 0, 0), segno := 0, chunk := 0, at_ := 0 }] } },
     1023, { slot := 1023, key := (0, 0, 0), segno := 0, chunk := 0, at_ := 0 }, by decide +kernel⟩,
   ⟨act, 0, by decide +kernel⟩⟩

/-- Meets the hypotheses of `Obligations.TheLogTakesRecords`, clause by clause. -/
theorem witness_TheLogTakesRecords :
    (∃ (s : State) (r : EvRec) (rs : List EvRec), s.active = true ∧ s.ev.intake = r :: rs ∧ s.get Reg.EV_CTRL_freeze = 0) ∧
    (∃ (s : State) (r : EvRec) (rs : List EvRec), s.active = true ∧ s.ev.intake = r :: rs ∧ s.get Reg.EV_CTRL_freeze = 0 ∧
      s.ev.ovfN = 0) ∧
    (∃ (s : State) (r : EvRec) (rs : List EvRec), s.active = true ∧ s.ev.intake = r :: rs ∧ s.get Reg.EV_CTRL_freeze = 0 ∧
      s.ev.ovfN = 0 ∧ s.tray = false) ∧
    (∃ (s : State) (u : State) (r : EvRec) (rs : List EvRec), u = s.bump (Reg.EV_FRZ_c_count r.cls) 1 ∧ s.active = true ∧
      s.ev.intake = r :: rs ∧ s.get Reg.EV_CTRL_freeze = 1) ∧
    (∃ (s : State), s.active = true ∧ s.ev.intake = []) ∧
    (∃ (s : State), s.active = false) ∧
    (∃ (s : State), s.ev.ovfN = 0) ∧
    (∃ (s : State), s.active = true ∧ s.ev.ovfN ≠ 0 ∧ s.ev.intake.length < 64 ∧ (s.tray = false ∨ s.ev.rebuilt = true)) ∧
    (∃ (s : State), s.active = true ∧ s.ev.ovfN ≠ 0 ∧ s.ev.intake.length < 64 ∧ (s.tray = false ∨ s.ev.rebuilt = true) ∧
      s.get Reg.EV_CTRL_freeze = 0 ∧ s.mirrored 5 = false) ∧
    (∃ (s : State) (who : Who) (d : Word), s.ready who ∧ s.get Reg.EV_CTRL_freeze = 0 ∧ s.get Reg.EV_FRZ_TO_ms ≠ 0 ∧
      d.toNat % 2 = 1) ∧
    (∃ (s : State) (who : Who) (d : Word), s.ready who ∧ s.get Reg.EV_CTRL_freeze = 0 ∧ d.toNat % 2 = 0) ∧
    (∃ (s : State) (c : Nat), s.active = true ∧ s.ev.frzAt = some c) ∧
    (∃ (s : State), s.ev.frzAt = none) ∧
    (∃ (s : State) (who : Who) (d : Word), s.ready who ∧ (d.toNat ≠ 0x5A5A ∨ s.secAuth = false)) ∧
    (∃ (s : State) (who : Who) (d : Word), s.ready who ∧ d.toNat = 0x5A5A ∧ s.secAuth = true ∧
      (s.tray = false ∨ s.ev.rebuilt = true)) ∧
    (∃ (s : State), s.active = true ∧ s.nvRun ≠ [] ∧ s.nvClearing = false) ∧
    (∃ (s : State), (s.nvRun = [] ∨ s.nvClearing = true)) ∧
    (∃ (s : State), s.active = true ∧ s.tray = true ∧ s.ev.rebuilt = false ∧ s.ho.first = false) ∧
    (∃ (s : State), (s.tray = false ∨ s.ev.rebuilt = true ∨ s.ho.first = true)) :=
  ⟨⟨{ act with ev := { act.ev with intake := [rec0] } }, rec0, [], by decide +kernel⟩,
   ⟨{ act with ev := { act.ev with intake := [rec0] } }, rec0, [], by decide +kernel⟩,
   ⟨{ act with ev := { act.ev with intake := [rec0] } }, rec0, [], by decide +kernel⟩,
   ⟨{ act.put Reg.EV_CTRL_freeze 1 with ev := { act.ev with intake := [rec0] } }, _, rec0, [], rfl, by decide +kernel⟩,
   ⟨act, by decide +kernel⟩,
   ⟨inState act .sleep, by decide +kernel⟩,
   ⟨act, by decide +kernel⟩,
   ⟨{ act with ev := { act.ev with ovfN := 1 } }, by decide +kernel⟩,
   ⟨{ (act.put Reg.EV_MIRROR_classes 0) with ev := { act.ev with ovfN := 1 } }, by decide +kernel⟩,
   ⟨act, .steward, 1, by unfold State.ready; decide +kernel⟩,
   ⟨act, .steward, 0, by unfold State.ready; decide +kernel⟩,
   ⟨{ act with ev := { act.ev with frzAt := some 7 } }, 7, by decide +kernel⟩,
   ⟨act, by decide +kernel⟩,
   ⟨act, .steward, 0, by unfold State.ready; decide +kernel⟩,
   ⟨{ act with secAuth := true }, .steward, 0x5A5A, by unfold State.ready; decide +kernel⟩,
   ⟨{ act with ev := { act.ev with nvPage := [rec0] } }, by decide +kernel⟩,
   ⟨act, by decide +kernel⟩,
   ⟨{ actT with ho := { act.ho with first := false } }, by decide +kernel⟩,
   ⟨act, by decide +kernel⟩⟩

/-- Meets the hypotheses of `Obligations.LifeCountsAndScrubbing`, clause by clause. -/
theorem witness_LifeCountsAndScrubbing :
    (∃ (s : State) (who : Who) (d : Word), s.ready who ∧ s.tray = false ∧ s.ev.lifeOps = none ∧ s.ev.lifePcc = none) ∧
    (∃ (s : State) (who : Who) (d : Word) (p : Nat), s.ready who ∧ s.tray = false ∧ s.ev.lifeOps = none ∧
      s.ev.lifePcc = some p ∧ p < 2 ^ 24) ∧
    (∃ (s : State) (who : Who) (d : Word), s.ready who ∧ s.tray = false) ∧
    (∃ (s : State) (who : Who) (d : Word), s.ready who ∧ s.tray = false ∧ s.ev.lifeOps.isSome = true ∧
      s.ev.lifePcc.isSome = true) ∧
    (∃ (s : State), s.tray = true ∧ s.ev.lifeV = true ∧ s.get Reg.EV_LIFE_CFG_save_s ≠ 0) ∧
    (∃ (s : State), (s.tray = false ∨ s.ev.lifeV = false ∨ s.get Reg.EV_LIFE_CFG_save_s = 0)) ∧
    (∃ (s : State), s.tray = true ∧ s.ev.lifeV = false) ∧
    (∃ (s : State), (s.tray = false ∨ s.ev.lifeV = true)) ∧
    (∃ (s : State), s.active = true ∧ s.get Reg.EV_SCRUB_cycles ≠ 0 ∧ s.ev.scrubPos + 1 < s.codewords s.ev.scrubMem) ∧
    (∃ (s : State) (f : Codeword), (s.active = false ∨ s.get Reg.EV_SCRUB_cycles = 0)) ∧
    (∃ (s : State), s.active = true ∧ s.get Reg.EV_SCRUB_max_s ≠ 0 ∧ s.get Reg.EV_SCRUB_cycles ≠ 0 ∧ s.ev.scrubLate = false) ∧
    (∃ (s : State), (s.active = false ∨ s.get Reg.EV_SCRUB_max_s = 0 ∨ s.get Reg.EV_SCRUB_cycles = 0 ∨ s.ev.scrubLate = true)) :=
  ⟨⟨act, .steward, 0, by unfold State.ready; decide +kernel⟩,
   ⟨{ act with ev := { act.ev with lifePcc := some 5 } }, .steward, 0, 5, by unfold State.ready; decide +kernel⟩,
   ⟨act, .steward, 0, by unfold State.ready; decide +kernel⟩,
   ⟨{ act with ev := { act.ev with lifeOps := some 1, lifePcc := some 1 } }, .steward, 0,
     by unfold State.ready; decide +kernel⟩,
   ⟨{ actT with ev := { act.ev with lifeV := true } }, by decide +kernel⟩,
   ⟨act, by decide +kernel⟩,
   ⟨actT, by decide +kernel⟩,
   ⟨act, by decide +kernel⟩,
   ⟨act, by decide +kernel⟩,
   ⟨inState act .sleep, .clean, by decide +kernel⟩,
   ⟨act, by decide +kernel⟩,
   ⟨{ act with ev := { act.ev with scrubLate := true } }, by decide +kernel⟩⟩

/-- Meets the hypotheses of `Obligations.TheStewardStepsAndItsOwnInstructions`, clause by clause. -/
theorem witness_TheStewardStepsAndItsOwnInstructions :
    (∃ (s : State) (w : State), w = s.need ∧ s.issues = true ∧ s.hart.wfi = false) ∧
    (∃ (s : State) (w : State) (lo : Nat) (hi : Nat) (v : Word), w = s.need ∧ s.issues = true ∧ s.hart.wfi = false ∧
      w.interrupt? = none ∧ s.st.swapDue = false ∧ w.fetchHalf s.hart.pc = (w, .ok lo) ∧ lo % 4 = 3 ∧
      w.fetchHalf ((s.hart.pc + 2) % 2 ^ 32) = (w, .ok hi) ∧ rvOp (lo + 2 ^ 16 * hi) = 0x13 ∧
      rvOpI (lo + 2 ^ 16 * hi) (s.xreg (rvRs1 (lo + 2 ^ 16 * hi))) = some v) ∧
    (∃ (s : State) (c : Nat), s.issues = true ∧ s.hart.wfi = false ∧ s.interrupt? = some c ∧ s.st.swapDue = false) ∧
    (∃ (s : State), s.issues = false) ∧
    (∃ (s : State) (u : State) (rd : BitVec 5) (a : BitVec 5) (b : BitVec 5) (f : Nat) (v : Nat) (c : Instr), s.issues = true ∧
      s.hart.wfi = false ∧
      (f, c) ∈ [(0, Instr.pnOpen rd a b), (1, .pnPut rd a b), (2, .pnDrop rd a b), (3, .pnSend rd a b), (4, .dbRing rd a b), (5, .tmRd rd a b)] ∧
      s.xbospen f (s.xreg a.toNat).toNat (s.xreg b.toNat).toNat = some (u, v)) ∧
    (∃ (s : State) (x : Nat) (y : Nat), s.st.slots.length = 4) ∧
    (∃ (s : State) (x : Nat) (y : Nat) (i : Nat), s.st.slots.length = 4 ∧ i < 4 ∧ s.slot? i = none ∧
      (∀ j < i, s.slot? j ≠ none)) ∧
    (∃ (s : State) (x : Nat) (y : Nat), s.st.slots.length = 4 ∧ (∀ j < 4, s.slot? j ≠ none)) ∧
    (∃ (s : State) (x : Nat) (y : Nat) (z : Staged), s.st.slots.length = 4 ∧ s.slot? (x % 4) = some z ∧ bits x 4 4 ≤ 10 ∧
      z.pay.length = 44) ∧
    (∃ (s : State) (rd : BitVec 5) (a : BitVec 5) (b : BitVec 5), s.issues = false) :=
  ⟨⟨running, _, rfl, by decide +kernel⟩,
   ⟨fetching, _, 0x0093, 0x0010, 1, rfl, by decide +kernel⟩,
   ⟨{ running.put Reg.ST_TMR_CTRL_en 1 with st := { running.st with hart := { running.st.hart with mie_ := true, mie := 0x80 } } },
     7, by decide +kernel⟩,
   ⟨act, by decide +kernel⟩,
   ⟨running, ((running.xbospen 5 0 0).map fun x => x.1).getD act, 0, 0, 0, 5,
     ((running.xbospen 5 0 0).map fun x => x.2).getD 0, .tmRd 0 0 0, by decide +kernel⟩,
   ⟨act, 0, 0, by decide +kernel⟩,
   ⟨{ act with st := { act.st with slots := [some { b01 := 0, job := 0, pay := List.replicate 44 0 }, some { b01 := 0, job := 0, pay := List.replicate 44 0 }, some { b01 := 0, job := 0, pay := List.replicate 44 0 }, none] } },
     0, 0, 3, by decide +kernel⟩,
   ⟨{ act with st := { act.st with slots := List.replicate 4 (some { b01 := 0, job := 0, pay := List.replicate 44 0 }) } }, 0,
     0, by decide +kernel⟩,
   ⟨{ act with st := { act.st with slots := List.replicate 4 (some { b01 := 0, job := 0, pay := List.replicate 44 0 }) } },
     0xA3, 0, { b01 := 0, job := 0, pay := List.replicate 44 0 }, by decide +kernel⟩,
   ⟨act, 0, 0, 0, by decide +kernel⟩⟩

/-- Meets the hypotheses of `Obligations.StewardTimersAndRecords`, clause by clause. -/
theorem witness_StewardTimersAndRecords :
    (∃ (s : State), s.active = true ∧ s.get Reg.ST_TMR_CTRL_en = 1) ∧
    (∃ (s : State), s.get Reg.ST_TMR_CTRL_en ≠ 1) ∧
    (∃ (s : State), s.wdRuns = true) ∧
    (∃ (s : State), s.wdRuns = false) ∧
    (∃ (s : State) (who : Who) (d : Word), s.ready who) ∧
    (∃ (s : State) (who : Who) (d : Word), s.ready who) :=
  ⟨⟨act.put Reg.ST_TMR_CTRL_en 1, by decide +kernel⟩,
   ⟨act, by decide +kernel⟩,
   ⟨running.put Reg.ST_WDOG_ms 1, by decide +kernel⟩,
   ⟨act, by decide +kernel⟩,
   ⟨act, .steward, 0, by unfold State.ready; decide +kernel⟩,
   ⟨act, .steward, 0, by unfold State.ready; decide +kernel⟩⟩

/-- Meets the hypotheses of `Obligations.ImagesAreLoadedAndSwapped`, clause by clause. -/
theorem witness_ImagesAreLoadedAndSwapped :
    (∃ (s : State) (who : Who) (d : Word), s.ready who ∧ bit d.toNat 31 = true ∧
      (bits d.toNat 28 1 = s.st.bank ∨ s.st.load.isSome = true ∨ (s.tray = false ∧
      (bits d.toNat 29 2 = 1 ∨ bits d.toNat 29 2 = 2)) ∨ (bit d.toNat 26 = true ∧ s.secAuth = false))) ∧
    (∃ (s : State) (who : Who) (d : Word), s.ready who ∧ bit d.toNat 31 = true ∧ bits d.toNat 28 1 ≠ s.st.bank ∧
      s.st.load = none ∧ bits d.toNat 29 2 = 0 ∧ (bit d.toNat 26 = false ∨ s.secAuth = true) ∧ s.st.banks.length = 2) ∧
    (∃ (s : State) (l : ImLoad), s.active = true ∧ s.st.load = some l ∧ l.awaiting = 0 ∧ s.stage ≠ 3 ∧
      (l.kind ≠ 2 ∨ s.fl.op = none) ∧ (s.imgJudge l).1 ≠ Code.DATA_FAULT ∧ (s.imgJudge l).1 ≠ Code.UNCORRECTABLE ∧
      (s.imgJudge l).1 < 256) ∧
    (∃ (s : State), s.st.load = none) ∧
    (∃ (s : State) (who : Who) (d : Word), s.ready who ∧ (who = .steward ∨ who = .debug) ∧ d.toNat % 2 ^ 16 = 0x3C3C ∧
      s.idleBank.ok = true ∧ s.st.load = none ∧ s.secFloor ≤ s.idleBank.sec) ∧
    (∃ (s : State) (who : Who) (d : Word), s.ready who ∧ ((who ≠ .steward ∧
      who ≠ .debug) ∨ d.toNat % 2 ^ 16 ≠ 0x3C3C ∨ s.idleBank.ok = false ∨ s.st.load.isSome = true ∨ s.idleBank.sec < s.secFloor)) ∧
    (∃ (s : State), (s.active = false ∨ s.stage ≠ 3 ∨ s.st.boot.phase = 4)) ∧
    (∃ (s : State), s.active = true ∧ s.stage = 3 ∧ s.st.boot.phase = 0 ∧ s.tray = false ∧ s.get Reg.ST_BOOT_CFG_go = 0) ∧
    (∃ (s : State) (who : Who) (d : Word), s.ready who ∧ s.st.boot.phase ≠ 1) ∧
    (∃ (s : State) (who : Who) (d : Word), s.ready who ∧ s.st.boot.phase = 1) ∧
    (∃ (s : State) (who : Who) (d : Word), s.ready who ∧ s.tray = true ∧ bit d.toNat 31 = true) ∧
    (∃ (s : State) (who : Who) (d : Word), s.ready who ∧ s.tray = true ∧ bit d.toNat 31 = true ∧ 513 < bits d.toNat 4 10) ∧
    (∃ (s : State) (who : Who) (d : Word), s.ready who ∧ s.tray = true ∧ bit d.toNat 31 = true ∧ bits d.toNat 4 10 ≤ 513 ∧
      s.get Reg.ST_FL_CMD_go = 0 ∧ bit d.toNat 30 = false ∧ s.fl.op = none) ∧
    (∃ (s : State) (who : Who) (d : Word), s.ready who ∧ (who = .steward ∨ s.secAuth = true)) ∧
    (∃ (s : State) (who : Who) (d : Word), s.ready who ∧ who ≠ .steward ∧ s.secAuth = false) :=
  ⟨⟨act, .steward, 0x80000000, by unfold State.ready; decide +kernel⟩,
   ⟨act, .steward, 0x90000000, by unfold State.ready; decide +kernel⟩,
   ⟨{ act with st := { act.st with load := some { bank := 1, kind := 0, nosig := false, addr := 0, len := 0 } } },
     { bank := 1, kind := 0, nosig := false, addr := 0, len := 0 }, by decide +kernel⟩,
   ⟨act, by decide +kernel⟩,
   ⟨{ act with st := { act.st with banks := [{}, { ok := true }] } }, .steward, 0x3C3C, by unfold State.ready; decide +kernel⟩,
   ⟨act, .steward, 0, by unfold State.ready; decide +kernel⟩,
   ⟨act, by decide +kernel⟩,
   ⟨act.put Reg.PM_BOOT_stage 3, by decide +kernel⟩,
   ⟨act, .steward, 0, by unfold State.ready; decide +kernel⟩,
   ⟨{ act with st := { act.st with boot := { phase := 1 } } }, .steward, 0, by unfold State.ready; decide +kernel⟩,
   ⟨actT, .steward, 0x80002010, by unfold State.ready; decide +kernel⟩,
   ⟨actT, .steward, 0x80002020, by unfold State.ready; decide +kernel⟩,
   ⟨actT, .steward, 0x80002010, by unfold State.ready; decide +kernel⟩,
   ⟨act, .steward, 0, by unfold State.ready; decide +kernel⟩,
   ⟨act, .port 0, 0, by unfold State.ready; decide +kernel⟩⟩

end Sys2Proof.Tests
end

/-! # The scope's statements: what a step keeps, and what plain accesses and pairs do -/

section
namespace Sys2Proof.Machine

/-! ## What every step keeps -/

/-- Only the release of aon_rst_n (R1) moves what stays fixed: one law of `Laws/KeepsExec` a command. -/
theorem exec_fixed (c : Instr) (s t : State) (hc : ∀ r, c ≠ .aonResetRelease r) (h : exec c s = .next t) :
    t.fixed = s.fixed := by
  cases c with
  | powerOn => exact execPowerOn_fixed s t h
  | powerOff => exact execPowerOff_fixed s t h
  | aonResetAssert => exact execAonResetAssert_fixed s t h
  | aonResetRelease cfgRole => exact absurd rfl (hc cfgRole)
  | fastResetAssert => exact execFastResetAssert_fixed s t h
  | fastResetRelease => exact execFastResetRelease_fixed s t h
  | laneReset lane assert => exact execLaneReset_fixed lane assert s t h
  | portReset port assert => exact execPortReset_fixed port assert s t h
  | fastClockNeed => exact execFastClockNeed_fixed s t h
  | dueWake => exact execDueWake_fixed s t h
  | fclkAckRise => exact execFclkAckRise_fixed s t h
  | fclkAckFall => exact execFclkAckFall_fixed s t h
  | wakeLateTimer => exact execWakeLateTimer_fixed s t h
  | fastClockRelease => exact execFastClockRelease_fixed s t h
  | warmResetKey who data => exact execWarmResetKey_fixed who data s t h
  | warmResetRelease => exact execWarmResetRelease_fixed s t h
  | sramInitDone => exact execSramInitDone_fixed s t h
  | romBoot => exact execRomBoot_fixed s t h
  | bootGo who data => exact execBootGo_fixed who data s t h
  | pmBootStageWrite who data => exact execPmBootStageWrite_fixed who data s t h
  | registerWrite who addr data => exact execRegisterWrite_fixed who addr data s t h
  | readClear who addr => exact execReadClear_fixed who addr s t h
  | pairLowRead who addr => exact execPairLowRead_fixed who addr s t h
  | pairHighRead who addr => exact execPairHighRead_fixed who addr s t h
  | pairHighWrite who addr data => exact execPairHighWrite_fixed who addr data s t h
  | pairLowWrite who addr data => exact execPairLowWrite_fixed who addr data s t h
  | shadowWrite who addr data => exact execShadowWrite_fixed who addr data s t h
  | liveWrite who addr data => exact execLiveWrite_fixed who addr data s t h
  | debugUpdateDr => exact execDebugUpdateDr_fixed s t h
  | debugCaptureDr => exact execDebugCaptureDr_fixed s t h
  | debugReset => exact execDebugReset_fixed s t h
  | secAuthChange level => exact execSecAuthChange_fixed level s t h
  | eventInputCount levels => exact execEventInputCount_fixed levels s t h
  | gapCount => exact execGapCount_fixed s t h
  | buntingIncrement incs => exact execBuntingIncrement_fixed incs s t h
  | hostQueueMonitor levels => exact execHostQueueMonitor_fixed levels s t h
  | planLatch plan => exact execPlanLatch_fixed plan s t h
  | latchBankDrain => exact execLatchBankDrain_fixed s t h
  | sample q => exact execSample_fixed q s t h
  | snapshot q => exact execSnapshot_fixed q s t h
  | strikeLatch => exact execStrikeLatch_fixed s t h
  | score q => exact execScore_fixed q s t h
  | scoreVectorDone q => exact execScoreVectorDone_fixed q s t h
  | scoreBound q => exact execScoreBound_fixed q s t h
  | check q => exact execCheck_fixed q s t h
  | tileSummary lane => exact execTileSummary_fixed lane s t h
  | recomputeDone lane => exact execRecomputeDone_fixed lane s t h
  | knownAnswerDone => exact execKnownAnswerDone_fixed s t h
  | checkBound q => exact execCheckBound_fixed q s t h
  | dump q => exact execDump_fixed q s t h
  | send q => exact execSend_fixed q s t h
  | waitFlag q => exact execWaitFlag_fixed q s t h
  | waitFlagSatisfied q => exact execWaitFlagSatisfied_fixed q s t h
  | cycleDetected q => exact execCycleDetected_fixed q s t h
  | waitFlagTimeout q => exact execWaitFlagTimeout_fixed q s t h
  | setFlag q => exact execSetFlag_fixed q s t h
  | clearFlag q => exact execClearFlag_fixed q s t h
  | waitTime q => exact execWaitTime_fixed q s t h
  | waitTimeReached q => exact execWaitTimeReached_fixed q s t h
  | fence q => exact execFence_fixed q s t h
  | commandCompletion q slot => exact execCommandCompletion_fixed q slot s t h
  | plovWatchdog q => exact execPlovWatchdog_fixed q s t h
  | ringSlotWrite who addr data => exact execRingSlotWrite_fixed who addr data s t h
  | queueDoorbell who q data => exact execQueueDoorbell_fixed who q data s t h
  | swapRequest who q data => exact execSwapRequest_fixed who q data s t h
  | queueBankSwap q => exact execQueueBankSwap_fixed q s t h
  | queueResume who q => exact execQueueResume_fixed who q s t h
  | queueReset who q => exact execQueueReset_fixed who q s t h
  | predSet who data => exact execPredSet_fixed who data s t h
  | predClr who data => exact execPredClr_fixed who data s t h
  | flagSetExternal who data => exact execFlagSetExternal_fixed who data s t h
  | flagClrExternal who data => exact execFlagClrExternal_fixed who data s t h
  | doorbell who data => exact execDoorbell_fixed who data s t h
  | claimHost who => exact execClaimHost_fixed who s t h
  | claimSteward who => exact execClaimSteward_fixed who s t h
  | hoistLoad who => exact execHoistLoad_fixed who s t h
  | hoistLoadEnd => exact execHoistLoadEnd_fixed s t h
  | hoistFeedWord who data => exact execHoistFeedWord_fixed who data s t h
  | feedTimeout => exact execFeedTimeout_fixed s t h
  | hoistCommit who data => exact execHoistCommit_fixed who data s t h
  | commitSwap => exact execCommitSwap_fixed s t h
  | commitDrainTimeout => exact execCommitDrainTimeout_fixed s t h
  | copyBackDone => exact execCopyBackDone_fixed s t h
  | hoistDiscard who => exact execHoistDiscard_fixed who s t h
  | requireSigWrite who data => exact execRequireSigWrite_fixed who data s t h
  | epochSwitch base => exact execEpochSwitch_fixed base s t h
  | rateWrite who data => exact execRateWrite_fixed who data s t h
  | offsetStep who data => exact execOffsetStep_fixed who data s t h
  | todArm who data => exact execTodArm_fixed who data s t h
  | ppsEdge tick => exact execPpsEdge_fixed tick s t h
  | captureEdge input tick => exact execCaptureEdge_fixed input tick s t h
  | pulseFire output => exact execPulseFire_fixed output s t h
  | syncExchangeStart => exact execSyncExchangeStart_fixed s t h
  | syncExchangeLost => exact execSyncExchangeLost_fixed s t h
  | syncMiss => exact execSyncMiss_fixed s t h
  | holdWrite who data => exact execHoldWrite_fixed who data s t h
  | lapChange => exact execLapChange_fixed s t h
  | memoryTapBeat tap granules drop => exact execMemoryTapBeat_fixed tap granules drop s t h
  | memoryTapDrop tap => exact execMemoryTapDrop_fixed tap s t h
  | trackerAgeOut region frame wr => exact execTrackerAgeOut_fixed region frame wr s t h
  | linkTapBeat tap ingress sof eof data peer err drop => exact execLinkTapBeat_fixed tap ingress sof eof data peer err drop s t h
  | taintEntryExpire entry => exact execTaintEntryExpire_fixed entry s t h
  | drainedWrite who data => exact execDrainedWrite_fixed who data s t h
  | drainLateTimer => exact execDrainLateTimer_fixed s t h
  | laneTrainStart lane lock => exact execLaneTrainStart_fixed lane lock s t h
  | announceTimer lane => exact execAnnounceTimer_fixed lane s t h
  | laneBlockReceive lane block => exact execLaneBlockReceive_fixed lane block s t h
  | laneLockLoss lane => exact execLaneLockLoss_fixed lane s t h
  | laneReplayTimeout lane => exact execLaneReplayTimeout_fixed lane s t h
  | laneRetrainTimer lane => exact execLaneRetrainTimer_fixed lane s t h
  | egressBoundary egress => exact execEgressBoundary_fixed egress s t h
  | ethernetFrameReceive port frame fcsErr => exact execEthernetFrameReceive_fixed port frame fcsErr s t h
  | ethernetLinkChange port up => exact execEthernetLinkChange_fixed port up s t h
  | associationRto peer => exact execAssociationRto_fixed peer s t h
  | associationAnnounce peer => exact execAssociationAnnounce_fixed peer s t h
  | ackTimer peer => exact execAckTimer_fixed peer s t h
  | refusalSummary => exact execRefusalSummary_fixed s t h
  | epochFold base => exact execEpochFold_fixed base s t h
  | resultPublish => exact execResultPublish_fixed s t h
  | retiredTagExpire place => exact execRetiredTagExpire_fixed place s t h
  | cubeTokenRefill cube => exact execCubeTokenRefill_fixed cube s t h
  | sparesAdd who data => exact execSparesAdd_fixed who data s t h
  | admitTimeReached slot => exact execAdmitTimeReached_fixed slot s t h
  | satWindowEnd => exact execSatWindowEnd_fixed s t h
  | levelSatWindow => exact execLevelSatWindow_fixed s t h
  | sensorReading id value => exact execSensorReading_fixed id value s t h
  | droopReport monitor => exact execDroopReport_fixed monitor s t h
  | vinPoll => exact execVinPoll_fixed s t h
  | pmbusFwCommand who data => exact execPmbusFwCommand_fixed who data s t h
  | pmbusTransactionEnd answer => exact execPmbusTransactionEnd_fixed answer s t h
  | pmbusAlert => exact execPmbusAlert_fixed s t h
  | throttleFallTimer => exact execThrottleFallTimer_fixed s t h
  | throttleAck => exact execThrottleAck_fixed s t h
  | throttleAckRelease => exact execThrottleAckRelease_fixed s t h
  | throttleAckLate => exact execThrottleAckLate_fixed s t h
  | throttleGrant level => exact execThrottleGrant_fixed level s t h
  | hostReadResponse tag data err => exact execHostReadResponse_fixed tag data err s t h
  | fleetStoreResponse tag data err => exact execFleetStoreResponse_fixed tag data err s t h
  | flashOperationEnd => exact execFlashOperationEnd_fixed s t h
  | flashBusyTimeout => exact execFlashBusyTimeout_fixed s t h
  | traceRecord r => exact execTraceRecord_fixed r s t h
  | lowPowerEntry => exact execLowPowerEntry_fixed s t h
  | lowPowerExit => exact execLowPowerExit_fixed s t h
  | traceArm who data => exact execTraceArm_fixed who data s t h
  | traceTriggerWrite who data => exact execTraceTriggerWrite_fixed who data s t h
  | traceOff who data => exact execTraceOff_fixed who data s t h
  | hangDumpKey who data => exact execHangDumpKey_fixed who data s t h
  | segmentSend engine => exact execSegmentSend_fixed engine s t h
  | dumpBound q => exact execDumpBound_fixed q s t h
  | engineSave who engine data => exact execEngineSave_fixed who engine data s t h
  | engineRestore who engine data => exact execEngineRestore_fixed who engine data s t h
  | engineReset who engine data => exact execEngineReset_fixed who engine data s t h
  | engineImageDone engine => exact execEngineImageDone_fixed engine s t h
  | segmentStore => exact execSegmentStore_fixed s t h
  | contextIdleFree context => exact execContextIdleFree_fixed context s t h
  | logRecordWrite => exact execLogRecordWrite_fixed s t h
  | overflowMarker => exact execOverflowMarker_fixed s t h
  | logFreeze who data => exact execLogFreeze_fixed who data s t h
  | freezeTimeout => exact execFreezeTimeout_fixed s t h
  | logClear who data => exact execLogClear_fixed who data s t h
  | lifeBaseWrite who pcc data => exact execLifeBaseWrite_fixed who pcc data s t h
  | opsecTick => exact execOpsecTick_fixed s t h
  | lifeSave => exact execLifeSave_fixed s t h
  | nvPageProgram => exact execNvPageProgram_fixed s t h
  | logRebuild => exact execLogRebuild_fixed s t h
  | scrubStep found => exact execScrubStep_fixed found s t h
  | scrubLate => exact execScrubLate_fixed s t h
  | stewardInstruction => exact execStewardInstruction_fixed s t h
  | pnOpen rd rs1 rs2 => exact execPnOpen_fixed rd rs1 rs2 s t h
  | pnPut rd rs1 rs2 => exact execPnPut_fixed rd rs1 rs2 s t h
  | pnDrop rd rs1 rs2 => exact execPnDrop_fixed rd rs1 rs2 s t h
  | pnSend rd rs1 rs2 => exact execPnSend_fixed rd rs1 rs2 s t h
  | dbRing rd rs1 rs2 => exact execDbRing_fixed rd rs1 rs2 s t h
  | tmRd rd rs1 rs2 => exact execTmRd_fixed rd rs1 rs2 s t h
  | stewardTimer => exact execStewardTimer_fixed s t h
  | stewardWatchdog => exact execStewardWatchdog_fixed s t h
  | wdogKick who data => exact execWdogKick_fixed who data s t h
  | firmwareRecord who data => exact execFirmwareRecord_fixed who data s t h
  | imageLoad who data => exact execImageLoad_fixed who data s t h
  | imageLoadEnd => exact execImageLoadEnd_fixed s t h
  | imageSwap who data => exact execImageSwap_fixed who data s t h
  | flashCommand who data => exact execFlashCommand_fixed who data s t h
  | secFloorWrite who data => exact execSecFloorWrite_fixed who data s t h
  | debugShiftDr tdi => exact execDebugShiftDr_fixed tdi s t h
  | unknownOpcode q => exact execUnknownOpcode_fixed q s t h
  | queuedPennantBound lane => exact execQueuedPennantBound_fixed lane s t h
  | mtErrReportTimeout region frame wr => exact execMtErrReportTimeout_fixed region frame wr s t h
  | lifeBlockReadEnd => exact execLifeBlockReadEnd_fixed s t h

theorem execAonResetRelease_next (s : State) (r : Bool) (h : s.pw.st = .aonReset) :
    exec (.aonResetRelease r) s = .next (s.aonRelease r) := by
  show execAonResetRelease r s = _
  rw [execAonResetRelease, if_pos h]

/-- The release samples the role from the tie-off, or, outside AON_RESET, does nothing. -/
theorem execAonResetRelease_fixed_or_role (r : Bool) (s t : State) (h : execAonResetRelease r s = .next t) :
    t.fixed = s.fixed ∨ t.fixed = (b2n r, s.fixed.2) := by
  cases h
  split
  · exact .inr (State.aonRelease_fixed s r)
  · exact .inl rfl

/-- What a step can do to the fixed part: the front command leaves the queue, and only a release at the front takes a role. -/
theorem step_fixed_cases (s t : State) (h : step s = .next t) :
    t.fixed = State.fixed { s with pending := s.pending.tail } ∨
      ∃ r, s.pending.head? = some (.aonResetRelease r) ∧
        t.fixed = (b2n r, (State.fixed { s with pending := s.pending.tail }).2) := by
  unfold step at h
  cases hp : s.pending with
  | nil =>
    rw [hp] at h
    cases h
    left
    rw [State.idle_fixed, State.fixed, hp]
    rfl
  | cons c cs =>
    rw [hp] at h
    by_cases hc : ∃ r, c = .aonResetRelease r
    · obtain ⟨r, rfl⟩ := hc
      exact (execAonResetRelease_fixed_or_role r _ t h).imp_right fun hr => ⟨r, rfl, hr⟩
    · exact .inl (exec_fixed c _ t (fun r hr => hc ⟨r, hr⟩) h)

/-- The taps, the waiting commands and the numbers of queues and lanes after a step, whatever command ran. -/
theorem step_keeps_build (s t : State) (h : step s = .next t) :
    t.memTaps = s.memTaps ∧ t.linkTaps = s.linkTaps ∧ t.pending = s.pending.tail ∧
      t.queues.length = s.queues.length ∧ t.hl.lanes.length = s.hl.lanes.length := by
  have key : t.fixed.2 = (State.fixed { s with pending := s.pending.tail }).2 := by
    obtain hf | ⟨_, _, hf⟩ := step_fixed_cases s t h <;> rw [hf]
  simpa only [State.fixed, Prod.mk.injEq] using key

/-- The role after a step: the old one, or the tie-off's when a release stood at the front. -/
theorem step_role (s t : State) (h : step s = .next t) :
    t.role = s.role ∨ ∃ r, s.pending.head? = some (.aonResetRelease r) ∧ t.role = b2n r :=
  (step_fixed_cases s t h).imp (congrArg Prod.fst) fun ⟨r, hr, hf⟩ => ⟨r, hr, congrArg Prod.fst hf⟩

theorem b2n_le_one (b : Bool) : b2n b ≤ 1 := by
  cases b <;> decide

/-- Settles O4: a role sampled from the tie-off is 0 or 1 (R1), and no step changes the numbers of queues and lanes. -/
theorem everyStepKeepsTheMachineSound : Obligations.EveryStepKeepsTheMachineSound := by
  intro s t ⟨hrole, hqueues, hlanes⟩ h
  obtain ⟨-, -, -, hq, hl⟩ := step_keeps_build s t h
  refine ⟨?_, hq.trans hqueues, hl.trans hlanes⟩
  obtain hr | ⟨r, -, hr⟩ := step_role s t h <;> rw [hr]
  · exact hrole
  · exact b2n_le_one r

/-- Settles O5: the release completes with the tie-off's role, and a step without it at the front keeps the role. -/
theorem onlyTheAlwaysOnResetSetsTheRole : Obligations.OnlyTheAlwaysOnResetSetsTheRole := by
  refine ⟨fun s r h => ⟨_, execAonResetRelease_next s r h, congrArg Prod.fst (State.aonRelease_fixed s r)⟩, fun s t h => ?_⟩
  obtain ⟨hmem, hlink, hpending, -, -⟩ := step_keeps_build s t h
  refine ⟨hmem, hlink, hpending, fun hfront => ?_⟩
  obtain hr | ⟨r, hhead, -⟩ := step_role s t h
  · exact hr
  · exact absurd hhead (hfront r)

/-- Settles O1, by the definition of a step on a queue that is not empty. -/
theorem stepRunsTheFrontCommand : Obligations.StepRunsTheFrontCommand := by
  intro c cs s hp
  unfold step
  rw [hp]

/-- Settles O3, by evaluating the reset state. -/
theorem resetIsSound : Obligations.ResetIsSound :=
  ⟨⟨by decide, by decide, by decide⟩, by decide⟩

end Sys2Proof.Machine
end

section
namespace Sys2Proof.Machine

/-! ## Bits of words -/

theorem bit_eq_testBit (n i : Nat) : bit n i = n.testBit i := by
  rw [bit, Nat.testBit_eq_decide_div_mod_eq, Nat.shiftRight_eq_div_pow]
  rfl

/-- A bit below 32 of a word with the bits of `m` replaced. -/
theorem bit_maskIn (old m v b : Nat) (hm : m < 2 ^ 32) (hb : b < 32) :
    bit (maskIn old m v) b = if bit m b then bit v b else bit old b := by
  simp only [bit_eq_testBit, maskIn, Nat.testBit_or, Nat.testBit_and, Nat.sub_sub, Nat.add_comm 1 m,
    Nat.testBit_two_pow_sub_succ hm, hb, decide_true, Bool.true_and]
  cases m.testBit b <;> simp

/-- A bit below 32 of a word with the bits of `m` cleared. -/
theorem bit_clear (x m b : Nat) (hm : m < 2 ^ 32) (hb : b < 32) :
    bit (x &&& (2 ^ 32 - 1 - m)) b = (bit x b && !bit m b) := by
  simp only [bit_eq_testBit, Nat.testBit_and, Nat.sub_sub, Nat.add_comm 1 m, Nat.testBit_two_pow_sub_succ hm, hb, decide_true,
    Bool.true_and]

theorem bit_and (x y b : Nat) : bit (x &&& y) b = (bit x b && bit y b) := by
  simp only [bit_eq_testBit, Nat.testBit_and]

@[simp] theorem bit_zero (b : Nat) : bit 0 b = false := by
  rw [bit_eq_testBit, Nat.zero_testBit]

theorem bit_toNat (d : Word) (b : Nat) : bit d.toNat b = d.getLsbD b := by
  rw [bit_eq_testBit, BitVec.testBit_toNat]

/-- A written word's bits below 32. -/
theorem State.bit_rd_wr (s : State) (off v b : Nat) (hb : b < 32) : bit ((s.wr off v).rd off) b = bit v b := by
  rw [State.rd_wr_same, bit_eq_testBit, bit_eq_testBit, Nat.testBit_mod_two_pow, decide_eq_true hb, Bool.true_and]

/-! ## The access codes of the register map -/

/-- The RW and RC masks of a row lie within a register's 32 bits. -/
def RegDef.masksFit (d : RegDef) : Bool := decide (d.rw < 2 ^ 32) && decide (d.rc < 2 ^ 32)

theorem regPage_masksFit (off : Nat) : (regPage off).all RegDef.masksFit = true := by
  unfold regPage
  repeat' refine ite_prop (P := fun l : List RegDef => l.all RegDef.masksFit = true) ?_ ?_
  all_goals decide +kernel

theorem State.reg?_masks (s : State) (off : Nat) (d : RegDef) (h : s.reg? off = some d) : d.rw < 2 ^ 32 ∧ d.rc < 2 ^ 32 := by
  have hf : findReg off = some d := by
    unfold State.reg? at h
    split at h
    · split at h
      · cases h
        assumption
      · cases h
    · cases h
  have hd : d.masksFit = true := List.all_eq_true.mp (regPage_masksFit off) d (List.mem_of_find?_eq_some hf)
  simpa only [RegDef.masksFit, Bool.and_eq_true, decide_eq_true_eq] using hd

/-! ## Plain writes (R14, R15) -/

theorem State.plainWrite_eq_regs (s : State) (d : RegDef) (off v : Nat) :
    s.plainWrite d off v = { s with regs := (s.plainWrite d off v).regs } := by
  unfold State.plainWrite
  split <;> rfl

theorem State.rd_plainWrite_other (s : State) (d : RegDef) (off v o : Nat) (h : o ≠ off) :
    (s.plainWrite d off v).rd o = s.rd o := by
  unfold State.plainWrite
  split
  · rfl
  · exact State.rd_wr_other s off _ o h

/-- RW bits take the written ones, W1C bits written 1 clear, the others stay. -/
theorem State.bit_rd_plainWrite (s : State) (d : RegDef) (off v b : Nat) (hrw : d.rw < 2 ^ 32) (hv : v < 2 ^ 32) (hb : b < 32) :
    bit ((s.plainWrite d off v).rd off) b =
      ((if bit d.rw b then bit v b else bit (s.rd off) b) && !(bit d.w1c b && bit v b)) := by
  unfold State.plainWrite
  split
  · rename_i h
    simp [h.1, h.2]
  · dsimp only
    rw [State.bit_rd_wr _ _ _ _ hb, bit_clear _ _ _ (Nat.lt_of_le_of_lt Nat.and_le_left hv) hb, bit_maskIn _ _ _ _ hrw hb, bit_and,
      Bool.and_comm (bit v b)]

/-! ## What a read does besides answering (R14, R193, R205) -/

theorem State.readCleared_eq_regs (s : State) (d : RegDef) (off : Nat) :
    s.readCleared d off = { s with regs := (s.readCleared d off).regs } := by
  unfold State.readCleared
  split <;> rfl

theorem State.rd_readCleared_other (s : State) (d : RegDef) (off o : Nat) (h : o ≠ off) :
    (s.readCleared d off).rd o = s.rd o := by
  unfold State.readCleared
  split
  · rfl
  · exact State.rd_wr_other s off _ o h

/-- RC bits go back to their reset value, the others stay. -/
theorem State.bit_rd_readCleared (s : State) (d : RegDef) (off b : Nat) (hrc : d.rc < 2 ^ 32) (hb : b < 32) :
    bit ((s.readCleared d off).rd off) b = if bit d.rc b then bit (resetOf off) b else bit (s.rd off) b := by
  unfold State.readCleared
  split
  · rename_i h
    simp [h]
  · rw [State.bit_rd_wr _ _ _ _ hb, bit_maskIn _ _ _ _ hrc hb]

theorem State.readEffect_absent (s : State) (off : Nat) (h : s.reg? off = none) : s.readEffect off = s := by
  unfold State.readEffect
  rw [h]

/-- A register that is no claim and no capture stamp only has its RC fields cleared. -/
theorem State.readEffect_clears (s : State) (off : Nat) (d : RegDef) (h : s.reg? off = some d) (hh : off ≠ Reg.IC_CLAIM_H)
    (hs : off ≠ Reg.IC_CLAIM_S) (hc : ¬ (0x8200 ≤ off ∧ off < 0x8240)) : s.readEffect off = s.readCleared d off := by
  unfold State.readEffect
  rw [h]
  dsimp only
  rw [if_neg hh, if_neg hs, if_neg fun ⟨h1, h2, _⟩ => hc ⟨h1, h2⟩]

@[simp] theorem State.capRead_holds (s : State) (k : Nat) : (s.capRead k).holds = s.holds := rfl

@[simp] theorem State.readCleared_holds (s : State) (d : RegDef) (off : Nat) : (s.readCleared d off).holds = s.holds := by
  rw [State.readCleared_eq_regs]

/-- No read moves the holding registers of the pairs, but the pair's own rule. -/
theorem State.readEffect_holds (s : State) (off : Nat) : (s.readEffect off).holds = s.holds := by
  unfold State.readEffect
  split
  · rfl
  · split_ifs
    · rfl
    · exact State.unpend_holds s _
    · rfl
    · exact State.unpend_holds s _
    · exact State.capRead_holds s _
    · exact State.readCleared_holds s _ _

/-! ## Holding registers (R12, R13) -/

@[simp] theorem State.holding_setHolding_same (s : State) (k : Nat) (f : Holding → Holding) :
    (s.setHolding k f).holding k = f (s.holding k) :=
  Sparse.get_set_same _ _ _ _

theorem State.holding_setHolding_other (s : State) (k j : Nat) (f : Holding → Holding) (h : j ≠ k) :
    (s.setHolding k f).holding j = s.holding j :=
  Sparse.get_set_other _ _ _ _ _ h

@[simp] theorem State.holding_readEffect (s : State) (off k : Nat) : (s.readEffect off).holding k = s.holding k := by
  rw [State.holding, State.readEffect_holds]
  rfl

/-! ## Reads on the bus -/

/-- A read of no half of a pair. -/
theorem State.busRead_single (s : State) (req off : Nat) (hc : off < 0x70000 ∨ 0x80000 ≤ off) (hl : lowHalf off = false)
    (hh : highHalf off = false) : s.busRead req off = (s.view off, s.readEffect off) := by
  unfold State.busRead
  rw [State.catchUp_quiet s off hc, hh, hl]
  rfl

/-- A read of a low half holds the high word of the same moment. -/
theorem State.busRead_low (s : State) (req off : Nat) (hc : off < 0x70000 ∨ 0x80000 ≤ off) (hl : lowHalf off = true)
    (hh : highHalf off = false) (hr : (s.reg? off).isSome = true) :
    s.busRead req off =
      (s.view off, (s.setHolding req fun x => { x with rd := some (off, s.view (off + 4)) }).readEffect off) := by
  unfold State.busRead
  rw [State.catchUp_quiet s off hc, hh, hl]
  dsimp only
  rw [hr]
  rfl

/-- A read of a high half answers the word held for it. -/
theorem State.busRead_high_held (s : State) (req off lo h : Nat) (hc : off < 0x70000 ∨ 0x80000 ≤ off) (hh : highHalf off = true)
    (hr : (s.holding req).rd = some (lo, h)) (hlo : lo + 4 = off) :
    s.busRead req off = (h, s.setHolding req fun x => { x with rd := none }) := by
  unfold State.busRead
  rw [State.catchUp_quiet s off hc, hh]
  dsimp only
  rw [hr, if_pos rfl]
  exact if_pos hlo

theorem State.busRead_high_free (s : State) (req off : Nat) (hc : off < 0x70000 ∨ 0x80000 ≤ off) (hh : highHalf off = true)
    (hr : (s.holding req).rd = none) : s.busRead req off = (s.view off, s.readEffect off) := by
  unfold State.busRead
  rw [State.catchUp_quiet s off hc, hh]
  dsimp only
  rw [hr, if_pos rfl]

/-! ## Writes on the bus -/

theorem State.busWrite_absent (s : State) (req off v : Nat) (hc : off < 0x70000 ∨ 0x80000 ≤ off)
    (hw : s.windowWrite off v = none) (hr : s.reg? off = none) : s.busWrite req off v = (s, true) := by
  unfold State.busWrite
  rw [State.catchUp_quiet s off hc]
  dsimp only
  rw [hw]
  dsimp only
  rw [hr]

theorem State.busWrite_present (s : State) (req off v : Nat) (d : RegDef) (hc : off < 0x70000 ∨ 0x80000 ≤ off)
    (hw : s.windowWrite off v = none) (hr : s.reg? off = some d) : s.busWrite req off v = s.heldWrite req d off v := by
  unfold State.busWrite
  rw [State.catchUp_quiet s off hc]
  dsimp only
  rw [hw]
  dsimp only
  rw [hr]

/-- A register without SH fields or a rule of its own takes a write by its access codes. -/
theorem State.regWrite_plain (s : State) (req off v : Nat) (d : RegDef) (hs : s.specialWrite req off v = none) (hd : d.sh = 0) :
    s.regWrite req d off v = (s.plainWrite d off v, true) := by
  unfold State.regWrite
  rw [hs]
  exact if_pos hd

theorem State.heldWrite_single (s : State) (req off v : Nat) (d : RegDef) (hl : lowHalf off = false) (hh : highHalf off = false) :
    s.heldWrite req d off v = s.regWrite req d off v := by
  unfold State.heldWrite
  rw [hh, hl]
  rfl

/-- A high half that its register's rule does not refuse is held. -/
theorem State.heldWrite_high (s : State) (req off v : Nat) (d : RegDef) (hh : highHalf off = true)
    (hr : s.highRefused req d off v = none) :
    s.heldWrite req d off v = (s.setHolding req fun x => { x with wr := some (off - 4, v) }, true) := by
  unfold State.heldWrite
  rw [hh, hr]
  rfl

/-- A low half commits the pair whose high half is held, and ends the holding if the pair is not refused. -/
theorem State.heldWrite_low (s : State) (req off v h : Nat) (d : RegDef) (hl : lowHalf off = true) (hh : highHalf off = false)
    (hw : (s.holding req).wr = some (off, h)) (ht : (s.pairWrite req d off v h).2 = true) :
    s.heldWrite req d off v = ((s.pairWrite req d off v h).1.setHolding req fun x => { x with wr := none }, true) := by
  unfold State.heldWrite
  rw [hh, hl, if_pos rfl, hw]
  simp [ht]

theorem State.reg?_plainWrite (s : State) (d : RegDef) (off v o : Nat) : (s.plainWrite d off v).reg? o = s.reg? o := by
  rw [State.plainWrite_eq_regs]
  rfl

/-- Two halves without SH fields or rules of their own each take their word by their access codes. -/
theorem State.pairWrite_plain (s : State) (req lo v h : Nat) (d e : RegDef) (he : s.reg? (lo + 4) = some e) (hd : d.sh = 0)
    (he0 : e.sh = 0) (hlo : s.specialWrite req lo v = none)
    (hhi : (s.plainWrite d lo v).specialWrite req (lo + 4) h = none) :
    s.pairWrite req d lo v h = ((s.plainWrite d lo v).plainWrite e (lo + 4) h, true) := by
  unfold State.pairWrite
  rw [if_neg (not_not.mpr hd), State.regWrite_plain s req lo v d hlo hd]
  dsimp only
  rw [he, if_pos rfl]
  exact State.regWrite_plain _ req _ h e hhi he0

/-! ## Commands that access a register -/

/-- A command that is a read completes with what the bus answers. -/
theorem answers_of_busRead {c : Instr} {s : State} {who : Who} {off v : Nat} {u : State} (hc : exec c s = .next (s.readBy who off))
    (hready : s.ready who) (hb : s.busRead (Who.num who) off = (v, u)) : Answers c s who v false u := by
  have h := State.read_performed s who off hready
  rw [hb] at h
  exact ⟨_, hc, h⟩

/-- A command that is a write is taken with what the bus leaves. -/
theorem writes_of_busWrite {c : Instr} {s : State} {who : Who} {off v : Nat} {u : State}
    (hc : exec c s = .next (s.writeBy who off v)) (hready : s.ready who)
    (hb : s.busWrite (Who.num who) off v = (u, true)) : Writes c s who u := by
  have h := State.write_performed s who off v hready
  rw [hb] at h
  exact ⟨_, hc, h⟩

/-- Settles O14: the bus performs the write by the register's access codes (R14, R15), or ignores it where no register is. -/
theorem plainWritesSetTheirFields : Obligations.PlainWritesSetTheirFields := by
  refine ⟨fun s who a d r hready hc hw hr hsh hs hl hh => ?_, fun s who a d hready hc hw hr => ?_⟩
  · have hb : s.busWrite (Who.num who) (byteOff a) d.toNat = (s.plainWrite r (byteOff a) d.toNat, true) := by
      rw [State.busWrite_present s _ _ _ r hc hw hr, State.heldWrite_single s _ _ _ r hl hh, State.regWrite_plain s _ _ _ r hs hsh]
    refine ⟨_, writes_of_busWrite rfl hready hb, State.plainWrite_eq_regs s r _ _, fun o ho => ?_, fun b hlt => ?_⟩
    · exact State.rd_plainWrite_other s r _ _ o (List.ne_of_not_mem_cons ho)
    · rw [State.bit_rd_plainWrite s r _ _ b (State.reg?_masks s _ r hr).1 d.isLt hlt, bit_toNat]
  · exact writes_of_busWrite rfl hready (State.busWrite_absent s _ _ _ hc hw hr)

/-- Settles O15: besides answering, such a read only clears the RC fields (R14); where nothing is, 0 is shown (R11). -/
theorem readsAnswerTheViewAndClearReadClearFields : Obligations.ReadsAnswerTheViewAndClearReadClearFields := by
  refine ⟨fun s who a r hready hc hr hclaimH hclaimS hcap hl hh => ?_, fun s who a hready hc hr hview hl hh => ?_⟩
  · have hb := State.busRead_single s (Who.num who) (byteOff a) hc hl hh
    rw [State.readEffect_clears s _ r hr hclaimH hclaimS hcap] at hb
    refine ⟨_, answers_of_busRead rfl hready hb, State.readCleared_eq_regs s r _, fun o ho => ?_, fun b hlt => ?_⟩
    · exact State.rd_readCleared_other s r _ o (List.ne_of_not_mem_cons ho)
    · exact State.bit_rd_readCleared s r _ b (State.reg?_masks s _ r hr).2 hlt
  · have hb := State.busRead_single s (Who.num who) (byteOff a) hc hl hh
    have hv : s.view (byteOff a) = 0 := by
      unfold State.view
      rw [hview, hr]
    rw [hv, State.readEffect_absent s _ hr] at hb
    exact answers_of_busRead rfl hready hb

/-- Settles O16: reads and writes of the halves go through the requester's own holding registers (R12, R13). -/
theorem pairsAreCoherent : Obligations.PairsAreCoherent := by
  refine ⟨⟨fun s who a hready hc hl hh hr => ?_, fun s who a lo h hready hc hh hr hlo => ?_, fun s who a hready hc hh hr => ?_⟩,
    fun s who a d r hready hc hw hr hh hnot => ?_, fun s who a d r e h hready hc hw hr he hl hh hheld hsh hshe hlo hhi => ?_⟩
  · refine ⟨_, answers_of_busRead rfl hready (State.busRead_low s _ _ hc hl hh hr), ?_, fun k hk => ?_⟩
    · rw [State.holding_readEffect, State.holding_setHolding_same]
    · rw [State.holding_readEffect, State.holding_setHolding_other _ _ _ _ hk]
  · exact answers_of_busRead rfl hready (State.busRead_high_held s _ _ lo h hc hh hr hlo)
  · exact answers_of_busRead rfl hready (State.busRead_high_free s _ _ hc hh hr)
  · refine writes_of_busWrite rfl hready ?_
    rw [State.busWrite_present s _ _ _ r hc hw hr, State.heldWrite_high s _ _ _ r hh hnot]
  · have hp := State.pairWrite_plain s (Who.num who) (byteOff a) d.toNat h r e he hsh hshe hlo hhi
    refine writes_of_busWrite rfl hready ?_
    rw [State.busWrite_present s _ _ _ r hc hw hr, State.heldWrite_low s _ _ _ h r hl hh hheld (by rw [hp]), hp]

end Sys2Proof.Machine
end

section
namespace Sys2Proof.Machine

/-! ## What writing a record leaves alone -/

/-- The registers that recording touches are those of the interrupt controller, the halyard and the recorder. -/
def recordReg (off : Nat) : Bool :=
  decide (0x6000 ≤ off ∧ off < 0x7000 ∨ 0x50000 ≤ off ∧ off < 0x60000 ∨ 0x90000 ≤ off ∧ off < 0xA0000)

theorem recordReg_of {off : Nat} (h : 0x6000 ≤ off ∧ off < 0x7000 ∨ 0x50000 ≤ off ∧ off < 0x60000 ∨ 0x90000 ≤ off ∧ off < 0xA0000) :
    recordReg off = true :=
  decide_eq_true h

/-- What of an association a pennant that is queued or leaves its pool does not change. -/
def Assoc.core (a : Assoc) : Assoc := { a with queues := [], grant := [], ackAt := none }

/-- What of the halyard neither admission nor a pennant that leaves its place changes. -/
def Halyard.core (h : Halyard) : Halyard :=
  { h with lanes := [], assocs := h.assocs.map Assoc.core, bucketA := { tok := 0, at_ := 0 }, bucketB := { tok := 0, at_ := 0 }, seqs := [],
           refs := {}, srcC := 0, locals := [], seen := [] }

/-- The state without what an event record and its report may change (R490 to R493). -/
def State.unrecorded (s : State) : State :=
  { s with
    regs := s.regs.filter fun e => !recordReg e.1
    pw := { s.pw with st := .off, req := false, need := false, needAt := 0, reqAt := 0, idleFrom := 0 }
    notices := []
    hl := s.hl.core
    ev := { s.ev with intake := [], boot := [], holding := [], ovfN := 0, ovfMask := 0, frzN := 0, held := 0, reoffer := [] } }

/-! ### Sparse memories and a filter by key -/

theorem Sparse.filter_erase {α : Type} (p : Nat → Bool) (m : Sparse α) (k : Nat) (h : p k = false) :
    (m.erase k).filter (fun e => p e.1) = List.filter (fun e => p e.1) m := by
  induction m with
  | nil => rfl
  | cons e m ih =>
    obtain ⟨j, v⟩ := e
    by_cases hj : j = k
    · simpa [Sparse.erase, hj, h] using ih
    · simp [Sparse.erase, hj, List.filter_cons, ih]

theorem Sparse.filter_insert {α : Type} (p : Nat → Bool) (m : Sparse α) (k : Nat) (v : α) (h : p k = false) :
    (m.insert k v).filter (fun e => p e.1) = List.filter (fun e => p e.1) m := by
  induction m with
  | nil => simp [Sparse.insert, h]
  | cons e m ih =>
    obtain ⟨j, w⟩ := e
    unfold Sparse.insert
    split_ifs with hlt heq
    · simp [h]
    · subst heq
      simp [h]
    · simp [List.filter_cons, ih]

/-- A write of a key that the filter drops. -/
theorem Sparse.filter_set {α : Type} [DecidableEq α] (d : Nat → α) (p : Nat → Bool) (m : Sparse α) (k : Nat) (v : α)
    (h : p k = false) : (m.set d k v).filter (fun e => p e.1) = List.filter (fun e => p e.1) m := by
  unfold Sparse.set
  split_ifs
  · exact Sparse.filter_erase p m k h
  · exact Sparse.filter_insert p m k v h

/-- A key that the filter keeps reads as before. -/
theorem Sparse.get_filter {α : Type} (d : Nat → α) (p : Nat → Bool) (m : Sparse α) (k : Nat) (h : p k = true) :
    Sparse.get d (List.filter (fun e => p e.1) m) k = Sparse.get d m k := by
  induction m with
  | nil => rfl
  | cons e m ih =>
    obtain ⟨j, v⟩ := e
    by_cases hj : j = k
    · subst hj
      simp [Sparse.get, h]
    · by_cases hp : p j = true <;> simp [Sparse.get, hj, hp, ih]

/-! ### What stays when the rest of the state does -/

theorem State.kept_of_unrecorded {β : Type} {s t : State} (f : State → β) (hf : ∀ u : State, f u.unrecorded = f u)
    (h : t.unrecorded = s.unrecorded) : f t = f s := by
  rw [← hf t, h, hf s]

theorem State.cyc_of_unrecorded {s t : State} (h : t.unrecorded = s.unrecorded) : t.cyc = s.cyc :=
  State.kept_of_unrecorded State.cyc (fun _ => rfl) h

theorem State.dbg_of_unrecorded {s t : State} (h : t.unrecorded = s.unrecorded) : t.dbg = s.dbg :=
  State.kept_of_unrecorded State.dbg (fun _ => rfl) h

theorem State.queues_of_unrecorded {s t : State} (h : t.unrecorded = s.unrecorded) : t.queues = s.queues :=
  State.kept_of_unrecorded State.queues (fun _ => rfl) h

theorem State.fl_of_unrecorded {s t : State} (h : t.unrecorded = s.unrecorded) : t.fl = s.fl :=
  State.kept_of_unrecorded State.fl (fun _ => rfl) h

theorem State.linkUp_of_unrecorded {s t : State} (h : t.unrecorded = s.unrecorded) : t.hl.linkUp = s.hl.linkUp :=
  State.kept_of_unrecorded (fun u => u.hl.linkUp) (fun _ => rfl) h

/-- A register outside those pages reads as before. -/
theorem State.rd_of_unrecorded {s t : State} (h : t.unrecorded = s.unrecorded) (off : Nat) (ho : recordReg off = false) :
    t.rd off = s.rd off := by
  have hr := congrArg (fun u : State => Sparse.get resetWord u.regs off) h
  have hk : (fun o => !recordReg o) off = true := by simp [ho]
  simp only [State.unrecorded] at hr
  rw [Sparse.get_filter resetWord (fun o => !recordReg o) t.regs off hk,
    Sparse.get_filter resetWord (fun o => !recordReg o) s.regs off hk] at hr
  exact congrArg BitVec.toNat hr

theorem State.get_of_unrecorded {s t : State} (h : t.unrecorded = s.unrecorded) (f : Fld) (ho : recordReg f.off = false) :
    t.get f = s.get f := by
  rw [State.get, State.get, State.rd_of_unrecorded h f.off ho]

/-- An association is still there, with its core. -/
theorem State.assoc_of_unrecorded {s t : State} (h : t.unrecorded = s.unrecorded) (p : Nat) (a : Assoc) (ha : s.assoc? p = some a) :
    ∃ b, t.assoc? p = some b ∧ b.core = a.core := by
  have hc : ∀ u : State, (u.assoc? p).map Assoc.core = (u.unrecorded.hl.assocs.find? fun a => a.peer == p) := by
    intro u
    simp only [State.assoc?, State.unrecorded, Halyard.core, List.find?_map]
    rfl
  have hm := (hc t).trans ((congrArg (fun u : State => u.hl.assocs.find? fun a => a.peer == p) h).trans (hc s).symm)
  rw [ha] at hm
  simpa using hm

/-! ### Registers, needs and sources -/

theorem State.wr_unrecorded (s : State) (off v : Nat) (h : recordReg off = true) : (s.wr off v).unrecorded = s.unrecorded := by
  have hf : (s.wr off v).regs.filter (fun e => !recordReg e.1) = s.regs.filter fun e => !recordReg e.1 :=
    Sparse.filter_set resetWord (fun o => !recordReg o) s.regs off _ (by simp [h])
  unfold State.unrecorded
  rw [hf]
  rfl

theorem State.put_unrecorded (s : State) (f : Fld) (v : Nat) (h : recordReg f.off = true) : (s.put f v).unrecorded = s.unrecorded :=
  s.wr_unrecorded f.off _ h

theorem State.bump_unrecorded (s : State) (f : Fld) (n : Nat) (h : recordReg f.off = true) : (s.bump f n).unrecorded = s.unrecorded :=
  s.wr_unrecorded f.off _ h

theorem State.incr_unrecorded (s : State) (off n : Nat) (h : recordReg off = true) : (s.incr off n).unrecorded = s.unrecorded :=
  s.wr_unrecorded off _ h

@[simp] theorem State.need_unrecorded (s : State) : s.need.unrecorded = s.unrecorded := by
  unfold State.need
  (repeat' split) <;> rfl

@[simp] theorem State.watchWake_unrecorded (s : State) (n : Nat) : (s.watchWake n).unrecorded = s.unrecorded := by
  unfold State.watchWake
  dsimp only
  split_ifs
  · rw [State.need_unrecorded, State.bump_unrecorded _ _ _ (by decide)]
  · exact State.need_unrecorded s
  · rfl

theorem State.srcCount_le (s : State) : s.srcCount ≤ 1024 := by
  unfold State.srcCount
  split <;> decide

@[simp] theorem State.doorbell_unrecorded (s : State) (n : Nat) (outside : Bool) : (s.doorbell n outside).unrecorded = s.unrecorded := by
  unfold State.doorbell
  split_ifs with hbad
  · exact State.bump_unrecorded _ _ _ (by decide)
  · exact State.bump_unrecorded _ _ _ (by decide)
  · have hn : n < 1024 := by
      have := s.srcCount_le
      simp only [Bool.or_eq_true, decide_eq_true_eq] at hbad
      omega
    rw [State.watchWake_unrecorded, State.wr_unrecorded _ _ _ (recordReg_of (by unfold Reg.IC_PEND_k; omega))]

@[simp] theorem State.raise_unrecorded (s : State) (n : Nat) : (s.raise n).unrecorded = s.unrecorded := s.doorbell_unrecorded n false

theorem State.notice_unrecorded (s : State) (e : Nat) (h : e < 32) : (s.notice e).unrecorded = s.unrecorded := by
  have hi : (s.incr (Reg.IC_NOTE_SEQ_e e) 1).unrecorded = s.unrecorded :=
    s.incr_unrecorded _ _ (recordReg_of (by unfold Reg.IC_NOTE_SEQ_e; omega))
  unfold State.notice
  dsimp only
  split_ifs
  · exact hi
  · exact hi
  · rfl

/-! ### Admission -/

theorem State.hl_unrecorded (s : State) (h : Halyard) (hc : h.core = s.hl.core) : State.unrecorded { s with hl := h } = s.unrecorded := by
  unfold State.unrecorded
  dsimp only
  rw [hc]

theorem State.setLane_unrecorded (s : State) (n : Nat) (f : Lane → Lane) : (s.setLane n f).unrecorded = s.unrecorded := rfl

theorem State.setAssoc_unrecorded (s : State) (p : Nat) (f : Assoc → Assoc) (hf : ∀ a, (f a).core = a.core) :
    (s.setAssoc p f).unrecorded = s.unrecorded := by
  refine s.hl_unrecorded _ ?_
  have hm : (s.hl.assocs.map fun a => if a.peer == p then f a else a).map Assoc.core = s.hl.assocs.map Assoc.core := by
    rw [List.map_map]
    refine List.map_congr_left fun a _ => ?_
    simp only [Function.comp_apply]
    split_ifs
    · exact hf a
    · rfl
  simp only [Halyard.core, hm]

theorem State.noteDepth_unrecorded (s : State) (q : Nat) (h : q < 3000) : (s.noteDepth q).unrecorded = s.unrecorded :=
  s.put_unrecorded _ _ (recordReg_of (by simp only [Reg.HL_Q_MAX_q_count, Reg.HL_Q_MAX_q]; omega))

/-- A destination among the eight pairs of lanes, a peer or this unit itself. -/
def Dest.near : Dest → Bool
  | .pair p => decide (p < 8)
  | _ => true

theorem State.laneFor_lt (s : State) (pair cls n : Nat) (h : s.laneFor pair cls = some n) : n < 2 * pair + 2 := by
  have hm := bits_lt (s.rd Reg.HL_LANE_MAP) cls 1
  unfold State.laneFor at h
  dsimp only at h
  split_ifs at h <;> cases h <;> omega

theorem State.portsUp_lt (s : State) (p : Nat) (h : p ∈ s.portsUp) : p < 4 := by
  unfold State.portsUp at h
  split_ifs at h
  · exact (by decide : ∀ q ∈ upto 4, q < 4) p (List.mem_filter.mp h).1
  · cases h

theorem State.portFor_lt (s : State) (peer p : Nat) (h : s.portFor peer = some p) : p < 4 := by
  refine s.portsUp_lt p ?_
  unfold State.portFor at h
  split at h
  · cases h
  · exact List.mem_of_getElem? h

theorem State.enqueue_unrecorded (s : State) (cls : Nat) (e : QEntry) (d : Dest) (hc : cls < 4) (hd : d.near = true) :
    (s.enqueue cls e d).unrecorded = s.unrecorded := by
  cases d with
  | here => rfl
  | pair p =>
    have hp : p < 8 := by simpa [Dest.near] using hd
    have hn : (s.laneFor p cls).getD (2 * p + bits (s.rd Reg.HL_LANE_MAP) cls 1) < 2 * p + 2 := by
      cases hl : s.laneFor p cls with
      | none =>
        have := bits_lt (s.rd Reg.HL_LANE_MAP) cls 1
        simp only [Option.getD_none]
        omega
      | some n => exact s.laneFor_lt p cls n hl
    unfold State.enqueue
    dsimp only
    rw [State.noteDepth_unrecorded _ _ (by omega), State.setLane_unrecorded]
  | peer t =>
    have ha : (s.setAssoc t fun a => { a with queues := modAt a.queues cls fun q => q ++ [e] }).unrecorded = s.unrecorded :=
      s.setAssoc_unrecorded t _ fun _ => rfl
    unfold State.enqueue
    dsimp only
    split
    · rename_i p hp
      have := State.portFor_lt _ _ _ hp
      rw [State.noteDepth_unrecorded _ _ (by omega), ha]
    · exact ha

theorem State.enqueueAll_unrecorded (s : State) (cls : Nat) (e : QEntry) (ds : List Dest) (hc : cls < 4)
    (hd : ∀ d ∈ ds, d.near = true) : (s.enqueueAll cls e ds).unrecorded = s.unrecorded := by
  induction ds generalizing s with
  | nil => rfl
  | cons d ds ih =>
    have h1 := hd d List.mem_cons_self
    cases ds with
    | nil => exact s.enqueue_unrecorded cls e d hc h1
    | cons d' ds' =>
      rw [State.enqueueAll, ih _ fun x hx => hd x (List.mem_cons_of_mem _ hx), s.enqueue_unrecorded cls _ d hc h1]
      exact List.cons_ne_nil d' ds'

theorem near_of_mem_dieDests (d : Dest) (h : d ∈ dieDests) : d.near = true :=
  (by decide : ∀ d ∈ dieDests, d.near = true) d h

theorem State.near_of_mem_cubeStep (s : State) (d : Dest) (h : d ∈ s.cubeStep) : d.near = true := by
  unfold State.cubeStep at h
  obtain hp | hp := List.mem_append.mp h
  · obtain ⟨t, -, rfl⟩ := List.mem_map.mp hp
    rfl
  · exact near_of_mem_dieDests d hp

theorem State.near_of_mem_cubePeers (s : State) (cs : List Nat) (d : Dest)
    (h : d ∈ cs.filterMap fun c => (s.cubeTray c).map Dest.peer) : d.near = true := by
  obtain ⟨c, -, hc⟩ := List.mem_filterMap.mp h
  obtain ⟨t, -, rfl⟩ := Option.map_eq_some_iff.mp hc
  rfl

theorem State.near_of_mem_fanDests (s : State) (job : Nat) (src : Src) (d : Dest) (h : d ∈ s.fanDests job src) : d.near = true := by
  have hstep : ∀ b : Bool, d ∈ (if b then dieDests else s.cubeStep) → d.near = true := by
    intro b hb
    cases b
    · exact s.near_of_mem_cubeStep d hb
    · exact near_of_mem_dieDests d hb
  unfold State.fanDests at h
  dsimp only at h
  by_cases hduty : s.duty ≤ 1
  · rw [if_pos hduty] at h
    exact near_of_mem_dieDests d h
  rw [if_neg hduty] at h
  cases src with
  | own =>
    dsimp only at h
    split_ifs at h
    · exact (List.mem_append.mp h).elim (s.near_of_mem_cubePeers _ d) (s.near_of_mem_cubeStep d)
    · exact s.near_of_mem_cubePeers _ d (List.append_nil _ ▸ h)
    · exact s.near_of_mem_cubeStep d h
  | _ => exact hstep _ h

theorem near_of_singleton {x d : Dest} {ds : List Dest} (h : some [x] = some ds) (hx : x.near = true) (hd : d ∈ ds) : d.near = true := by
  cases h
  rw [List.mem_singleton.mp hd]
  exact hx

theorem near_of_peer {o : Option Nat} {d : Dest} {ds : List Dest} (h : (o.map fun t => [Dest.peer t]) = some ds) (hd : d ∈ ds) :
    d.near = true := by
  obtain ⟨t, -, ht⟩ := Option.map_eq_some_iff.mp h
  exact near_of_singleton (congrArg some ht) rfl hd

theorem State.near_of_mem_upDest (s : State) (job : Nat) (ds : List Dest) (h : s.upDest job = some ds) (d : Dest) (hd : d ∈ ds) :
    d.near = true := by
  unfold State.upDest at h
  split_ifs at h
  · exact near_of_peer h hd
  · split at h
    · split_ifs at h
      · exact near_of_singleton h rfl hd
      · exact near_of_singleton h rfl hd
    · cases h

/-- R384: a pennant goes to one of a tray's eight dies, to a peer, or stays here. -/
theorem State.near_of_mem_route (s : State) (fan addr : Bool) (dest sink job : Nat) (src : Src) (ds : List Dest)
    (h : s.route fan addr dest sink job src = some ds) (d : Dest) (hd : d ∈ ds) : d.near = true := by
  unfold State.route at h
  split_ifs at h
  · exact near_of_singleton h rfl hd
  · cases h
    exact s.near_of_mem_fanDests job src d hd
  · exact near_of_singleton h (decide_eq_true (Nat.mod_lt _ (by decide))) hd
  · exact near_of_singleton h rfl hd
  · exact near_of_peer h hd
  · exact near_of_peer h hd
  · exact s.near_of_mem_upDest job ds h d hd
  · exact near_of_singleton h rfl hd
  · exact near_of_singleton h rfl hd
  · exact s.near_of_mem_upDest job ds h d hd

theorem State.near_of_mem_offerUp (s : State) (o : Offer) (sink : Nat) (d : Dest) (h : d ∈ s.offerUp o sink) : d.near = true := by
  have hm := (List.mem_filter.mp h).1
  cases hr : s.offerRoute o sink with
  | none => simp [hr] at hm
  | some ds =>
    rw [hr] at hm
    exact s.near_of_mem_route _ _ _ _ _ _ ds hr d hm

theorem Offer.cls_lt (o : Offer) : o.cls < 4 := by
  unfold Offer.cls
  split
  · exact bits_lt _ 12 2
  · unfold funcClass
    split_ifs <;> decide

theorem State.spendToken_unrecorded (s : State) (cls : Nat) : (s.spendToken cls).unrecorded = s.unrecorded := by
  have ha : ∀ b : Bucket, State.unrecorded { s with hl := { s.hl with bucketA := b } } = s.unrecorded := fun _ => rfl
  have hb : ∀ b : Bucket, State.unrecorded { s with hl := { s.hl with bucketB := b } } = s.unrecorded := fun _ => rfl
  unfold State.spendToken
  split
  · exact ha _
  · exact hb _

theorem State.admitted_unrecorded (s : State) (o : Offer) : (s.admitted o).unrecorded = s.unrecorded := by
  have hseen : ∀ (u : State) f p, (u.noteSeen f p).unrecorded = u.unrecorded := by
    intro u f p
    unfold State.noteSeen
    split_ifs <;> rfl
  unfold State.admitted
  split
  · rfl
  · dsimp only
    rw [hseen, State.enqueueAll_unrecorded _ _ _ _ o.cls_lt (s.near_of_mem_offerUp o _)]
    have hseqs : ∀ (u : State) l, State.unrecorded { u with hl := { u.hl with seqs := l } } = u.unrecorded := fun _ _ => rfl
    rw [hseqs]
    split_ifs
    · rfl
    · rfl
    · exact s.spendToken_unrecorded _

theorem State.noteRefusal_unrecorded (s : State) (cls unit : Nat) (summary : Bool) (h : cls < 4) :
    (s.noteRefusal cls unit summary).unrecorded = s.unrecorded := by
  have hb : (s.bump (Reg.HL_REFUSED_c_count cls) 1).unrecorded = s.unrecorded :=
    s.bump_unrecorded _ _ (recordReg_of (by simp only [Reg.HL_REFUSED_c_count, Reg.HL_REFUSED_c]; omega))
  unfold State.noteRefusal
  dsimp only
  split
  · exact hb
  · exact hb

@[simp] theorem State.offerRaw_unrecorded (s : State) (o : Offer) : (s.offerRaw o).2.unrecorded = s.unrecorded := by
  unfold State.offerRaw
  dsimp only
  split
  · rw [State.admitted_unrecorded]
    rfl
  · rw [State.noteRefusal_unrecorded _ _ _ _ (Offer.cls_lt { o with job := s.tickBuckets.offerJob o })]
    rfl

/-! ### Records -/

@[simp] theorem State.addHeld_unrecorded (s : State) (n : Nat) : (s.addHeld n).unrecorded = s.unrecorded := rfl

@[simp] theorem State.offerReport_unrecorded (s : State) (r : EvRec) : (s.offerReport r).unrecorded = s.unrecorded := by
  have hp := s.offerRaw_unrecorded (s.reportOffer r)
  unfold State.offerReport
  dsimp only
  split_ifs
  · rw [State.notice_unrecorded _ _ (by decide)]
    exact hp
  · exact hp
  · rw [State.addHeld_unrecorded, State.bump_unrecorded _ _ _ (by decide), hp]

@[simp] theorem State.report_unrecorded (s : State) (r : EvRec) : (s.report r).unrecorded = s.unrecorded := by
  unfold State.report
  split_ifs
  · rfl
  · rfl
  · rfl
  · exact s.offerReport_unrecorded r

theorem State.dropRecord_unrecorded (s : State) (cls : Nat) (h : cls < 8) : (s.dropRecord cls).unrecorded = s.unrecorded := by
  unfold State.dropRecord
  dsimp only
  rw [State.raise_unrecorded]
  exact s.bump_unrecorded _ _ (recordReg_of (by simp only [Reg.EV_OVF_c_count, Reg.EV_OVF_c]; omega))

theorem State.enter1_unrecorded (s : State) (r : EvRec) (h : r.cls < 8) : (s.enter1 r).unrecorded = s.unrecorded := by
  have hu : (if r.cls = 0 then s.raise 35 else s).unrecorded = s.unrecorded := by
    split_ifs
    · exact s.raise_unrecorded 35
    · rfl
  unfold State.enter1
  dsimp only
  generalize (if r.cls = 0 then s.raise 35 else s) = u at hu
  rw [← hu]
  split_ifs
  · exact State.report_unrecorded _ r
  · rw [State.report_unrecorded, State.dropRecord_unrecorded u _ h]
  · rw [State.report_unrecorded]
    exact u.bump_unrecorded _ _ (recordReg_of (by simp only [Reg.EV_FRZ_c_count, Reg.EV_FRZ_c]; omega))
  · exact State.report_unrecorded _ _
  · rw [State.report_unrecorded, State.dropRecord_unrecorded u _ h]

@[simp] theorem State.marker_unrecorded (s : State) : s.marker.unrecorded = s.unrecorded := by
  unfold State.marker
  split_ifs
  · rfl
  · exact State.enter1_unrecorded _ _ (by decide : 5 < 8)

theorem State.record_unrecorded (s : State) (cls code unit inst arg : Nat) (h : cls < 8) :
    (s.record cls code unit inst arg).unrecorded = s.unrecorded := by
  unfold State.record State.enterRec
  rw [State.enter1_unrecorded _ _ h, State.marker_unrecorded]

theorem State.recordAon_unrecorded (s : State) (cls code unit inst arg : Nat) (h : cls < 8) :
    (s.recordAon cls code unit inst arg).unrecorded = s.unrecorded := by
  unfold State.recordAon
  dsimp only
  split_ifs
  · exact s.record_unrecorded cls code unit inst arg h
  · rw [State.need_unrecorded]
    rfl
  · rw [State.addHeld_unrecorded, State.dropRecord_unrecorded s cls h]

@[simp] theorem State.fault_unrecorded (s : State) (code unit inst arg : Nat) : (s.fault code unit inst arg).unrecorded = s.unrecorded :=
  s.record_unrecorded 0 code unit inst arg (by decide)

@[simp] theorem State.faultAon_unrecorded (s : State) (code unit inst arg : Nat) :
    (s.faultAon code unit inst arg).unrecorded = s.unrecorded :=
  s.recordAon_unrecorded 0 code unit inst arg (by decide)

theorem State.deadline_unrecorded (s : State) (unit inst late : Nat) (h : unit < 16) :
    (s.deadline unit inst late).unrecorded = s.unrecorded := by
  unfold State.deadline
  rw [State.fault_unrecorded]
  exact s.bump_unrecorded _ _ (recordReg_of (by simp only [Reg.EV_DLM_u_count, Reg.EV_DLM_u]; omega))

end Sys2Proof.Machine
end

section
namespace Sys2Proof.Machine

/-! ## Debug access (R74, R89, R90) -/

theorem State.lapWatch_dbg (s : State) : s.lapWatch.dbg = s.dbg := by
  unfold State.lapWatch
  dsimp only
  split_ifs
  · rfl
  · exact (State.dbg_of_unrecorded (State.recordAon_unrecorded _ _ _ _ _ _ (by decide))).trans rfl
  · rfl

theorem State.holdAfter_dbg (s : State) (a : Access) : (s.holdAfter a).dbg = s.dbg := by
  unfold State.holdAfter
  split <;> rfl

theorem State.swapBanks_dbg (s : State) : s.swapBanks.dbg = s.dbg := by
  unfold State.swapBanks
  split <;> rfl

theorem State.aonUp_of_active {s : State} (h : s.active = true) : s.aonUp = true := by
  unfold State.active at h
  unfold State.aonUp
  rw [eq_of_beq h]
  rfl

/-- An answered debug access leaves its status: 2 where it is refused, and 0, also where its result is discarded. -/
theorem State.respond_debug_status (s : State) (a : Access) (v : Nat) (r : Bool) (ha : a.req = 15) (hp : a.port = false) :
    (s.respond a v r).dbg.status = if !r then 0 else if s.dbg.discard then 0 else 2 := by
  unfold State.respond State.debugDone
  dsimp only
  rw [ha, hp, if_pos (by rfl)]
  cases r <;> cases s.dbg.discard <;> rfl

/-- A ready debug access that writes: its status, and the state of the write (R90). -/
theorem State.debugWrite_performed (s : State) (off v : Nat) (h : s.ready .debug) :
    ((s.writeBy .debug off v).dbg.status =
        if (s.busWrite 15 off v).2 then 0 else if (s.busWrite 15 off v).1.dbg.discard then 0 else 2) ∧
      (s.writeBy .debug off v).unanswered = (s.busWrite 15 off v).1.lapWatch.swapBanks.unanswered := by
  refine ⟨?_, (s.write_performed .debug off v h).2⟩
  have hperf : s.writeBy .debug off v = _ := s.access_ready .debug true off v h
  rw [hperf]
  rw [State.perform, if_neg (by simp [Who.isPort]), if_pos rfl]
  dsimp only
  rw [State.respond_debug_status _ _ _ _ rfl rfl, Bool.not_not, State.swapBanks_dbg, State.holdAfter_dbg, State.lapWatch_dbg]
  rfl

/-- The access that operation 1 or 2 issues; operations 0 and 3 issue none. -/
theorem Debug.issued_access (d : Debug) (h : d.dr % 4 = 1 ∨ d.dr % 4 = 2) :
    d.issued = some { req := 15, port := false, write := d.dr % 4 == 2, off := 4 * bits d.dr 2 18, val := bits d.dr 20 32 } := by
  unfold Debug.issued
  exact if_pos h

theorem Debug.issued_none (d : Debug) (h : d.dr % 4 = 0 ∨ d.dr % 4 = 3) : d.issued = none := by
  unfold Debug.issued
  exact if_neg (by omega)

theorem execDebugUpdateDr_write (s : State) (h : s.dbg.dr % 4 = 2) :
    exec .debugUpdateDr s = .next (s.writeBy .debug (4 * bits s.dbg.dr 2 18) (bits s.dbg.dr 20 32)) := by
  show execDebugUpdateDr s = _
  rw [execDebugUpdateDr, s.dbg.issued_access (.inr h), h]
  rfl

theorem execDebugUpdateDr_idle (s : State) (h : s.dbg.dr % 4 = 0 ∨ s.dbg.dr % 4 = 3) : exec .debugUpdateDr s = .next s := by
  show execDebugUpdateDr s = _
  rw [execDebugUpdateDr, s.dbg.issued_none h]

/-- Without `sec_auth` a debug access that need not wait is denied (R90). -/
theorem State.access_denied (s : State) (a : Access) (ha : a.req = 15) (hp : a.port = false) (hact : s.active = true)
    (hw : s.waiting = []) (hauth : s.secAuth = false) : s.access a = s.debugDenied a := by
  unfold State.access
  simp [ha, hp, State.aonUp_of_active hact, State.debugBusy, hw, hauth]

theorem State.debugDenied_eq (s : State) (a : Access) :
    s.debugDenied a = { s with dbg := if s.dbg.discard then { s.dbg with discard := false, status := 3 }
      else { s.dbg with status := 3, lastOff := a.off } } := by
  unfold State.debugDenied
  split_ifs <;> rfl

theorem execDebugUpdateDr_denied (s : State) (hact : s.active = true) (hw : s.waiting = []) (hauth : s.secAuth = false)
    (h : s.dbg.dr % 4 = 1 ∨ s.dbg.dr % 4 = 2) :
    exec .debugUpdateDr s = .next { s with dbg := if s.dbg.discard then { s.dbg with discard := false, status := 3 }
      else { s.dbg with status := 3, lastOff := 4 * bits s.dbg.dr 2 18 } } := by
  show execDebugUpdateDr s = _
  rw [execDebugUpdateDr, s.dbg.issued_access h]
  dsimp only
  rw [State.access_denied s _ rfl rfl hact hw hauth, State.debugDenied_eq]

theorem execDebugShiftDr_eq (s : State) (b : Bool) : exec (.debugShiftDr b) s = .next { s with dbg :=
    { s.dbg with tdo := bit s.dbg.dr 0, dr := s.dbg.dr / 2 + (if b then 2 ^ 53 else 0) } } := by
  cases b <;> rfl

/-- The debug reset discards the result of an access that waits (R90). -/
theorem execDebugReset_eq (s : State) :
    exec .debugReset s = .next { s with dbg := { s.dbg with dr := 0, tdo := false, discard := s.debugBusy } } := rfl

theorem State.debugBusy_of_waiting (s : State) (a : Access) (h : a ∈ s.waiting) (hp : a.port = false) : s.debugBusy = true :=
  List.any_eq_true.mpr ⟨a, h, by rw [hp]; rfl⟩

/-- Settles O19: the TAP's acts are single updates of the debug register, and an update issues the access in it (R89, R90). -/
theorem debugAccess : Obligations.DebugAccess := by
  refine ⟨fun s => ⟨execDebugShiftDr_eq s, rfl, fun hw => ?_, fun a ha hp => ?_, fun _ => rfl⟩,
    fun s h hop => ?_, execDebugUpdateDr_denied, execDebugUpdateDr_idle⟩
  · rw [execDebugReset_eq, State.debugBusy, hw]
    rfl
  · rw [execDebugReset_eq, s.debugBusy_of_waiting a ha hp]
  · exact ⟨_, execDebugUpdateDr_write s hop, s.debugWrite_performed _ _ h⟩

end Sys2Proof.Machine
end

section
namespace Sys2Proof.Machine

/-! ## Responses under a tag (R70, R87) -/

theorem consumeAll_quiet (n : Nat) (s : State) (h : s.hl.locals = []) : consumeAll n s = s := by
  cases n with
  | zero => rfl
  | succ n => rw [consumeAll, h]

theorem State.observeSeen_quiet (n : Nat) (s : State) (h : s.hl.seen = []) : State.observeSeen n s = s := by
  cases n with
  | zero => rfl
  | succ n => rw [State.observeSeen, h]

/-- With no pennant at its consumer and none to observe, nothing is left to settle. -/
theorem State.settle_quiet (s : State) (hl : s.hl.locals = []) (hs : s.hl.seen = []) : s.settle = s := by
  unfold State.settle
  split
  · rw [consumeAll_quiet 256 s hl, State.observeSeen_quiet 64 s hs, consumeAll_quiet 64 s hl]
  · rfl

/-- With no request waiting for a tag, an answer only frees its tag. -/
theorem ReqPort.answer_out (p : ReqPort) (tag tags : Nat) (h : p.want = []) :
    (p.answer tag tags).out = p.out.filter fun r => r.tag != tag := by
  unfold ReqPort.answer
  rw [h]
  rfl

theorem find?_tag_none {l : List Req} {g : Nat} (h : ∀ r ∈ l, r.tag ≠ g) : (l.find? fun r => r.tag == g) = none :=
  List.find?_eq_none.mpr fun r hr => by simpa using h r hr

theorem State.need_eq_pw (s : State) : s.need = { s with pw := s.need.pw } := by
  unfold State.need
  (repeat' split) <;> rfl

theorem State.need_with_host (s : State) (p : ReqPort) : State.need { s with host := p } = { s.need with host := p } := by
  unfold State.need
  dsimp only
  (repeat' split) <;> rfl

theorem State.need_with_fsp (s : State) (p : ReqPort) : State.need { s with fsp := p } = { s.need with fsp := p } := by
  unfold State.need
  dsimp only
  (repeat' split) <;> rfl

theorem execHostReadResponse_taken (s : State) (g : BitVec 10) (b : List Byte) (e : Bool) (r : Req) (hb : b.length = 64)
    (ha : s.active = true) (hr : (s.host.out.find? fun r => r.tag == g.toNat) = some r) :
    exec (.hostReadResponse g b e) s =
      .next (State.hostLineTo { s.need with host := s.host.answer g.toNat 1024 } r b e).settle := by
  show execHostReadResponse g b e s = _
  rw [execHostReadResponse, if_neg (not_not.mpr hb), hr]
  dsimp only
  rw [if_pos ha, State.need_with_host]

theorem execHostReadResponse_discarded (s : State) (g : BitVec 10) (b : List Byte) (e : Bool) (hb : b.length = 64)
    (ha : s.active = true) (hr : ∀ r ∈ s.host.out, r.tag ≠ g.toNat) :
    exec (.hostReadResponse g b e) s = .next (s.faultAon Code.PORT_PROTOCOL Unit_.power 0 0) := by
  show execHostReadResponse g b e s = _
  rw [execHostReadResponse, if_neg (not_not.mpr hb), find?_tag_none hr]
  dsimp only
  rw [if_pos ha, State.badTag]

theorem execHostReadResponse_stopped (s : State) (g : BitVec 10) (b : List Byte) (e : Bool) (hb : b.length = 64)
    (ha : s.active = false) : exec (.hostReadResponse g b e) s = .next s := by
  show execHostReadResponse g b e s = _
  rw [execHostReadResponse, if_neg (not_not.mpr hb)]
  cases s.host.out.find? fun r => r.tag == g.toNat <;> simp [ha]

theorem execFleetStoreResponse_taken (s : State) (g : BitVec 8) (b : List Byte) (e : Bool) (r : Req) (hb : b.length = 64)
    (ha : s.active = true) (hr : (s.fsp.out.find? fun r => r.tag == g.toNat) = some r) :
    exec (.fleetStoreResponse g b e) s =
      .next (State.storeLineTo { s.need with fsp := s.fsp.answer g.toNat 256 } r b e).settle := by
  show execFleetStoreResponse g b e s = _
  rw [execFleetStoreResponse, if_neg (not_not.mpr hb), hr]
  dsimp only
  rw [if_pos ha, State.need_with_fsp]

theorem execFleetStoreResponse_discarded (s : State) (g : BitVec 8) (b : List Byte) (e : Bool) (hb : b.length = 64)
    (ha : s.active = true) (hr : ∀ r ∈ s.fsp.out, r.tag ≠ g.toNat) :
    exec (.fleetStoreResponse g b e) s = .next (s.faultAon Code.PORT_PROTOCOL Unit_.power 0 0) := by
  show execFleetStoreResponse g b e s = _
  rw [execFleetStoreResponse, if_neg (not_not.mpr hb), find?_tag_none hr]
  dsimp only
  rw [if_pos ha, State.badTag]

theorem execFleetStoreResponse_stopped (s : State) (g : BitVec 8) (b : List Byte) (e : Bool) (hb : b.length = 64)
    (ha : s.active = false) : exec (.fleetStoreResponse g b e) s = .next s := by
  show execFleetStoreResponse g b e s = _
  rw [execFleetStoreResponse, if_neg (not_not.mpr hb)]
  cases s.fsp.out.find? fun r => r.tag == g.toNat <;> simp [ha]

/-! ### A line of a restored image (R475) -/

theorem State.coder_setCoder_same (s : State) (k : Nat) (f : Coder → Coder) (h : k < s.dc.coders.length) :
    (s.setCoder k f).coder k = f (s.coder k) :=
  modAt_get_same s.dc.coders k f {} h

/-- A line that an engine's restore asked for joins its lines. -/
theorem State.imageLine_coder (s : State) (k idx : Nat) (b : List Byte) (h : k < s.dc.coders.length) :
    (s.imageLine k idx b false).coder k =
      { s.coder k with awaiting := (s.coder k).awaiting - 1, lines := Sparse.insert (s.coder k).lines idx b } := by
  rw [State.imageLine, State.coder_setCoder_same s k _ h, Bool.or_false]
  rfl

theorem State.engineLine_restore (s : State) (k a idx : Nat) (b : List Byte) (e : Bool) (h : (s.coder k).image = some true) :
    s.engineLine k a idx b e = s.imageLine k idx b e := by
  rw [State.engineLine, if_pos h]

/-- A restoring engine's line, settled, in a state `u` that differs from `s` in its ports and the clock's needs alone. -/
theorem State.engineLine_settled (s u : State) (k a idx : Nat) (b : List Byte) (hhl : u.hl = s.hl) (hdc : u.dc = s.dc)
    (hl : s.hl.locals = []) (hs : s.hl.seen = []) (hk : k < s.dc.coders.length) (hi : (s.coder k).image = some true) :
    (u.engineLine k a idx b false).settle = u.imageLine k idx b false ∧
      (u.imageLine k idx b false).coder k =
        { s.coder k with awaiting := (s.coder k).awaiting - 1, lines := Sparse.insert (s.coder k).lines idx b } := by
  have hc : u.coder k = s.coder k := by rw [State.coder, hdc, State.coder]
  rw [State.engineLine_restore u k a idx b false (by rw [hc, hi]), State.imageLine_coder u k idx b (by rw [hdc]; exact hk), hc]
  exact ⟨State.settle_quiet _ (by rw [← hl, ← hhl]; rfl) (by rw [← hs, ← hhl]; rfl), rfl⟩

theorem State.hostLineTo_dump (s : State) (r : Req) (k : Nat) (b : List Byte) (h : r.owner = .dump k) :
    s.hostLineTo r b false = s.engineLine k r.addr r.idx b false := by
  rw [State.hostLineTo, h]
  rfl

theorem State.storeLineTo_dump (s : State) (r : Req) (k : Nat) (b : List Byte) (h : r.owner = .dump k) :
    s.storeLineTo r b false = s.engineLine k r.addr r.idx b false := by
  rw [State.storeLineTo, h]
  rfl

/-! ### The flash's next operation (R88, R495) -/

theorem State.flPump_eq (s : State) : s.flPump = { s with fl := s.flPump.fl, ev := s.flPump.ev } := by
  unfold State.flPump
  split <;> rfl

@[simp] theorem State.flPump_cyc (s : State) : s.flPump.cyc = s.cyc := by rw [State.flPump_eq]
@[simp] theorem State.flPump_regs (s : State) : s.flPump.regs = s.regs := by rw [State.flPump_eq]
@[simp] theorem State.flPump_queues (s : State) : s.flPump.queues = s.queues := by rw [State.flPump_eq]

@[simp] theorem State.flPump_get (s : State) (f : Fld) : s.flPump.get f = s.get f := by
  rw [State.get, State.rd, State.flPump_regs]
  rfl

@[simp] theorem State.flPump_bytes (s : State) : s.flPump.fl.bytes = s.fl.bytes := by
  unfold State.flPump
  split <;> rfl

theorem State.flPump_idle (s : State) (h : s.ev.nvQueue = []) : s.flPump = s := by
  unfold State.flPump
  rw [h]
  cases s.fl.op <;> rfl

/-- An idle flash takes the first operation that is due. -/
theorem State.flPump_start (s : State) (a : Nat) (b : List Byte) (w : Nat) (rest : List (Nat × List Byte × Nat))
    (hop : s.fl.op = none) (hq : s.ev.nvQueue = (a, b, w) :: rest) :
    s.flPump = { s with ev := { s.ev with nvQueue := rest }, fl := { s.fl with op := some (b.isEmpty, a, b, w), since := s.cyc } } := by
  unfold State.flPump
  rw [hop, hq]
  rfl

/-! ### The end of a flash operation (R88, R495) -/

theorem State.flCmdEnd_go (s : State) (code : Nat) : (s.flCmdEnd code).get Reg.ST_FL_CMD_go = 0 := by
  rw [State.flCmdEnd, State.get_put_apart _ Reg.ST_FL_CMD_status Reg.ST_FL_CMD_go _ (by decide) rfl (.inr (by decide)),
    State.get_put_same _ _ _ (by decide), Nat.zero_mod]

theorem State.flCmdEnd_status (s : State) (code : Nat) (h : code < 256) : (s.flCmdEnd code).get Reg.ST_FL_CMD_status = code := by
  rw [State.flCmdEnd, State.get_put_same _ _ _ (by decide)]
  exact Nat.mod_eq_of_lt h

@[simp] theorem State.flCmdEnd_cyc (s : State) (code : Nat) : (s.flCmdEnd code).cyc = s.cyc := by
  rw [State.flCmdEnd, State.put_cyc, State.put_cyc]

@[simp] theorem State.flCmdEnd_queues (s : State) (code : Nat) : (s.flCmdEnd code).queues = s.queues := by
  rw [State.flCmdEnd, State.put_queues, State.put_queues]

@[simp] theorem State.flCmdEnd_ev (s : State) (code : Nat) : (s.flCmdEnd code).ev = s.ev := by
  rw [State.flCmdEnd, State.put_ev, State.put_ev]

@[simp] theorem State.flCmdEnd_fl (s : State) (code : Nat) : (s.flCmdEnd code).fl = s.fl := by
  rw [State.flCmdEnd, State.put_fl, State.put_fl]

/-- The state in which an ended operation leaves the flash free: its effect made, its owner told. -/
def State.flEnded (s : State) (erase : Bool) (a : Nat) (bs : List Byte) (who : Nat) : State :=
  if who = 0 then (s.flEffect erase a bs).flCmdEnd Code.OK
  else { s.flEffect erase a bs with ev := { s.ev with nvRetry := false } }

theorem execFlashOperationEnd_eq (s : State) (erase : Bool) (a : Nat) (bs : List Byte) (who : Nat)
    (h : s.fl.op = some (erase, a, bs, who)) : exec .flashOperationEnd s = .next (s.flEnded erase a bs who).flPump := by
  show execFlashOperationEnd s = _
  rw [execFlashOperationEnd, h]
  rfl

/-- An ended operation leaves its effect on an idle flash; the recorder's operations stay due, and time stands. -/
theorem State.flEnded_kept (s : State) (erase : Bool) (a : Nat) (bs : List Byte) (who : Nat) :
    (s.flEnded erase a bs who).fl =
        { s.fl with bytes := if erase then flErase s.fl.bytes a else flProgram s.fl.bytes a bs, op := none } ∧
      (s.flEnded erase a bs who).ev.nvQueue = s.ev.nvQueue ∧ (s.flEnded erase a bs who).cyc = s.cyc ∧
      (s.flEnded erase a bs who).queues = s.queues := by
  unfold State.flEnded
  split
  · rw [State.flCmdEnd_fl, State.flCmdEnd_ev, State.flCmdEnd_cyc, State.flCmdEnd_queues]
    exact ⟨rfl, rfl, rfl, rfl⟩
  · exact ⟨rfl, rfl, rfl, rfl⟩

theorem flashOperation_ends (s : State) (er : Bool) (a : Nat) (b : List Byte) (who : Nat) (hop : s.fl.op = some (er, a, b, who)) :
    ∃ t, exec .flashOperationEnd s = .next t ∧
      t.fl.bytes = (if er then flErase s.fl.bytes a else flProgram s.fl.bytes a b) ∧ t.cyc = s.cyc ∧ t.queues = s.queues ∧
      (s.ev.nvQueue = [] → t.fl.op = none) ∧
      (∀ x y w rest, s.ev.nvQueue = (x, y, w) :: rest →
        t.fl.op = some (y.isEmpty, x, y, w) ∧ t.ev.nvQueue = rest ∧ t.fl.since = s.cyc) ∧
      (who = 0 → t.get Reg.ST_FL_CMD_go = 0 ∧ t.get Reg.ST_FL_CMD_status = Code.OK) ∧ (who ≠ 0 → t.regs = s.regs) := by
  obtain ⟨hfl, hq, hcyc, hqs⟩ := s.flEnded_kept er a b who
  have hfree : (s.flEnded er a b who).fl.op = none := by rw [hfl]
  refine ⟨_, execFlashOperationEnd_eq s er a b who hop, ?_, ?_, ?_, fun hn => ?_, fun x y w rest hn => ?_, fun hw => ?_, fun hw => ?_⟩
  · rw [State.flPump_bytes, hfl]
  · rw [State.flPump_cyc, hcyc]
  · rw [State.flPump_queues, hqs]
  · rw [State.flPump_idle _ (hq.trans hn), hfree]
  · rw [State.flPump_start _ x y w rest hfree (hq.trans hn)]
    exact ⟨rfl, rfl, hcyc⟩
  · rw [State.flPump_get, State.flPump_get, State.flEnded, if_pos hw]
    exact ⟨State.flCmdEnd_go _ _, State.flCmdEnd_status _ _ (by decide)⟩
  · rw [State.flPump_regs, State.flEnded, if_neg hw]
    rfl

/-! ### An operation still busy at its bound (R88, R495) -/

theorem State.passTo_eq (s : State) (c : Nat) : s.passTo c = { s with cyc := max s.cyc c } := by
  unfold State.passTo
  split
  · rw [Nat.max_eq_right (by omega)]
  · rw [Nat.max_eq_left (by omega)]

@[simp] theorem State.passTo_cyc (s : State) (c : Nat) : (s.passTo c).cyc = max s.cyc c := by rw [State.passTo_eq]

theorem execFlashBusyTimeout_eq (s : State) (erase : Bool) (a : Nat) (bs : List Byte) (who : Nat)
    (h : s.fl.op = some (erase, a, bs, who)) : exec .flashBusyTimeout s =
      .next ((s.passTo (s.fl.since + if erase then 50000000 else 500000)).flTimeout erase a bs who) := by
  show execFlashBusyTimeout s = _
  rw [execFlashBusyTimeout, h]
  cases erase <;> rfl

theorem State.faultAon_kept (s : State) (code unit inst arg : Nat) :
    (s.faultAon code unit inst arg).cyc = s.cyc ∧ (s.faultAon code unit inst arg).fl = s.fl :=
  ⟨State.cyc_of_unrecorded (s.faultAon_unrecorded code unit inst arg), State.fl_of_unrecorded (s.faultAon_unrecorded code unit inst arg)⟩

/-- A failed sector of the log moves neither the time nor what the flash holds. -/
theorem State.nvFail_kept (s : State) (erase : Bool) (a : Nat) (bs : List Byte) :
    (s.nvFail erase a bs).cyc = s.cyc ∧ (s.nvFail erase a bs).fl = s.fl := by
  unfold State.nvFail
  dsimp only
  split
  · exact State.faultAon_kept _ _ _ _ _
  · split <;> exact State.faultAon_kept _ _ _ _ _

/-- A timeout moves neither the time nor what the flash holds. -/
theorem State.flTimeout_kept (s : State) (erase : Bool) (a : Nat) (bs : List Byte) (who : Nat) :
    (s.flTimeout erase a bs who).cyc = s.cyc ∧ (s.flTimeout erase a bs who).fl.bytes = s.fl.bytes := by
  unfold State.flTimeout
  dsimp only
  split_ifs
  · obtain ⟨hc, hf⟩ := State.faultAon_kept
      (State.flCmdEnd { s with fl := { s.fl with op := none } } Code.FLASH_TIMEOUT) Code.FLASH_TIMEOUT Unit_.firmware 0 0
    rw [State.flPump_cyc, State.flPump_bytes, hc, hf, State.flCmdEnd_cyc, State.flCmdEnd_fl]
    exact ⟨rfl, rfl⟩
  · obtain ⟨hc, hf⟩ := State.nvFail_kept { s with fl := { s.fl with op := none } } erase a bs
    rw [State.flPump_cyc, State.flPump_bytes, hc, hf]
    exact ⟨rfl, rfl⟩
  · exact ⟨rfl, rfl⟩
  · obtain ⟨hc, hf⟩ := State.faultAon_kept { s with fl := { s.fl with op := none } } Code.FLASH_TIMEOUT Unit_.recorder 0 0
    rw [State.flPump_cyc, State.flPump_bytes, hc, hf]
    exact ⟨rfl, rfl⟩
  · rw [State.flPump_cyc, State.flPump_bytes]
    exact ⟨rfl, rfl⟩

/-- The steward's command ends with FLASH_TIMEOUT. -/
theorem State.flTimeout_steward (s : State) (erase : Bool) (a : Nat) (bs : List Byte) :
    (s.flTimeout erase a bs 0).get Reg.ST_FL_CMD_go = 0 ∧ (s.flTimeout erase a bs 0).get Reg.ST_FL_CMD_status = Code.FLASH_TIMEOUT := by
  have hr := fun u : State => u.faultAon_unrecorded Code.FLASH_TIMEOUT Unit_.firmware 0 0
  unfold State.flTimeout
  dsimp only
  rw [if_pos rfl, State.flPump_get, State.flPump_get, State.get_of_unrecorded (hr _) _ (by decide),
    State.get_of_unrecorded (hr _) _ (by decide)]
  exact ⟨State.flCmdEnd_go _ _, State.flCmdEnd_status _ _ (by decide)⟩

/-- The log's first failure is tried again. -/
theorem State.flTimeout_again (s : State) (erase : Bool) (a : Nat) (bs : List Byte) (who : Nat) (hw : who = 1 ∨ who = 3)
    (hr : s.ev.nvRetry = false) : s.flTimeout erase a bs who =
      { s with ev := { s.ev with nvRetry := true }, fl := { s.fl with op := some (erase, a, bs, who), since := s.cyc } } := by
  unfold State.flTimeout
  dsimp only
  rw [if_neg (by omega), if_pos hw, hr]
  rfl

/-- Settles O52: a response goes to the request of its tag (R70, R87), and a flash operation ends once (R88, R495). -/
theorem responsesAndFlashOperationsEnd : Obligations.ResponsesAndFlashOperationsEnd := by
  refine ⟨fun s g b e r hb ha hr => ?_, execHostReadResponse_discarded, execHostReadResponse_stopped,
    fun s g b r k hb ha hl hs hr ho hc hk hi hw => ?_, fun s g b e r hb ha hr => ?_, execFleetStoreResponse_discarded,
    execFleetStoreResponse_stopped, fun s g b r k hb ha hl hs hr ho hc hk hi hw => ?_, flashOperation_ends,
    fun s er a b who hop => ?_, fun s hop => ?_⟩
  · exact ⟨_, execHostReadResponse_taken s g b e r hb ha hr, rfl, fun hw => ReqPort.answer_out _ _ _ hw⟩
  · obtain ⟨hset, hcoder⟩ := s.engineLine_settled { s.need with host := s.host.answer g.toNat 1024 } k r.addr r.idx b (State.need_hl s)
      (State.need_dc s) hl hs (hc ▸ hk) hi
    rw [← State.hostLineTo_dump _ r k b ho] at hset
    refine ⟨_, (execHostReadResponse_taken s g b false r hb ha hr).trans (congrArg _ hset), State.need_cyc s, ?_, hcoder⟩
    exact ReqPort.answer_out _ _ _ hw
  · exact ⟨_, execFleetStoreResponse_taken s g b e r hb ha hr, rfl, fun hw => ReqPort.answer_out _ _ _ hw⟩
  · obtain ⟨hset, hcoder⟩ := s.engineLine_settled { s.need with fsp := s.fsp.answer g.toNat 256 } k r.addr r.idx b (State.need_hl s)
      (State.need_dc s) hl hs (hc ▸ hk) hi
    rw [← State.storeLineTo_dump _ r k b ho] at hset
    refine ⟨_, (execFleetStoreResponse_taken s g b false r hb ha hr).trans (congrArg _ hset), State.need_cyc s, ?_, hcoder⟩
    exact ReqPort.answer_out _ _ _ hw
  · obtain ⟨hcyc, hbytes⟩ := State.flTimeout_kept (s.passTo (s.fl.since + if er then 50000000 else 500000)) er a b who
    refine ⟨_, execFlashBusyTimeout_eq s er a b who hop, ?_, ?_, fun hw => ?_, fun hw hn => ?_⟩
    · rw [hcyc, State.passTo_cyc]
    · rw [hbytes, State.passTo_fl]
    · rw [hw]
      exact State.flTimeout_steward _ er a b
    · rw [State.flTimeout_again _ er a b who hw (by rw [State.passTo_ev, hn])]
      exact ⟨rfl, rfl, rfl⟩
  · constructor
    · show execFlashOperationEnd s = _
      rw [execFlashOperationEnd, hop]
    · show execFlashBusyTimeout s = _
      rw [execFlashBusyTimeout, hop]

end Sys2Proof.Machine
end

section
namespace Sys2Proof.Machine

/-! ## A port's link (R82, R381) -/

theorem execEthernetLinkChange_active (s : State) (p : Fin 4) (up : Bool) (ht : s.tray = true) (ha : s.active = true) :
    exec (.ethernetLinkChange p up) s = .next (s.linkChange p.val up) := by
  show execEthernetLinkChange p up s = _
  rw [execEthernetLinkChange, ht, ha]
  rfl

theorem execEthernetLinkChange_die (s : State) (p : Fin 4) (up : Bool) (ht : s.tray = false) :
    exec (.ethernetLinkChange p up) s = .next s := by
  show execEthernetLinkChange p up s = _
  rw [execEthernetLinkChange, ht]
  rfl

theorem execEthernetLinkChange_stopped (s : State) (p : Fin 4) (up : Bool) (ht : s.tray = true) (ha : s.active = false) :
    exec (.ethernetLinkChange p up) s = .next (if s.portAlive p.val then s.hold (.link p.val up)
      else { s with hl := { s.hl with linkUp := putBits s.hl.linkUp p.val 1 (b2n up) } }) := by
  show execEthernetLinkChange p up s = _
  rw [execEthernetLinkChange, ht, ha]
  rfl

theorem b2n_eq (b : Bool) : b2n b = if b then 1 else 0 := by
  cases b <;> rfl

/-- A change of a port's link notes its bit; a link that comes up records nothing. -/
theorem State.linkChange_kept (s : State) (p : Nat) (up : Bool) :
    (s.linkChange p up).hl.linkUp = putBits s.hl.linkUp p 1 (b2n up) ∧ (s.linkChange p up).cyc = s.cyc ∧
      (s.linkChange p up).queues = s.queues ∧
      (up = true → (s.linkChange p up).regs = s.regs ∧ (s.linkChange p up).ev = s.ev ∧ (s.linkChange p up).hl.lanes = s.hl.lanes) := by
  unfold State.linkChange State.portsMoved
  dsimp only
  split_ifs with hdown
  · have hr := State.fault_unrecorded { s with hl := { s.hl with linkUp := putBits s.hl.linkUp p 1 (b2n up) } } Code.LINK_DOWN
      Unit_.halyard (16 + p) 0
    refine ⟨State.linkUp_of_unrecorded hr, (State.cyc_of_unrecorded hr).trans rfl, (State.queues_of_unrecorded hr).trans rfl, fun hup => ?_⟩
    simp [hup] at hdown
  · exact ⟨rfl, rfl, rfl, fun _ => ⟨rfl, rfl, rfl⟩⟩

theorem State.hold_hl (s : State) (a : Arrival) : (s.hold a).hl = { s.hl with arrived := s.hl.arrived ++ [a] } := by
  rw [State.hold, State.need_hl]

/-! ## Associations (R379 to R381) -/

/-- An association that is set is found as it was set. -/
theorem State.assoc?_setAssoc (s : State) (p : Nat) (f : Assoc → Assoc) (a : Assoc) (hf : ∀ b, (f b).peer = b.peer)
    (h : s.assoc? p = some a) : (s.setAssoc p f).assoc? p = some (f a) := by
  have hpeer : ((fun b : Assoc => b.peer == p) ∘ fun b => if b.peer == p then f b else b) = fun b => b.peer == p := by
    funext b
    simp only [Function.comp_apply]
    split_ifs
    · rw [hf]
    · rfl
  have ha : (a.peer == p) = true := List.find?_some (p := fun b : Assoc => b.peer == p) h
  unfold State.assoc? State.setAssoc
  dsimp only
  rw [List.find?_map, hpeer, show s.hl.assocs.find? (fun b => b.peer == p) = some a from h, Option.map_some, if_pos ha]

theorem execAssociationAnnounce_eq (s : State) (p : BitVec 14) (a : Assoc) (hact : s.active = true) (h : s.assoc? p.toNat = some a) :
    exec (.associationAnnounce p) s = .next (if a.state = 2 then s else
      ({ s with cyc := max s.cyc a.annAt }).setAssoc p.toNat fun b => { b with
        control := b.control ++ [s.announceBlock a.heard], annAt := max s.cyc a.annAt + 10000 }) := by
  show execAssociationAnnounce p s = _
  rw [execAssociationAnnounce, if_pos hact, State.assocAnnounce, h]
  dsimp only
  rw [State.passTo_eq]
  rfl

theorem execAckTimer_eq (s : State) (p : BitVec 14) (a : Assoc) (c : Nat) (hact : s.active = true) (h : s.assoc? p.toNat = some a)
    (hc : a.ackAt = some c) : exec (.ackTimer p) s = .next
      (({ s with cyc := max s.cyc (c + s.get Reg.HL_TIMERS_ack_us * 100) }).setAssoc p.toNat fun b => { b with ackDue := true }) := by
  show execAckTimer p s = _
  rw [execAckTimer, if_pos hact, State.ackTimer, h]
  dsimp only
  rw [hc]
  dsimp only
  rw [State.passTo_eq]
  rfl

theorem exec_noAssociation (s : State) (p : BitVec 14) (h : s.assoc? p.toNat = none) :
    exec (.associationAnnounce p) s = .next s ∧ exec (.ackTimer p) s = .next s ∧ exec (.associationRto p) s = .next s := by
  refine ⟨?_, ?_, ?_⟩
  · show execAssociationAnnounce p s = _
    rw [execAssociationAnnounce, State.assocAnnounce, h, ite_self]
  · show execAckTimer p s = _
    rw [execAckTimer, State.ackTimer, h, ite_self]
  · show execAssociationRto p s = _
    rw [execAssociationRto, State.assocRto, h, ite_self]

/-! ### An association that is LOST (R380) -/

theorem foldl_unrecorded {α : Type} (g : State → α → State) (h : ∀ t x, (g t x).unrecorded = t.unrecorded) (l : List α) (s : State) :
    (l.foldl g s).unrecorded = s.unrecorded := by
  induction l generalizing s with
  | nil => rfl
  | cons x l ih => rw [List.foldl_cons, ih, h]

theorem State.leavePool_unrecorded (s : State) (src : Src) (cls : Nat) : (s.leavePool src cls).unrecorded = s.unrecorded := by
  cases src with
  | assoc p => exact s.setAssoc_unrecorded p _ fun _ => rfl
  | _ => rfl

theorem State.dropEntry_unrecorded (s : State) (cls : Nat) (e : QEntry) : (s.dropEntry cls e).unrecorded = s.unrecorded := by
  have hl := s.leavePool_unrecorded e.src cls
  unfold State.dropEntry
  dsimp only
  split
  · exact hl
  · exact hl

theorem State.backToSrc_unrecorded (s : State) (e : QEntry) : (s.backToSrc e).unrecorded = s.unrecorded := by
  unfold State.backToSrc
  split <;> rfl

theorem State.giveUp_unrecorded (s : State) (e : QEntry) (inst hop : Nat) : (s.giveUp e inst hop).unrecorded = s.unrecorded :=
  s.deadline_unrecorded _ _ _ (by decide)

/-- The pennants of an association that is LOST are given up or kept; the rest of the loss is its new state alone. -/
theorem State.assocLost_unrecorded (s : State) (p : Nat) (a : Assoc) (h : s.assoc? p = some a) :
    ∃ f : Assoc → Assoc, (∀ b, (f b).peer = b.peer ∧ (f b).state = 3 ∧ (f b).unacked = [] ∧ (f b).retx = []) ∧
      (s.assocLost p).unrecorded = (s.setAssoc p f).unrecorded := by
  unfold State.assocLost
  rw [h]
  dsimp only
  rw [foldl_unrecorded _ fun t c => foldl_unrecorded _ (fun u e => by rw [State.giveUp_unrecorded, State.dropEntry_unrecorded]) _ t,
    foldl_unrecorded _ fun t e => t.giveUp_unrecorded e 0 _, foldl_unrecorded _ State.backToSrc_unrecorded]
  refine ⟨_, ?_, rfl⟩
  exact fun _ => ⟨rfl, rfl, rfl, rfl⟩

theorem State.assocLost_found (s : State) (p : Nat) (a : Assoc) (h : s.assoc? p = some a) :
    (s.assocLost p).cyc = s.cyc ∧ ∃ b, (s.assocLost p).assoc? p = some b ∧ b.state = 3 ∧ b.unacked = [] ∧ b.retx = [] := by
  obtain ⟨f, hf, hr⟩ := s.assocLost_unrecorded p a h
  obtain ⟨b, hb, hcore⟩ := State.assoc_of_unrecorded hr p _ (s.assoc?_setAssoc p f a (fun b => (hf b).1) h)
  obtain ⟨-, hstate, hun, hretx⟩ := hf a
  exact ⟨(State.cyc_of_unrecorded hr).trans rfl, b, hb, (congrArg Assoc.state hcore).trans hstate, (congrArg Assoc.unacked hcore).trans hun,
    (congrArg Assoc.retx hcore).trans hretx⟩

/-! ### The resend timeout (R380, R381) -/

/-- The time at which the oldest unacknowledged frame `f` is sent again. -/
def State.rtoEnd (s : State) (f : TxFrame) : Nat := max s.cyc (f.at_ + max 1 (s.get Reg.HL_TIMERS_rto_en) * 100)

/-- What the resend timeout of an open association does at its time: the eighth resend is the last. -/
def State.resend (s : State) (p : Nat) (a : Assoc) : State :=
  if 8 ≤ a.tries then s.assocLost p
  else
    match s.portFor p with
    | some _ => s.setAssoc p fun a => { a with tries := a.tries + 1, retx := a.unacked }
    | none => s.setAssoc p fun a => { a with tries := a.tries + 1, unacked := a.unacked.map fun g => { g with at_ := s.cyc } }

theorem execAssociationRto_eq (s : State) (p : BitVec 14) (a : Assoc) (f : TxFrame) (fs : List TxFrame) (hact : s.active = true)
    (h : s.assoc? p.toNat = some a) (hopen : a.state = 2) (hun : a.unacked = f :: fs) (hre : ∀ g ∈ a.retx, g.fseq ≠ f.fseq) :
    exec (.associationRto p) s = .next (State.resend { s with cyc := s.rtoEnd f } p.toNat a) := by
  have hre' : (a.retx.any fun g => g.fseq == f.fseq) = false :=
    List.any_eq_false.mpr fun g hg => by simpa using hre g hg
  show execAssociationRto p s = _
  rw [execAssociationRto, if_pos hact, State.assocRto, h]
  dsimp only
  rw [hun]
  dsimp only
  rw [if_neg (by simp [hopen, hre']), State.passTo_eq]
  rfl

theorem associationRto_resends (s : State) (p : Nat) (a : Assoc) (f : TxFrame) (fs : List TxFrame)
    (h : s.assoc? p = some a) (hopen : a.state = 2) (hun : a.unacked = f :: fs) :
    ∃ b, (s.resend p a).assoc? p = some b ∧ (s.resend p a).cyc = s.cyc ∧
      (a.tries < 8 → b.tries = a.tries + 1 ∧ b.state = 2 ∧ ((s.portFor p).isSome = true → b.retx = f :: fs ∧ b.unacked = f :: fs)) ∧
      (8 ≤ a.tries → b.state = 3 ∧ b.unacked = [] ∧ b.retx = []) := by
  by_cases htries : 8 ≤ a.tries
  · rw [State.resend, if_pos htries]
    obtain ⟨hcyc, b, hb, hlost⟩ := s.assocLost_found p a h
    exact ⟨b, hb, hcyc, fun ht => absurd htries (by omega), fun _ => hlost⟩
  · rw [State.resend, if_neg htries]
    cases s.portFor p with
    | some q =>
      exact ⟨_, s.assoc?_setAssoc p _ a (fun _ => rfl) h, rfl, fun _ => ⟨rfl, hopen, fun _ => ⟨hun, hun⟩⟩, fun ht => absurd ht htries⟩
    | none =>
      exact ⟨_, s.assoc?_setAssoc p _ a (fun _ => rfl) h, rfl, fun _ => ⟨rfl, hopen, fun hp => nomatch hp⟩, fun ht => absurd ht htries⟩

/-- Settles O48: each timer passes to its time and sets its association; the loss alone goes on to records (R380, R381). -/
theorem associationsAnnounceAcknowledgeAndResend : Obligations.AssociationsAnnounceAcknowledgeAndResend := by
  refine ⟨fun s p up ht ha => ?_, execEthernetLinkChange_die, fun s p up ht ha => ?_, fun s p a ha h hn => ?_,
    fun s p a c ha h hc => ?_, execAssociationAnnounce_eq, execAckTimer_eq, fun s p a f fs ha h hopen hun hre => ?_, exec_noAssociation⟩
  · obtain ⟨hlink, hkept⟩ := s.linkChange_kept p.val up
    exact ⟨_, execEthernetLinkChange_active s p up ht ha, b2n_eq up ▸ hlink, hkept⟩
  · refine ⟨_, execEthernetLinkChange_stopped s p up ht ha, ?_⟩
    rw [b2n_eq]
    cases s.portAlive p.val
    · exact ⟨(List.append_nil _).symm, rfl, rfl⟩
    · rw [if_pos rfl, State.hold_hl]
      exact ⟨rfl, rfl, rfl⟩
  · have he := execAssociationAnnounce_eq s p a ha h
    rw [if_neg hn] at he
    exact ⟨_, _, he, State.assoc?_setAssoc _ _ _ a (fun _ => rfl) h, rfl, rfl, rfl, rfl⟩
  · exact ⟨_, _, execAckTimer_eq s p a c ha h hc, State.assoc?_setAssoc _ _ _ a (fun _ => rfl) h, rfl, hc, rfl⟩
  · obtain ⟨b, hb, hcyc, hresend⟩ := associationRto_resends { s with cyc := s.rtoEnd f } p.toNat a f fs h hopen hun
    exact ⟨_, b, execAssociationRto_eq s p a f fs ha h hopen hun hre, hb, hcyc, hresend⟩

end Sys2Proof.Machine
end

section
namespace Sys2Proof.Machine

/-! ## Which taps act (R65 to R67) -/

/-- An enabled memory tap of a die whose clock runs. -/
theorem execMemoryTapBeat_on (s : State) (m : Fin 16) (gs : List (Option Granule)) (b : Bool) (ha : s.active = true)
    (hm : s.mtEn m.val = true) (ht : s.tray = false) : exec (.memoryTapBeat m gs b) s = .next (s.memBeat m.val gs b) := by
  show execMemoryTapBeat m gs b s = _
  rw [execMemoryTapBeat, ha, hm, ht]
  rfl

theorem execMemoryTapDrop_on (s : State) (m : Fin 16) (ha : s.active = true) (hm : s.mtEn m.val = true) (ht : s.tray = false) :
    exec (.memoryTapDrop m) s = .next (s.tapDrop m.val []) := by
  show execMemoryTapDrop m s = _
  rw [execMemoryTapDrop, ha, hm, ht]
  rfl

theorem execLinkTapBeat_on (s : State) (l : Fin 8) (i a b : Bool) (d : List Byte) (p : BitVec 17) (e c : Bool) (ha : s.active = true)
    (hl : s.ltEn l.val = true) (ht : s.tray = false) :
    exec (.linkTapBeat l i a b d p e c) s = .next (s.linkBeat l.val i a b d p.toNat e c) := by
  show execLinkTapBeat l i a b d p e c s = _
  rw [execLinkTapBeat, ha, hl, ht]
  rfl

theorem execMemoryTapBeat_off (s : State) (m : Fin 16) (gs : List (Option Granule)) (b : Bool)
    (h : s.active = false ∨ s.mtEn m.val = false ∨ s.tray = true) : exec (.memoryTapBeat m gs b) s = .next s := by
  show execMemoryTapBeat m gs b s = _
  rw [execMemoryTapBeat, if_neg]
  obtain h | h | h := h <;> simp [h]

theorem execLinkTapBeat_off (s : State) (l : Fin 8) (i a b : Bool) (d : List Byte) (p : BitVec 17) (e c : Bool)
    (h : s.active = false ∨ s.ltEn l.val = false ∨ s.tray = true) : exec (.linkTapBeat l i a b d p e c) s = .next s := by
  show execLinkTapBeat l i a b d p e c s = _
  rw [execLinkTapBeat, if_neg]
  obtain h | h | h := h <;> simp [h]

/-! ## Beats without a granule, and with one (R254) -/

theorem filterMap_take_none (gs : List (Option Granule)) (n : Nat) (h : ∀ g ∈ gs, g = none) : (gs.take n).filterMap id = [] :=
  List.filterMap_eq_nil_iff.mpr fun g hg => h g (List.mem_of_mem_take hg)

/-- A beat with no lane filled is its drop alone. -/
theorem State.memBeat_empty (s : State) (m : Nat) (gs : List (Option Granule)) (drop : Bool) (h : ∀ g ∈ gs, g = none) :
    s.memBeat m gs drop = if drop then s.tapDrop m [] else s := by
  unfold State.memBeat
  rw [filterMap_take_none gs 4 h]
  rfl

/-- The frames that carried sectors write. -/
def writtenBy (now : List Carried) : List (Nat × Nat) := (now.filter fun c => c.2.2.1).map fun c => (c.1, c.2.1)

theorem State.memBeat_noDrop (s : State) (m : Nat) (gs : List (Option Granule)) :
    s.memBeat m gs false = ((gs.take 4).filterMap id).foldl
      (fun u g => u.memGranule m (writtenBy (((gs.take 4).filterMap id).flatMap s.carried)) g) s := by
  unfold State.memBeat
  rfl

theorem State.memBeat_one (s : State) (m : Nat) (g : Granule) :
    s.memBeat m [some g] false = s.memGranule m (writtenBy (s.carried g)) g := by
  have hg : ([some g].take 4).filterMap id = [g] := rfl
  rw [State.memBeat_noDrop, hg, List.flatMap_singleton, List.foldl_cons, List.foldl_nil]

theorem State.memGranule_ok (s : State) (m : Nat) (ws : List (Nat × Nat)) (g : Granule) (he : g.err = false) :
    s.memGranule m ws g =
      (s.regionOf (g.gaddr.toNat * 256)).elim (s.granuleOut m g (carriedOf g)) (s.granuleIn m g (carriedOf g) ws) := by
  rw [State.memGranule, he]
  rfl

/-- A granule carries its sectors in its own direction. `State.carried` is opened by `delta`: the kernel would otherwise
evaluate the region that its `match` asks for. -/
theorem State.carried_dir (s : State) (g : Granule) (c : Carried) (h : c ∈ s.carried g) : c.2.2.1 = g.wr := by
  obtain ⟨F, hF⟩ : ∃ F, F = State.carried := ⟨_, rfl⟩
  rw [← hF] at h
  delta State.carried at hF
  subst hF
  dsimp only at h
  split at h
  · cases h
  · obtain ⟨k, -, hk⟩ := List.mem_filterMap.mp h
    obtain ⟨x, -, rfl⟩ := Option.map_eq_some_iff.mp hk
    rfl

/-- The sectors of one granule never race with its own writes (R273). -/
theorem State.carried_unraced (s : State) (g : Granule) (x : Nat × Nat) :
    (!g.wr && (writtenBy (s.carried g)).contains x) = false := by
  cases hw : g.wr
  case true => rfl
  case false =>
    have hnone : writtenBy (s.carried g) = [] := by
      rw [writtenBy, List.filter_eq_nil_iff.mpr fun c hc => by rw [s.carried_dir g c hc, hw]; decide]
      rfl
    rw [hnone]
    rfl

/-! ## A granule outside every region (R254) -/

theorem State.rd64_wr64_same (s : State) (lo v : Nat) : (s.wr64 lo v).rd64 lo = v % 2 ^ 64 := by
  rw [State.rd64, State.wr64, State.rd_wr_other _ _ _ lo (by omega), State.rd_wr_same, State.rd_wr_same]
  omega

theorem State.rd64_incr64_same (s : State) (lo n : Nat) : (s.incr64 lo n).rd64 lo = (s.rd64 lo + n) % 2 ^ 64 := by
  rw [State.incr64, State.rd64_wr64_same, Nat.mod_mod]

theorem State.incr64_eq_regs (s : State) (lo n : Nat) : s.incr64 lo n = { s with regs := (s.incr64 lo n).regs } := rfl

theorem State.granuleOut_ok (s : State) (m : Nat) (g : Granule) (ks : List Nat) (he : g.err = false) :
    s.granuleOut m g ks = s.incr64 (Reg.CK_MT_OUT_LO_m m) (32 * ks.length) := by
  rw [State.granuleOut, he]
  rfl

/-! ## A carried sector that opens a traversal (R256, R260) -/

/-- With no traversal open none is ended in the other direction. -/
theorem State.endOther_none (s : State) (r f : Nat) (wr : Bool) (h : s.ck.trackers = []) : s.endOther r f wr = s := by
  rw [State.endOther, h]
  rfl

/-- The traversal `t` is tracked, and the peak follows. -/
def State.tracked (s : State) (t : Tracker) : State :=
  let u := s.setCk fun c => { c with trackers := c.trackers ++ [t] }
  u.put Reg.CK_TRK_PEAK_peak (max (u.get Reg.CK_TRK_PEAK_peak) u.ck.trackers.length)

/-- The traversal that sector `j` opens, last seen at fleet time `now`. -/
def State.opened (s : State) (tap rm r f j : Nat) (wr : Bool) (data : List Byte) (now : Nat) : Tracker :=
  { region := r, frame := f, wr := wr, readers := [rm], secs := [(j, data)], bytes := [(tap, 32)], firstAt := s.cyc, lastAt := now, tap := tap }

theorem State.opened_incomplete (s : State) (tap rm r f j : Nat) (wr : Bool) (data : List Byte) (now : Nat) :
    (s.opened tap rm r f j wr data now).full = false := rfl

theorem State.takeSector_opens (s : State) (tap rm r f j : Nat) (wr : Bool) (data : List Byte) (u : State) (h : s.ck.trackers = [])
    (hage : s.get Reg.CK_TRK_AGE_us ≠ 0) (hblind : s.blindFrame r f = false)
    (hu : s.tracked { region := r, frame := f, wr := wr, firstAt := s.cyc } = u) :
    s.takeSector tap rm r f j wr false data = (u.putTracker (s.opened tap rm r f j wr data u.fleet), none) := by
  have hroom : decide (2048 ≤ ([] : List Tracker).length) = false := rfl
  have hfull := s.opened_incomplete tap rm r f j wr data u.fleet
  simp only [State.tracked] at hu
  simp only [State.takeSector, if_neg hage, s.endOther_none r f wr h, h, List.find?_nil, Option.isNone_none, hblind, Bool.and_false,
    hroom, if_true, Bool.false_eq_true, if_false, Option.getD_none, Bool.false_and]
  rw [hu]
  change ((if (s.opened tap rm r f j wr data u.fleet).full = true then _ else u.putTracker (s.opened tap rm r f j wr data u.fleet)), none) = _
  rw [hfull]
  rfl

theorem State.tracked_trackers (s : State) (t : Tracker) (h : s.ck.trackers = []) : (s.tracked t).ck.trackers = [t] := by
  rw [State.tracked, State.put_ck]
  show s.ck.trackers ++ [t] = [t]
  rw [h, List.nil_append]

theorem State.putTracker_only (s : State) (x t : Tracker) (h : s.ck.trackers = [x]) (hx : x.same t = true) :
    (s.putTracker t).ck.trackers = [t] := by
  show s.ck.trackers.map (fun y => if y.same t then t else y) = [t]
  rw [h, List.map_singleton, if_pos hx]

/-- The sector opens its traversal, the only one. -/
theorem State.takeSector_new (s : State) (tap rm r f j : Nat) (wr : Bool) (data : List Byte) (h : s.ck.trackers = [])
    (hage : s.get Reg.CK_TRK_AGE_us ≠ 0) (hblind : s.blindFrame r f = false) :
    ∃ t now, s.takeSector tap rm r f j wr false data = (t, none) ∧ t.ck.trackers = [s.opened tap rm r f j wr data now] := by
  refine ⟨_, (s.tracked { region := r, frame := f, wr := wr, firstAt := s.cyc }).fleet,
    s.takeSector_opens tap rm r f j wr data _ h hage hblind rfl, ?_⟩
  refine State.putTracker_only _ { region := r, frame := f, wr := wr, firstAt := s.cyc } _ (s.tracked_trackers _ h) ?_
  simp [Tracker.same, State.opened]

theorem State.memSector_joined (s t : State) (m r g k d f j : Nat) (wr err : Bool) (ws : List (Nat × Nat)) (data : List Byte)
    (hs : s.sectorAt r g k = some (d, f, j)) (hon : s.dirOn d wr = true) (hraced : (!wr && ws.contains (d, f)) = false)
    (h : s.ck.trackers = []) (ht : s.takeSector m 0 d f j wr err data = (t, none)) :
    s.memSector m r g k wr err false ws data = (t, .joined) := by
  unfold State.memSector
  rw [hs]
  simp only [hraced, s.endOther_none d f wr h, hon, ht, Bool.not_true, Bool.false_eq_true, if_false]

/-- A granule with one carried sector, which joins. -/
theorem State.granuleIn_joined (s t : State) (m r k : Nat) (g : Granule) (ws : List (Nat × Nat)) (he : g.err = false)
    (hmis : s.misrouted m (g.gaddr.toNat * 256) r = false)
    (ht : s.memSector m r ((g.gaddr.toNat * 256 - s.rgBase r) / 256) k g.wr false false ws (((padTo 256 g.data).drop (32 * k)).take 32) =
      (t, .joined)) : s.granuleIn m g [k] ws r = t := by
  unfold State.granuleIn
  simp only [hmis, he, Bool.false_and, Bool.false_eq_true, if_false, State.memSectors, ht, List.contains_nil, List.nil_append, List.foldl_cons,
    List.foldl_nil]

/-! ## Drops (R262) -/

theorem Tracker.same_self (t : Tracker) : t.same t = true := by
  simp [Tracker.same]

theorem State.addUnc_kept (s : State) (k n m : Nat) :
    (s.addUnc k n).ck = s.ck ∧ (s.addUnc k n).get (Reg.CK_MT_EVT_m_drops m) = s.get (Reg.CK_MT_EVT_m_drops m) := by
  unfold State.addUnc
  split
  · refine ⟨rfl, ?_⟩
    rw [State.incr64, State.wr64, State.get_wr_other, State.get_wr_other]
    all_goals simp only [Reg.CK_MT_EVT_m_drops, Reg.CK_MT_EVT_m, Reg.CK_MT_UNC_LO_m]; omega
  · exact ⟨rfl, rfl⟩

theorem State.addUncs_kept (bs : List (Nat × Nat)) (s : State) (m : Nat) :
    (bs.foldl (fun u b => u.addUnc b.1 b.2) s).ck = s.ck ∧
      (bs.foldl (fun u b => u.addUnc b.1 b.2) s).get (Reg.CK_MT_EVT_m_drops m) = s.get (Reg.CK_MT_EVT_m_drops m) := by
  induction bs generalizing s with
  | nil => exact ⟨rfl, rfl⟩
  | cons b bs ih =>
    obtain ⟨hck, hget⟩ := s.addUnc_kept b.1 b.2 m
    rw [List.foldl_cons, (ih _).1, (ih _).2]
    exact ⟨hck, hget⟩

theorem State.errFault_none (s : State) (t : Tracker) (h : t.err = none) : s.errFault t = s := by
  rw [State.errFault, h]

/-- A traversal with no error to report ends: it leaves the trackers, and no drop is counted. -/
theorem State.endTracker_noErr (s : State) (c : Nat) (t : Tracker) (m : Nat) (h : t.err = none) (hc : c < 16) :
    (s.endTracker c t).ck.trackers = s.ck.trackers.filter (fun x => !(x.same t)) ∧
      (s.endTracker c t).get (Reg.CK_MT_EVT_m_drops m) = s.get (Reg.CK_MT_EVT_m_drops m) := by
  obtain ⟨hck, hget⟩ := State.addUncs_kept t.bytes ((s.dropTracker t).uncause c) m
  rw [State.endTracker, State.errFault_none _ t h, hck, hget, State.uncause, State.get_bump_other]
  · exact ⟨rfl, rfl⟩
  · simp only [Reg.CK_MT_EVT_m_drops, Reg.CK_MT_EVT_m, Reg.CK_UNC_c_count, Reg.CK_UNC_c]
    omega

/-- After a list of such traversals has ended, none of them is left. -/
theorem State.endTrackers_noErr (ts : List Tracker) (s : State) (c m : Nat) (h : ∀ t ∈ ts, t.err = none) (hc : c < 16) :
    (∀ x ∈ (ts.foldl (fun u t => u.endTracker c t) s).ck.trackers, x ∈ s.ck.trackers ∧ ∀ t ∈ ts, x.same t = false) ∧
      (ts.foldl (fun u t => u.endTracker c t) s).get (Reg.CK_MT_EVT_m_drops m) = s.get (Reg.CK_MT_EVT_m_drops m) := by
  induction ts generalizing s with
  | nil => exact ⟨fun x hx => ⟨hx, fun t ht => nomatch ht⟩, rfl⟩
  | cons t ts ih =>
    obtain ⟨htr, hget⟩ := s.endTracker_noErr c t m (h t List.mem_cons_self) hc
    obtain ⟨hrest, hget'⟩ := ih (s.endTracker c t) fun y hy => h y (List.mem_cons_of_mem t hy)
    refine ⟨fun x hx => ?_, hget'.trans hget⟩
    obtain ⟨hmem, hne⟩ := hrest x hx
    rw [htr, List.mem_filter] at hmem
    exact ⟨hmem.1, List.forall_mem_cons.mpr ⟨by simpa using hmem.2, hne⟩⟩

theorem State.tapDrop_idle (s : State) (m : Nat) (now : List Carried) (h : s.ck.trackers = []) :
    s.tapDrop m now = s.bump (Reg.CK_MT_EVT_m_drops m) 1 := by
  rw [State.tapDrop, h]
  rfl

/-- A drop counts once, and leaves only traversals that lack no sector of the tap. -/
theorem State.tapDrop_noErr (s : State) (m : Nat) (h : ∀ x ∈ s.ck.trackers, x.err = none) :
    (s.tapDrop m []).get (Reg.CK_MT_EVT_m_drops m) =
        satAdd (2 ^ (Reg.CK_MT_EVT_m_drops m).w - 1) (s.get (Reg.CK_MT_EVT_m_drops m)) 1 ∧
      ∀ x ∈ (s.tapDrop m []).ck.trackers, x ∈ s.ck.trackers ∧ s.lacks m [] x = false := by
  obtain ⟨hleft, hget⟩ := State.endTrackers_noErr (s.ck.trackers.filter fun t => s.lacks m [] t)
    (s.bump (Reg.CK_MT_EVT_m_drops m) 1) 1 m (fun t ht => h t (List.mem_filter.mp ht).1) (by decide)
  refine ⟨?_, fun x hx => ?_⟩
  · rw [State.tapDrop, hget, State.get_bump_same s (Reg.CK_MT_EVT_m_drops m) 1 (by decide : 0 + 16 ≤ 32)]
  · obtain ⟨hmem, hne⟩ := hleft x hx
    refine ⟨hmem, ?_⟩
    by_contra hlack
    have hx := hne x (List.mem_filter.mpr ⟨hmem, by simpa using hlack⟩)
    rw [Tracker.same_self] at hx
    cases hx

/-! ## Link taps (R264, R265) -/

theorem State.link_setLink_same (s : State) (i : Nat) (f : LinkDir → LinkDir) (h : i < s.ck.links.length) :
    (s.setLink i f).link i = f (s.link i) :=
  modAt_get_same s.ck.links i f {} h

theorem State.link_setLink_other (s : State) (i k : Nat) (f : LinkDir → LinkDir) (h : k ≠ i) : (s.setLink i f).link k = s.link k :=
  modAt_get_other s.ck.links i k f {} h.symm

theorem State.linkOpen_first (s : State) (l i peer : Nat) (h : (s.link i).opened = false) : s.linkOpen l i peer true false =
    s.setLink i fun x => { x with cur := [], opened := true, bad := x.bad || false, gap := none, far := peer } := by
  simp [State.linkOpen, h]

theorem State.linkOpen_later (s : State) (l i peer : Nat) (h : (s.link i).opened = true) : s.linkOpen l i peer false false = s := by
  simp [State.linkOpen, h]

/-- A beat without a drop that is not its frame's last, and begins one or brings bytes. -/
theorem State.linkBeat_open (s : State) (l : Nat) (ing sof : Bool) (d : List Byte) (p : Nat) (e : Bool) (h : sof = true ∨ d ≠ []) :
    s.linkBeat l ing sof false d p e false =
      (s.linkOpen l (2 * l + b2n ing) p sof false).setLink (2 * l + b2n ing) fun x => { x with cur := x.cur ++ d.take 32 } := by
  obtain h | h := h <;> simp [State.linkBeat, h]

/-- A tap's direction of a link is one of the sixteen. -/
theorem link_index_lt (l : Fin 8) (i : Bool) : 2 * l.val + b2n i < 16 := by
  have hl := l.isLt
  rw [b2n_eq]
  split <;> omega

/-- The first beat of a frame opens it with the beat's bytes, and touches no other link. -/
theorem State.linkBeat_first (s : State) (l : Fin 8) (ing : Bool) (d : List Byte) (p : Nat) (e : Bool) (hn : s.ck.links.length = 16)
    (h : (s.link (2 * l.val + b2n ing)).opened = false) : ∃ t, s.linkBeat l.val ing true false d p e false = t ∧
      (t.link (2 * l.val + b2n ing)).cur = d.take 32 ∧ (t.link (2 * l.val + b2n ing)).opened = true ∧
      (t.link (2 * l.val + b2n ing)).bad = (s.link (2 * l.val + b2n ing)).bad ∧ t.regs = s.regs ∧
      ∀ k, k ≠ 2 * l.val + b2n ing → t.link k = s.link k := by
  have hi : 2 * l.val + b2n ing < s.ck.links.length := hn ▸ link_index_lt l ing
  have hi' (f : LinkDir → LinkDir) : 2 * l.val + b2n ing < (s.setLink (2 * l.val + b2n ing) f).ck.links.length :=
    hi.trans_eq (modAt_length s.ck.links _ _).symm
  rw [s.linkBeat_open l.val ing true d p e (.inl rfl), s.linkOpen_first _ _ _ h]
  refine ⟨_, rfl, ?_, ?_, ?_, rfl, fun k hk => ?_⟩
  · rw [State.link_setLink_same _ _ _ (hi' _), State.link_setLink_same _ _ _ hi, List.nil_append]
  · rw [State.link_setLink_same _ _ _ (hi' _), State.link_setLink_same _ _ _ hi]
  · rw [State.link_setLink_same _ _ _ (hi' _), State.link_setLink_same _ _ _ hi, Bool.or_false]
  · rw [State.link_setLink_other _ _ _ _ hk, State.link_setLink_other _ _ _ _ hk]

/-- A later beat adds its bytes. -/
theorem State.linkBeat_later (s : State) (l : Fin 8) (ing : Bool) (d : List Byte) (p : Nat) (e : Bool) (hn : s.ck.links.length = 16)
    (h : (s.link (2 * l.val + b2n ing)).opened = true) (hd : d ≠ []) : ∃ t, s.linkBeat l.val ing false false d p e false = t ∧
      (t.link (2 * l.val + b2n ing)).cur = (s.link (2 * l.val + b2n ing)).cur ++ d.take 32 ∧ t = { s with ck := t.ck } := by
  have hi : 2 * l.val + b2n ing < s.ck.links.length := hn ▸ link_index_lt l ing
  rw [s.linkBeat_open l.val ing false d p e (.inr hd), s.linkOpen_later _ _ _ h]
  refine ⟨_, rfl, ?_, rfl⟩
  rw [State.link_setLink_same _ _ _ hi]

/-! ## The obligation -/

/-- The granule of one carried, covered sector of an untracked frame opens that frame's traversal. -/
theorem State.memBeat_opens (s : State) (m r d f j k : Nat) (g : Granule) (he : g.err = false)
    (hr : s.regionOf (g.gaddr.toNat * 256) = some r) (hk : carriedOf g = [k])
    (hs : s.sectorAt r ((g.gaddr.toNat * 256 - s.rgBase r) / 256) k = some (d, f, j)) (hon : s.dirOn d g.wr = true)
    (hmis : s.misrouted m (g.gaddr.toNat * 256) r = false) (hage : s.get Reg.CK_TRK_AGE_us ≠ 0) (hblind : s.blindFrame d f = false)
    (h : s.ck.trackers = []) : ∃ t now, s.memBeat m [some g] false = t ∧
      t.ck.trackers = [s.opened m 0 d f j g.wr (((padTo 256 g.data).drop (32 * k)).take 32) now] := by
  obtain ⟨t, now, ht, htr⟩ := s.takeSector_new m 0 d f j g.wr (((padTo 256 g.data).drop (32 * k)).take 32) h hage hblind
  refine ⟨t, now, ?_, htr⟩
  rw [s.memBeat_one, s.memGranule_ok _ _ _ he, hr, Option.elim_some, hk]
  exact s.granuleIn_joined t m r k g _ he hmis (s.memSector_joined t m r _ k d f j g.wr false _ _ hs hon (s.carried_unraced g _) h ht)

/-- Settles O41: an empty beat is its drop, a granule is taken by the region it falls in, and a link's beat by its open frame. -/
theorem tapBeatsAndDrops : Obligations.TapBeatsAndDrops := by
  unfold Obligations.TapBeatsAndDrops
  refine ⟨?_, ?_, ?_, ?_, ?_, ?_, ?_, ?_, ?_, ?_⟩
  · intro s m gs ha hm ht hgs
    rw [execMemoryTapBeat_on s m gs false ha hm ht, s.memBeat_empty m.val gs false hgs, if_neg Bool.false_ne_true]
  · intro s m gs hgs
    show execMemoryTapBeat m gs true s = execMemoryTapDrop m s
    rw [execMemoryTapBeat, execMemoryTapDrop, s.memBeat_empty m.val gs true hgs, if_pos rfl]
  · intro s m ha hm ht h
    rw [execMemoryTapDrop_on s m ha hm ht, s.tapDrop_idle m.val [] h]
  · intro s m ha hm ht h
    exact ⟨_, execMemoryTapDrop_on s m ha hm ht, s.tapDrop_noErr m.val h⟩
  · intro s m g ha hm ht he hr
    refine ⟨s.incr64 (Reg.CK_MT_OUT_LO_m m.val) (32 * (carriedOf g).length), ?_, s.rd64_incr64_same _ _, s.incr64_eq_regs _ _⟩
    rw [execMemoryTapBeat_on s m _ _ ha hm ht, s.memBeat_one, s.memGranule_ok _ _ _ he, hr, Option.elim_none, s.granuleOut_ok _ _ _ he]
  · intro s m g r d f j k ha hm ht he hr hk hs hon hmis hage hblind h
    obtain ⟨t, now, htb, htr⟩ := s.memBeat_opens m.val r d f j k g he hr hk hs hon hmis hage hblind h
    exact ⟨t, _, (execMemoryTapBeat_on s m _ _ ha hm ht).trans (congrArg _ htb), htr, rfl, rfl, rfl, rfl, rfl, rfl⟩
  · exact execMemoryTapBeat_off
  · intro s l i d p e ha hl ht hn h
    rw [← b2n_eq] at h ⊢
    obtain ⟨t, htb, hopen⟩ := s.linkBeat_first l i d p.toNat e hn h
    exact ⟨t, (execLinkTapBeat_on s l i true false d p e false ha hl ht).trans (congrArg _ htb), hopen⟩
  · intro s l i d p e ha hl ht hn h hd
    rw [← b2n_eq] at h ⊢
    obtain ⟨t, htb, hlater⟩ := s.linkBeat_later l i d p.toNat e hn h hd
    exact ⟨t, (execLinkTapBeat_on s l i false false d p e false ha hl ht).trans (congrArg _ htb), hlater⟩
  · exact execLinkTapBeat_off

end Sys2Proof.Machine
end

/-! # Clocks, power and resets (chapter 03) -/

section
namespace Sys2Proof.Machine

/-! ## The idle cycle (log entry 3) -/

theorem State.passTo_next (s : State) : s.passTo (s.cyc + 1) = { s with cyc := s.cyc + 1 } := by
  rw [State.passTo_eq, Nat.max_eq_right (Nat.le_succ _)]

/-- Settles O2: an idle cycle moves the time by one, which is never back. -/
theorem emptyQueuePassesOneCycle : Obligations.EmptyQueuePassesOneCycle := by
  intro s hp
  simp only [step, hp, State.idle, State.passTo_next, Bool.and_eq_true]

/-! ## The supplies and the always-on reset (R100, R116) -/

theorem State.queue_blank (s t : State) (h : t.queues = s.queues.map fun _ => ({} : Queue)) (q : Nat) : t.queue q = {} := by
  rw [State.queue, h, List.getD_eq_getElem?_getD, List.getElem?_map]
  cases s.queues[q]? <;> rfl

/-- A state that agrees with the cleared block in what `State.blankedTo` names. -/
theorem State.blankedTo_aonCleared (s : State) (st : PState) : s.blankedTo (s.aonCleared st) :=
  ⟨fun _ => rfl, s.queue_blank _ rfl, rfl, rfl, rfl, rfl, rfl, rfl, rfl, rfl, rfl⟩

theorem execPowerOn_off (s : State) (h : s.pw.st = .off) : exec .powerOn s = .next (s.aonCleared .aonReset) := by
  show execPowerOn s = _
  rw [execPowerOn, if_pos h]

theorem execAonResetAssert_powered (s : State) (h : s.pw.st ≠ .off) : exec .aonResetAssert s = .next (s.aonCleared .aonReset) := by
  show execAonResetAssert s = _
  rw [execAonResetAssert, if_neg h]

/-- The release is the cleared block with the role sampled and the request up from AON cycle 16. -/
theorem State.aonRelease_blanked (s : State) (r : Bool) : s.blankedTo (s.aonRelease r) :=
  ⟨fun _ => rfl, s.queue_blank _ rfl, rfl, rfl, rfl, rfl, rfl, rfl, rfl, rfl, rfl⟩

/-- Settles O8: each of the three resets leaves the block of `State.aonCleared`, and the release adds to it only the role, the
request and the record of the power-on. -/
theorem suppliesAndTheAlwaysOnReset : Obligations.SuppliesAndTheAlwaysOnReset := by
  refine ⟨⟨fun s h => ?_, fun s => ?_, fun s h => ?_⟩, fun s r h => ?_⟩
  · exact ⟨_, execPowerOn_off s h, rfl, s.blankedTo_aonCleared _, rfl⟩
  · exact ⟨_, rfl, rfl, s.blankedTo_aonCleared .off, rfl⟩
  · exact ⟨_, execAonResetAssert_powered s h, rfl, s.blankedTo_aonCleared _, rfl⟩
  · exact ⟨_, execAonResetRelease_next s r h, b2n_eq r, rfl, rfl, rfl, rfl, s.aonRelease_blanked r, rfl⟩

/-! ## Needs for the fast clock (R96, R98, R100) -/

theorem State.need_sleep (s : State) (h : s.pw.st = .sleep) : s.need =
    { s with pw := { s.pw with st := .waking, req := true, need := true, needAt := s.cyc, reqAt := s.cyc + 1 } } := by
  simp only [State.need, h]

theorem State.need_active (s : State) (h : s.pw.st = .active) : s.need = { s with pw := { s.pw with idleFrom := s.cyc } } := by
  simp only [State.need, h]

theorem State.need_stopping (s : State) (h : s.pw.st = .stopping) (hn : s.pw.need = false) : s.need =
    { s with pw := { s.pw with need := true, needAt := s.cyc } } := by
  simp only [State.need, h, hn, Bool.false_eq_true, if_false]

/-- In SLEEP the earliest due time starts the wake 400 AON cycles ahead of it (R98). -/
theorem State.dueWake_sleep (s : State) (d : Nat) (h : s.pw.st = .sleep) (hd : s.firstDue = some d) :
    s.dueWake = State.need { s with cyc := max s.cyc (s.cyc + s.cyclesTo d - 400) } := by
  simp only [State.dueWake, h, hd, beq_self_eq_true, Bool.true_or, if_true, State.passTo_eq]

theorem State.dueWake_none (s : State) (hd : s.firstDue = none) : s.dueWake = s := by
  simp only [State.dueWake, hd, ite_self]

@[simp] theorem State.setPw_pw (s : State) (f : Power → Power) : (s.setPw f).pw = f s.pw := rfl

/-! ## A late wake (R97, R120) -/

/-- A request is up without an acknowledge, it is of no abandoned wake, and its lateness has not been noted. -/
def State.wakeOverdue (s : State) : Prop :=
  s.pw.req = true ∧ s.pw.ack = false ∧ s.pw.lateDue = false ∧ s.pw.quiet = false ∧ (s.pw.st = .waking ∨ s.pw.st = .fastReset)

theorem State.wakeLate_overdue (s : State) (h : s.wakeOverdue) : s.wakeLate =
    ((s.passTo (s.pw.reqAt + 366)).put Reg.PM_FAULT_wake_late 1).setPw fun p => { p with lateDue := true } := by
  obtain ⟨hreq, hack, hlate, hquiet, hst⟩ := h
  rw [State.wakeLate, if_pos]
  cases hst <;> simp_all

theorem State.wakeLate_noted (s : State) (h : s.pw.quiet = true ∨ s.pw.lateDue = true) : s.wakeLate = s := by
  rw [State.wakeLate, if_neg]
  cases h <;> simp_all

/-! ## The stop of an idle fast clock (R98, R100) -/

/-- With no work, no tap and no control holder, an idle fast clock is stopped once its idle time has passed. -/
theorem State.clockRelease_idle (s t : State) (ha : s.active = true) (hw : s.working = false) (htaps : s.tapsEnabled = false)
    (hctrl : s.holdCtrl = false) (ht : t = s.passTo (max (s.pw.idleFrom + s.get Reg.PM_IDLE_HOLD_cycles) s.pw.regHold))
    (hheld : t.held = false) :
    s.clockRelease = (t.gate .stopping).setPw fun p => { p with req := false, reqAt := t.cyc, need := false } := by
  simp only [State.clockRelease, ha, hw, htaps, hctrl, Bool.not_true, Bool.or_self, Bool.false_eq_true, if_false, ← ht, hheld]

/-- Settles O11: a need by the power state, DUE_WAKE ahead of the first due time, the late wake once, and the idle stop. -/
theorem clockNeedsWakeAndIdleStops : Obligations.ClockNeedsWakeAndIdleStops := by
  refine ⟨⟨fun s h => ?_, fun s h => ?_, fun s h hn => ?_, fun s d c h hd hc => ?_, fun s _ hd => ?_⟩,
    fun s hreq hack hlate hquiet hst => ?_, fun s h => ?_, fun s c ha hw htaps hctrl hc hheld => ?_⟩
  · exact congrArg Host.Outcome.next (s.need_sleep h)
  · exact congrArg Host.Outcome.next (s.need_active h)
  · exact congrArg Host.Outcome.next (s.need_stopping h hn)
  · subst hc
    exact congrArg Host.Outcome.next ((s.dueWake_sleep d h hd).trans (State.need_sleep _ h))
  · exact congrArg Host.Outcome.next (s.dueWake_none hd)
  · refine ⟨_, congrArg Host.Outcome.next (s.wakeLate_overdue ⟨hreq, hack, hlate, hquiet, hst⟩), ?_, ?_, ?_, fun o ho => ?_⟩
    · rw [State.setPw_cyc, State.put_cyc, State.passTo_cyc]
    · rw [State.setPw_get, State.get_put_same _ _ _ (by decide)]
      rfl
    · rw [State.setPw_pw, State.put_pw, State.passTo_pw]
    · rw [State.setPw_rd, State.rd_put_other _ _ _ _ (List.ne_of_not_mem_cons ho), State.passTo_rd]
  · exact congrArg Host.Outcome.next (s.wakeLate_noted h)
  · have hpass := s.passTo_eq (max (s.pw.idleFrom + s.get Reg.PM_IDLE_HOLD_cycles) s.pw.regHold)
    rw [← hc] at hpass
    refine ⟨_, congrArg Host.Outcome.next (s.clockRelease_idle _ ha hw htaps hctrl hpass.symm hheld), ?_⟩
    simp only [State.setPw_pw, State.gate, and_self]

/-! ## The acknowledge (R95, R96, R97, R100, R101) -/

/-- A wake that ends: the wake counted and its time kept, before the fast domain runs. -/
def State.wakeCounted (s : State) : State :=
  let t := s.bump Reg.PM_WAKES_count 1
  t.put Reg.PM_WAKE_MAX_cycles (max (t.get Reg.PM_WAKE_MAX_cycles) (min (2 ^ 16 - 1) (s.cyc - s.pw.needAt)))

theorem State.wakeEnd_eq (s : State) : s.wakeEnd = (s.passTo (s.cyc + 1)).wakeCounted.ungate := rfl

theorem State.wakeCounted_count (s : State) :
    s.wakeCounted.get Reg.PM_WAKES_count = satAdd (2 ^ 32 - 1) (s.get Reg.PM_WAKES_count) 1 := by
  rw [State.wakeCounted, State.get_put_other _ _ _ _ (by decide), State.get_bump_same _ _ _ (by decide)]
  rfl

theorem State.wakeCounted_longest (s : State) : s.wakeCounted.get Reg.PM_WAKE_MAX_cycles =
    max (s.get Reg.PM_WAKE_MAX_cycles) (min (2 ^ 16 - 1) (s.cyc - s.pw.needAt)) := by
  have hlt : s.get Reg.PM_WAKE_MAX_cycles < 2 ^ 16 := s.get_lt _
  rw [State.wakeCounted, State.get_put_same _ _ _ (by decide), State.get_bump_other _ _ _ _ (by decide)]
  exact Nat.mod_eq_of_lt (show _ < 2 ^ 16 by omega)

theorem State.wakeCounted_regs (s : State) : s.regsBut s.wakeCounted [Reg.PM_WAKES, Reg.PM_WAKE_MAX] := by
  intro o ho
  obtain ⟨hcount, hmax⟩ : o ≠ Reg.PM_WAKES ∧ o ≠ Reg.PM_WAKE_MAX := by simpa using ho
  rw [State.wakeCounted, State.rd_put_other _ _ _ _ hmax, State.rd_bump_other _ _ _ _ hcount]

theorem State.ackRise_waking (s : State) (h : s.pw.st = .waking) (hreq : s.pw.req = true) (hack : s.pw.ack = false) :
    s.ackRise = ((s.passTo (s.pw.reqAt + 3)).setPw fun p => { p with ack := true }).wakeEnd := by
  simp only [State.ackRise, h, hreq, hack, Bool.not_true, Bool.or_self, Bool.false_eq_true, if_false, beq_self_eq_true, if_true]

/-- Start-up waits for the pin (R100). -/
theorem State.startIf_pin (s : State) (h : s.pw.fastRst = true) : s.startIf = s := by
  simp [State.startIf, h]

theorem State.ackRise_fastReset (s : State) (h : s.pw.st = .fastReset) (hreq : s.pw.req = true) (hack : s.pw.ack = false) :
    s.ackRise = ((s.passTo (s.pw.reqAt + 3)).setPw fun p => { p with ack := true }).startIf := by
  simp [State.ackRise, h, hreq, hack]

/-- A fall in STOPPING: SLEEP, or WAKING again where a need arose (R100). -/
theorem State.ackFall_stopping (s : State) (h : s.pw.st = .stopping) (hack : s.pw.ack = true) : s.ackFall =
    let t := { s with cyc := max s.cyc (s.pw.reqAt + 3), pw := { s.pw with ack := false } }
    if s.pw.need then { t with pw := { t.pw with st := .waking, req := true, reqAt := t.cyc + 1 } }
    else { t with pw := { t.pw with st := .sleep } } := by
  simp only [State.ackFall, h, hack, State.passTo_eq, State.setPw, Bool.not_true, Bool.false_eq_true, if_false]

theorem State.ackFall_active (s : State) (h : s.pw.st = .active) (hack : s.pw.ack = true) : s.ackFall = s.clockLoss := by
  simp only [State.ackFall, h, hack, Bool.not_true, Bool.false_eq_true, if_false]

/-- A loss of the clock in ACTIVE is a new wake (R101). -/
theorem State.clockLoss_pw (s : State) : s.clockLoss.pw.st = .waking ∧ s.clockLoss.pw.ack = false ∧ s.clockLoss.pw.lossDue = true := by
  simp only [State.clockLoss, State.setCk_pw, State.setPw_pw, State.put_pw, State.gate, and_self]

theorem State.clockLoss_fault (s : State) : s.clockLoss.get Reg.PM_FAULT_clock_loss = 1 := by
  simp only [State.clockLoss, State.setCk_get, State.setPw_get]
  exact State.get_put_same _ Reg.PM_FAULT_clock_loss 1 (by decide)

/-- Settles O12: the rise counts the wake and lets the fast domain run, or is only noted while the pin is asserted; the fall
ends STOPPING, and is a clock loss in ACTIVE. -/
theorem acknowledgeEndsTheWake : Obligations.AcknowledgeEndsTheWake := by
  refine ⟨fun s h hreq hack => ?_, fun s h hreq hack hpin => ?_, fun s h hack hn => ?_, fun s c h hack hn hc => ?_, fun s h hack => ?_⟩
  · have hrise : s.ackRise = _ := s.ackRise_waking h hreq hack
    rw [State.wakeEnd_eq, State.passTo_next, State.passTo_eq] at hrise
    exact ⟨_, congrArg _ hrise, rfl, rfl, State.wakeCounted_count _, State.wakeCounted_longest _, State.wakeCounted_regs _⟩
  · refine congrArg Host.Outcome.next ((s.ackRise_fastReset h hreq hack).trans ?_)
    rw [State.passTo_eq]
    exact State.startIf_pin _ hpin
  · refine congrArg Host.Outcome.next ((s.ackFall_stopping h hack).trans ?_)
    rw [hn]
    rfl
  · subst hc
    refine congrArg Host.Outcome.next ((s.ackFall_stopping h hack).trans ?_)
    rw [hn]
    rfl
  · obtain ⟨hst, hlow, hdue⟩ := s.clockLoss_pw
    exact ⟨_, congrArg Host.Outcome.next (s.ackFall_active h hack), hst, hlow, hdue, s.clockLoss_fault⟩

/-! ## Start-up's stages (R116, R122) -/

theorem execSramInitDone_eq (s : State) (ha : s.active = true) (hi : s.pw.sramInit = true) : exec .sramInitDone s = .next
    ((s.put Reg.PM_BOOT_stage 3).setPw fun p => { p with sramInit := false, idleFrom := s.cyc }) := by
  have hst : s.pw.st = .active := eq_of_beq ha
  show execSramInitDone s = _
  rw [execSramInitDone, ha, hi, Bool.and_self, if_pos rfl, State.need_active]
  · rfl
  · exact hst

/-- The steward sets the stages before the join (R122). -/
theorem State.wPmBoot_stage (s : State) (v : Nat) (h4 : 4 ≤ v % 16) (h7 : v % 16 ≤ 7) :
    s.wPmBoot 14 v = (s.put Reg.PM_BOOT_stage (v % 16), true) := by
  simp only [State.wPmBoot]
  rw [if_neg (by omega), if_neg (by omega)]

theorem State.wPmBoot_refused (s : State) (req v : Nat) (h : req ≠ 14 ∨ v % 16 < 4 ∨ 8 < v % 16) : s.wPmBoot req v = (s, false) := by
  simp only [State.wPmBoot]
  rw [if_pos h]

/-- A ready requester other than the steward does not have the steward's number (R60). -/
theorem Who.num_ne_steward {s : State} {who : Who} (hready : s.ready who) (h : who ≠ .steward) : Who.num who ≠ 14 := by
  obtain ⟨-, -, hport, -⟩ := hready
  cases who with
  | port src => exact Nat.ne_of_lt (hport rfl)
  | steward => exact absurd rfl h
  | debug => decide

/-- A command that is a write is refused with what the bus leaves. -/
theorem refuses_of_busWrite {c : Instr} {s : State} {who : Who} {off v : Nat} {u : State}
    (hc : exec c s = .next (s.writeBy who off v)) (hready : s.ready who)
    (hb : s.busWrite (Who.num who) off v = (u, false)) : Refuses c s who u := by
  have h := State.write_performed s who off v hready
  rw [hb] at h
  exact ⟨_, hc, h⟩

/-- Settles O13: the end of the SRAM initialisation, and the rule of a write of PM_BOOT. -/
theorem startUpStagesAdvance : Obligations.StartUpStagesAdvance := by
  refine ⟨fun s ha hi => ?_, fun s d hready h4 h7 => ?_, fun s who d hready h => ?_⟩
  · refine ⟨_, execSramInitDone_eq s ha hi, ?_, rfl, fun o ho => ?_, rfl⟩
    · rw [State.setPw_get, State.get_put_same _ _ _ (by decide)]
      rfl
    · rw [State.setPw_rd, State.rd_put_other _ _ _ _ (List.ne_of_not_mem_cons ho)]
  · exact writes_of_busWrite rfl hready ((State.busWrite_PM_BOOT _ _ _).trans (s.wPmBoot_stage _ h4 h7))
  · refine refuses_of_busWrite rfl hready ((State.busWrite_PM_BOOT _ _ _).trans (s.wPmBoot_refused _ _ ?_))
    exact h.imp_left (Who.num_ne_steward hready)

end Sys2Proof.Machine
end

section
namespace Sys2Proof.Machine

/-! ## Sensors (R109, R110) -/

/-- Registers that fields of one register are put into: the others read as before. -/
theorem State.regsBut_put (s t : State) (f : Fld) (v : Nat) (offs : List Nat) (h : s.regsBut t offs) (hf : f.off ∈ offs) :
    s.regsBut (t.put f v) offs := by
  intro o ho
  rw [State.rd_put_other _ _ _ _ (ne_of_mem_of_not_mem hf ho).symm, h o ho]

theorem State.regsBut_self (s : State) (offs : List Nat) : s.regsBut s offs := fun _ _ => rfl

/-- The state that R110 judges a reading `v` of sensor `n` to enter. -/
def State.sensorJudged (s : State) (n v : Nat) : Nat :=
  sensorNext (s.get (Reg.PM_SN_VAL_n_state n)) (toSigned 16 v) (toSigned 16 (s.get (Reg.PM_SN_THR_n_warn n)))
    (toSigned 16 (s.get (Reg.PM_SN_THR_n_crit n))) (s.get (Reg.PM_SN_CFG_n_hyst n))

/-- Value and state of sensor `n` set. -/
def State.sensorSet (s : State) (n v x : Nat) : State := (s.put (Reg.PM_SN_VAL_n_value n) v).put (Reg.PM_SN_VAL_n_state n) x

theorem State.sensorSet_value (s : State) (n v x : Nat) (h : v < 2 ^ 16) : (s.sensorSet n v x).get (Reg.PM_SN_VAL_n_value n) = v := by
  rw [State.sensorSet, State.get_put_apart _ (Reg.PM_SN_VAL_n_state n) (Reg.PM_SN_VAL_n_value n) _ (by decide : 16 + 2 ≤ 32) rfl (.inl (Nat.le_refl 16)),
    State.get_put_same _ (Reg.PM_SN_VAL_n_value n) _ (by decide : 0 + 16 ≤ 32)]
  exact Nat.mod_eq_of_lt h

theorem State.sensorSet_state (s : State) (n v x : Nat) (h : x < 4) : (s.sensorSet n v x).get (Reg.PM_SN_VAL_n_state n) = x := by
  rw [State.sensorSet, State.get_put_same _ (Reg.PM_SN_VAL_n_state n) _ (by decide : 16 + 2 ≤ 32)]
  exact Nat.mod_eq_of_lt h

theorem State.sensorSet_regs (s : State) (n v x : Nat) : s.regsBut (s.sensorSet n v x) [Reg.PM_SN_VAL_n n] :=
  s.regsBut_put _ _ _ _ (s.regsBut_put _ _ _ _ (s.regsBut_self _) List.mem_cons_self) List.mem_cons_self

/-- The value of a sensor is apart from its state, its thresholds and its configuration. -/
theorem State.sensorJudged_put_value (s : State) (n v w : Nat) :
    (s.put (Reg.PM_SN_VAL_n_value n) w).sensorJudged n v = s.sensorJudged n v := by
  have hwarn : (Reg.PM_SN_THR_n_warn n).off ≠ (Reg.PM_SN_VAL_n_value n).off := show 0x01800 + 8 * n ≠ 0x01400 + 4 * n by omega
  have hcrit : (Reg.PM_SN_THR_n_crit n).off ≠ (Reg.PM_SN_VAL_n_value n).off := hwarn
  have hhyst : (Reg.PM_SN_CFG_n_hyst n).off ≠ (Reg.PM_SN_VAL_n_value n).off := show 0x01804 + 8 * n ≠ 0x01400 + 4 * n by omega
  rw [State.sensorJudged, State.get_put_other _ _ _ _ hwarn, State.get_put_other _ _ _ _ hcrit, State.get_put_other _ _ _ _ hhyst,
    State.get_put_apart s (Reg.PM_SN_VAL_n_value n) (Reg.PM_SN_VAL_n_state n) _ (by decide : 0 + 16 ≤ 32) rfl (.inr (Nat.le_refl 16)),
    State.sensorJudged]

theorem State.sensorRead_noKind (s : State) (n v : Nat) (h : s.get (Reg.PM_SN_CFG_n_kind n) = 0) :
    s.sensorRead n v = s.put (Reg.PM_SN_VAL_n_value n) v := by
  simp only [State.sensorRead, h, true_or, if_true]

/-- A reading of a sensor of a kind sets its value and the state judged. -/
theorem State.sensorRead_kind (s : State) (n v : Nat) (h1 : 1 ≤ s.get (Reg.PM_SN_CFG_n_kind n))
    (h5 : s.get (Reg.PM_SN_CFG_n_kind n) ≤ 5) :
    s.sensorRead n v =
      let x := s.sensorJudged n v
      let t := s.sensorSet n v x
      if x = s.get (Reg.PM_SN_VAL_n_state n) % 3 then t
      else
        let u := (t.recordAon 3 0x01 Unit_.power n x).raise 36
        (if x = 2 then (u.put Reg.PM_FAULT_sensor_crit 1).faultAon Code.SENSOR_CRIT Unit_.power n 0 else u).thrStep := by
  have hcur : (s.put (Reg.PM_SN_VAL_n_value n) v).get (Reg.PM_SN_VAL_n_state n) = s.get (Reg.PM_SN_VAL_n_state n) :=
    s.get_put_apart _ _ _ (by decide : 0 + 16 ≤ 32) rfl (.inr (Nat.le_refl 16))
  rw [← s.sensorJudged_put_value n v v, ← hcur]
  simp only [State.sensorRead]
  rw [if_neg (by omega)]
  rfl

theorem sensorNext_lt (cur : Nat) (v warn crit hyst : Int) : sensorNext cur v warn crit hyst < 3 := by
  unfold sensorNext
  split_ifs <;> decide

/-- A reading that leaves the sensor in its state. -/
theorem State.sensorRead_stays (s : State) (n v : Nat) (h1 : 1 ≤ s.get (Reg.PM_SN_CFG_n_kind n))
    (h5 : s.get (Reg.PM_SN_CFG_n_kind n) ≤ 5) (hx : s.sensorJudged n v = s.get (Reg.PM_SN_VAL_n_state n)) :
    s.sensorRead n v = s.sensorSet n v (s.get (Reg.PM_SN_VAL_n_state n)) := by
  have hlt : s.get (Reg.PM_SN_VAL_n_state n) < 3 := hx ▸ sensorNext_lt _ _ _ _ _
  simp only [s.sensorRead_kind n v h1 h5, hx, Nat.mod_eq_of_lt hlt, if_true]

/-- A reading that moves the sensor to normal or warn. -/
theorem State.sensorRead_moves (s : State) (n v x : Nat) (h1 : 1 ≤ s.get (Reg.PM_SN_CFG_n_kind n))
    (h5 : s.get (Reg.PM_SN_CFG_n_kind n) ≤ 5) (hcur : s.get (Reg.PM_SN_VAL_n_state n) < 3) (hne : x ≠ s.get (Reg.PM_SN_VAL_n_state n))
    (h2 : x < 2) (hx : s.sensorJudged n v = x) :
    s.sensorRead n v = (((s.sensorSet n v x).recordAon 3 0x01 Unit_.power n x).raise 36).thrStep := by
  simp only [s.sensorRead_kind n v h1 h5, hx, Nat.mod_eq_of_lt hcur, if_neg hne, if_neg (Nat.ne_of_lt h2)]

/-- In a block that is up a reading is taken, in every power state (R109). -/
theorem execSensorReading_up (s : State) (n : BitVec 8) (v : BitVec 16) (h : s.aonUp = true) :
    exec (.sensorReading n v) s = .next (s.sensorRead n.toNat v.toNat) := by
  show execSensorReading n v s = _
  rw [execSensorReading, if_pos h]

/-! ## Droops (R111) -/

theorem execDroopReport_up (s : State) (k : Fin 16) (h : s.aonUp = true) :
    exec (.droopReport k) s = .next (s.bump (Reg.PM_DROOP_k_count k.val) 1) := by
  show execDroopReport k s = _
  rw [execDroopReport, if_pos h]
  rfl

/-- A count that fills its register. -/
theorem State.rd_bump_word (s : State) (off n : Nat) : (s.bump { off := off, lo := 0, w := 32 } n).rd off = min (2 ^ 32 - 1) (s.rd off + n) := by
  have hget : ∀ t : State, t.get { off := off, lo := 0, w := 32 } = t.rd off := by
    intro t
    rw [State.get, bits_eq, pow_zero, Nat.div_one]
    exact Nat.mod_eq_of_lt (t.rd_lt off)
  have hb := s.get_bump_same { off := off, lo := 0, w := 32 } n (by decide : 0 + 32 ≤ 32)
  rwa [hget, hget] at hb

/-! ## The PMBus master (R84, R114) -/

/-- The alert response goes before every other transaction (R120). -/
theorem State.pbStart_alert (s : State) (hcur : s.pb.cur = none) (ha : s.pb.alertDue = true) : s.pbStart =
    { s with pb := { s.pb with cur := some .alert, alertDue := false, tries := 0, addr := 0x0C, code := 0 } } := by
  simp only [State.pbStart, hcur, ha, if_true]

/-- The poll goes before firmware's transaction (R114). -/
theorem State.pbStart_vin (s : State) (hcur : s.pb.cur = none) (ha : s.pb.alertDue = false) (hv : s.pb.vinDue = true) : s.pbStart =
    { s with pb := { s.pb with cur := some .vin, vinDue := false, tries := 0, addr := s.get Reg.PM_PB_CFG_vin_addr, code := 0x88 } } := by
  simp only [State.pbStart, hcur, ha, hv, if_true, Bool.false_eq_true, if_false]

theorem State.pbStart_fw (s : State) (hcur : s.pb.cur = none) (ha : s.pb.alertDue = false) (hv : s.pb.vinDue = false)
    (hf : s.pb.fwDue = true) : s.pbStart =
    { s with pb := { s.pb with cur := some .fw, fwDue := false, tries := 0, addr := s.get Reg.PM_PB_CMD_addr
                               paging := s.get Reg.PM_PB_CMD_page_en == 1
                               code := if s.get Reg.PM_PB_CMD_page_en == 1 then 0x00 else s.get Reg.PM_PB_CMD_code } } := by
  simp only [State.pbStart, hcur, ha, hv, hf, if_true, Bool.false_eq_true, if_false]

/-- With nothing due the bus stays idle. -/
theorem State.pbStart_idle (s : State) (hcur : s.pb.cur = none) (ha : s.pb.alertDue = false) (hv : s.pb.vinDue = false)
    (hf : s.pb.fwDue = false) : s.pbStart = s := by
  simp only [State.pbStart, hcur, ha, hv, hf, Bool.false_eq_true, if_false]

/-- A poll that is enabled, on an idle bus without an alert, at its time. -/
theorem State.vinPoll_starts (s : State) (ht : s.tray = true) (hen : s.get Reg.PM_PB_CFG_vin_en = 1)
    (hus : s.get Reg.PM_PB_CFG_poll_us ≠ 0) (hcur : s.pb.cur = none) (ha : s.pb.alertDue = false) : s.vinPoll =
    { s with cyc := max s.cyc s.pb.pollAt
             pb := { s.pb with cur := some .vin, vinDue := false, tries := 0, addr := s.get Reg.PM_PB_CFG_vin_addr, code := 0x88
                               pollAt := max s.cyc s.pb.pollAt + s.get Reg.PM_PB_CFG_poll_us * usCycles } } := by
  simp only [State.vinPoll, ht, hen, bne_iff_ne, ne_eq, hus, not_false_eq_true, beq_self_eq_true, Bool.and_self, Bool.true_and,
    if_true, State.passTo_eq]
  exact State.pbStart_vin _ hcur ha rfl

theorem execVinPoll_up (s : State) (h : s.aonUp = true) : exec .vinPoll s = .next s.vinPoll := by
  show execVinPoll s = _
  rw [execVinPoll, if_pos h]

theorem execPmbusAlert_up (s : State) (h : s.aonUp = true) (ht : s.tray = true) (hcur : s.pb.cur = none) : exec .pmbusAlert s =
    .next { s with pb := { s.pb with cur := some .alert, alertDue := false, tries := 0, addr := 0x0C, code := 0 } } := by
  show execPmbusAlert s = _
  rw [execPmbusAlert, h, ht, Bool.and_self, if_pos rfl, State.pbStart_alert]
  · exact hcur
  · rfl

/-! ### Firmware's command (R122) -/

/-- The registers as a command of firmware with `go` leaves them. -/
def State.pbCmdSet (s : State) (v : Nat) : State :=
  ((State.wPbCmd.putReserved ((s.wr Reg.PM_PB_CMD (v % 2 ^ 32)).put Reg.PM_PB_CMD_go 0)).put Reg.PM_PB_CMD_go 1).put Reg.PM_PB_RSP_done 0

theorem State.putReserved_pb (s : State) : (State.wPbCmd.putReserved s).pb = s.pb := by
  rw [State.wPbCmd.putReserved, State.wr_pb]

theorem State.wPbCmd_unlisted (s : State) (v : Nat) (ht : s.tray = true) (hc : pmbusCodes.contains (bits v 8 8) = false) :
    s.wPbCmd v = none := by
  simp only [State.wPbCmd, ht, hc, Bool.not_true, Bool.not_false, Bool.false_eq_true, if_false, if_true]

theorem State.wPbCmd_go (s : State) (v : Nat) (ht : s.tray = true) (hc : pmbusCodes.contains (bits v 8 8) = true)
    (hb : bit v 18 = true) (hgo : s.get Reg.PM_PB_CMD_go = 0) :
    s.wPbCmd v = some (State.pbStart { s.pbCmdSet v with pb := { s.pb with fwDue := true } }) := by
  have hpb : (State.wPbCmd.putReserved ((s.wr Reg.PM_PB_CMD (v % 2 ^ 32)).put Reg.PM_PB_CMD_go 0)).pb = s.pb := by
    rw [State.putReserved_pb, State.put_pb, State.wr_pb]
  simp only [State.wPbCmd, ht, hc, hb, hgo, Bool.not_true, Bool.false_eq_true, if_false, beq_self_eq_true, Bool.and_self, if_true]
  rw [State.pbCmdSet, hpb]

/-- The reserved bits are apart from the command's code (R15). -/
theorem State.putReserved_code (s : State) : (State.wPbCmd.putReserved s).get Reg.PM_PB_CMD_code = s.get Reg.PM_PB_CMD_code := by
  have hlt : putBits (putBits (s.rd Reg.PM_PB_CMD) 7 1 0) 20 4 0 < 2 ^ 32 :=
    putBits_lt _ _ _ _ 32 (putBits_lt _ _ _ _ 32 (s.rd_lt _) (by decide)) (by decide)
  show bits ((s.wr Reg.PM_PB_CMD _).rd Reg.PM_PB_CMD) 8 8 = bits (s.rd Reg.PM_PB_CMD) 8 8
  rw [State.rd_wr_same, Nat.mod_eq_of_lt hlt, bits_putBits_apart _ _ _ _ _ _ (.inl (by decide)),
    bits_putBits_apart _ _ _ _ _ _ (.inr (by decide))]

theorem State.pbCmdSet_code (s : State) (v : Nat) (h : v < 2 ^ 32) : (s.pbCmdSet v).get Reg.PM_PB_CMD_code = bits v 8 8 := by
  rw [State.pbCmdSet, State.get_put_other _ _ _ _ (by decide), 
    State.get_put_apart _ Reg.PM_PB_CMD_go Reg.PM_PB_CMD_code _ (by decide) rfl (.inl (by decide)), State.putReserved_code,
    State.get_put_apart _ Reg.PM_PB_CMD_go Reg.PM_PB_CMD_code _ (by decide) rfl (.inl (by decide)), Nat.mod_eq_of_lt h]
  show bits ((s.wr Reg.PM_PB_CMD v).rd Reg.PM_PB_CMD) 8 8 = _
  rw [State.rd_wr_same, Nat.mod_eq_of_lt h]

theorem State.pbCmdSet_go (s : State) (v : Nat) : (s.pbCmdSet v).get Reg.PM_PB_CMD_go = 1 := by
  rw [State.pbCmdSet, State.get_put_other _ _ _ _ (by decide), State.get_put_same _ Reg.PM_PB_CMD_go _ (by decide)]
  rfl

theorem State.pbCmdSet_done (s : State) (v : Nat) : (s.pbCmdSet v).get Reg.PM_PB_RSP_done = 0 := by
  rw [State.pbCmdSet, State.get_put_same _ _ _ (by decide)]
  rfl

/-- A command with `go` starts firmware's transaction on an idle bus, PAGE first where it is asked for. -/
theorem State.wPbCmd_starts (s : State) (v : Nat) (hv : v < 2 ^ 32) (ht : s.tray = true) (hc : pmbusCodes.contains (bits v 8 8) = true)
    (hb : bit v 18 = true) (hgo : s.get Reg.PM_PB_CMD_go = 0) (hcur : s.pb.cur = none) (ha : s.pb.alertDue = false)
    (hvin : s.pb.vinDue = false) : ∃ u, s.wPbCmd v = some u ∧ u.pb.cur = some .fw ∧ u.pb.paging = (u.get Reg.PM_PB_CMD_page_en == 1) ∧
      u.pb.code = (if u.pb.paging = true then 0 else bits v 8 8) ∧ u.get Reg.PM_PB_CMD_go = 1 ∧ u.get Reg.PM_PB_RSP_done = 0 := by
  have hcode := s.pbCmdSet_code v hv
  have hset := s.pbCmdSet_go v
  have hdone := s.pbCmdSet_done v
  have hstart := s.wPbCmd_go v ht hc hb hgo
  generalize s.pbCmdSet v = c at hcode hset hdone hstart
  exact ⟨_, hstart.trans (congrArg some (State.pbStart_fw _ hcur ha hvin rfl)), rfl, rfl, hcode ▸ rfl, hset, hdone⟩

/-! ### The end of a transaction (R84, R122) -/

theorem execPmbusTransactionEnd_up (s : State) (a : PbEnd) (h : s.aonUp = true) :
    exec (.pmbusTransactionEnd a) s = .next (s.pbEnd a) := by
  show execPmbusTransactionEnd a s = _
  rw [execPmbusTransactionEnd, if_pos h]

theorem State.pbEnd_noAck (s : State) (k : PbKind) (hcur : s.pb.cur = some k) (h : s.pb.tries < 3) :
    s.pbEnd .noAck = { s with pb := { s.pb with tries := s.pb.tries + 1 } } := by
  simp only [State.pbEnd, hcur, State.pbEnd.retry, if_pos h]

theorem State.pbEnd_page (s : State) (k : PbKind) (v : BitVec 16) (hcur : s.pb.cur = some k) (hp : s.pb.paging = true) :
    s.pbEnd (.ok v) = { s with pb := { s.pb with paging := false, tries := 0, code := s.get Reg.PM_PB_CMD_code } } := by
  simp only [State.pbEnd, hcur, hp, if_true]

theorem State.pbEnd_ok (s : State) (k : PbKind) (v : BitVec 16) (hcur : s.pb.cur = some k) (hp : s.pb.paging = false) :
    s.pbEnd (.ok v) = s.pbDone k 0 v.toNat := by
  simp only [State.pbEnd, hcur, hp, Bool.false_eq_true, if_false]

theorem State.pbDone_alert (s : State) (d : Nat) (ha : s.pb.alertDue = false) (hv : s.pb.vinDue = false) (hf : s.pb.fwDue = false) :
    s.pbDone .alert 0 d = { s with pb := { s.pb with cur := none, paging := false, alertRsp := d % 256 } } := by
  simp only [State.pbDone, if_true]
  exact State.pbStart_idle _ rfl ha hv hf

/-- Firmware's response registers with status 0 and the data `d`, and `go` cleared. -/
def State.fwAnswered (s : State) (d : Nat) : State :=
  (((s.put Reg.PM_PB_RSP_status 0).put Reg.PM_PB_RSP_done 1).put Reg.PM_PB_CMD_go 0).put Reg.PM_PB_RSP_data d

/-- The PMBus master's own state set. -/
def State.setPb (s : State) (p : Pmbus) : State := { s with pb := p }

theorem State.put_setPb (s : State) (p : Pmbus) (f : Fld) (v : Nat) : (s.setPb p).put f v = (s.put f v).setPb p := rfl

theorem State.setPb_get (s : State) (p : Pmbus) (f : Fld) : (s.setPb p).get f = s.get f := rfl

theorem State.setPb_rd (s : State) (p : Pmbus) (o : Nat) : (s.setPb p).rd o = s.rd o := rfl

/-- The master becomes idle and, with nothing due, stays idle. -/
theorem State.pbStart_setPb_idle (s : State) (p : Pmbus) (hcur : p.cur = none) (ha : p.alertDue = false) (hv : p.vinDue = false)
    (hf : p.fwDue = false) : (s.setPb p).pbStart = s.setPb p := State.pbStart_idle _ hcur ha hv hf

theorem State.fwAnswered_setPb (s : State) (p : Pmbus) (d : Nat) : (s.setPb p).fwAnswered d = (s.fwAnswered d).setPb p := by
  rw [State.fwAnswered, State.put_setPb, State.put_setPb, State.put_setPb, State.put_setPb, State.fwAnswered]

/-- Firmware's transaction answered: its response, and an idle bus on which the next due transaction starts. -/
theorem State.pbDone_fw (s : State) (d : Nat) (hc : s.pb.code ≠ 0x03) : s.pbDone .fw 0 d =
    ((s.fwAnswered (if s.get Reg.PM_PB_CMD_word = 1 then d else d % 256)).setPb { s.pb with cur := none, paging := false }).pbStart := by
  rw [← State.fwAnswered_setPb]
  simp only [State.pbDone, if_true]
  rw [State.put_pb, State.put_pb, State.put_pb, if_neg hc]
  rfl

theorem State.fwAnswered_done (s : State) (d : Nat) : (s.fwAnswered d).get Reg.PM_PB_RSP_done = 1 := by
  rw [State.fwAnswered, State.get_put_apart _ Reg.PM_PB_RSP_data Reg.PM_PB_RSP_done _ (by decide) rfl (.inr (by decide)),
    State.get_put_other _ _ _ _ (by decide), State.get_put_same _ Reg.PM_PB_RSP_done _ (by decide)]
  rfl

theorem State.fwAnswered_status (s : State) (d : Nat) : (s.fwAnswered d).get Reg.PM_PB_RSP_status = 0 := by
  rw [State.fwAnswered, State.get_put_apart _ Reg.PM_PB_RSP_data Reg.PM_PB_RSP_status _ (by decide) rfl (.inr (by decide)),
    State.get_put_other _ _ _ _ (by decide),
    State.get_put_apart _ Reg.PM_PB_RSP_done Reg.PM_PB_RSP_status _ (by decide) rfl (.inr (by decide)),
    State.get_put_same _ Reg.PM_PB_RSP_status _ (by decide)]
  rfl

theorem State.fwAnswered_go (s : State) (d : Nat) : (s.fwAnswered d).get Reg.PM_PB_CMD_go = 0 := by
  rw [State.fwAnswered, State.get_put_other _ _ _ _ (by decide), State.get_put_same _ _ _ (by decide)]
  rfl

theorem State.fwAnswered_data (s : State) (d : Nat) (h : d < 2 ^ 16) : (s.fwAnswered d).get Reg.PM_PB_RSP_data = d := by
  rw [State.fwAnswered, State.get_put_same _ _ _ (by decide)]
  exact Nat.mod_eq_of_lt h

theorem State.fwAnswered_regs (s : State) (d : Nat) : s.regsBut (s.fwAnswered d) [Reg.PM_PB_RSP, Reg.PM_PB_CMD] := by
  have hrsp : Reg.PM_PB_RSP ∈ [Reg.PM_PB_RSP, Reg.PM_PB_CMD] := by decide
  have hcmd : Reg.PM_PB_CMD ∈ [Reg.PM_PB_RSP, Reg.PM_PB_CMD] := by decide
  exact s.regsBut_put _ _ _ _ (s.regsBut_put _ _ _ _ (s.regsBut_put _ _ _ _ (s.regsBut_put _ _ _ _ (s.regsBut_self _) hrsp) hrsp) hcmd) hrsp

/-- A transaction of firmware answered with data, with nothing else due. -/
theorem State.pbEnd_fw (s : State) (v : BitVec 16) (hp : s.pb.paging = false) (hcur : s.pb.cur = some .fw) (ha : s.pb.alertDue = false)
    (hv : s.pb.vinDue = false) (hf : s.pb.fwDue = false) (hc : s.pb.code ≠ 0x03) :
    ∃ t, s.pbEnd (.ok v) = t ∧ t.pb.cur = none ∧ t.get Reg.PM_PB_RSP_done = 1 ∧ t.get Reg.PM_PB_RSP_status = 0 ∧
      t.get Reg.PM_PB_CMD_go = 0 ∧ t.get Reg.PM_PB_RSP_data = (if s.get Reg.PM_PB_CMD_word = 1 then v.toNat else v.toNat % 256) ∧
      s.regsBut t [Reg.PM_PB_RSP, Reg.PM_PB_CMD] := by
  have hend := (s.pbEnd_ok .fw v hcur hp).trans (s.pbDone_fw _ hc)
  rw [State.pbStart_setPb_idle _ { s.pb with cur := none, paging := false } rfl ha hv hf] at hend
  refine ⟨_, hend, rfl, ?_, ?_, ?_, ?_, fun o ho => ?_⟩
  · rw [State.setPb_get, State.fwAnswered_done]
  · rw [State.setPb_get, State.fwAnswered_status]
  · rw [State.setPb_get, State.fwAnswered_go]
  · have := v.isLt
    rw [State.setPb_get, State.fwAnswered_data]
    split_ifs <;> omega
  · rw [State.setPb_rd, State.fwAnswered_regs _ _ o ho]

/-- Settles O35: each command by the rule of its function, and the registers it sets by the fields put. -/
theorem sensorsDroopsAndPmbus : Obligations.SensorsDroopsAndPmbus := by
  refine ⟨⟨fun s n v hup hk => ?_, fun s n v hup h1 h5 hx => ?_, fun s n v x hup h1 h5 hne h2 hcur hx => ?_, fun s k hup => ?_,
    fun s hup ht hen hus hcur ha => ?_, fun s hup ht hcur => ?_, fun s who d hready ht hc => ?_,
    fun s who d hready ht hc hb hgo hcur ha hv => ?_, fun s k hup hcur h3 => ?_⟩,
    fun s v hup hp hcur ha hv hf hc => ?_, fun s v hup hp hcur ha hv hf => ?_, fun s v k hup hp hcur => ?_⟩
  · have hread := (execSensorReading_up s n v hup).trans (congrArg Host.Outcome.next (s.sensorRead_noKind _ v.toNat hk))
    refine ⟨_, hread, ?_, s.regsBut_put _ _ _ _ (s.regsBut_self _) List.mem_cons_self, rfl⟩
    exact (State.get_put_same _ _ _ (by decide : 0 + 16 ≤ 32)).trans (Nat.mod_eq_of_lt v.isLt)
  · have hread := (execSensorReading_up s n v hup).trans (congrArg Host.Outcome.next (s.sensorRead_stays _ _ h1 h5 hx))
    exact ⟨_, hread, s.sensorSet_value _ _ _ v.isLt, s.sensorSet_state _ _ _ (s.get_lt (Reg.PM_SN_VAL_n_state n.toNat)),
      s.sensorSet_regs _ _ _, rfl⟩
  · have hread := (execSensorReading_up s n v hup).trans (congrArg Host.Outcome.next (s.sensorRead_moves _ _ x h1 h5 hcur hne h2 hx))
    exact ⟨_, hread, s.sensorSet_value _ _ _ v.isLt, s.sensorSet_state _ _ _ (by omega), s.sensorSet_regs _ _ _, rfl⟩
  · refine ⟨_, execDroopReport_up s k hup, s.rd_bump_word _ 1, fun o ho => ?_, rfl⟩
    exact s.rd_bump_other (Reg.PM_DROOP_k_count k.val) 1 o (List.ne_of_not_mem_cons ho)
  · have hpoll := (execVinPoll_up s hup).trans (congrArg Host.Outcome.next (s.vinPoll_starts ht hen hus hcur ha))
    exact ⟨_, hpoll, rfl, rfl, rfl, rfl, rfl, rfl⟩
  · exact ⟨_, execPmbusAlert_up s hup ht hcur, rfl, rfl, rfl⟩
  · refine refuses_of_busWrite rfl hready ((State.busWrite_PM_PB_CMD s _ _ ht).trans ?_)
    rw [s.wPbCmd_unlisted _ ht hc]
    rfl
  · obtain ⟨u, hu, hrest⟩ := s.wPbCmd_starts d.toNat d.isLt ht hc hb hgo hcur ha hv
    refine ⟨u, writes_of_busWrite rfl hready ((State.busWrite_PM_PB_CMD s _ _ ht).trans ?_), hrest⟩
    rw [hu]
    rfl
  · exact (execPmbusTransactionEnd_up s _ hup).trans (congrArg Host.Outcome.next (s.pbEnd_noAck k hcur h3))
  · obtain ⟨t, hend, hrest⟩ := s.pbEnd_fw v hp hcur ha hv hf hc
    exact ⟨t, (execPmbusTransactionEnd_up s _ hup).trans (congrArg Host.Outcome.next hend), hrest⟩
  · have hdone := (s.pbEnd_ok .alert v hcur hp).trans (s.pbDone_alert _ ha hv hf)
    rw [← hp] at hdone
    exact (execPmbusTransactionEnd_up s _ hup).trans (congrArg Host.Outcome.next hdone)
  · exact (execPmbusTransactionEnd_up s _ hup).trans (congrArg Host.Outcome.next (s.pbEnd_page k v hcur hp))

end Sys2Proof.Machine
end

section
namespace Sys2Proof.Machine

/-! ## What waits for the fast domain leaves the power state alone

Once the fast domain runs, records, drops, markers and pennants reach their places (`State.ungate`). None of it changes the
time, the start-up stage, the resets, or what waits at the crossings. -/

/-- While the fast domain runs: the time, `PM_BOOT`, the resets, the memory initialisation, and what waits at the crossings. -/
def State.awake (s : State) : Option (Nat × Nat × Bool × Bool × Bool × List Access × List Arrival) :=
  if s.active then some (s.cyc, s.rd Reg.PM_BOOT, s.pw.fastRst, s.pw.intF, s.pw.sramInit, s.waiting, s.hl.arrived) else none

@[simp] theorem State.awake_ite {p : Prop} [Decidable p] (a b : State) :
    (if p then a else b).awake = if p then a.awake else b.awake := apply_ite State.awake p a b

@[simp] theorem foldl_awake {α : Type} (g : State → α → State) (h : ∀ t x, (g t x).awake = t.awake) (l : List α)
    (s : State) : (l.foldl g s).awake = s.awake := by
  induction l generalizing s with
  | nil => rfl
  | cons a l ih => rw [List.foldl_cons, ih, h]

/-! ### Parts of the state -/

@[simp] theorem State.awake_notices (t : State) (x : List HnWrite) : State.awake { t with notices := x } = t.awake := rfl

@[simp] theorem State.awake_queues (t : State) (x : List Queue) : State.awake { t with queues := x } = t.awake := rfl

@[simp] theorem State.awake_tb (t : State) (x : TimeBase) : State.awake { t with tb := x } = t.awake := rfl

@[simp] theorem State.awake_cf (t : State) (x : Counters) : State.awake { t with cf := x } = t.awake := rfl

@[simp] theorem State.awake_ck (t : State) (x : Taps) : State.awake { t with ck := x } = t.awake := rfl

@[simp] theorem State.awake_ev (t : State) (x : Recorder) : State.awake { t with ev := x } = t.awake := rfl

@[simp] theorem State.awake_red (t : State) (x : Reduction) : State.awake { t with red := x } = t.awake := rfl

@[simp] theorem State.awake_tr (t : State) (x : TraceUnit) : State.awake { t with tr := x } = t.awake := rfl

@[simp] theorem State.awake_dc (t : State) (x : Dumping) : State.awake { t with dc := x } = t.awake := rfl

@[simp] theorem State.awake_fa (t : State) (x : Analytics) : State.awake { t with fa := x } = t.awake := rfl

@[simp] theorem State.awake_fsp (t : State) (x : ReqPort) : State.awake { t with fsp := x } = t.awake := rfl

@[simp] theorem State.awake_fs (t : State) (x : Mem) : State.awake { t with fs := x } = t.awake := rfl

@[simp] theorem State.awake_free (t : State) (x : Nat) : State.awake { t with free := x } = t.awake := rfl

@[simp] theorem State.awake_hl (t : State) (x : Halyard) (h : x.arrived = t.hl.arrived) :
    State.awake { t with hl := x } = t.awake := by
  unfold State.awake
  rw [← h]
  rfl

/-! ### Registers behind the power page, needs and sources -/

@[simp] theorem pmBoot_lt_add (b n : Nat) (h : 0x1014 < b) : 0x1014 < b + n := Nat.lt_add_right n h

@[simp] theorem State.wr_awake (s : State) (off v : Nat) (h : 0x1014 < off) : (s.wr off v).awake = s.awake := by
  have hb : (s.wr off v).rd Reg.PM_BOOT = s.rd Reg.PM_BOOT := s.rd_wr_other off v _ (Nat.ne_of_lt h)
  unfold State.awake
  rw [hb]
  rfl

@[simp] theorem State.put_awake (s : State) (f : Fld) (v : Nat) (h : 0x1014 < f.off) : (s.put f v).awake = s.awake :=
  s.wr_awake f.off _ h

@[simp] theorem State.bump_awake (s : State) (f : Fld) (n : Nat) (h : 0x1014 < f.off) : (s.bump f n).awake = s.awake :=
  s.wr_awake f.off _ h

@[simp] theorem State.incr_awake (s : State) (off n : Nat) (h : 0x1014 < off) :
    (s.incr off n).awake = s.awake := s.wr_awake off _ h

@[simp] theorem State.wr64_awake (s : State) (lo v : Nat) (h : 0x1014 < lo) : (s.wr64 lo v).awake = s.awake := by
  rw [State.wr64, State.wr_awake _ _ _ (Nat.lt_add_right 4 h), State.wr_awake _ _ _ h]

@[simp] theorem State.incr64_awake (s : State) (lo n : Nat) (h : 0x1014 < lo) :
    (s.incr64 lo n).awake = s.awake := s.wr64_awake lo _ h

@[simp] theorem State.draw_awake (s : State) : s.draw.awake = s.awake := rfl

@[simp] theorem State.need_awake (s : State) : s.need.awake = s.awake := by
  unfold State.need
  split
  next h => simp [State.awake, State.active, h]
  next h => split_ifs <;> simp [State.awake, State.active, h]
  next h => simp [State.awake, State.active, State.rd, h]
  next => rfl

@[simp] theorem State.watchWake_awake (s : State) (n : Nat) : (s.watchWake n).awake = s.awake := by
  simp [State.watchWake, Reg.IC_WAKES_count, Reg.IC_WAKES]

@[simp] theorem State.doorbell_awake (s : State) (n : Nat) (outside : Bool) : (s.doorbell n outside).awake = s.awake := by
  simp [State.doorbell, Reg.IC_DB_BAD_count, Reg.IC_DB_BAD, Reg.IC_COALESCED_count, Reg.IC_COALESCED, Reg.IC_PEND_k]

@[simp] theorem State.raise_awake (s : State) (n : Nat) : (s.raise n).awake = s.awake := by simp [State.raise]

@[simp] theorem State.hostWrite_awake (s : State) (addr : Nat) (data : List Byte) : (s.hostWrite addr data).awake = s.awake := rfl

@[simp] theorem State.notice_awake (s : State) (e : Nat) : (s.notice e).awake = s.awake := by
  simp [State.notice, Reg.IC_NOTE_SEQ_e]

@[simp] theorem State.fsAccess_awake (s : State) (o : Owner) (write : Bool) (lines : List Nat) (i : Nat) :
    (s.fsAccess o write lines i).awake = s.awake := by
  simp [State.fsAccess]

@[simp] theorem State.dmWrite_awake (s : State) (a : Nat) (bs : List Byte) : (s.dmWrite a bs).awake = s.awake := rfl

@[simp] theorem State.fsWrite_awake (s : State) (o : Owner) (a : Nat) (bs : List Byte) : (s.fsWrite o a bs).awake = s.awake := by
  simp [State.fsWrite]

/-! ### Admission and records -/

@[simp] theorem State.setLane_awake (s : State) (n : Nat) (f : Lane → Lane) : (s.setLane n f).awake = s.awake := rfl

@[simp] theorem State.setAssoc_awake (s : State) (peer : Nat) (f : Assoc → Assoc) : (s.setAssoc peer f).awake = s.awake := rfl

@[simp] theorem State.noteDepth_awake (s : State) (q : Nat) : (s.noteDepth q).awake = s.awake := by
  simp [State.noteDepth, Reg.HL_Q_MAX_q_count, Reg.HL_Q_MAX_q]

@[simp] theorem State.enqueue_awake (s : State) (cls : Nat) (e : QEntry) (x : Dest) : (s.enqueue cls e x).awake = s.awake := by
  unfold State.enqueue
  dsimp only
  (repeat' split) <;> simp

@[simp] theorem State.enqueueAll_awake (s : State) (cls : Nat) (e : QEntry) (x : List Dest) :
    (s.enqueueAll cls e x).awake = s.awake := by
  induction x generalizing s with
  | nil => rfl
  | cons d ds ih =>
    cases ds with
    | nil => simp [State.enqueueAll]
    | cons _ _ => rw [State.enqueueAll, ih]; simp; simp

@[simp] theorem State.leavePool_awake (s : State) (src : Src) (cls : Nat) : (s.leavePool src cls).awake = s.awake := by
  unfold State.leavePool
  (repeat' split) <;> simp

@[simp] theorem State.tickBuckets_awake (s : State) : s.tickBuckets.awake = s.awake := rfl

@[simp] theorem State.spendToken_awake (s : State) (cls : Nat) : (s.spendToken cls).awake = s.awake := by
  have a : ∀ b : Bucket, State.awake { s with hl := { s.hl with bucketA := b } } = s.awake := fun _ => rfl
  have c : ∀ b : Bucket, State.awake { s with hl := { s.hl with bucketB := b } } = s.awake := fun _ => rfl
  unfold State.spendToken
  split
  · exact a _
  · exact c _

@[simp] theorem State.noteRefusal_awake (s : State) (cls unit : Nat) (summary : Bool) :
    (s.noteRefusal cls unit summary).awake = s.awake := by
  have hb : (s.bump (Reg.HL_REFUSED_c_count cls) 1).awake = s.awake := by simp [Reg.HL_REFUSED_c_count, Reg.HL_REFUSED_c]
  unfold State.noteRefusal
  dsimp only
  split
  · exact hb
  · exact (State.awake_hl _ _ rfl).trans hb

@[simp] theorem State.noteSeen_awake (s : State) (func : Nat) (pen : List Byte) : (s.noteSeen func pen).awake = s.awake := by
  simp [State.noteSeen]

@[simp] theorem State.admitted_awake (s : State) (o : Offer) : (s.admitted o).awake = s.awake := by
  unfold State.admitted
  (repeat' split) <;> simp

@[simp] theorem State.offerRaw_awake (s : State) (o : Offer) : (s.offerRaw o).2.awake = s.awake := by
  unfold State.offerRaw
  dsimp only
  (repeat' split) <;> simp

@[simp] theorem State.addHeld_awake (s : State) (n : Nat) : (s.addHeld n).awake = s.awake := rfl

@[simp] theorem State.offerReport_awake (s : State) (r : EvRec) : (s.offerReport r).awake = s.awake := by
  simp [State.offerReport, Reg.EV_MIR_HELD_count, Reg.EV_MIR_HELD]

@[simp] theorem State.report_awake (s : State) (r : EvRec) : (s.report r).awake = s.awake := by simp [State.report]

@[simp] theorem State.dropRecord_awake (s : State) (cls : Nat) : (s.dropRecord cls).awake = s.awake := by
  unfold State.dropRecord
  dsimp only
  rw [State.raise_awake, State.awake_ev]
  simp [Reg.EV_OVF_c_count, Reg.EV_OVF_c]

@[simp] theorem State.enter1_awake (s : State) (r : EvRec) : (s.enter1 r).awake = s.awake := by
  have hu : (if r.cls = 0 then s.raise 35 else s).awake = s.awake := by simp
  have hf : ∀ u : State, (u.bump (Reg.EV_FRZ_c_count r.cls) 1).awake = u.awake := by simp [Reg.EV_FRZ_c_count, Reg.EV_FRZ_c]
  unfold State.enter1
  dsimp only
  generalize (if r.cls = 0 then s.raise 35 else s) = u at hu
  rw [← hu]
  split_ifs
  · simp
  · simp
  · rw [State.report_awake, State.awake_ev, hf]
  · simp
  · simp

@[simp] theorem State.marker_awake (s : State) : s.marker.awake = s.awake := by simp [State.marker]

@[simp] theorem State.enterRec_awake (s : State) (r : EvRec) : (s.enterRec r).awake = s.awake := by simp [State.enterRec]

@[simp] theorem State.record_awake (s : State) (cls code unit inst arg : Nat) :
    (s.record cls code unit inst arg).awake = s.awake := by
  simp [State.record]

@[simp] theorem State.unhold_awake (s : State) : s.unhold.awake = s.awake := by simp [State.unhold]

@[simp] theorem State.fault_awake (s : State) (code unit inst arg : Nat) : (s.fault code unit inst arg).awake = s.awake := by
  simp [State.fault]

@[simp] theorem State.refusal_awake (s : State) (code unit inst arg : Nat) : (s.refusal code unit inst arg).awake = s.awake := by
  simp [State.refusal]

@[simp] theorem State.deadline_awake (s : State) (unit inst late : Nat) : (s.deadline unit inst late).awake = s.awake := by
  simp [State.deadline, Reg.EV_DLM_u_count, Reg.EV_DLM_u]

@[simp] theorem State.refuseDown_awake (s : State) (c unit : Nat) : (s.refuseDown c unit).awake = s.awake := by
  simp [State.refuseDown]

@[simp] theorem State.offer_awake (s : State) (o : Offer) : (s.offer o).2.awake = s.awake := by
  unfold State.offer
  dsimp only
  split_ifs <;> simp

/-! ### Queues and the steward's ring -/

@[simp] theorem State.setQueue_awake (s : State) (q : Nat) (f : Queue → Queue) : (s.setQueue q f).awake = s.awake := rfl

@[simp] theorem State.finish_awake (s : State) (q seq : Nat) (d : Done) : (s.finish q seq d).awake = s.awake := by
  simp [State.finish]

@[simp] theorem State.ringPut_awake (s : State) (dest ents addr wr rd : Nat) (bs : List Byte) :
    ∀ t_, State.ringPut s dest ents addr wr rd bs = some (some t_) → t_.awake = s.awake := by
  intro t_ h
  unfold State.ringPut at h
  dsimp only at h
  split_ifs at h <;> cases h <;> simp

@[simp] theorem State.stewardRx_awake (s : State) (bs : List Byte) (kind via at_ : Nat) :
    (s.stewardRx bs kind via at_).awake = s.awake := by
  unfold State.stewardRx
  dsimp only
  split
  next h => rw [State.raise_awake, State.incr_awake _ _ _ (by decide), State.ringPut_awake _ _ _ _ _ _ _ _ h]
  next => exact State.bump_awake _ _ _ (by decide)

@[simp] theorem State.dropEntry_awake (s : State) (cls : Nat) (e : QEntry) : (s.dropEntry cls e).awake = s.awake := by
  simp [State.dropEntry]

@[simp] theorem State.halyardLatch_awake (s : State) : s.halyardLatch.awake = s.awake := by
  simp [State.halyardLatch, Reg.HL_SNAP_TX_LO, Reg.HL_SNAP_RX_LO]

/-! ### Reduction -/

@[simp] theorem State.countExcl_awake (s : State) (code : Nat) : (s.countExcl code).awake = s.awake := by
  simp [State.countExcl, Reg.RD_EXCL_A_late, Reg.RD_EXCL_A, Reg.RD_EXCL_A_stale, Reg.RD_EXCL_B_dup, Reg.RD_EXCL_B,
    Reg.RD_EXCL_B_incomp, Reg.RD_EXCL_B_bad, Reg.RD_EXCL_B_early]

@[simp] theorem State.setRed_awake (s : State) (f : Reduction → Reduction) : (s.setRed f).awake = s.awake := rfl

@[simp] theorem State.orphan_awake (s : State) : s.orphan.awake = s.awake := by
  unfold State.orphan
  dsimp only
  (repeat' split) <;> simp [Reg.RD_ORPHANS_count, Reg.RD_ORPHANS]

@[simp] theorem State.takeInto_awake (s : State) (en : Entry) (who : Nat) (pen : List Byte) :
    (s.takeInto en who pen).awake = s.awake := by
  unfold State.takeInto
  dsimp only
  (repeat' split) <;> simp

@[simp] theorem State.takePart_awake (s : State) (pen : List Byte) : (s.takePart pen).awake = s.awake := by
  unfold State.takePart
  dsimp only
  (repeat' split) <;> simp

@[simp] theorem State.fsRing_awake (s : State) (base size wr rd : Nat) (bs : List Byte) :
    ∀ t_, State.fsRing s base size wr rd bs = some t_ → t_.awake = s.awake := by
  intro t_ h
  unfold State.fsRing at h
  dsimp only at h
  split_ifs at h <;> cases h <;> simp

@[simp] theorem State.wTsExcl_awake (s : State) (v : Nat) : (s.wTsExcl v).awake = s.awake := by
  simp [State.wTsExcl, Reg.RD_TS_EXCL_mask, Reg.RD_TS_EXCL]

@[simp] theorem State.redLatch_awake (s : State) : s.redLatch.awake = s.awake := by
  simp [State.redLatch, Reg.RD_SNAP_IN_LO, Reg.RD_SNAP_PUB]

/-! ### Counters and scores -/

@[simp] theorem State.setCf_awake (s : State) (f : Counters → Counters) : (s.setCf f).awake = s.awake := rfl

@[simp] theorem State.mirrorOf_awake (s : State) : s.mirrorOf.awake = s.awake := by simp [State.mirrorOf]

@[simp] theorem State.takeBank_awake (s : State) (b : Bank) : (s.takeBank b).awake = s.awake := by simp [State.takeBank]

@[simp] theorem State.latchEnts_awake (s : State) (ks : List Nat) : (s.latchEnts ks).2.awake = s.awake := by
  simp [State.latchEnts]

@[simp] theorem State.snapLatch_awake (s : State) : s.snapLatch.awake = s.awake := by
  unfold State.snapLatch
  dsimp only
  split_ifs <;> simp [Reg.CF_SNAP_TIME_LO, Reg.CF_SNAP_OFF_valid, Reg.CF_SNAP_OFF]

@[simp] theorem State.scoreLatch_awake (s : State) : s.scoreLatch.awake = s.awake := by
  simp [State.scoreLatch, Reg.SC_SNAP_VECS_LO, Reg.SC_SNAP_VISITS_LO]

/-! ### Recipients and taint -/

@[simp] theorem State.setCk_awake (s : State) (f : Taps → Taps) : (s.setCk f).awake = s.awake := rfl

@[simp] theorem State.setRcp_awake (s : State) (i : Nat) (e : Recipient) : (s.setRcp i e).awake = s.awake := by
  simp [State.setRcp]

@[simp] theorem State.rcpEvict_awake (s : State) (e : Recipient) : (s.rcpEvict e).awake = s.awake := by
  unfold State.rcpEvict
  dsimp only
  split_ifs <;> simp [Reg.CK_RCP_STAT_evicted, Reg.CK_RCP_STAT, Reg.CK_RCP_INC_LO]

@[simp] theorem State.rcpPut_awake (s : State) (e : Recipient) (x y : Option Nat) : (s.rcpPut e x y).awake = s.awake := by
  unfold State.rcpPut
  split <;> simp

@[simp] theorem State.recordRcp_awake (s : State) (step peer : Nat) (unattr : Bool) (tap : Nat) :
    (s.recordRcp step peer unattr tap).awake = s.awake := by
  unfold State.recordRcp
  dsimp only
  (repeat' split) <;> simp

@[simp] theorem State.taintRecord_awake (s : State) (pay : List Byte) (flags origin sent : Nat) :
    (s.taintRecord pay flags origin sent).awake = s.awake := by
  unfold State.taintRecord
  dsimp only
  rw [State.notice_awake]
  split
  · rfl
  · exact State.bump_awake _ _ _ (by decide)
  next h => rw [State.incr_awake _ _ _ (by decide), State.ringPut_awake _ _ _ _ _ _ _ _ h]

@[simp] theorem State.taintLate_awake (s : State) (pen : List Byte) : (s.taintLate pen).awake = s.awake := by
  simp [State.taintLate, Reg.XC_TAINT_MISS_late, Reg.XC_TAINT_MISS]

@[simp] theorem State.taintReceived_awake (s : State) (pen : List Byte) : (s.taintReceived pen).awake = s.awake := by
  simp [State.taintReceived, Reg.XC_TAINTS_received, Reg.XC_TAINTS]

@[simp] theorem State.offerTaint_awake (s : State) (d : Detection) (target seq det : Nat) (inc wide : Bool) :
    (s.offerTaint d target seq det inc wide).2.awake = s.awake := by
  simp [State.offerTaint]

@[simp] theorem State.taintSweep_awake (s : State) : s.taintSweep.awake = s.awake := by simp [State.taintSweep]

@[simp] theorem State.setTaint_awake (s : State) (i : Nat) (e : Option TaintEntry) : (s.setTaint i e).awake = s.awake := by
  simp [State.setTaint]

@[simp] theorem State.taintEntry_awake (s : State) (step : Nat) : (s.taintEntry step).2.awake = s.awake := by
  unfold State.taintEntry
  split
  · rfl
  · dsimp only
    (repeat' split) <;> simp [Reg.XC_TAINTS_evicted, Reg.XC_TAINTS]

@[simp] theorem State.taintSend_awake (d : Detection) (seq det : Nat) (inc : Bool) (l : List Nat) (x : State × List Nat) :
    (State.taintSend d seq det inc l x).1.awake = x.1.awake := by
  induction l generalizing x with
  | nil => rfl
  | cons t ts ih =>
    obtain ⟨s, ok⟩ := x
    unfold State.taintSend
    rw [ih]
    split <;> simp [Reg.XC_TAINT_MISS_refused, Reg.XC_TAINT_MISS]

@[simp] theorem State.taintSpread_awake (s : State) (d : Detection) (seq det : Nat) (inc : Bool) (targets : List Nat) :
    (s.taintSpread d seq det inc targets).1.awake = s.awake := by
  unfold State.taintSpread
  dsimp only
  split
  · rw [State.taintSend_awake]
  · rw [State.taintSend_awake]

@[simp] theorem State.taintWide_awake (s : State) (d : Detection) (seq det : Nat) :
    (s.taintWide d seq det).1.awake = s.awake := by
  unfold State.taintWide
  dsimp only
  split <;> simp [Reg.XC_TAINT_MISS_refused, Reg.XC_TAINT_MISS]

@[simp] theorem State.taintSent_awake (s : State) (i : Nat) (inc : Bool) (ts : List Nat) :
    (s.taintSent i inc ts).awake = s.awake := by
  simp [State.taintSent]

@[simp] theorem State.taintEnd_awake (d : Detection) (entry : Option Nat) (seq det : Nat) (fresh sent : List Nat)
    (r : State × List Nat × Bool) : (State.taintEnd d entry seq det fresh sent r).awake = r.1.awake := by
  unfold State.taintEnd
  extract_lets self wide w s1 s2
  have hw : w.1.awake = r.1.awake := by
    unfold w
    split
    · exact State.taintWide_awake _ _ _ _
    · rfl
  have h1 : s1.awake = r.1.awake := by
    unfold s1
    split
    · rw [State.setCk_awake]; exact hw
    · exact hw
  have h2 : s2.awake = r.1.awake := by
    unfold s2
    split
    · rw [State.taintSent_awake]; exact h1
    · exact h1
  split
  · rw [State.taintRecord_awake]; exact h2
  · exact h2

@[simp] theorem State.detect_awake (s : State) (d : Detection) : (s.detect d).awake = s.awake := by
  have he : (if d.any then (none, s) else s.taintEntry d.step).2.awake = s.awake := by
    split
    · rfl
    · exact State.taintEntry_awake _ _
  unfold State.detect
  dsimp only
  rw [State.taintEnd_awake, State.taintSpread_awake, State.awake_ite, State.bump_awake _ _ _ (by decide),
    State.bump_awake _ _ _ (by decide), ite_self]
  exact he

/-! ### Jack and analytics -/

@[simp] theorem State.jackTo_awake (s : State) (st : Nat) : (s.jackTo st).awake = s.awake := by
  simp [State.jackTo, Reg.XC_YJ_state, Reg.XC_YJ]

@[simp] theorem State.jackLate_awake (s : State) : s.jackLate.awake = s.awake := by simp [State.jackLate]

@[simp] theorem State.jack_awake (s : State) (local_ : Bool) : (s.jack local_).awake = s.awake := by
  simp [State.jack, Reg.XC_YJ_repeats, Reg.XC_YJ, Reg.XC_YJ_local]

@[simp] theorem State.jackRelease_awake (s : State) : s.jackRelease.awake = s.awake := by
  simp [State.jackRelease, Reg.XC_YJ_repeats, Reg.XC_YJ]

@[simp] theorem State.setFa_awake (s : State) (f : Analytics → Analytics) : (s.setFa f).awake = s.awake := rfl

@[simp] theorem State.faStore_awake (s : State) (o : Nat) (bs : List Byte) : (s.faStore o bs).awake = s.awake := by
  simp [State.faStore]

@[simp] theorem State.faWr_awake (s : State) (off v : Nat) (h : 0x1014 < off) : (s.faWr off v).awake = s.awake := by
  simp [State.faWr, h]

@[simp] theorem State.faPut_awake (s : State) (f : Fld) (v : Nat) (h : 0x1014 < f.off) : (s.faPut f v).awake = s.awake :=
  s.faWr_awake f.off _ h

@[simp] theorem State.setHot_awake (s : State) (d m : Nat) : (s.setHot d m).awake = s.awake := by
  simp [State.setHot, Reg.FA_DIE_s_hot, Reg.FA_DIE_s]

@[simp] theorem State.setDie_awake (s : State) (d st : Nat) : (s.setDie d st).awake = s.awake := by
  simp [State.setDie, Reg.FA_DIE_s_state, Reg.FA_DIE_s]

@[simp] theorem State.setExcl_awake (s : State) (d : Nat) (on : Bool) : (s.setExcl d on).awake = s.awake := by
  simp [State.setExcl]

@[simp] theorem State.clearCells_awake (s : State) (d : Nat) : (s.clearCells d).awake = s.awake := by
  have herr : ∀ k, 0x1014 < Reg.FA_CELL_ERR_s_k d k := fun k => by simp [Reg.FA_CELL_ERR_s_k]
  have hexp : ∀ k, 0x1014 < Reg.FA_CELL_EXP_s_k d k := fun k => by simp [Reg.FA_CELL_EXP_s_k]
  rw [State.clearCells, State.setHot_awake]
  refine foldl_awake _ (fun t k => ?_) _ s
  dsimp only
  split_ifs <;> simp [herr, hexp]

@[simp] theorem State.issues42_awake (s : State) (o : Offer) : (s.issues42 o).awake = s.awake := by simp [State.issues42]

@[simp] theorem State.sendJack_awake (s : State) (level die cause : Nat) (battery : Bool) (job : Nat) (tail : List Byte) :
    (s.sendJack level die cause battery job tail).awake = s.awake := by
  simp [State.sendJack]

@[simp] theorem State.jackSeen_awake (s : State) (d : Nat) : (s.jackSeen d).awake = s.awake := by simp [State.jackSeen]

@[simp] theorem State.dieJoins_awake (s : State) (d job : Nat) : (s.dieJoins d job).awake = s.awake := by
  simp [State.dieJoins]

@[simp] theorem State.strayDie_awake (s : State) : s.strayDie.awake = s.awake := by
  simp [State.strayDie, Reg.FA_STATUS_stray, Reg.FA_STATUS]

@[simp] theorem State.dieDrained_awake (s : State) (d : Nat) : (s.dieDrained d).awake = s.awake := by simp [State.dieDrained]

@[simp] theorem State.dieFit_awake (s : State) (d : Nat) (pen : List Byte) : (s.dieFit d pen).awake = s.awake := by
  simp [State.dieFit, Reg.FA_JACKS_battery_fail, Reg.FA_JACKS, Reg.FA_DIE_CTRL_s_repaired, Reg.FA_DIE_CTRL_s,
    Reg.FA_DIE_ADM_LO_s, Reg.FA_DIE_ADM_HI_s]

@[simp] theorem State.dieFrameFault_awake (s : State) (d : Nat) (pen : List Byte) : (s.dieFrameFault d pen).awake = s.awake := by
  simp [State.dieFrameFault, Reg.FA_JACKS_confirmed, Reg.FA_JACKS]

@[simp] theorem State.observe_awake (s : State) (func : Nat) (pen : List Byte) : (s.observe func pen).awake = s.awake := by
  unfold State.observe
  (repeat' split) <;> simp [Reg.FA_JACKS_confirmed, Reg.FA_JACKS]

@[simp] theorem State.observeSeen_awake (x : Nat) (s : State) : (State.observeSeen x s).awake = s.awake := by
  induction x generalizing s with
  | zero => rfl
  | succ n ih =>
    unfold State.observeSeen
    split
    · rfl
    · rw [ih]; simp

@[simp] theorem State.steered_awake (s : State) (pen : List Byte) : (s.steered pen).awake = s.awake := by
  refine foldl_awake _ (fun t k => ?_) _ s
  dsimp only
  split_ifs <;> simp [Reg.XC_W_k_w, Reg.XC_W_k, Reg.HO_LIVE_direct, Reg.HO_LIVE]

@[simp] theorem State.paceReceived_awake (s : State) (pen : List Byte) : (s.paceReceived pen).awake = s.awake := by
  simp [State.paceReceived]

/-! ### Taps -/

@[simp] theorem State.addUnc_awake (s : State) (m n : Nat) : (s.addUnc m n).awake = s.awake := by
  simp [State.addUnc, Reg.CK_MT_UNC_LO_m]

@[simp] theorem State.uncause_awake (s : State) (c : Nat) : (s.uncause c).awake = s.awake := by
  simp [State.uncause, Reg.CK_UNC_c_count, Reg.CK_UNC_c]

@[simp] theorem State.frameFault_awake (s : State) (f : FrameFault) : (s.frameFault f).awake = s.awake := by
  simp [State.frameFault, Reg.CK_FAULTS_link, Reg.CK_FAULTS, Reg.CK_FAULTS_mem, Reg.CK_LAST_SRC, Reg.CK_LAST_IDX,
    Reg.CK_LAST_NAME_LO, Reg.CK_LAST_STEP, Reg.CK_LAST_WANT, Reg.CK_LAST_GOT, Reg.CK_SUPP_count, Reg.CK_SUPP]

@[simp] theorem State.dropTracker_awake (s : State) (t : Tracker) : (s.dropTracker t).awake = s.awake := by
  simp [State.dropTracker]

@[simp] theorem State.errFault_awake (s : State) (t : Tracker) : (s.errFault t).awake = s.awake := by
  unfold State.errFault
  (repeat' split) <;> simp

@[simp] theorem State.endTracker_awake (s : State) (c : Nat) (t : Tracker) : (s.endTracker c t).awake = s.awake := by
  simp [State.endTracker]

@[simp] theorem State.tapDrop_awake (s : State) (m : Nat) (now : List Carried) : (s.tapDrop m now).awake = s.awake := by
  simp [State.tapDrop, Reg.CK_MT_EVT_m_drops, Reg.CK_MT_EVT_m]

@[simp] theorem State.setLink_awake (s : State) (i : Nat) (f : LinkDir → LinkDir) : (s.setLink i f).awake = s.awake := by
  simp [State.setLink]

@[simp] theorem State.streamLost_awake (s : State) (l i peer n : Nat) : (s.streamLost l i peer n).awake = s.awake := by
  simp [State.streamLost, Reg.CK_LT_UNC_LO_l]

@[simp] theorem State.loseSync_awake (s : State) (l i c : Nat) : (s.loseSync l i c).awake = s.awake := by
  unfold State.loseSync
  dsimp only
  split_ifs <;> simp [Reg.CK_LT_EVT_l_desync, Reg.CK_LT_EVT_l]

@[simp] theorem State.linkDrop_awake (s : State) (l i : Nat) : (s.linkDrop l i).awake = s.awake := by
  simp [State.linkDrop]

@[simp] theorem State.linkDrops_awake (s : State) (l : Nat) : (s.linkDrops l).awake = s.awake := by simp [State.linkDrops]

@[simp] theorem State.tapsReturn_awake (s : State) : s.tapsReturn.awake = s.awake := by simp [State.tapsReturn]

@[simp] theorem State.tapsLatch_awake (s : State) : s.tapsLatch.awake = s.awake := by
  simp [State.tapsLatch, Reg.CK_SNAP_CHK_LO, Reg.CK_SNAP_UNC_LO, Reg.CK_SNAP_TRK]

@[simp] theorem State.checkerLatch_awake (s : State) : s.checkerLatch.awake = s.awake := by
  simp [State.checkerLatch, Reg.XC_SNAP_OPS_LO, Reg.XC_SNAP_TILES]

/-! ### Trace -/

@[simp] theorem State.setTr_awake (s : State) (f : TraceUnit → TraceUnit) : (s.setTr f).awake = s.awake := rfl

@[simp] theorem State.traceFrozen_awake (s : State) : s.traceFrozen.awake = s.awake := by
  simp [State.traceFrozen, Reg.TR_FROZEN_count, Reg.TR_FROZEN]

@[simp] theorem State.traceKeep_awake (s : State) (i : Nat) : (s.traceKeep i).awake = s.awake := by
  simp [State.traceKeep, Reg.TR_FIRST]

@[simp] theorem State.traceTriggered_awake (s : State) (r : TraceRec) (i : Nat) : (s.traceTriggered r i).awake = s.awake := by
  simp [State.traceTriggered, Reg.TR_TRIG, Reg.TR_TRIG_T_LO]

@[simp] theorem State.traceWrite_awake (s : State) (r : TraceRec) : (s.traceWrite r).awake = s.awake := by
  unfold State.traceWrite
  dsimp only
  split_ifs <;> simp [Reg.TR_WR]

@[simp] theorem State.traceLoss_awake (s : State) : s.traceLoss.awake = s.awake := by
  unfold State.traceLoss
  (repeat' split) <;> simp

@[simp] theorem State.traceStall_awake (s : State) : s.traceStall.awake = s.awake := by simp [State.traceStall]

@[simp] theorem State.traceDrain_awake (x : Nat) (s : State) : (State.traceDrain x s).awake = s.awake := by
  induction x generalizing s with
  | zero => rfl
  | succ n ih =>
    unfold State.traceDrain
    dsimp only
    (repeat' split) <;> simp [ih, Reg.TR_STALLS_count, Reg.TR_STALLS]

@[simp] theorem State.traceCycle_awake (s : State) : s.traceCycle.awake = s.awake := by simp [State.traceCycle]

@[simp] theorem State.tracePush_awake (s : State) (r : TraceRec) : (s.tracePush r).awake = s.awake := by
  simp [State.tracePush]

@[simp] theorem State.markerIn_awake (s : State) (r : TraceRec) : (s.markerIn r).awake = s.awake := by
  simp [State.markerIn, Reg.TR_FROZEN_count, Reg.TR_FROZEN]

@[simp] theorem State.traceCatch_awake (s : State) : s.traceCatch.awake = s.awake := by simp [State.traceCatch]

@[simp] theorem State.traceMark_awake (s : State) (r : TraceRec) : (s.traceMark r).awake = s.awake := by
  simp [State.traceMark]

@[simp] theorem State.traceWake_awake (s : State) : s.traceWake.awake = s.awake := by
  unfold State.traceWake
  dsimp only
  (repeat' split) <;> simp

@[simp] theorem State.traceLatch_awake (s : State) (word3 : Nat) : (s.traceLatch word3).awake = s.awake := by
  simp [State.traceLatch]

/-! ### Strikes and dumps -/

@[simp] theorem State.latchUnits_awake (s : State) (units seq issuer : Nat) (fleet late : Bool) :
    (s.latchUnits units seq issuer fleet late).awake = s.awake := by
  simp [State.latchUnits, Reg.TB_STRIKE_LO, Reg.TB_STRIKE_ID]

@[simp] theorem State.strikeFire_awake (s : State) (k : Strike) (late : Bool) : (s.strikeFire k late).awake = s.awake := by
  simp [State.strikeFire]

@[simp] theorem State.strikeAdd_awake (s : State) (k : Strike) : (s.strikeAdd k).awake = s.awake := by simp [State.strikeAdd]

@[simp] theorem State.strikeReceive_awake (s : State) (pen : List Byte) : (s.strikeReceive pen).awake = s.awake := by
  simp [State.strikeReceive]

@[simp] theorem State.setDc_awake (s : State) (f : Dumping → Dumping) : (s.setDc f).awake = s.awake := rfl

@[simp] theorem State.setCtx_awake (s : State) (slot : Nat) (f : RxCtx → RxCtx) : (s.setCtx slot f).awake = s.awake := by
  simp [State.setCtx]

@[simp] theorem State.chunkAccept_awake (s : State) (c : RxCtx) (p : List Byte) : (s.chunkAccept c p).awake = s.awake := by
  simp [State.chunkAccept]

@[simp] theorem State.chunkKnown_awake (s : State) (c : RxCtx) (p : List Byte) : (s.chunkKnown c p).awake = s.awake := by
  simp [State.chunkKnown, Reg.DC_RX_ERR_dup, Reg.DC_RX_ERR, Reg.DC_RX_ERR_broken]

@[simp] theorem State.chunkReceive_awake (s : State) (p : List Byte) : (s.chunkReceive p).awake = s.awake := by
  unfold State.chunkReceive
  (repeat' split) <;> simp [Reg.DC_RX_ERR_nocontext, Reg.DC_RX_ERR]

/-! ### Consumers -/

@[simp] theorem State.lateness_awake (s : State) (pen : List Byte) : (s.lateness pen).awake = s.awake := by
  have hoff : 0x1014 < (if penClass pen = 0 then Reg.HL_LATE_a else Reg.HL_LATE_b).off := by split_ifs <;> decide
  unfold State.lateness
  dsimp only
  generalize (if penClass pen = 0 then Reg.HL_LATE_a else Reg.HL_LATE_b) = f at hoff
  split_ifs
  · rfl
  · exact (State.deadline_awake _ _ _ _).trans ((State.awake_hl (s.bump f 1) _ rfl).trans (State.bump_awake _ _ _ hoff))
  · exact State.bump_awake _ _ _ hoff

@[simp] theorem State.faultRing_awake (s : State) (pen : List Byte) : (s.faultRing pen).awake = s.awake := by
  have hr := State.fsRing_awake s (s.get Reg.EV_FR_AREA_base * 2 ^ 20) (s.get Reg.EV_FR_AREA_size * 2 ^ 20) (s.rd Reg.EV_FR_WR)
    (s.rd Reg.EV_FR_RD) (padTo 64 pen)
  rw [State.faultRing, State.raise_awake]
  generalize s.fsRing _ _ _ _ _ = o at hr
  cases o with
  | none => exact State.bump_awake s Reg.EV_FR_LOST_count 1 (by decide)
  | some t => exact (State.incr_awake t Reg.EV_FR_WR 64 (by decide)).trans (hr t rfl)

@[simp] theorem State.forwardWide_awake (s : State) (pen : List Byte) : (s.forwardWide pen).awake = s.awake := by
  simp [State.forwardWide]

@[simp] theorem State.trayConsumes_awake (s : State) (f : Nat) (l : Local) : (s.trayConsumes f l).awake = s.awake := by
  simp [State.trayConsumes]

@[simp] theorem State.dieConsumesPen_awake (s : State) (f : Nat) (l : Local) : (s.dieConsumesPen f l).awake = s.awake := by
  simp [State.dieConsumesPen]

@[simp] theorem State.consume_awake (s : State) (l : Local) : (s.consume l).awake = s.awake := by simp [State.consume]

@[simp] theorem consumeAll_awake (x : Nat) (s : State) : (consumeAll x s).awake = s.awake := by
  have key : ∀ (t : State) (x : List Local), State.awake { t with hl := { t.hl with locals := x } } = t.awake := fun _ _ => rfl
  induction x generalizing s with
  | zero => rfl
  | succ n ih =>
    unfold consumeAll
    split
    · rfl
    · rw [ih, State.consume_awake, key s]

@[simp] theorem State.settle_awake (s : State) : s.settle.awake = s.awake := by simp [State.settle]

@[simp] theorem State.setPw_awake_dues (s : State) : (s.setPw fun p => { p with lossDue := false, lateDue := false }).awake = s.awake :=
  rfl

@[simp] theorem State.wakeFaults_awake (s : State) : s.wakeFaults.awake = s.awake := by simp [State.wakeFaults]

/-! ### The fast domain's first cycle (R100, R116 step 6) -/

theorem State.awake_eq_some {t : State} {c b : Nat} {f i m : Bool} {w : List Access} {a : List Arrival}
    (h : t.awake = some (c, b, f, i, m, w, a)) : t.active = true ∧ t.cyc = c ∧ t.rd Reg.PM_BOOT = b ∧ t.pw.fastRst = f ∧
      t.pw.intF = i ∧ t.pw.sramInit = m ∧ t.waiting = w ∧ t.hl.arrived = a := by
  unfold State.awake at h
  split_ifs at h with hact
  simp only [Option.some.injEq, Prod.mk.injEq] at h
  exact ⟨hact, h⟩

theorem State.takeArrived_nil (s : State) (h : s.hl.arrived = []) : s.takeArrived = s := by
  rw [State.takeArrived, h, List.foldl_nil, ← h]

theorem State.performWaiting_nil (s : State) (h : s.waiting = []) : s.performWaiting = s := by
  rw [State.performWaiting, h, List.foldl_nil, ← h]

/-- With nothing waiting at the crossings, the first cycle makes the fast domain active and leaves the rest of the power state. -/
theorem State.ungate_awake (s : State) (hw : s.waiting = []) (ha : s.hl.arrived = []) :
    s.ungate.awake = some (s.cyc, s.rd Reg.PM_BOOT, s.pw.fastRst, s.pw.intF, s.pw.sramInit, [], []) := by
  unfold State.ungate
  dsimp only
  generalize hu : ((s.wdSync.setPw _).setTr _).unhold.wakeFaults.tapsReturn.traceWake = u
  have hawake : u.awake = some (s.cyc, s.rd Reg.PM_BOOT, s.pw.fastRst, s.pw.intF, s.pw.sramInit, [], []) := by
    rw [← hu, State.traceWake_awake, State.tapsReturn_awake, State.wakeFaults_awake, State.unhold_awake, State.setTr_awake,
      ← hw, ← ha]
    rfl
  obtain ⟨-, -, -, -, -, -, huw, hua⟩ := State.awake_eq_some hawake
  rw [State.settle_awake, u.takeArrived_nil hua, u.performWaiting_nil huw, hawake]

theorem State.rd_wr64_other (s : State) (lo v o : Nat) (hl : o ≠ lo) (hh : o ≠ lo + 4) : (s.wr64 lo v).rd o = s.rd o := by
  rw [State.wr64, State.rd_wr_other _ _ _ _ hh, State.rd_wr_other _ _ _ _ hl]

/-- The recipient table's restart writes one register, behind the power page. -/
theorem State.rcpRestart_kept (s : State) : s.rcpRestart.cyc = s.cyc ∧ s.rcpRestart.pw = s.pw ∧ s.rcpRestart.waiting = s.waiting ∧
    s.rcpRestart.hl = s.hl ∧ s.rcpRestart.rd Reg.PM_BOOT = s.rd Reg.PM_BOOT := by
  rw [State.rcpRestart]
  generalize (s.fleet + s.rcpAge) % 2 ^ 64 = v
  cases s.tray with
  | true => exact ⟨rfl, rfl, rfl, rfl, rfl⟩
  | false =>
    exact ⟨State.wr64_cyc _ _ _, State.wr64_pw _ _ _, State.wr64_waiting _ _ _, State.wr64_hl _ _ _,
      s.rd_wr64_other _ _ _ (by decide) (by decide)⟩

/-- What start-up sets beside the stage. -/
def State.startSet (s : State) : State :=
  let t := s.setPw fun p => { p with sramInit := true }
  { t with ev := { t.ev with passAt := t.fleet } }

theorem State.startUp_eq (s : State) : s.startUp = (s.put Reg.PM_BOOT_stage 2).startSet.rcpRestart.ungate := rfl

theorem State.startSet_awake (s : State) (hw : s.waiting = []) (ha : s.hl.arrived = []) :
    s.startSet.rcpRestart.ungate.awake = some (s.cyc, s.rd Reg.PM_BOOT, s.pw.fastRst, s.pw.intF, true, [], []) := by
  obtain ⟨rcyc, rpw, rwait, rhl, rrd⟩ := s.startSet.rcpRestart_kept
  rw [State.ungate_awake _ (rwait.trans hw) ((congrArg Halyard.arrived rhl).trans ha), rcyc, rpw, rrd]
  rfl

/-- Where start-up goes: stage 2 with the memories being initialised, in the same cycle. -/
theorem State.startUp_spec (s : State) (hw : s.waiting = []) (ha : s.hl.arrived = []) :
    s.startUp.pw.fastRst = s.pw.fastRst ∧ s.startUp.pw.intF = s.pw.intF ∧ s.startUp.active = true ∧
      s.startUp.get Reg.PM_BOOT_stage = 2 ∧ s.startUp.pw.sramInit = true ∧ s.startUp.cyc = s.cyc := by
  have hget := s.get_put_same Reg.PM_BOOT_stage 2 (by decide)
  have hawake := (s.put Reg.PM_BOOT_stage 2).startSet_awake ((s.put_waiting _ _).trans hw)
    ((congrArg Halyard.arrived (s.put_hl _ _)).trans ha)
  rw [← State.startUp_eq, State.put_cyc, State.put_pw] at hawake
  obtain ⟨hact, hc, hb, hf, hi, hm, -, -⟩ := State.awake_eq_some hawake
  refine ⟨hf, hi, hact, ?_, hm, hc⟩
  rw [State.get] at hget ⊢
  exact (congrArg (fun x => bits x 0 4) hb).trans hget

/-! ## The resets end (R100, R119) -/

theorem State.judgeOrder_done (s : State) (h : s.pw.orderChk = true) : s.judgeOrder = s := by
  simp [State.judgeOrder, h]

theorem State.startIf_ready (s : State) (h : s.pw.st = .fastReset) (ha : s.pw.ack = true) (hf : s.pw.fastRst = false)
    (hi : s.pw.intF = false) : s.startIf = s.startUp := by
  simp [State.startIf, h, ha, hf, hi]

theorem State.startIf_waits (s : State) (h : ¬(s.pw.st = .fastReset ∧ s.pw.ack = true ∧ s.pw.intF = false)) : s.startIf = s := by
  unfold State.startIf
  refine if_neg fun hc => h ?_
  simp only [Bool.and_eq_true, beq_iff_eq, Bool.not_eq_true'] at hc
  obtain ⟨⟨⟨hst, hack⟩, -⟩, hint⟩ := hc
  exact ⟨hst, hack, hint⟩

/-- The pin is released: start-up, unless the key's reset or the acknowledge is still awaited. -/
theorem execFastResetRelease_eq (s : State) (h : s.pw.orderChk = true) : exec .fastResetRelease s =
    .next (if s.pw.st = .fastReset ∧ s.pw.ack = true ∧ s.pw.intF = false then (s.setPw fun p => { p with fastRst := false }).startUp
      else s.setPw fun p => { p with fastRst := false }) := by
  show execFastResetRelease s = _
  rw [execFastResetRelease, State.fastRelease, s.judgeOrder_done h]
  split_ifs with hc
  · obtain ⟨hst, hack, hint⟩ := hc
    exact congrArg Host.Outcome.next (State.startIf_ready (s.setPw _) hst hack rfl hint)
  · exact congrArg Host.Outcome.next (State.startIf_waits (s.setPw _) hc)

/-- The key's reset ends 16 cycles after it began: start-up, unless the pin is still asserted. -/
theorem execWarmResetRelease_eq (s : State) (h : s.pw.st = .fastReset) (hi : s.pw.intF = true) (ha : s.pw.ack = true) :
    exec .warmResetRelease s =
      .next (if s.pw.fastRst then { s with cyc := max s.cyc (s.pw.intFAt + 16), pw := { s.pw with intF := false } }
        else State.startUp { s with cyc := max s.cyc (s.pw.intFAt + 16), pw := { s.pw with intF := false } }) := by
  have hdone : s.intFDone = { s with cyc := max s.cyc (s.pw.intFAt + 16), pw := { s.pw with intF := false } } := by
    simp only [State.intFDone, State.passTo_eq, ha, if_true]
  show execWarmResetRelease s = _
  rw [execWarmResetRelease, h, hi, if_pos (by decide), hdone]
  split_ifs with hf
  · exact congrArg Host.Outcome.next (State.startIf_pin _ hf)
  · exact congrArg Host.Outcome.next (State.startIf_ready _ h ha (eq_false_of_ne_true hf) rfl)

/-! ## Loose resets of lanes and ports (R374, R380) -/

/-- While the pin is not asserted, no order of the resets is judged. -/
theorem State.looseRelease_run (s : State) (i : Nat) (a : Bool) (h : s.pw.fastRst = false) : s.looseRelease i a = s := by
  have hj : s.judgeOrder = s := by simp [State.judgeOrder, h]
  rw [State.looseRelease, hj]
  simp [h]

theorem execLaneReset_run (s : State) (n : Fin 16) (a : Bool) (hn : n.val < s.laneCount) (h : s.pw.fastRst = false) :
    exec (.laneReset n a) s = .next (s.laneReset n.val a) := by
  show execLaneReset n a s = _
  rw [execLaneReset, if_pos hn, s.looseRelease_run _ _ h]

theorem execPortReset_run (s : State) (p : Fin 4) (a : Bool) (ht : s.tray = true) (h : s.pw.fastRst = false) :
    exec (.portReset p a) s = .next (s.portReset p.val a) := by
  show execPortReset p a s = _
  rw [execPortReset, if_pos ht, s.looseRelease_run _ _ h]

theorem bit_putBits_one (x n : Nat) : bit (putBits x n 1 1) n = true :=
  beq_iff_eq.mpr (bits_putBits_same x n 1 1)

/-- A lane that is DOWN with nothing queued goes to its reset state; beside it, only arrivals held at the crossing go. -/
theorem State.laneReset_down (s : State) (n : Nat) (h : (s.lane n).state = 0) (hq : (s.lane n).queues = [[], [], []]) :
    ∃ held, s.laneReset n true =
      { s with
        pw := { s.pw with laneRst := putBits s.pw.laneRst n 1 1 }
        hl := { s.hl with lanes := modAt s.hl.lanes n (fun l => { lock := l.lock }), arrived := held } } := by
  have hl : State.lane { s with pw := { s.pw with laneRst := putBits s.pw.laneRst n 1 (b2n true) } } n = s.lane n := rfl
  simp only [State.laneReset, hl, h, hq, if_true]
  exact ⟨_, rfl⟩

/-- Settles O10: start-up follows the last of the two resets to end, and a loose reset is its bit and its lane. -/
theorem resetReleasesAndLooseResets : Obligations.ResetReleasesAndLooseResets := by
  refine ⟨⟨fun s hchk => ⟨_, rfl, execFastResetRelease_eq s hchk⟩, fun s hchk hst hack hint hw ha _ _ => ?_,
    fun s hst hint hack hpin hw ha _ _ => ?_, fun s hst hint hack => ⟨_, rfl, execWarmResetRelease_eq s hst hint hack⟩⟩,
    fun s n hn hpin => ?_, fun s n hn hpin hlen hdown hq => ?_, fun s p a ht hpin => ?_, fun s n a hn => ?_, fun s p a ht => ?_⟩
  · obtain ⟨hf, -, hrest⟩ := State.startUp_spec (s.setPw fun p => { p with fastRst := false }) hw ha
    exact ⟨_, (execFastResetRelease_eq s hchk).trans (congrArg Host.Outcome.next (if_pos ⟨hst, hack, hint⟩)), hf, hrest⟩
  · have hstart := State.startUp_spec { s with cyc := max s.cyc (s.pw.intFAt + 16), pw := { s.pw with intF := false } } hw ha
    obtain ⟨-, hi, hrest⟩ := hstart
    refine ⟨_, (execWarmResetRelease_eq s hst hint hack).trans (congrArg Host.Outcome.next (if_neg ?_)), hi, hrest⟩
    rw [hpin]
    exact Bool.false_ne_true
  · exact execLaneReset_run s n false hn hpin
  · obtain ⟨held, hlane⟩ := s.laneReset_down _ hdown hq
    refine ⟨_, (execLaneReset_run s n true hn hpin).trans (congrArg Host.Outcome.next hlane), ?_, ?_, rfl, rfl⟩
    · exact bit_putBits_one _ _
    · exact modAt_get_same _ _ _ _ (by omega)
  · exact ⟨_, execPortReset_run s p a ht hpin, congrArg (putBits s.pw.portRst p.val 1) (b2n_eq a), rfl, rfl, rfl⟩
  · show execLaneReset n a s = _
    rw [execLaneReset, if_neg (Nat.not_lt.mpr hn)]
  · show execPortReset p a s = _
    rw [execPortReset, ht]
    rfl

end Sys2Proof.Machine
end

/-! # The hoist (chapter 04) -/

section
namespace Sys2Proof.Machine

/-! ## Parts of the state -/

theorem State.put_eq_regs (s : State) (f : Fld) (v : Nat) : s.put f v = { s with regs := (s.put f v).regs } := rfl

theorem State.setHo_eq (s : State) (f : Hoist → Hoist) : s.setHo f = { s with ho := (s.setHo f).ho } := rfl

/-! ## Requests to commit (R126, R141, R148) -/

/-- The state in which a commit of generation `gen` is checked: its request stands in `HO_COMMIT`. -/
def State.commitRequested (s : State) (gen : Nat) : State :=
  ((s.put Reg.HO_COMMIT_gen gen).put Reg.HO_COMMIT_go 1).setHo fun h => { h with gen := gen }

theorem State.commitRequested_go (s : State) (gen : Nat) : (s.commitRequested gen).get Reg.HO_COMMIT_go = 1 := by
  rw [State.commitRequested, State.setHo_get, State.get_put_same _ _ _ (by decide)]
  rfl

theorem State.rd_commitRequested_other (s : State) (gen o : Nat) (h : o ≠ Reg.HO_COMMIT) :
    (s.commitRequested gen).rd o = s.rd o := by
  rw [State.commitRequested, State.setHo_rd, State.rd_put_other _ _ _ _ h, State.rd_put_other _ _ _ _ h]

theorem State.commitRequested_regsBut (s : State) (gen : Nat) : s.regsBut (s.commitRequested gen) [Reg.HO_COMMIT] :=
  fun o ho => s.rd_commitRequested_other gen o (List.ne_of_not_mem_cons ho)

theorem State.commitRequested_taint (s : State) (gen : Nat) :
    (s.commitRequested gen).get Reg.HO_SHADOW_taint = s.get Reg.HO_SHADOW_taint := by
  rw [State.get, State.rd_commitRequested_other _ _ _ (by decide)]
  rfl

/-- Beside registers a request changes the hoist's state alone. -/
theorem State.commitRequested_eq (s : State) (gen : Nat) :
    s.commitRequested gen = { s with regs := (s.commitRequested gen).regs, ho := (s.commitRequested gen).ho } := by
  rw [State.commitRequested, State.setHo_eq, State.put_eq_regs, State.put_eq_regs]

theorem State.commitCheck_tainted (s : State) (gen : Nat) (h : s.get Reg.HO_SHADOW_taint ≠ 0) :
    s.commitCheck gen = s.commitFail (s.get Reg.HO_SHADOW_taint) 0 :=
  if_pos h

theorem State.wHoCommit_noGo (s : State) (v : Nat) (h : bit v 16 = false) :
    s.wHoCommit v = (s.put Reg.HO_COMMIT_gen (v % 2 ^ 16), true) := by
  simp only [State.wHoCommit, h, Bool.not_false, if_true]

theorem State.wHoCommit_busy (s : State) (v : Nat) (h : bit v 16 = true) (hp : s.ho.phase ≠ 0) :
    s.wHoCommit v = (s.refuseBusy, false) := by
  simp only [State.wHoCommit, h, Bool.not_true, Bool.false_eq_true, if_false, if_pos hp]

/-- With neither a commit nor a load under way the requested generation is checked. -/
theorem State.wHoCommit_checks (s : State) (v : Nat) (h : bit v 16 = true) (hp : s.ho.phase = 0) (hl : s.ho.ld.busy = false) :
    s.wHoCommit v = ((s.commitRequested (v % 2 ^ 16)).commitCheck (v % 2 ^ 16), true) := by
  have hbusy : (s.commitRequested (v % 2 ^ 16)).ho.ld.busy = false := hl
  unfold State.commitRequested at hbusy ⊢
  simp only [State.wHoCommit, h, hp, hbusy, Bool.not_true, Bool.false_eq_true, ne_eq, not_true, if_false]

/-! ## Discards and the signature rule (R135, R136, R148) -/

/-- The word HOIST_DISCARD writes (R135) asks for the discard and keeps require_sig. -/
theorem discardWord_bits (r : Nat) (h : r < 2) : bit (2 + 4 * r) 1 = true ∧ bit (2 + 4 * r) 2 = (r == 1) := by
  have hall : ∀ r < 2, bit (2 + 4 * r) 1 = true ∧ bit (2 + 4 * r) 2 = (r == 1) := by decide
  exact hall r h

theorem State.wHoCtrl_discard_busy (s : State) (v : Nat) (h : bit v 1 = true) (hp : s.ho.phase ≠ 0) :
    s.wHoCtrl v = (s.refuseBusy, false) := by
  unfold State.wHoCtrl
  rw [h, if_pos (by simpa using hp)]

theorem State.wHoCtrl_discard_loading (s : State) (v : Nat) (h : bit v 1 = true) (hp : s.ho.phase = 0) (hl : s.ho.ld.busy = true) :
    s.wHoCtrl v = (s.bump Reg.HO_REFUSALS_shadow 1, false) := by
  simp [State.wHoCtrl, h, hp, hl]

/-- Outside a commit and a load a discard that does not clear require_sig is carried out. -/
theorem State.wHoCtrl_discards (s : State) (v : Nat) (h : bit v 1 = true) (hp : s.ho.phase = 0) (hl : s.ho.ld.busy = false)
    (hsig : bit v 2 = (s.get Reg.HO_CTRL_require_sig == 1)) :
    s.wHoCtrl v = ((s.put Reg.HO_CTRL_require_sig (bits v 2 1)).discard, true) := by
  have hkeeps : (!(bit v 2) && s.get Reg.HO_CTRL_require_sig == 1 && !s.secAuth) = false := by
    rw [hsig, Bool.not_and_self, Bool.false_and]
  unfold State.wHoCtrl
  rw [h, hp, hl, hkeeps]
  rfl

/-- Setting require_sig needs no authorisation. -/
theorem State.wHoCtrl_requires (s : State) (v : Nat) (h1 : bit v 1 = false) (h2 : bit v 2 = true) :
    s.wHoCtrl v = (s.put Reg.HO_CTRL_require_sig 1, true) := by
  have hset : bits v 2 1 = 1 := beq_iff_eq.mp h2
  unfold State.wHoCtrl
  rw [h1, h2, hset]
  rfl

theorem State.wHoCtrl_unauthorised (s : State) (v : Nat) (h1 : bit v 1 = false) (h2 : bit v 2 = false)
    (hsig : s.get Reg.HO_CTRL_require_sig = 1) (ha : s.secAuth = false) : s.wHoCtrl v = (s, false) := by
  unfold State.wHoCtrl
  rw [h1, h2, hsig, ha]
  rfl

/-- A discard clears the marks of the shadow, and without a live generation its words too (R135). -/
theorem State.discard_clears (s : State) :
    s.discard.get Reg.HO_SHADOW_taint = 0 ∧ s.discard.get Reg.HO_SHADOW_image = 0 ∧ s.discard.ho.direct = false ∧
      s.discard.ho.placedQ = 0 ∧ (s.genLive = false → s.discard.shadow = []) := by
  refine ⟨?_, ?_, rfl, rfl, fun hlive => ?_⟩
  · rw [State.discard, State.setHo_get,
      State.get_put_apart _ Reg.HO_SHADOW_image Reg.HO_SHADOW_taint _ (by decide) rfl (by decide), State.get_put_same _ _ _ (by decide)]
    rfl
  · rw [State.discard, State.setHo_get, State.get_put_same _ _ _ (by decide)]
    rfl
  · unfold State.discard
    rw [hlive]
    rfl

/-- HO_CTRL does not say whether a generation is live. -/
theorem State.genLive_put_requireSig (s : State) (v : Nat) : (s.put Reg.HO_CTRL_require_sig v).genLive = s.genLive :=
  congrArg (· == 1) (State.get_put_other s _ _ _ (by decide))

/-- Settles O30: a write of HO_COMMIT or HO_CTRL takes the branch of its rule that the phase, the load and the bits written name
(HOIST_BUSY recorded and counted is log entry 186's, the image mark cleared by a discard log entry 197's). -/
theorem commitsAreRequestedAndDecided : Obligations.CommitsAreRequestedAndDecided := by
  refine ⟨fun s who d hready hgo hp => ?_, fun s who d hready hgo => ?_, fun s who d hready hgo hp hl ht => ?_,
    fun s who d hready hgo hp hl _ => ?_, fun s who hready hp hl => ?_, fun s who hready hp => ?_,
    fun s who hready hp hl => ?_, fun s who d hready h1 h2 => ?_, fun s who d hready h1 h2 hsig ha => ?_⟩
  · exact refuses_of_busWrite rfl hready ((State.busWrite_HO_COMMIT _ _ _).trans (s.wHoCommit_busy _ hgo hp))
  · exact writes_of_busWrite rfl hready ((State.busWrite_HO_COMMIT _ _ _).trans (s.wHoCommit_noGo _ hgo))
  · have hw := s.wHoCommit_checks _ hgo hp hl
    rw [State.commitCheck_tainted _ _ ((s.commitRequested_taint _).trans_ne ht), State.commitRequested_taint] at hw
    exact ⟨_, writes_of_busWrite rfl hready ((State.busWrite_HO_COMMIT _ _ _).trans hw), rfl, s.commitRequested_go _,
      s.commitRequested_regsBut _, s.commitRequested_eq _⟩
  · exact ⟨_, writes_of_busWrite rfl hready ((State.busWrite_HO_COMMIT _ _ _).trans (s.wHoCommit_checks _ hgo hp hl)), rfl,
      s.commitRequested_go _, s.commitRequested_regsBut _, s.commitRequested_eq _⟩
  · obtain ⟨h1, h2⟩ := discardWord_bits _ (s.get_lt Reg.HO_CTRL_require_sig)
    obtain ⟨htaint, himage, hdirect, hplaced, hshadow⟩ := State.discard_clears (s.put Reg.HO_CTRL_require_sig
      (bits (2 + 4 * s.get Reg.HO_CTRL_require_sig) 2 1))
    rw [State.genLive_put_requireSig] at hshadow
    exact ⟨_, writes_of_busWrite rfl hready ((State.busWrite_HO_CTRL _ _ _).trans (s.wHoCtrl_discards _ h1 hp hl h2)), htaint,
      himage, hdirect, hplaced, hshadow⟩
  · obtain ⟨h1, -⟩ := discardWord_bits _ (s.get_lt Reg.HO_CTRL_require_sig)
    exact refuses_of_busWrite rfl hready ((State.busWrite_HO_CTRL _ _ _).trans (s.wHoCtrl_discard_busy _ h1 hp))
  · obtain ⟨h1, -⟩ := discardWord_bits _ (s.get_lt Reg.HO_CTRL_require_sig)
    exact refuses_of_busWrite rfl hready ((State.busWrite_HO_CTRL _ _ _).trans (s.wHoCtrl_discard_loading _ h1 hp hl))
  · exact writes_of_busWrite rfl hready ((State.busWrite_HO_CTRL _ _ _).trans (s.wHoCtrl_requires _ h1 h2))
  · exact refuses_of_busWrite rfl hready ((State.busWrite_HO_CTRL _ _ _).trans (s.wHoCtrl_unauthorised _ h1 h2 hsig ha))

end Sys2Proof.Machine
end

section
namespace Sys2Proof.Machine

/-! ## Writes of SH fields (R14, R146 to R148) -/

theorem maskIn_lt (old m v : Nat) (ho : old < 2 ^ 32) (hv : v < 2 ^ 32) : maskIn old m v < 2 ^ 32 :=
  Nat.or_lt_two_pow (Nat.lt_of_le_of_lt Nat.and_le_left ho) (Nat.lt_of_le_of_lt Nat.and_le_left hv)

theorem State.plainWrite_none (s : State) (d : RegDef) (off v : Nat) (hrw : d.rw = 0) (hw1c : d.w1c = 0) :
    s.plainWrite d off v = s :=
  if_pos ⟨hrw, hw1c⟩

/-- A register with SH fields alone takes a write as `State.shWrite` says, whether it is taken or refused. -/
theorem State.busWrite_shPlain (s : State) (who : Who) (off : Nat) (d : Word) (h : s.shPlain who off d) :
    s.busWrite (Who.num who) off d.toNat = s.shWrite (Who.num who) [(off, d.toNat)] := by
  obtain ⟨-, hpage, hwindow, ⟨r, hr, hsh, hrw, hw1c⟩, hspecial, hlow, hhigh⟩ := h
  rw [State.busWrite_present s _ _ _ r hpage hwindow hr, State.heldWrite_single s _ _ _ r hlow hhigh]
  unfold State.regWrite
  rw [hspecial]
  dsimp only
  rw [if_neg hsh, State.plainWrite_none _ _ _ _ hrw hw1c]
  split
  · rename_i htaken
    exact Prod.ext rfl htaken.symm
  · rfl

/-! ### Into the shadow (R146, R148) -/

theorem State.shWrite_shadow (s : State) (req : Nat) (ws : List (Nat × Nat)) (h : bit (s.rd Reg.HO_LIVE_SEL) req = false) :
    s.shWrite req ws = s.shadowWrite req ws := by
  rw [State.shWrite, h]
  rfl

theorem State.shadowWrite_admitted (s : State) (req off v : Nat) (hw : bit (s.rd Reg.HO_WRITERS) req = true) (hp : s.ho.phase = 0) :
    s.shadowWrite req [(off, v)] =
      ((s.swr off (maskIn (s.srd off) (shBits off) v)).setHo fun h => { h with direct := true }, true) := by
  rw [State.shadowWrite, hw, hp]
  rfl

theorem State.shadowWrite_refused (s : State) (req : Nat) (ws : List (Nat × Nat))
    (h : bit (s.rd Reg.HO_WRITERS) req = false ∨ s.ho.phase ≠ 0) :
    s.shadowWrite req ws = (s.bump Reg.HO_REFUSALS_shadow 1, false) :=
  if_pos (by simpa using h)

/-! ### Into the live copy (R147, R148) -/

/-- The live copy after a write of `v` to the SH fields at `off`, marked in `HO_LIVE` as directly written. -/
def State.liveWritten (s : State) (off v : Nat) : State :=
  (s.wr off (maskIn (s.rd off) (shBits off) v)).put Reg.HO_LIVE_direct 1

theorem State.liveWritten_eq_regs (s : State) (off v : Nat) :
    s.liveWritten off v = { s with regs := (s.liveWritten off v).regs } :=
  State.put_eq_regs _ _ _

theorem State.liveWritten_direct (s : State) (off v : Nat) : (s.liveWritten off v).get Reg.HO_LIVE_direct = 1 := by
  rw [State.liveWritten, State.get_put_same _ _ _ (by decide)]
  rfl

theorem State.rd_liveWritten_same (s : State) (off v : Nat) (hv : v < 2 ^ 32) (h : off ≠ Reg.HO_LIVE) :
    (s.liveWritten off v).rd off = maskIn (s.rd off) (shBits off) v := by
  rw [State.liveWritten, State.rd_put_other _ _ _ _ h, State.rd_wr_same, Nat.mod_eq_of_lt (maskIn_lt _ _ _ (s.rd_lt off) hv)]

theorem State.liveWritten_regsBut (s : State) (off v : Nat) : s.regsBut (s.liveWritten off v) [off, Reg.HO_LIVE] := by
  intro o ho
  obtain ⟨hoff, hlive⟩ := not_or.mp (mt List.mem_pair.mpr ho)
  rw [State.liveWritten, State.rd_put_other _ _ _ _ hlive, State.rd_wr_other _ _ _ _ hoff]

theorem State.shWrite_live (s : State) (req : Nat) (ws : List (Nat × Nat)) (h : bit (s.rd Reg.HO_LIVE_SEL) req = true) :
    s.shWrite req ws = s.liveWrite ws :=
  if_pos h

theorem State.liveWrite_busy (s : State) (ws : List (Nat × Nat)) (h : s.ho.phase ≠ 0) :
    s.liveWrite ws = (s.bump Reg.HO_REFUSALS_live 1, false) :=
  if_pos h

theorem State.liveWrite_bundled (s : State) (off v : Nat) (hp : s.ho.phase = 0) (hb : bundlesOf off ≠ []) :
    s.liveWrite [(off, v)] = ((s.bump Reg.HO_REFUSALS_live 1).refusal Code.HOIST_LIVE Unit_.hoist 0 0, false) := by
  unfold State.liveWrite
  rw [if_neg (not_not.mpr hp), if_pos (by simpa using hb)]

/-- Outside a commit a register in no bundle is written live, and the subsystems follow where its word changed. -/
theorem State.liveWrite_taken (s : State) (off v : Nat) (hp : s.ho.phase = 0) (hb : bundlesOf off = []) (t : State)
    (ht : (if maskIn (s.rd off) (shBits off) v = s.rd off then s.liveWritten off v
      else (s.liveWritten off v).follow s fun o => off == o) = t) :
    s.liveWrite [(off, v)] = (t.record 4 0x03 Unit_.hoist 0 (t.get Reg.HO_LIVE_gen), true) := by
  subst ht
  unfold State.liveWrite
  rw [if_neg (not_not.mpr hp), if_neg (by simp [hb])]
  simp only [List.all_cons, List.all_nil, List.any_cons, List.any_nil, List.foldl_cons, List.foldl_nil, Bool.and_true,
    Bool.or_false, beq_iff_eq]
  rfl

/-- Settles O17: the bus takes such a write by `State.shWrite`; each clause is one branch of the shadow's rule or the live copy's
(the argument 0 of the HOIST_LIVE record is log entry 187's). -/
theorem shadowAndLiveWrites : Obligations.ShadowAndLiveWrites := by
  refine ⟨fun s who a d h hsel hwriter hp => ?_, fun s who a d h hsel hno => ?_, fun s who a d h hsel hp => ?_,
    fun s who a d h hsel hp hb => ?_, fun s who a d h hsel hp hb hsame hlive => ?_, fun s who a d h hsel hp hb hdiff hlive => ?_⟩
  all_goals have hbus := s.busWrite_shPlain who _ d h
  · rw [State.shWrite_shadow _ _ _ hsel, State.shadowWrite_admitted _ _ _ _ hwriter hp] at hbus
    refine ⟨_, writes_of_busWrite rfl h.1 hbus, rfl, ?_, fun o ho => State.srd_swr_other s _ _ o ho⟩
    exact (State.srd_swr_same s _ _).trans (Nat.mod_eq_of_lt (maskIn_lt _ _ _ (s.srd_lt _) d.isLt))
  · rw [State.shWrite_shadow _ _ _ hsel, State.shadowWrite_refused _ _ _ hno] at hbus
    exact refuses_of_busWrite rfl h.1 hbus
  · rw [State.shWrite_live _ _ _ hsel, State.liveWrite_busy _ _ hp] at hbus
    exact refuses_of_busWrite rfl h.1 hbus
  · rw [State.shWrite_live _ _ _ hsel, State.liveWrite_bundled _ _ _ hp hb] at hbus
    exact refuses_of_busWrite rfl h.1 hbus
  · rw [State.shWrite_live _ _ _ hsel, State.liveWrite_taken _ _ _ hp hb _ (if_pos hsame)] at hbus
    have hword := (s.rd_liveWritten_same (byteOff a) d.toNat d.isLt hlive).trans hsame
    refine ⟨_, writes_of_busWrite rfl h.1 hbus, s.liveWritten_direct _ _, hword, fun o ho => ?_, s.liveWritten_eq_regs _ _⟩
    by_cases hoff : o = byteOff a
    · rw [hoff, hword]
    · exact s.liveWritten_regsBut _ _ o (List.not_mem_cons_of_ne_of_not_mem hoff ho)
  · rw [State.shWrite_live _ _ _ hsel, State.liveWrite_taken _ _ _ hp hb _ (if_neg hdiff)] at hbus
    exact ⟨_, writes_of_busWrite rfl h.1 hbus, s.liveWritten_direct _ _, s.rd_liveWritten_same _ _ d.isLt hlive,
      s.liveWritten_regsBut _ _, s.liveWritten_eq_regs _ _⟩

end Sys2Proof.Machine
end

/-! # Queues and interrupts (chapter 05) -/

section
namespace Sys2Proof.Machine

/-! ## Single bits of a word -/

theorem bit_eq_bits (n i : Nat) : bit n i = (bits n i 1 == 1) := rfl

/-- A replaced bit, and a bit apart from it. -/
theorem bit_putBits (x i v j : Nat) : bit (putBits x i 1 v) j = if j = i then v % 2 == 1 else bit x j := by
  simp only [bit_eq_bits]
  split_ifs with h
  · rw [h, bits_putBits_same]
    rfl
  · rw [bits_putBits_apart _ _ _ _ _ _ (by omega)]

/-- Adding a power of two to a word with that bit clear sets the bit. -/
theorem add_two_pow_eq_putBits (x i : Nat) (h : bit x i = false) : x + 2 ^ i = putBits x i 1 1 := by
  have hb : bits x i 1 = 0 := by
    have hlt : bits x i 1 < 2 := bits_lt x i 1
    have hne : bits x i 1 ≠ 1 := by simpa [bit_eq_bits] using h
    omega
  simp [putBits, hb]

/-! ## Pending bits (R190, R191, R193) -/

/-- The word that holds source `n`'s pending bit, with that bit replaced. -/
def State.setPending (s : State) (n v : Nat) : State :=
  s.wr (Reg.IC_PEND_k (n / 32)) (putBits (s.rd (Reg.IC_PEND_k (n / 32))) (n % 32) 1 v)

theorem State.unpend_eq_setPending (s : State) (n : Nat) : s.unpend n = s.setPending n 0 := rfl

theorem State.setPending_eq_regs (s : State) (n v : Nat) : s.setPending n v = { s with regs := (s.setPending n v).regs } := rfl

theorem State.setPending_regsBut (s : State) (n v : Nat) : s.regsBut (s.setPending n v) [Reg.IC_PEND_k (n / 32)] :=
  fun o ho => s.rd_wr_other _ _ o (List.ne_of_not_mem_cons ho)

/-- Only source `n`'s pending bit is replaced. -/
theorem State.srcPending_setPending (s : State) (n v k : Nat) :
    (s.setPending n v).srcPending k = if k = n then v % 2 == 1 else s.srcPending k := by
  unfold State.srcPending State.setPending
  by_cases hw : k / 32 = n / 32
  · rw [hw, State.rd_wr_same, Nat.mod_eq_of_lt (putBits_lt _ _ _ _ 32 (s.rd_lt _) (by omega)), bit_putBits]
    exact if_congr (by omega) rfl rfl
  · rw [State.rd_wr_other _ _ _ _ (by unfold Reg.IC_PEND_k; omega), if_neg (by rintro rfl; exact hw rfl)]

theorem State.regsBut_trans_rd {s t u : State} {offs : List Nat} (h : s.regsBut t offs) (hr : u.regs = t.regs) :
    s.regsBut u offs := by
  intro o ho
  rw [← h o ho]
  unfold State.rd
  rw [hr]

/-- While the fast clock runs a watched source counts no wake and touches no register. -/
theorem State.watchWake_active (s : State) (n : Nat) (ha : s.active = true) : (s.watchWake n).regs = s.regs := by
  have hst : s.pw.st = .active := by simpa [State.active] using ha
  unfold State.watchWake
  simp only [hst]
  split_ifs with h1 h2
  · exact absurd h2 (by decide)
  · unfold State.need
    rw [hst]
  · rfl

theorem State.srcPending_of_regs {s t : State} (h : t.regs = s.regs) (k : Nat) : t.srcPending k = s.srcPending k := by
  unfold State.srcPending State.rd
  rw [h]

/-! ## DOORBELL (R191) -/

/-- A source of the role that the requester may name. -/
theorem doorbell_good (s : State) (n : Nat) (outside : Bool) (h1 : 1 ≤ n) (hn : n < s.srcCount) (ho : outside = true → 64 ≤ n) :
    ¬ (n == 0 || decide (s.srcCount ≤ n) || (outside && decide (n < 64))) = true := by
  simp only [Bool.or_eq_true, Bool.and_eq_true, beq_iff_eq, decide_eq_true_eq]
  rintro ((h | h) | ⟨h, hlt⟩)
  · omega
  · omega
  · exact absurd (ho h) (by omega)

theorem State.doorbell_new (s : State) (n : Nat) (outside : Bool) (h1 : 1 ≤ n) (hn : n < s.srcCount)
    (ho : outside = true → 64 ≤ n) (hp : s.srcPending n = false) :
    s.doorbell n outside = (s.setPending n 1).watchWake n := by
  unfold State.doorbell State.setPending
  rw [if_neg (doorbell_good s n outside h1 hn ho), hp, if_neg Bool.false_ne_true]
  dsimp only
  rw [add_two_pow_eq_putBits _ _ hp]

theorem State.doorbell_repeat (s : State) (n : Nat) (outside : Bool) (h1 : 1 ≤ n) (hn : n < s.srcCount)
    (ho : outside = true → 64 ≤ n) (hp : s.srcPending n = true) :
    s.doorbell n outside = s.bump Reg.IC_COALESCED_count 1 := by
  unfold State.doorbell
  rw [if_neg (doorbell_good s n outside h1 hn ho), if_pos hp]

theorem State.doorbell_bad (s : State) (n : Nat) (outside : Bool) (h : n = 0 ∨ s.srcCount ≤ n ∨ (outside = true ∧ n < 64)) :
    s.doorbell n outside = s.bump Reg.IC_DB_BAD_count 1 := by
  unfold State.doorbell
  rw [if_pos (by simpa [or_assoc] using h)]

/-- Settles O27: a write of IC_DOORBELL takes the branch of R191 that the number, the requester and the pending bit name. -/
theorem doorbellsRaiseTheirSource : Obligations.DoorbellsRaiseTheirSource := by
  have hw : ∀ (s : State) (who : Who) (d : Word) (u : State), s.ready who →
      s.doorbell (d.toNat % 2 ^ 11) (Who.num who != 14 && Who.num who != 15) = u → Writes (.doorbell who d) s who u := by
    rintro s who d u hready rfl
    exact writes_of_busWrite rfl hready (s.busWrite_IC_DOORBELL _ _)
  refine ⟨fun s who d n hready hn h1 hlt hport hp => ?_, fun s who d n hready hn h1 hlt hport hp => ?_,
    fun s who d n hready hn hbad => ?_⟩
  · have hregs : ((s.setPending n 1).watchWake n).regs = (s.setPending n 1).regs := State.watchWake_active _ n hready.1
    refine ⟨_, hw s who d _ hready (by rw [← hn]; exact s.doorbell_new n _ h1 hlt (by simpa using hport) hp), ?_,
      fun k _ hk => ?_, State.regsBut_trans_rd (s.setPending_regsBut n 1) hregs⟩
    · rw [State.srcPending_of_regs hregs, State.srcPending_setPending, if_pos rfl]
      rfl
    · rw [State.srcPending_of_regs hregs, State.srcPending_setPending, if_neg hk]
  · exact hw s who d _ hready (by rw [← hn]; exact s.doorbell_repeat n _ h1 hlt (by simpa using hport) hp)
  · exact hw s who d _ hready (by rw [← hn]; exact s.doorbell_bad n _ (by simpa [and_assoc] using hbad))

/-! ## Claims (R193) -/

/-- A search down from `N` finds the greatest number below `N` that satisfies `p`. -/
theorem find?_reverse_range_greatest (p : Nat → Bool) (N k : Nat) (hk : k < N) (hp : p k = true) :
    ∃ n, (List.range N).reverse.find? p = some n ∧ p n = true ∧ ∀ j < N, p j = true → j ≤ n := by
  induction N with
  | zero => exact absurd hk (Nat.not_lt_zero k)
  | succ N ih =>
    rw [List.range_succ, List.reverse_append, List.reverse_singleton, List.singleton_append, List.find?_cons]
    cases hN : p N with
    | true => exact ⟨N, rfl, hN, fun j hj _ => Nat.le_of_lt_succ hj⟩
    | false =>
      have hne : ∀ j, p j = true → j ≠ N := fun j hj e => by simp [e, hN] at hj
      obtain ⟨n, hfind, hn, hmax⟩ := ih (by have := hne k hp; omega)
      exact ⟨n, hfind, hn, fun j hj hpj => hmax j (by have := hne j hpj; omega) hpj⟩

/-- `highest` is the greatest source of the role that is pending and enabled. -/
theorem State.highest_greatest (s : State) (en : Nat → Bool) (k : Nat) (hk : k < s.srcCount) (hp : s.srcPending k = true)
    (he : en k = true) : s.srcPending (s.highest en) = true ∧ en (s.highest en) = true ∧
      ∀ j < s.srcCount, s.srcPending j = true → en j = true → j ≤ s.highest en := by
  obtain ⟨n, hfind, hn, hmax⟩ := find?_reverse_range_greatest (fun n => s.srcPending n && en n) s.srcCount k hk (by simp [hp, he])
  have hh : s.highest en = n := by rw [State.highest, hfind, Option.getD_some]
  rw [Bool.and_eq_true] at hn
  rw [hh]
  exact ⟨hn.1, hn.2, fun j hj hpj hej => hmax j hj (by simp [hpj, hej])⟩

/-- What `highest` names is pending, unless it names no source. -/
theorem State.srcPending_highest (s : State) (en : Nat → Bool) (h : s.highest en ≠ 0) :
    s.highest en < s.srcCount ∧ s.srcPending (s.highest en) = true ∧ en (s.highest en) = true := by
  unfold State.highest at h ⊢
  cases hf : (List.range s.srcCount).reverse.find? fun n => s.srcPending n && en n with
  | none => rw [hf] at h; exact absurd rfl h
  | some n =>
    have hm := List.mem_of_find?_eq_some hf
    have hp := List.find?_some hf
    rw [Bool.and_eq_true] at hp
    exact ⟨List.mem_range.mp (List.mem_reverse.mp hm), hp⟩

theorem State.highest_none (s : State) (en : Nat → Bool)
    (h : ∀ k < s.srcCount, k ≠ 0 → ¬ (s.srcPending k = true ∧ en k = true)) : s.highest en = 0 := by
  by_contra hne
  obtain ⟨hlt, hp, he⟩ := s.srcPending_highest en hne
  exact h _ hlt hne ⟨hp, he⟩

/-- A state in which source `n` is not pending names another one. -/
theorem State.highest_ne (s : State) (en : Nat → Bool) (n : Nat) (hn : n ≠ 0) (hp : s.srcPending n = false) :
    s.highest en ≠ n := by
  rintro rfl
  exact Bool.false_ne_true (hp.symm.trans (s.srcPending_highest en hn).2.1)

/-- The claim registers are in the map of both roles. -/
theorem State.claim_present (s : State) (off : Nat) (h : off = Reg.IC_CLAIM_H ∨ off = Reg.IC_CLAIM_S) :
    ∃ d, s.reg? off = some d := by
  have hrow : ∀ o ∈ [Reg.IC_CLAIM_H, Reg.IC_CLAIM_S], (findReg o).map (·.role) = some 0 := by decide
  obtain ⟨d, hd, hrole⟩ := Option.map_eq_some_iff.mp (hrow off (by simpa using h))
  refine ⟨d, s.reg_present off d hd (by simp [State.hasReg, hrole]) ?_⟩
  obtain rfl | rfl := h <;> simp [State.absentPort, Reg.IC_CLAIM_H, Reg.IC_CLAIM_S]

/-- A word of the always-on pages that is not a plain register shows by its rule. -/
theorem State.view_of_viewAon (s : State) (off v : Nat) (d : RegDef) (hw : s.viewWindow off = none) (hd : s.reg? off = some d)
    (hl : s.absentLane off = false) (hv : s.viewAon off = some v) : s.view off = v := by
  unfold State.view
  rw [hw, hd, hl, hv]
  rfl

theorem State.viewAon_IC_CLAIM_H (s : State) : s.viewAon Reg.IC_CLAIM_H = some (s.highest s.enHost) := by
  simp [State.viewAon, Reg.IC_CLAIM_H, Reg.GL_ROLE, Reg.GL_BUILD, Reg.PM_STATE, Reg.PM_BOOT, Reg.PM_THR, Reg.HO_STATUS,
    Reg.HO_SHADOW, Reg.HO_PENDING, Reg.HO_PEND_EPOCH, Reg.QE_STATUS, Reg.IC_STATUS, Reg.IC_INFO]

theorem State.viewAon_IC_CLAIM_S (s : State) : s.viewAon Reg.IC_CLAIM_S = some (s.highest s.enStew) := by
  simp [State.viewAon, Reg.IC_CLAIM_H, Reg.IC_CLAIM_S, Reg.GL_ROLE, Reg.GL_BUILD, Reg.PM_STATE, Reg.PM_BOOT, Reg.PM_THR,
    Reg.HO_STATUS, Reg.HO_SHADOW, Reg.HO_PENDING, Reg.HO_PEND_EPOCH, Reg.QE_STATUS, Reg.IC_STATUS, Reg.IC_INFO]

/-- What a claim leaves: the source it answers is pending no longer. -/
def State.claimed (s : State) (n : Nat) : State := if n = 0 then s else s.unpend n

theorem State.readEffect_claimH (s : State) (d : RegDef) (hd : s.reg? Reg.IC_CLAIM_H = some d) :
    s.readEffect Reg.IC_CLAIM_H = s.claimed (s.highest s.enHost) := by
  simp only [State.readEffect, hd, if_true]
  rfl

theorem State.readEffect_claimS (s : State) (d : RegDef) (hd : s.reg? Reg.IC_CLAIM_S = some d) :
    s.readEffect Reg.IC_CLAIM_S = s.claimed (s.highest s.enStew) := by
  simp only [State.readEffect, hd, if_neg (show Reg.IC_CLAIM_S ≠ Reg.IC_CLAIM_H by decide), if_true]
  rfl

theorem State.busRead_IC_CLAIM_H (s : State) (req : Nat) :
    s.busRead req Reg.IC_CLAIM_H = (s.highest s.enHost, s.claimed (s.highest s.enHost)) := by
  obtain ⟨d, hd⟩ := s.claim_present _ (.inl rfl)
  rw [State.busRead_single s req _ (by decide) (by decide) (by decide),
    s.view_of_viewAon _ _ d (by simp [State.viewWindow, Reg.IC_CLAIM_H]) hd (by simp [State.absentLane, Reg.IC_CLAIM_H])
      s.viewAon_IC_CLAIM_H, s.readEffect_claimH d hd]

theorem State.busRead_IC_CLAIM_S (s : State) (req : Nat) :
    s.busRead req Reg.IC_CLAIM_S = (s.highest s.enStew, s.claimed (s.highest s.enStew)) := by
  obtain ⟨d, hd⟩ := s.claim_present _ (.inr rfl)
  rw [State.busRead_single s req _ (by decide) (by decide) (by decide),
    s.view_of_viewAon _ _ d (by simp [State.viewWindow, Reg.IC_CLAIM_S]) hd (by simp [State.absentLane, Reg.IC_CLAIM_S])
      s.viewAon_IC_CLAIM_S, s.readEffect_claimS d hd]

/-- A claim's read `c`, of a register that answers by `en`, with a source to take: the same for either claimant. -/
theorem State.claim_takes (s : State) (who : Who) (c : Instr) (en : Nat → Bool) (k : Nat)
    (hc : Answers c s who (s.highest en) false (s.claimed (s.highest en))) (hk : k < s.srcCount) (h0 : k ≠ 0)
    (hp : s.srcPending k = true) (he : en k = true) :
    ∃ n u, Answers c s who n false u ∧ s.srcPending n = true ∧ en n = true ∧ k ≤ n ∧
      (∀ j < s.srcCount, j ≠ 0 → s.srcPending j = true → en j = true → j ≤ n) ∧ u = { s with regs := u.regs } ∧ u.srcPending n = false ∧
      (∀ j < 1024, j ≠ n → u.srcPending j = s.srcPending j) ∧ u.highest u.enHost ≠ n ∧ u.highest u.enStew ≠ n := by
  obtain ⟨hpend, hen, hmax⟩ := s.highest_greatest en k hk hp he
  have hle := hmax k hk hp he
  generalize s.highest en = n at *
  have hn : n ≠ 0 := by omega
  have hclear : (s.claimed n).srcPending n = false := by
    rw [State.claimed, if_neg hn, State.unpend_eq_setPending, State.srcPending_setPending, if_pos rfl]
    rfl
  refine ⟨n, s.claimed n, hc, hpend, hen, hle, fun j hj _ => hmax j hj, ?_, hclear, fun j _ hj => ?_, State.highest_ne _ _ n hn hclear,
    State.highest_ne _ _ n hn hclear⟩
  · rw [State.claimed, if_neg hn, State.unpend_eq_setPending, ← State.setPending_eq_regs]
  · rw [State.claimed, if_neg hn, State.unpend_eq_setPending, State.srcPending_setPending, if_neg hj]

/-- Settles O28: a claim answers `State.highest` of its enables and clears that pending bit, which both claimants read. -/
theorem claimsTakeTheHighestSource : Obligations.ClaimsTakeTheHighestSource := by
  have hhost : ∀ (s : State) (who : Who), s.ready who →
      Answers (.claimHost who) s who (s.highest s.enHost) false (s.claimed (s.highest s.enHost)) :=
    fun s who hready => answers_of_busRead rfl hready (s.busRead_IC_CLAIM_H _)
  have hstew : ∀ (s : State) (who : Who), s.ready who →
      Answers (.claimSteward who) s who (s.highest s.enStew) false (s.claimed (s.highest s.enStew)) :=
    fun s who hready => answers_of_busRead rfl hready (s.busRead_IC_CLAIM_S _)
  refine ⟨fun s who k hready => s.claim_takes who _ s.enHost k (hhost s who hready),
    fun s who k hready => s.claim_takes who _ s.enStew k (hstew s who hready), fun s who hready => ⟨fun hnone => ?_, fun hnone => ?_⟩⟩
  · have h := hhost s who hready
    rwa [s.highest_none _ hnone] at h
  · have h := hstew s who hready
    rwa [s.highest_none _ hnone] at h

end Sys2Proof.Machine
end

section
namespace Sys2Proof.Machine

/-! ## The sixteen queues as part of the state -/

/-- The state without its queues. -/
def State.sansQueues (s : State) : State := { s with queues := [] }

/-- A state that differs in its queues alone. -/
theorem State.eq_of_sansQueues {s t : State} (h : t.sansQueues = s.sansQueues) : t = { s with queues := t.queues } := by
  cases s
  cases t
  simpa [State.sansQueues] using h

theorem State.kept_of_sansQueues {β : Type} {s t : State} (f : State → β) (hf : ∀ u : State, f u.sansQueues = f u)
    (h : t.sansQueues = s.sansQueues) : f t = f s := by
  rw [← hf t, h, hf s]

theorem State.regs_of_sansQueues {s t : State} (h : t.sansQueues = s.sansQueues) : t.regs = s.regs :=
  State.kept_of_sansQueues State.regs (fun _ => rfl) h

theorem State.rd_of_sansQueues {s t : State} (h : t.sansQueues = s.sansQueues) (off : Nat) : t.rd off = s.rd off :=
  State.kept_of_sansQueues (fun u => u.rd off) (fun _ => rfl) h

theorem State.get_of_sansQueues {s t : State} (h : t.sansQueues = s.sansQueues) (f : Fld) : t.get f = s.get f :=
  State.kept_of_sansQueues (fun u => u.get f) (fun _ => rfl) h

@[simp] theorem State.sansQueues_ite {p : Prop} [Decidable p] (a b : State) :
    (if p then a else b).sansQueues = if p then a.sansQueues else b.sansQueues := apply_ite State.sansQueues p a b

theorem foldl_sansQueues {α : Type} (g : State → α → State) (h : ∀ t x, (g t x).sansQueues = t.sansQueues) (l : List α)
    (s : State) : (l.foldl g s).sansQueues = s.sansQueues := by
  induction l generalizing s with
  | nil => rfl
  | cons a l ih => rw [List.foldl_cons, ih, h]

@[simp] theorem State.setQueue_sansQueues (s : State) (q : Nat) (f : Queue → Queue) : (s.setQueue q f).sansQueues = s.sansQueues := rfl

@[simp] theorem State.put_sansQueues (s : State) (f : Fld) (v : Nat) : (s.put f v).sansQueues = s.sansQueues.put f v := rfl

@[simp] theorem State.bump_sansQueues (s : State) (f : Fld) (n : Nat) : (s.bump f n).sansQueues = s.sansQueues.bump f n := rfl

@[simp] theorem State.finish_sansQueues (s : State) (q seq : Nat) (d : Done) : (s.finish q seq d).sansQueues = s.sansQueues := rfl

@[simp] theorem State.takeHead_sansQueues (s : State) (q slot : Nat) (c : List Byte) (held : Bool) :
    (s.takeHead q slot c held).sansQueues = State.sansQueues { s with lastQ := q } := rfl

@[simp] theorem State.clearRank_sansQueues (s : State) (q : Nat) : (s.clearRank q).sansQueues = s.sansQueues := by
  unfold State.clearRank
  split <;> rfl

@[simp] theorem State.walks_sansQueues (s : State) (qs : List Nat) : (s.walks qs).sansQueues = s.sansQueues := by
  refine foldl_sansQueues _ (fun t q => ?_) qs s
  split <;> rfl

@[simp] theorem State.rewalk_sansQueues (s : State) : s.rewalk.sansQueues = s.sansQueues := by
  unfold State.rewalk
  rw [State.walks_sansQueues]
  refine foldl_sansQueues _ (fun t q => ?_) _ s
  exact t.setQueue_sansQueues q _

@[simp] theorem State.edgesMoved_sansQueues (s t : State) : (s.edgesMoved t).sansQueues = t.sansQueues := by
  simp [State.edgesMoved]

/-! ## One queue (R160) -/

theorem State.queue_setQueue_same (s : State) (q : Nat) (f : Queue → Queue) (h : q < s.queues.length) :
    (s.setQueue q f).queue q = f (s.queue q) :=
  modAt_get_same _ _ _ _ h

theorem State.queue_setQueue_other (s : State) (q p : Nat) (f : Queue → Queue) (h : p ≠ q) :
    (s.setQueue q f).queue p = s.queue p :=
  modAt_get_other _ _ _ _ _ (Ne.symm h)

/-- A queue that is not there stays so. -/
theorem modAt_beyond {α : Type} (l : List α) (i : Nat) (f : α → α) (h : l.length ≤ i) : modAt l i f = l := by
  induction l generalizing i with
  | nil => rfl
  | cons a as ih => cases i with
    | zero => simp at h
    | succ n => rw [modAt, ih n (by simpa using h)]

/-- What an update of a queue keeps of it, the queue shows as before. -/
theorem State.queue_setQueue_keeps {β : Type} (g : Queue → β) (s : State) (q p : Nat) (f : Queue → Queue)
    (hf : ∀ u, g (f u) = g u) : g ((s.setQueue q f).queue p) = g (s.queue p) := by
  by_cases hp : p = q
  · subst hp
    by_cases h : p < s.queues.length
    · rw [State.queue_setQueue_same _ _ _ h, hf]
    · rw [State.setQueue, modAt_beyond _ _ _ (Nat.le_of_not_lt h)]
  · rw [State.queue_setQueue_other _ _ _ _ hp]

@[simp] theorem State.setQueue_queues_length (s : State) (q : Nat) (f : Queue → Queue) :
    (s.setQueue q f).queues.length = s.queues.length := modAt_length _ _ _

@[simp] theorem State.finish_queues_length (s : State) (q seq : Nat) (d : Done) :
    (s.finish q seq d).queues.length = s.queues.length := modAt_length _ _ _

@[simp] theorem State.takeHead_queues_length (s : State) (q slot : Nat) (c : List Byte) (held : Bool) :
    (s.takeHead q slot c held).queues.length = s.queues.length := modAt_length _ _ _

theorem State.queue_of_queues {s t : State} (h : t.queues = s.queues) (q : Nat) : t.queue q = s.queue q := by
  rw [State.queue, State.queue, h]

@[simp] theorem State.queue_wr (s : State) (off v q : Nat) : (s.wr off v).queue q = s.queue q :=
  State.queue_of_queues (s.wr_queues off v) q

@[simp] theorem State.queue_put (s : State) (f : Fld) (v q : Nat) : (s.put f v).queue q = s.queue q :=
  State.queue_of_queues (s.put_queues f v) q

/-! ### What only a rank or a due cycle changes -/

/-- The parts of a queue that neither the running rank (R185) nor a due CYCLE (R181) touch. -/
def Queue.sansMarks (u : Queue) : Queue := { u with rank := none, cycleDue := false }

theorem foldl_sansMarks {α : Type} (g : State → α → State) (p : Nat)
    (h : ∀ t x, ((g t x).queue p).sansMarks = (t.queue p).sansMarks) (l : List α) (s : State) :
    ((l.foldl g s).queue p).sansMarks = (s.queue p).sansMarks := by
  induction l generalizing s with
  | nil => rfl
  | cons a l ih => rw [List.foldl_cons, ih, h]

@[simp] theorem State.clearRank_sansMarks (s : State) (q p : Nat) : ((s.clearRank q).queue p).sansMarks = (s.queue p).sansMarks := by
  unfold State.clearRank
  split
  · exact s.queue_setQueue_keeps Queue.sansMarks q p _ fun _ => rfl
  · rfl

@[simp] theorem State.walks_sansMarks (s : State) (qs : List Nat) (p : Nat) :
    ((s.walks qs).queue p).sansMarks = (s.queue p).sansMarks := by
  refine foldl_sansMarks _ p (fun t q => ?_) qs s
  split
  · exact t.queue_setQueue_keeps Queue.sansMarks q p _ fun _ => rfl
  · rfl

@[simp] theorem State.rewalk_sansMarks (s : State) (p : Nat) : (s.rewalk.queue p).sansMarks = (s.queue p).sansMarks := by
  unfold State.rewalk
  rw [State.walks_sansMarks]
  refine foldl_sansMarks _ p (fun t q => ?_) _ s
  exact t.queue_setQueue_keeps Queue.sansMarks q p _ fun _ => rfl

@[simp] theorem State.edgesMoved_sansMarks (s t : State) (p : Nat) :
    ((s.edgesMoved t).queue p).sansMarks = (t.queue p).sansMarks := by
  unfold State.edgesMoved
  dsimp only
  split_ifs
  · exact t.rewalk_sansMarks p
  · exact t.walks_sansMarks _ p

/-! ## Commands in flight (R173, R176) -/

theorem State.flights_of_sansMarks {s t : State} {q : Nat} (h : (t.queue q).sansMarks = (s.queue q).sansMarks) :
    (t.queue q).flights = (s.queue q).flights := by
  have hf := congrArg Queue.flights h
  exact hf

theorem State.ended_of_flights {s t : State} {q slot code : Nat} (h : (t.queue q).flights = (s.queue q).flights)
    (he : s.ended q slot code) : t.ended q slot code := by
  unfold State.ended
  rw [h]
  exact he

theorem State.waits_of_flights {s t : State} {q slot : Nat} (h : (t.queue q).flights = (s.queue q).flights)
    (hw : s.waits q slot) : t.waits q slot := by
  unfold State.waits
  rw [h]
  exact hw

theorem State.ended_clearRank {s : State} {p q slot code : Nat} (h : s.ended q slot code) : (s.clearRank p).ended q slot code :=
  State.ended_of_flights (State.flights_of_sansMarks (s.clearRank_sansMarks p q)) h

theorem State.waits_clearRank {s : State} {p q slot : Nat} (h : s.waits q slot) : (s.clearRank p).waits q slot :=
  State.waits_of_flights (State.flights_of_sansMarks (s.clearRank_sansMarks p q)) h

theorem State.ended_edgesMoved {s t : State} {q slot code : Nat} (h : t.ended q slot code) : (s.edgesMoved t).ended q slot code :=
  State.ended_of_flights (State.flights_of_sansMarks (s.edgesMoved_sansMarks t q)) h

/-- The end of a flight's work shows in its queue. -/
theorem State.ended_finish (s : State) (q : Nat) (f : Flight) (d : Done) (hq : q < s.queues.length)
    (hf : f ∈ (s.queue q).flights) (hd : f.done = none) : (s.finish q f.seq d).ended q f.slot d.code := by
  unfold State.ended State.finish
  rw [State.queue_setQueue_same _ _ _ hq]
  exact ⟨{ f with done := some d }, List.mem_map.mpr ⟨f, hf, by simp [hd]⟩, rfl, d, rfl, rfl⟩

/-- The head moves on alike whatever else of the queue changes. -/
theorem Queue.advance_with (u : Queue) (fs : List Flight) (n wd : Nat) :
    Queue.advance { u with flights := fs, seq := n, wdFrom := wd } = { u.advance with flights := fs, seq := n, wdFrom := wd } := by
  unfold Queue.advance
  dsimp only
  split_ifs <;> rfl

/-- The head command taken now is in flight, with its work to do. -/
theorem State.queue_takeHead (s : State) (q slot : Nat) (c : List Byte) (held : Bool) (hq : q < s.queues.length) :
    (s.takeHead q slot c held).queue q = { (s.queue q).advance with
      flights := (s.queue q).flights ++ [s.newFlight q slot c held], seq := ((s.queue q).seq + 1) % 2 ^ 16,
      wdFrom := if (s.queue q).flights.isEmpty then s.fleet else (s.queue q).wdFrom } := by
  rw [← Queue.advance_with]
  exact State.queue_setQueue_same { s with lastQ := q } q _ hq

theorem State.newFlight_mem (s : State) (q slot : Nat) (c : List Byte) (held : Bool) (hq : q < s.queues.length) :
    s.newFlight q slot c held ∈ ((s.takeHead q slot c held).queue q).flights := by
  rw [State.queue_takeHead _ _ _ _ _ hq]
  exact List.mem_append_right _ (List.mem_singleton_self _)

/-! ## Issue (R170, R171) -/

/-- A command that starts runs its work on the queue with the command in flight. -/
theorem State.issue_starts {s : State} {q slot o : Nat} {c : List Byte} (h : s.starts q slot c) (ho : cmdOp c = o)
    (run hold : State → Nat → Flight → State) :
    s.issue q (some o) run hold = (run (s.takeHead q slot c false) q (s.newFlight q slot c false)).clearRank q := by
  obtain ⟨hissue, hpre, hdrain⟩ := h
  unfold State.issue
  rw [hissue]
  simp [ho, hpre, hdrain]

theorem State.issue_none {s : State} {q : Nat} (h : s.issuable q = none) (op : Option Nat) (run hold : State → Nat → Flight → State) :
    s.issue q op run hold = s := by
  unfold State.issue
  rw [h]

/-- A command whose work is done in `u`, which keeps the commands in flight: it has ended, and nothing beside queues of `u` changes. -/
theorem State.issue_finishes {s : State} {q slot o : Nat} {c : List Byte} (hlen : s.queues.length = 16) (hq : q < 16)
    (h : s.starts q slot c) (ho : cmdOp c = o) (run hold : State → Nat → Flight → State) (u : State) (d : Done)
    (hrun : run (s.takeHead q slot c false) q (s.newFlight q slot c false) = u.finish q (s.newFlight q slot c false).seq d)
    (hu : u.queues.length = s.queues.length) (hf : (u.queue q).flights = ((s.takeHead q slot c false).queue q).flights) :
    (s.issue q (some o) run hold).ended q slot d.code ∧ (s.issue q (some o) run hold).sansQueues = u.sansQueues := by
  have hq' : q < s.queues.length := hlen ▸ hq
  rw [State.issue_starts h ho, hrun]
  refine ⟨State.ended_clearRank (u.ended_finish q (s.newFlight q slot c false) d (hu ▸ hq') ?_ rfl), by simp⟩
  rw [hf]
  exact s.newFlight_mem q slot c false hq'

end Sys2Proof.Machine
end

section
namespace Sys2Proof.Machine

/-! ## The checks a command has passed when it starts (R169) -/

theorem State.goodCmd_of_starts {s : State} {q slot : Nat} {c : List Byte} (h : s.starts q slot c) : s.goodCmd c = true := by
  have hpre := h.2.1
  unfold State.precheck at hpre
  split_ifs at hpre with _ _ _ _ hgood
  exact hgood

/-- The flag that a command names is one of the 64. -/
theorem State.flag_lt_of_starts {s : State} {q slot : Nat} {c : List Byte} (h : s.starts q slot c)
    (ho : cmdOp c = 0x08 ∨ cmdOp c = 0x09) : field c 8 1 < 64 := by
  have hgood := State.goodCmd_of_starts h
  unfold State.goodCmd at hgood
  obtain ho | ho := ho <;>
  · simp only [ho, Bool.and_eq_true, decide_eq_true_eq] at hgood
    omega

/-! ## Flags (R179) -/

theorem State.flag_of_regs {s t : State} (h : t.regs = s.regs) (f : Nat) : t.flag f = s.flag f := by
  unfold State.flag State.rd
  rw [h]

/-- A flag below 64 reads as set, and the others as before. -/
theorem State.flag_setFlag (s : State) (f g : Nat) (v : Bool) (hf : f < 64) (hg : g < 64) :
    (s.setFlag f v).flag g = if g = f then v else s.flag g := by
  have hv : (b2n v % 2 == 1) = v := by cases v <;> rfl
  unfold State.setFlag State.flag
  split_ifs with hg32 hf32 he he he hf32
  · rw [State.bit_rd_wr _ _ _ _ hg32, bit_putBits, if_pos he, hv]
  · rw [State.bit_rd_wr _ _ _ _ hg32, bit_putBits, if_neg he]
  · omega
  · rw [State.rd_wr_other _ _ _ _ (by decide)]
  · omega
  · rw [State.rd_wr_other _ _ _ _ (by decide)]
  · rw [State.bit_rd_wr _ _ _ _ (by omega), bit_putBits, if_pos (by omega), hv]
  · rw [State.bit_rd_wr _ _ _ _ (by omega), bit_putBits, if_neg (by omega)]

theorem State.setFlag_eq_regs (s : State) (f : Nat) (v : Bool) : s.setFlag f v = { s with regs := (s.setFlag f v).regs } := by
  unfold State.setFlag
  split_ifs <;> rfl

@[simp] theorem State.setFlag_queues (s : State) (f : Nat) (v : Bool) : (s.setFlag f v).queues = s.queues := by
  rw [State.setFlag_eq_regs]

theorem State.setFlag_regsBut (s : State) (f : Nat) (v : Bool) : s.regsBut (s.setFlag f v) [Reg.QE_FLAGS_LO, Reg.QE_FLAGS_HI] := by
  intro o ho
  obtain ⟨hlo, hhi⟩ := not_or.mp (mt List.mem_pair.mpr ho)
  unfold State.setFlag
  split_ifs
  · exact s.rd_wr_other _ _ o hlo
  · exact s.rd_wr_other _ _ o hhi

/-! ## SET_FLAG and CLEAR_FLAG (R168, R179, R184) -/

/-- A flag command in a queue that may write its flag. -/
theorem State.flagCommand_writes (v : Bool) {s : State} {q slot o : Nat} {c : List Byte} (hlen : s.queues.length = 16) (hq : q < 16)
    (h : s.starts q slot c) (ho : cmdOp c = o) (ho' : o = 0x08 ∨ o = 0x09) (hmay : s.mayFlag q (field c 8 1) = true) :
    ∃ t, s.issue q (some o) (State.runFlag v) = t ∧ t.ended q slot Code.OK ∧ t.flag (field c 8 1) = v ∧
      (∀ g < 64, g ≠ field c 8 1 → t.flag g = s.flag g) ∧ s.regsBut t [Reg.QE_FLAGS_LO, Reg.QE_FLAGS_HI] ∧
      t = { s with regs := t.regs, queues := t.queues, lastQ := q } := by
  have hlt := State.flag_lt_of_starts h (ho ▸ ho')
  have hrun : State.runFlag v (s.takeHead q slot c false) q (s.newFlight q slot c false) =
      ((s.takeHead q slot c false).setFlag (field c 8 1) v).finish q (s.newFlight q slot c false).seq { code := Code.OK } :=
    if_pos hmay
  obtain ⟨hend, hrest⟩ := State.issue_finishes hlen hq h ho (State.runFlag v) (fun s _ _ => s) _ _ hrun (by simp)
    (by rw [State.queue_of_queues (State.setFlag_queues _ _ _)])
  have hregs := State.regs_of_sansQueues hrest
  have hflag : ∀ g < 64, (s.issue q (some o) (State.runFlag v)).flag g = if g = field c 8 1 then v else s.flag g :=
    fun g hg => (State.flag_of_regs hregs g).trans (State.flag_setFlag _ _ g v hlt hg)
  refine ⟨_, rfl, hend, ?_, fun g hg hne => ?_, fun o ho => ?_, ?_⟩
  · rw [hflag _ hlt, if_pos rfl]
  · rw [hflag g hg, if_neg hne]
  · rw [State.rd_of_sansQueues hrest]
    exact State.setFlag_regsBut _ _ _ o ho
  · have ht := State.eq_of_sansQueues hrest
    rw [State.setFlag_eq_regs, ← hregs] at ht
    exact ht

/-- A flag command in a queue that may not. -/
theorem State.flagCommand_refused (v : Bool) {s : State} {q slot o : Nat} {c : List Byte} (hlen : s.queues.length = 16) (hq : q < 16)
    (h : s.starts q slot c) (ho : cmdOp c = o) (hmay : s.mayFlag q (field c 8 1) = false) :
    ∃ t, s.issue q (some o) (State.runFlag v) = t ∧ t.ended q slot Code.QE_NOT_OWNER ∧ t = { s with queues := t.queues, lastQ := q } := by
  have hrun : State.runFlag v (s.takeHead q slot c false) q (s.newFlight q slot c false) =
      (s.takeHead q slot c false).finish q (s.newFlight q slot c false).seq { code := Code.QE_NOT_OWNER } :=
    if_neg (Bool.eq_false_iff.mp hmay)
  obtain ⟨hend, hrest⟩ := State.issue_finishes hlen hq h ho (State.runFlag v) (fun s _ _ => s) _ _ hrun (by simp) rfl
  exact ⟨_, rfl, hend, State.eq_of_sansQueues hrest⟩

/-- Settles O20: both commands are `State.runFlag`, issued on the queue with the command in flight. -/
theorem flagCommandsSetAndClear : Obligations.FlagCommandsSetAndClear := by
  refine ⟨fun s q slot c hlen h ho hmay => ?_, fun s q slot c hlen h ho hmay => ?_, fun s q slot c hlen h ho hmay => ?_,
    fun s q slot c hlen h ho hmay => ?_⟩
  · obtain ⟨t, ht, hrest⟩ := State.flagCommand_writes true hlen q.isLt h ho (.inl rfl) hmay
    exact ⟨t, congrArg Host.Outcome.next ht, hrest⟩
  · obtain ⟨t, ht, hrest⟩ := State.flagCommand_writes false hlen q.isLt h ho (.inr rfl) hmay
    exact ⟨t, congrArg Host.Outcome.next ht, hrest⟩
  · obtain ⟨t, ht, hrest⟩ := State.flagCommand_refused true hlen q.isLt h ho hmay
    exact ⟨t, congrArg Host.Outcome.next ht, hrest⟩
  · obtain ⟨t, ht, hrest⟩ := State.flagCommand_refused false hlen q.isLt h ho hmay
    exact ⟨t, congrArg Host.Outcome.next ht, hrest⟩

end Sys2Proof.Machine
end

section
namespace Sys2Proof.Machine

/-! ## Commands that end in the queue alone, and commands that stand (R177, R180) -/

/-- A command whose work ends at once and changes nothing else. -/
theorem State.issue_ends {s : State} {q slot o : Nat} {c : List Byte} (hlen : s.queues.length = 16) (hq : q < 16)
    (h : s.starts q slot c) (ho : cmdOp c = o) (run : State → Nat → Flight → State) (d : Done)
    (hrun : run (s.takeHead q slot c false) q (s.newFlight q slot c false) =
      (s.takeHead q slot c false).finish q (s.newFlight q slot c false).seq d) :
    ∃ t, s.issue q (some o) run = t ∧ t.ended q slot d.code ∧ t = { s with queues := t.queues, lastQ := q } := by
  obtain ⟨hend, hrest⟩ := State.issue_finishes hlen hq h ho run (fun s _ _ => s) _ d hrun (by simp) rfl
  exact ⟨_, rfl, hend, State.eq_of_sansQueues hrest⟩

/-- A wait whose work keeps the commands in flight and changes nothing beside the queues stands. -/
theorem State.issue_stands {s : State} {q slot o : Nat} {c : List Byte} (hlen : s.queues.length = 16) (hq : q < 16)
    (h : s.starts q slot c) (ho : cmdOp c = o) (hwait : isWait c = true) (run : State → Nat → Flight → State) (u : State)
    (hrun : run (s.takeHead q slot c false) q (s.newFlight q slot c false) = u)
    (hu : u.sansQueues = (s.takeHead q slot c false).sansQueues)
    (hf : (u.queue q).flights = ((s.takeHead q slot c false).queue q).flights) :
    ∃ t, s.issue q (some o) run = t ∧ t.waits q slot ∧ t = { s with queues := t.queues, lastQ := q } := by
  rw [State.issue_starts h ho, hrun]
  refine ⟨_, rfl, State.waits_clearRank ⟨s.newFlight q slot c false, ?_, rfl, ?_⟩,
    State.eq_of_sansQueues ((u.clearRank_sansQueues q).trans hu)⟩
  · rw [hf]
    exact s.newFlight_mem q slot c false (hlen ▸ hq)
  · rw [Flight.standing, Bool.and_eq_true]
    exact ⟨hwait, rfl⟩

/-- A command found standing is in flight, with its work to do. -/
theorem standing_of_find? {fs : List Flight} {f : Flight} {o : Nat}
    (h : (fs.find? fun g => g.standing && cmdOp g.cmd == o) = some f) : f ∈ fs ∧ f.done = none := by
  have hp := List.find?_some h
  rw [Bool.and_eq_true, Flight.standing, Bool.and_eq_true] at hp
  exact ⟨List.mem_of_find?_eq_some h, Option.isNone_iff_eq_none.mp hp.1.2⟩

/-! ## WAIT_TIME, FENCE and unknown opcodes (R169, R183, R185) -/

theorem State.queue_passToFleet (s : State) (t q : Nat) : (s.passToFleet t).queue q = s.queue q :=
  State.queue_of_queues (s.passToFleet_queues t) q

theorem State.waitTimeReached_found (s : State) (q : Nat) (f : Flight)
    (h : ((s.queue q).flights.find? fun f => f.standing && cmdOp f.cmd == 0x0A) = some f) :
    s.waitTimeReached q = (s.passToFleet (field f.cmd 8 8)).finish q f.seq (waitTimeDone
      ((s.passToFleet (field f.cmd 8 8)).sinceFleet (if later 64 (field f.cmd 8 8) f.at_ then field f.cmd 8 8 else f.at_))) := by
  unfold State.waitTimeReached
  rw [h]

/-- An opcode outside 0x01 to 0x0B has no length field and no section, and fails the operand checks (R169). -/
theorem State.unknown_checks (s : State) (c : List Byte) (h : cmdOp c = 0 ∨ 0x0B < cmdOp c) :
    s.zeroField c = false ∧ opSections (cmdOp c) = 0 ∧ s.goodCmd c = false := by
  have ho : cmdOp c = 0 ∨ ∃ k, cmdOp c = k + 12 := h.imp_right fun hk => ⟨cmdOp c - 12, by omega⟩
  unfold State.zeroField opSections State.goodCmd
  generalize cmdOp c = o at ho
  obtain rfl | ⟨k, rfl⟩ := ho
  · exact ⟨rfl, rfl, Bool.and_false _⟩
  · exact ⟨rfl, rfl, Bool.and_false _⟩

theorem State.precheck_unknown (s : State) (q slot : Nat) (c : List Byte) (h : cmdOp c = 0 ∨ 0x0B < cmdOp c)
    (hring : s.ev.ringBad.contains (ringAddr (s.queue q).bank q slot / 32) = false)
    (hpred : cmdPredEn c = false ∨ bit (s.rd Reg.QE_PRED) (cmdPred c) ≠ cmdPredInv c) :
    s.precheck q slot c = some Code.QE_BAD_CMD := by
  obtain ⟨hzero, hsec, hgood⟩ := s.unknown_checks c h
  unfold State.precheck
  rw [hring, hzero, hsec, hgood]
  have hskip : (cmdPredEn c && (bit (s.rd Reg.QE_PRED) (cmdPred c) == cmdPredInv c)) = false := by
    rw [Bool.and_eq_false_iff, beq_eq_false_iff_ne]
    exact hpred
  simp [hskip]

/-- The head command of an unknown opcode ends at issue with the code of its checks. -/
theorem State.issue_unknown {s : State} {q slot : Nat} {c : List Byte} (h : s.issuable q = some (slot, c))
    (ho : cmdOp c = 0 ∨ 0x0B < cmdOp c) (hpre : s.precheck q slot c = some Code.QE_BAD_CMD) (run : State → Nat → Flight → State) :
    s.issue q none run = ((s.takeHead q slot c false).finish q (s.newFlight q slot c false).seq
      { code := Code.QE_BAD_CMD }).clearRank q := by
  have hhere : (cmdOp c == 0 || decide (0x0B < cmdOp c)) = true := by simpa using ho
  have hcode : (Code.QE_BAD_CMD == Code.UNCORRECTABLE) = false := by decide
  unfold State.issue
  rw [h]
  simp only [hhere, hpre, hcode, Bool.not_true, Bool.false_eq_true, if_false, Bool.false_and, Option.isNone_some]

/-- Settles O22: each command ends by `State.finish` or stands, issued on the queue with the command in flight. -/
theorem timedWaitsAndFences : Obligations.TimedWaitsAndFences := by
  refine ⟨fun s q slot c hlen h ho hr => ?_, fun s q slot c hlen h ho hr => ?_, fun s q f hlen ha hfind => ?_,
    fun s q slot c hlen h ho => ?_, fun s q slot c hlen h ho hring hpred => ?_⟩
  · obtain ⟨t, ht, hrest⟩ := State.issue_ends hlen q.isLt h ho State.runWaitTime _ (if_pos hr)
    exact ⟨t, congrArg Host.Outcome.next ht, hrest⟩
  · obtain ⟨t, ht, hrest⟩ := State.issue_stands hlen q.isLt h ho (by simp [isWait, ho]) State.runWaitTime _
      (if_neg (Bool.eq_false_iff.mp hr)) rfl rfl
    exact ⟨t, congrArg Host.Outcome.next ht, hrest⟩
  · obtain ⟨hmem, hdone⟩ := standing_of_find? hfind
    refine ⟨s.waitTimeReached q.val, congrArg Host.Outcome.next (if_pos ha), ?_, ?_⟩
    · rw [s.waitTimeReached_found _ f hfind]
      rfl
    · rw [s.waitTimeReached_found _ f hfind]
      exact State.ended_finish _ _ f _ (by simp [hlen]) (by rw [State.queue_passToFleet]; exact hmem) hdone
  · obtain ⟨hend, hrest⟩ := State.issue_finishes hlen q.isLt h ho State.runFence (fun s _ _ => s) _ _ rfl (by simp)
      (State.queue_setQueue_keeps Queue.flights _ _ _ _ fun _ => rfl)
    exact ⟨_, rfl, hend, State.eq_of_sansQueues hrest⟩
  · have hissue := State.issue_unknown h ho (s.precheck_unknown _ slot c ho hring hpred)
      fun t q f => t.finish q f.seq { code := Code.QE_BAD_CMD }
    have hq : q.val < s.queues.length := q.isLt.trans_eq hlen.symm
    refine ⟨_, congrArg Host.Outcome.next hissue, State.ended_clearRank ?_, State.eq_of_sansQueues (State.clearRank_sansQueues _ _)⟩
    exact State.ended_finish _ _ (s.newFlight q slot c false) _ (by simpa using hq) (s.newFlight_mem q slot c false hq) rfl

/-! ## WAIT_FLAG (R180, R181, R182) -/

/-- A native queue's WAIT_FLAG at issue. -/
theorem State.runWaitFlag_native (s : State) (q : Nat) (f : Flight) (h : s.plovQueue q = false) :
    s.runWaitFlag q f =
      if s.flag (field f.cmd 8 1) = (field f.cmd 9 1 == 1) then s.finish q f.seq { code := Code.OK }
      else if s.get (Reg.QE_Qn_BOUND_us q) = 0 then s.finish q f.seq { code := Code.DEADLINE_MISS }
      else s.walks [q] := by
  unfold State.runWaitFlag
  simp [h]

theorem State.waitSatisfied_holds (s : State) (q : Nat) (f : Flight) (h : s.waitOf q = some f)
    (hflag : s.flag (field f.cmd 8 1) = (field f.cmd 9 1 == 1)) :
    s.waitSatisfied q = s.edgesMoved ((s.setQueue q fun u => { u with cycleDue := false }).finish q f.seq { code := Code.OK }) := by
  unfold State.waitSatisfied
  rw [h]
  simp [hflag]

theorem State.flights_dueCleared (s : State) (q p : Nat) :
    ((s.setQueue q fun u => { u with cycleDue := false }).queue p).flights = (s.queue p).flights :=
  s.queue_setQueue_keeps Queue.flights q p _ fun _ => rfl

/-- A standing WAIT_FLAG whose flag holds its value ends with OK, and only queues change. -/
theorem State.waitSatisfied_ends (s : State) (q : Nat) (f : Flight) (hq : q < s.queues.length) (h : s.waitOf q = some f)
    (hflag : s.flag (field f.cmd 8 1) = (field f.cmd 9 1 == 1)) :
    (s.waitSatisfied q).ended q f.slot Code.OK ∧ (s.waitSatisfied q).sansQueues = s.sansQueues := by
  obtain ⟨hmem, hdone⟩ := standing_of_find? h
  rw [s.waitSatisfied_holds q f h hflag]
  refine ⟨State.ended_edgesMoved (State.ended_finish _ _ f _ (by simpa using hq) ?_ hdone), by simp⟩
  rw [State.flights_dueCleared]
  exact hmem

theorem State.waitTimeout_native (s : State) (q : Nat) (f : Flight) (h : s.waitOf q = some f) (hp : s.plovQueue q = false) (u : State)
    (hu : s.passToFleet ((f.at_ + s.get (Reg.QE_Qn_BOUND_us q) * 1600) % 2 ^ 64) = u) :
    s.waitTimeout q = if u.flag (field f.cmd 8 1) = (field f.cmd 9 1 == 1) then u.waitSatisfied q
      else u.edgesMoved (u.finish q f.seq
        { code := Code.DEADLINE_MISS, arg := u.sinceFleet ((f.at_ + s.get (Reg.QE_Qn_BOUND_us q) * 1600) % 2 ^ 64) / 1600 }) := by
  subst hu
  unfold State.waitTimeout
  rw [h, hp]
  simp [usTicks]

/-- A standing WAIT_FLAG at its bound ends: with OK where its flag holds the value. -/
theorem State.waitTimeout_ends (s : State) (q : Nat) (f : Flight) (hq : q < s.queues.length) (h : s.waitOf q = some f)
    (hp : s.plovQueue q = false) (u : State) (hu : s.passToFleet ((f.at_ + s.get (Reg.QE_Qn_BOUND_us q) * 1600) % 2 ^ 64) = u) :
    (s.waitTimeout q).ended q f.slot (if s.flag (field f.cmd 8 1) = (field f.cmd 9 1 == 1) then Code.OK else Code.DEADLINE_MISS) ∧
      (s.waitTimeout q).sansQueues = u.sansQueues := by
  have hqu : ∀ p, u.queue p = s.queue p := fun p => hu ▸ s.queue_passToFleet _ p
  have hlen : u.queues = s.queues := hu ▸ s.passToFleet_queues _
  have hflag : u.flag (field f.cmd 8 1) = s.flag (field f.cmd 8 1) := State.flag_of_regs (hu ▸ s.passToFleet_regs _) _
  rw [s.waitTimeout_native q f h hp u hu, hflag]
  split_ifs with hf
  · exact u.waitSatisfied_ends q f (hlen ▸ hq) (by rw [State.waitOf, hqu]; exact h) (hflag.trans hf)
  · obtain ⟨hmem, hdone⟩ := standing_of_find? h
    exact ⟨State.ended_edgesMoved (State.ended_finish _ _ f _ (hlen ▸ hq) (by rw [hqu]; exact hmem) hdone), by simp⟩

/-! ### CYCLE_DETECTED (R181) -/

/-- The registers of a cycle that queue `q`'s wait closes over flag `fl`, with the members' mask. -/
def State.cycleShown (s : State) (fl q mask : Nat) : State :=
  ((((s.put Reg.QE_CYCLE_valid 1).put Reg.QE_CYCLE_flag fl).put Reg.QE_CYCLE_closer q).put Reg.QE_CYCLE_members mask).bump
    Reg.QE_CYCLES_count 1

theorem State.cycleShown_eq_regs (s : State) (fl q mask : Nat) :
    s.cycleShown fl q mask = { s with regs := (s.cycleShown fl q mask).regs } := by
  have hput : ∀ (t : State) (f : Fld) (v : Nat), t = { s with regs := t.regs } → t.put f v = { s with regs := (t.put f v).regs } :=
    fun t f v h => (t.put_eq_regs f v).trans (by rw [h])
  exact hput _ _ _ (hput _ _ _ (hput _ _ _ (hput _ _ _ (hput s _ _ rfl))))

@[simp] theorem State.cycleShown_queues (s : State) (fl q mask : Nat) : (s.cycleShown fl q mask).queues = s.queues := by
  rw [State.cycleShown_eq_regs]

@[simp] theorem State.cycleShown_sansQueues (s : State) (fl q mask : Nat) :
    (s.cycleShown fl q mask).sansQueues = s.sansQueues.cycleShown fl q mask := by
  rw [State.cycleShown, State.bump_sansQueues, State.put_sansQueues, State.put_sansQueues, State.put_sansQueues,
    State.put_sansQueues, State.cycleShown]

/-- What QE_CYCLE shows then. -/
theorem State.get_cycleShown (s : State) (fl q mask : Nat) :
    (s.cycleShown fl q mask).get Reg.QE_CYCLE_valid = 1 ∧ (s.cycleShown fl q mask).get Reg.QE_CYCLE_flag = fl % 64 ∧
      (s.cycleShown fl q mask).get Reg.QE_CYCLE_closer = q % 16 := by
  unfold State.cycleShown
  refine ⟨?_, ?_, ?_⟩
  · rw [State.get_bump_other _ _ _ _ (by decide),
      State.get_put_apart _ Reg.QE_CYCLE_members Reg.QE_CYCLE_valid _ (by decide) rfl (by decide),
      State.get_put_apart _ Reg.QE_CYCLE_closer Reg.QE_CYCLE_valid _ (by decide) rfl (by decide),
      State.get_put_apart _ Reg.QE_CYCLE_flag Reg.QE_CYCLE_valid _ (by decide) rfl (by decide), State.get_put_same _ _ _ (by decide)]
    rfl
  · rw [State.get_bump_other _ _ _ _ (by decide),
      State.get_put_apart _ Reg.QE_CYCLE_members Reg.QE_CYCLE_flag _ (by decide) rfl (by decide),
      State.get_put_apart _ Reg.QE_CYCLE_closer Reg.QE_CYCLE_flag _ (by decide) rfl (by decide), State.get_put_same _ _ _ (by decide)]
    rfl
  · rw [State.get_bump_other _ _ _ _ (by decide),
      State.get_put_apart _ Reg.QE_CYCLE_members Reg.QE_CYCLE_closer _ (by decide) rfl (by decide), State.get_put_same _ _ _ (by decide)]
    rfl

theorem State.cycleShown_regsBut (s : State) (fl q mask : Nat) : s.regsBut (s.cycleShown fl q mask) [Reg.QE_CYCLE, Reg.QE_CYCLES] := by
  intro o ho
  obtain ⟨hc, hn⟩ := not_or.mp (mt List.mem_pair.mpr ho)
  unfold State.cycleShown
  rw [State.rd_bump_other _ _ _ _ hn, State.rd_put_other _ _ _ _ hc, State.rd_put_other _ _ _ _ hc, State.rd_put_other _ _ _ _ hc,
    State.rd_put_other _ _ _ _ hc]

theorem State.cycleFound_closes (s : State) (q : Nat) (f : Flight) (ms : List Nat) (hdue : (s.queue q).cycleDue = true)
    (h : s.waitOf q = some f) (hwalk : (s.setQueue q fun u => { u with cycleDue := false }).walk q 16 q = some ms) :
    s.cycleFound q = ((s.setQueue q fun u => { u with cycleDue := false }).cycleShown (field f.cmd 8 1) q
      (ms.foldl (fun m p => m + 2 ^ p) 0)).finish q f.seq { code := Code.CYCLE } := by
  unfold State.cycleFound
  rw [h, hdue]
  dsimp only
  rw [hwalk]
  rfl

/-- The closing wait ends with CYCLE, and beside queues only the cycle's registers change. -/
theorem State.cycleFound_ends (s : State) (q : Nat) (f : Flight) (ms : List Nat) (hq : q < s.queues.length)
    (hdue : (s.queue q).cycleDue = true) (h : s.waitOf q = some f)
    (hwalk : (s.setQueue q fun u => { u with cycleDue := false }).walk q 16 q = some ms) :
    (s.cycleFound q).ended q f.slot Code.CYCLE ∧
      (s.cycleFound q).sansQueues = (s.cycleShown (field f.cmd 8 1) q (ms.foldl (fun m p => m + 2 ^ p) 0)).sansQueues := by
  obtain ⟨hmem, hdone⟩ := standing_of_find? h
  rw [s.cycleFound_closes q f ms hdue h hwalk]
  refine ⟨State.ended_finish _ _ f _ ?_ ?_ hdone, ?_⟩
  · rw [State.cycleShown_queues]
    simpa using hq
  · rw [State.queue_of_queues (State.cycleShown_queues _ _ _ _), State.flights_dueCleared]
    exact hmem
  · rw [State.finish_sansQueues, State.cycleShown_sansQueues, State.setQueue_sansQueues, ← State.cycleShown_sansQueues]

/-- Settles O21: at issue by the native queue's branches of `State.runWaitFlag`; a wait that stands by the rule of each event. -/
theorem flagWaitsEndOrStand : Obligations.FlagWaitsEndOrStand := by
  refine ⟨⟨fun s q slot c hlen h ho hp hflag => ?_, fun s q slot c hlen h ho hp hflag hb => ?_,
    fun s q slot c hlen h ho hp hflag hb => ?_⟩, fun s q f hlen ha h hflag => ?_, fun s q f hlen ha h hp => ?_,
    fun s q f ms hlen ha hdue h hwalk => ?_⟩
  · obtain ⟨t, ht, hrest⟩ := State.issue_ends hlen q.isLt h ho State.runWaitFlag _
      ((State.runWaitFlag_native (s.takeHead q.val slot c false) _ _ hp).trans (if_pos hflag))
    exact ⟨t, congrArg Host.Outcome.next ht, hrest⟩
  · obtain ⟨t, ht, hrest⟩ := State.issue_ends hlen q.isLt h ho State.runWaitFlag _
      ((State.runWaitFlag_native (s.takeHead q.val slot c false) _ _ hp).trans ((if_neg hflag).trans (if_pos hb)))
    exact ⟨t, congrArg Host.Outcome.next ht, hrest⟩
  · obtain ⟨t, ht, hrest⟩ := State.issue_stands hlen q.isLt h ho (by simp [isWait, ho]) State.runWaitFlag _
      ((State.runWaitFlag_native (s.takeHead q.val slot c false) _ _ hp).trans ((if_neg hflag).trans (if_neg hb))) (State.walks_sansQueues _ _)
      (State.flights_of_sansMarks (State.walks_sansMarks _ _ _))
    exact ⟨t, congrArg Host.Outcome.next ht, hrest⟩
  · obtain ⟨hend, hrest⟩ := s.waitSatisfied_ends q.val f (q.isLt.trans_eq hlen.symm) h hflag
    exact ⟨_, congrArg Host.Outcome.next (if_pos ha), hend, State.eq_of_sansQueues hrest⟩
  · obtain ⟨hend, hrest⟩ := s.waitTimeout_ends q.val f (q.isLt.trans_eq hlen.symm) h hp _ rfl
    exact ⟨_, congrArg Host.Outcome.next (if_pos ha), hend, State.eq_of_sansQueues hrest⟩
  · obtain ⟨hend, hrest⟩ := s.cycleFound_ends q.val f ms (q.isLt.trans_eq hlen.symm) hdue h hwalk
    obtain ⟨hvalid, hfl, hclose⟩ := s.get_cycleShown (field f.cmd 8 1) q.val (ms.foldl (fun m p => m + 2 ^ p) 0)
    have ht := State.eq_of_sansQueues hrest
    rw [State.cycleShown_eq_regs, ← State.regs_of_sansQueues hrest] at ht
    exact ⟨_, congrArg Host.Outcome.next (if_pos (by rw [ha, hdue]; rfl)), hend, (State.get_of_sansQueues hrest _).trans hvalid,
      (State.get_of_sansQueues hrest _).trans hfl,
      (State.get_of_sansQueues hrest _).trans (hclose.trans (Nat.mod_eq_of_lt q.isLt)),
      fun o ho => (State.rd_of_sansQueues hrest o).trans (s.cycleShown_regsBut _ _ _ o ho), ht⟩

end Sys2Proof.Machine
end

section
namespace Sys2Proof.Machine

/-! ## The ring window (R161, R162) -/

theorem State.wRing_stores (s u : State) (off v : Nat) (h : s.wRing off v = some u) :
    u = { s with rings := u.rings, ev := u.ev } ∧
      u.rings = s.rings.put (ringAddr (bits (s.rd Reg.QE_WIN_SEL) (off / 4096 % 16) 1) (off / 4096 % 16) (off / 32 % 128) + off % 32)
        (leBytes 4 v) := by
  unfold State.wRing at h
  dsimp only at h
  split_ifs at h <;>
  · cases h
    exact ⟨rfl, rfl⟩

theorem State.wRing_pending (s : State) (off v : Nat)
    (hb : bits (s.rd Reg.QE_WIN_SEL) (off / 4096 % 16) 1 = (s.queue (off / 4096 % 16)).bank)
    (h : (s.queue (off / 4096 % 16)).holdsSlot (off / 32 % 128) = true) : s.wRing off v = none := by
  unfold State.wRing
  dsimp only
  rw [if_pos hb, if_pos h]

theorem State.wRing_swapping (s : State) (off v : Nat)
    (hb : bits (s.rd Reg.QE_WIN_SEL) (off / 4096 % 16) 1 ≠ (s.queue (off / 4096 % 16)).bank)
    (h : (s.queue (off / 4096 % 16)).swap.isSome = true ∨ (s.queue (off / 4096 % 16)).hoistSwap = true ∨
      bit s.ho.placedQ (off / 4096 % 16) = true) : s.wRing off v = none := by
  unfold State.wRing
  dsimp only
  rw [if_neg hb, if_pos (by simpa [or_assoc] using h)]

theorem ringOff_lt (a : BitVec 14) : 4 * a.toNat < 0x10000 := by
  have := a.isLt
  omega

/-- A refused write of the ring window leaves the state. -/
theorem State.ringWrite_refused {s : State} {who : Who} {a : BitVec 14} {d : Word} (hready : s.ready who)
    (h : s.wRing (4 * a.toNat) d.toNat = none) : Refuses (.ringSlotWrite who a d) s who s := by
  refine refuses_of_busWrite rfl hready ?_
  rw [State.busWrite_ring _ _ _ _ (ringOff_lt a), h]
  rfl

/-! ## Tails and swaps (R163, R165) -/

theorem State.wTail_moves (s : State) (q v : Nat) (hl : (s.queue q).loop = false) (hs : (s.queue q).swap = none)
    (hh : (s.queue q).hoistSwap = false) (hv : (v % 256 + 256 - (s.queue q).head) % 256 ≤ 128) :
    s.wTail q v = (s.setQueue q fun u => { u with tail := v % 256 }, false) := by
  unfold State.wTail
  dsimp only
  rw [if_neg (by simp [hl, hs, hh]; omega)]

theorem State.wTail_refused (s : State) (q v : Nat) (h : (s.queue q).loop = true ∨ (s.queue q).swap.isSome = true ∨
    (s.queue q).hoistSwap = true ∨ 128 < (v % 256 + 256 - (s.queue q).head) % 256) :
    s.wTail q v = ((s.bump (Reg.QE_Qn_TALLY_refused q) 1).refusal Code.REFUSED_FULL Unit_.queues q 0, true) := by
  unfold State.wTail
  dsimp only
  rw [if_pos (by simpa [or_assoc] using h)]
  rfl

theorem State.wSwap_noted (s : State) (q v : Nat) (hgo : bit v 16 = true) (hs : (s.queue q).swap = none)
    (hh : (s.queue q).hoistSwap = false) (h1 : 1 ≤ v % 256) (h2 : v % 256 ≤ 128) :
    s.wSwap q v = some ((s.wr (Reg.QE_Qn_SWAP q) (v % 2 ^ 9)).setQueue q fun u => { u with swap := some (v % 256, bit v 8) }) := by
  unfold State.wSwap
  dsimp only
  rw [if_neg (by simp [hgo]), if_neg (by simp [hs, hh]; omega), if_neg (by omega)]

theorem State.wSwap_refused (s : State) (q v : Nat) (hgo : bit v 16 = true)
    (h : (s.queue q).swap.isSome = true ∨ (s.queue q).hoistSwap = true ∨ 128 < v % 256) : s.wSwap q v = none := by
  unfold State.wSwap
  dsimp only
  rw [if_neg (by simp [hgo]), if_pos h]

theorem State.queue_clearRank_other (s : State) (q p : Nat) (h : p ≠ q) : (s.clearRank q).queue p = s.queue p := by
  unfold State.clearRank
  split
  · exact s.queue_setQueue_other q p _ h
  · rfl

/-- At its boundary a requested swap exchanges the banks; a running rank may be cleared beside it. -/
theorem State.bankSwap_exchanges (s : State) (q n : Nat) (l : Bool) (hq : q < s.queues.length) (hs : (s.queue q).swap = some (n, l))
    (hb : (s.queue q).atBoundary = true) :
    (∃ hoist, ((s.bankSwap q).queue q).sansMarks = { (s.queue q).swapTo n l with hoistSwap := hoist }.sansMarks) ∧
      (s.bankSwap q).sansQueues = s.sansQueues ∧ ∀ k, k ≠ q → (s.bankSwap q).queue k = s.queue k := by
  have h : s.bankSwap q = (s.setQueue q fun u =>
      { (u.swapTo n l) with hoistSwap := s.ho.phase == 1 && bit s.ho.swapQ q }).clearRank q := by
    unfold State.bankSwap
    rw [hs]
    exact if_pos hb
  rw [h]
  refine ⟨⟨s.ho.phase == 1 && bit s.ho.swapQ q, ?_⟩, by simp, fun k hk => ?_⟩
  · rw [State.clearRank_sansMarks, State.queue_setQueue_same _ _ _ hq]
  · rw [State.queue_clearRank_other _ _ _ hk, State.queue_setQueue_other _ _ _ _ hk]

/-- Settles O25: the window and the queue's registers take a write by their rules; a doorbell refused in loop mode or with a swap
pending is log entry 201's. -/
theorem ringWritesTailsAndSwaps : Obligations.RingWritesTailsAndSwaps := by
  refine ⟨fun s who a d hready h => ?_, fun s who a d hready hb hpend => ?_, fun s who a d q hready hq hb hswap => ?_,
    fun s who q d hready hl hs hh hv => ?_, fun s who q d hready h => ?_, fun s who q d hready hgo hs hh h1 h2 => ?_,
    fun s who q d hready hgo h => ?_, fun s q n l ha hs hb hlen => ?_⟩
  · obtain ⟨u, hu⟩ := Option.isSome_iff_exists.mp h
    refine ⟨u, writes_of_busWrite rfl hready ?_, s.wRing_stores u _ _ hu⟩
    rw [State.busWrite_ring _ _ _ _ (ringOff_lt a), hu]
    rfl
  · exact State.ringWrite_refused hready (s.wRing_pending _ _ hb hpend)
  · subst hq
    exact State.ringWrite_refused hready (s.wRing_swapping _ _ hb hswap)
  · refine writes_of_busWrite rfl hready ?_
    rw [State.busWrite_QE_Qn_TAIL _ _ _ _ q.isLt, s.wTail_moves _ _ hl hs hh hv]
    rfl
  · refine refuses_of_busWrite rfl hready ?_
    rw [State.busWrite_QE_Qn_TAIL _ _ _ _ q.isLt, s.wTail_refused _ _ h]
    rfl
  · refine writes_of_busWrite rfl hready ?_
    rw [State.busWrite_QE_Qn_SWAP _ _ _ _ q.isLt, s.wSwap_noted _ _ hgo hs hh h1 h2]
    rfl
  · refine refuses_of_busWrite rfl hready ?_
    rw [State.busWrite_QE_Qn_SWAP _ _ _ _ q.isLt, s.wSwap_refused _ _ hgo h]
    rfl
  · obtain ⟨⟨hoist, hmarks⟩, hrest, hother⟩ := s.bankSwap_exchanges q.val n l (q.isLt.trans_eq hlen.symm) hs hb
    have hfield : ∀ {β : Type} (g : Queue → β), (∀ u : Queue, g u.sansMarks = g u) →
        g ((s.bankSwap q.val).queue q.val) = g { (s.queue q.val).swapTo n l with hoistSwap := hoist } :=
      fun g hg => (hg _).symm.trans ((congrArg g hmarks).trans (hg _))
    exact ⟨_, congrArg Host.Outcome.next (if_pos ha), State.eq_of_sansQueues hrest, hfield Queue.bank fun _ => rfl,
      hfield Queue.head fun _ => rfl, hfield Queue.tail fun _ => rfl, hfield Queue.loop fun _ => rfl, hfield Queue.count fun _ => rfl,
      hfield Queue.swap fun _ => rfl, hother⟩

/-! ## Predicates (R172) -/

theorem State.wPredSet_eq_regs (s : State) (v : Nat) : s.wPredSet v = { s with regs := (s.wPredSet v).regs } := rfl

theorem State.wPredClr_eq_regs (s : State) (v : Nat) : s.wPredClr v = { s with regs := (s.wPredClr v).regs } := rfl

/-- A predicate set keeps the bits that stand and adds those written 1. -/
theorem State.bit_wPredSet (s : State) (d : Word) (b : Nat) (hb : b < 32) :
    bit ((s.wPredSet d.toNat).rd Reg.QE_PRED) b = (bit (s.rd Reg.QE_PRED) b || (decide (b < 16) && d.getLsbD b)) := by
  rw [State.wPredSet, State.bit_rd_wr _ _ _ _ hb, ← bit_toNat]
  simp only [bit_eq_testBit, Nat.testBit_or, Nat.testBit_mod_two_pow]

/-- A predicate clear keeps the bits that stand and are not written 1. -/
theorem State.bit_wPredClr (s : State) (d : Word) (b : Nat) (hb : b < 16) :
    bit ((s.wPredClr d.toNat).rd Reg.QE_PRED) b = (bit (s.rd Reg.QE_PRED) b && !(d.getLsbD b)) := by
  rw [State.wPredClr, State.bit_rd_wr _ _ _ _ (by omega), ← bit_toNat]
  simp only [bit_eq_testBit, Nat.testBit_and, Nat.sub_sub, Nat.add_comm 1,
    Nat.testBit_two_pow_sub_succ (Nat.mod_lt d.toNat (Nat.two_pow_pos 16)), Nat.testBit_mod_two_pow, hb, decide_true, Bool.true_and]

/-! ## External flag writes (R179) -/

theorem State.wFlagExt_owned (s : State) (v : Nat) (on : Bool) (h : s.get (Reg.QE_FLAG_CFG_f_owner (v % 64)) = 16) :
    s.wFlagExt v on = some (s.setFlag (v % 64) on) :=
  if_pos h

theorem State.wFlagExt_refused (s : State) (v : Nat) (on : Bool) (h : s.get (Reg.QE_FLAG_CFG_f_owner (v % 64)) ≠ 16) :
    s.wFlagExt v on = none :=
  if_neg h

/-- What a flag set or cleared by its number leaves. -/
theorem State.setFlag_written (s : State) (f : Nat) (on : Bool) (hf : f < 64) :
    s.setFlag f on = { s with regs := (s.setFlag f on).regs } ∧ (s.setFlag f on).flag f = on ∧
      (∀ g < 64, g ≠ f → (s.setFlag f on).flag g = s.flag g) ∧ s.regsBut (s.setFlag f on) [Reg.QE_FLAGS_LO, Reg.QE_FLAGS_HI] := by
  refine ⟨s.setFlag_eq_regs f on, ?_, fun g hg hne => ?_, s.setFlag_regsBut f on⟩
  · rw [State.flag_setFlag _ _ _ _ hf hf, if_pos rfl]
  · rw [State.flag_setFlag _ _ _ _ hf hg, if_neg hne]

/-! ## QUEUE_RESET (R178) -/

/-- A queue's head and tail, and whether it loops. -/
def Queue.place (u : Queue) : Nat × Nat × Bool := (u.head, u.tail, u.loop)

theorem State.queues_length_of_fixed {s t : State} (h : t.fixed = s.fixed) : t.queues.length = s.queues.length := by
  simp only [State.fixed, Prod.mk.injEq] at h
  exact h.2.2.2.2.1

theorem State.place_of_queues {s t : State} (h : t.queues = s.queues) (p : Nat) : (t.queue p).place = (s.queue p).place := by
  rw [State.queue_of_queues h]

theorem State.record_queues (s : State) (cls code unit inst arg : Nat) (h : cls < 8) :
    (s.record cls code unit inst arg).queues = s.queues :=
  State.queues_of_unrecorded (s.record_unrecorded cls code unit inst arg h)

@[simp] theorem State.fault_queues (s : State) (code unit inst arg : Nat) : (s.fault code unit inst arg).queues = s.queues :=
  s.record_queues 0 code unit inst arg (by decide)

@[simp] theorem State.refusal_queues (s : State) (code unit inst arg : Nat) : (s.refusal code unit inst arg).queues = s.queues :=
  s.record_queues 1 code unit inst arg (by decide)

theorem State.ringPut_queues {s t : State} {dest ents addr wr rd : Nat} {bs : List Byte}
    (h : s.ringPut dest ents addr wr rd bs = some (some t)) : t.queues = s.queues := by
  unfold State.ringPut at h
  dsimp only at h
  split_ifs at h <;> cases h <;> rfl

@[simp] theorem State.finish_place (s : State) (q seq : Nat) (d : Done) (p : Nat) :
    ((s.finish q seq d).queue p).place = (s.queue p).place :=
  s.queue_setQueue_keeps Queue.place q p _ fun _ => rfl

@[simp] theorem State.cplWrite_place (s : State) (q : Nat) (f : Flight) (d : Done) (p : Nat) :
    ((s.cplWrite q f d).queue p).place = (s.queue p).place := by
  have hlost : ∀ (t : State) (b : Bool), ((t.setQueue q fun u => { u with lost := b }).queue p).place = (t.queue p).place :=
    fun t b => t.queue_setQueue_keeps Queue.place q p _ fun _ => rfl
  unfold State.cplWrite
  dsimp only
  split
  · rfl
  · exact (hlost _ true).trans (State.place_of_queues (State.bump_queues _ _ _) p)
  next t h =>
    exact (hlost _ false).trans (State.place_of_queues ((State.incr_queues _ _ _).trans (State.ringPut_queues h)) p)

@[simp] theorem State.haltQueue_place (s : State) (q slot bank code p : Nat) :
    ((s.haltQueue q slot bank code).queue p).place = (s.queue p).place := by
  unfold State.haltQueue
  dsimp only
  split
  · rfl
  · rw [State.place_of_queues (State.record_queues _ _ _ _ _ _ (by decide)), State.queue_wr]
    exact s.queue_setQueue_keeps Queue.place q p _ fun _ => rfl

@[simp] theorem State.cplRecordFault_queues (s : State) (q : Nat) (f : Flight) (d : Done) :
    (s.cplRecordFault q f d).queues = s.queues := by
  unfold State.cplRecordFault
  dsimp only
  generalize (if d.byWatchdog = true then Unit_.queues else opUnit (cmdOp f.cmd) d.code) = unit
  split_ifs
  · exact (State.fault_queues _ _ _ _ _).trans (s.bump_queues _ 1)
  · exact s.fault_queues _ _ _ _
  · rfl

@[simp] theorem State.writePout_queues (s : State) (c : List Byte) (code : Nat) : (s.writePout c code).queues = s.queues := by
  simp [State.writePout, apply_ite State.queues]

@[simp] theorem State.place_ite {b : Prop} [Decidable b] (s t : State) (p : Nat) :
    ((if b then s else t).queue p).place = if b then (s.queue p).place else (t.queue p).place :=
  apply_ite (fun u : State => (u.queue p).place) b s t

@[simp] theorem State.raise_place (s : State) (n p : Nat) : ((s.raise n).queue p).place = (s.queue p).place :=
  State.place_of_queues (s.raise_queues n) p

@[simp] theorem State.refusal_place (s : State) (code unit inst arg p : Nat) :
    ((s.refusal code unit inst arg).queue p).place = (s.queue p).place := State.place_of_queues (s.refusal_queues _ _ _ _) p

@[simp] theorem State.cplRecordFault_place (s : State) (q : Nat) (f : Flight) (d : Done) (p : Nat) :
    ((s.cplRecordFault q f d).queue p).place = (s.queue p).place := State.place_of_queues (s.cplRecordFault_queues q f d) p

@[simp] theorem State.notice_place (s : State) (e p : Nat) : ((s.notice e).queue p).place = (s.queue p).place :=
  State.place_of_queues (s.notice_queues e) p

@[simp] theorem State.writePout_place (s : State) (c : List Byte) (code p : Nat) :
    ((s.writePout c code).queue p).place = (s.queue p).place := State.place_of_queues (s.writePout_queues c code) p

@[simp] theorem State.bump_place (s : State) (f : Fld) (n p : Nat) : ((s.bump f n).queue p).place = (s.queue p).place := rfl

@[simp] theorem State.need_place (s : State) (p : Nat) : (s.need.queue p).place = (s.queue p).place :=
  State.place_of_queues s.need_queues p

/-- A completed command's record, sources, notice and tally leave the queues where they stand. -/
@[simp] theorem State.complete_place (s : State) (q : Nat) (f : Flight) (d : Done) (p : Nat) :
    ((s.complete q f d).queue p).place = (s.queue p).place := by
  have hlast : ∀ (t : State) (code wd : Nat), ((t.setQueue q fun u => { u with last := code, wdFrom := wd }).queue p).place =
      (t.queue p).place := fun t code wd => t.queue_setQueue_keeps Queue.place q p _ fun _ => rfl
  unfold State.complete
  simp only [State.need_place, hlast, State.place_ite, State.bump_place, State.writePout_place, State.notice_place, State.raise_place,
    State.haltQueue_place, State.cplRecordFault_place, State.refusal_place, State.cplWrite_place, ite_self]

@[simp] theorem State.completeAborted_place (s : State) (q p : Nat) : ((s.completeAborted q).queue p).place = (s.queue p).place := by
  have hfold : ∀ (l : List Flight) (t : State),
      ((l.foldl (fun t f => t.complete q f { code := Code.QE_ABORTED }) t).queue p).place = (t.queue p).place := by
    intro l
    induction l with
    | nil => exact fun t => rfl
    | cons f l ih => exact fun t => (ih _).trans (t.complete_place q f _ p)
  unfold State.completeAborted
  exact (hfold _ _).trans (s.queue_setQueue_keeps Queue.place q p _ fun _ => rfl)

theorem Queue.pend_stream (u : Queue) (h : u.loop = false) : u.pend = (u.tail + 256 - u.head) % 256 := by
  rw [Queue.pend, h]
  rfl

/-- One pending command of a stream retired without issuing moves its head on. -/
theorem State.retirePending_succ_place (s : State) (q n : Nat) (hq : q < s.queues.length) (hl : (s.queue q).loop = false)
    (hp : (s.queue q).pend ≠ 0) :
    ∃ t, State.retirePending q (n + 1) s = State.retirePending q n t ∧ t.queues.length = s.queues.length ∧
      (t.queue q).place = (((s.queue q).head + 1) % 256, (s.queue q).tail, false) := by
  refine ⟨(s.takeHead q (s.queue q).slot (s.rings.bytes (ringAddr (s.queue q).bank q (s.queue q).slot) 32) false).finish q
    (s.queue q).seq { code := Code.QE_ABORTED }, ?_, ?_, ?_⟩
  · rw [State.retirePending, State.headCmd]
    dsimp only
    rw [if_neg hp]
  · simp
  · rw [State.finish_place, State.queue_takeHead _ _ _ _ _ hq]
    simp [Queue.place, Queue.advance, hl]

/-- R178: with its pending commands retired, a stream's head stands at its tail. -/
theorem State.retirePending_place (q n : Nat) (s : State) (hq : q < s.queues.length) (hl : (s.queue q).loop = false)
    (hh : (s.queue q).head < 256) (ht : (s.queue q).tail < 256) (hn : (s.queue q).pend = n) :
    ((State.retirePending q n s).queue q).place = ((s.queue q).tail, (s.queue q).tail, false) := by
  have hpend := (s.queue q).pend_stream hl
  induction n generalizing s with
  | zero =>
    have : (s.queue q).head = (s.queue q).tail := by omega
    simp [State.retirePending, Queue.place, this, hl]
  | succ n ih =>
    obtain ⟨t, hstep, hlen, hplace⟩ := s.retirePending_succ_place q n hq hl (by omega)
    obtain ⟨hhead, htail, hloop⟩ : (t.queue q).head = ((s.queue q).head + 1) % 256 ∧ (t.queue q).tail = (s.queue q).tail ∧
        (t.queue q).loop = false := by simpa [Queue.place] using hplace
    have htp := (t.queue q).pend_stream hloop
    rw [hstep, ih t (hlen ▸ hq) hloop (by omega) (by omega) (by omega) htp, htail]

/-- A reset first ends a wait that stands in the queue. -/
def State.abortWait (s : State) (q : Nat) : State :=
  match (s.queue q).flights.find? Flight.standing with
  | some f => s.finish q f.seq { code := Code.QE_ABORTED }
  | none => s

/-- Then a loop goes back to its first slot, and a stream's pending commands are retired. -/
def State.rewound (s : State) (q : Nat) : State :=
  if (s.queue q).loop then (s.abortWait q).setQueue q fun u => { u with head := 0, passed := false }
  else { State.retirePending q (s.queue q).pend (s.abortWait q) with lastQ := (s.abortWait q).lastQ }

/-- A queue that a reset finds running goes HALTED with QE_ABORTED and its source. -/
def State.resetHalt (s : State) (q : Nat) : State :=
  if (s.queue q).halted then s else (s.haltQueue q ((s.queue q).head % 128) (s.queue q).bank Code.QE_ABORTED).raise (17 + q)

theorem State.queueReset_eq (s : State) (q : Nat) :
    s.queueReset q = s.edgesMoved (((((s.rewound q).completeAborted q).resetHalt q).setQueue q fun u =>
      { u with cycleDue := false }).put (Reg.QE_Qn_FAULT_status q) Code.QE_ABORTED) := rfl

@[simp] theorem State.abortWait_fixed (s : State) (q : Nat) : (s.abortWait q).fixed = s.fixed := by
  unfold State.abortWait
  split
  · exact s.finish_fixed q _ _
  · rfl

@[simp] theorem State.abortWait_place (s : State) (q p : Nat) : ((s.abortWait q).queue p).place = (s.queue p).place := by
  unfold State.abortWait
  split
  · exact s.finish_place q _ _ p
  · rfl

@[simp] theorem State.rewound_fixed (s : State) (q : Nat) : (s.rewound q).fixed = s.fixed := by
  unfold State.rewound
  split_ifs
  · rw [State.setQueue_fixed, State.abortWait_fixed]
  · rw [State.fixed_lastQ, State.retirePending_fixed, State.abortWait_fixed]

theorem State.rewound_loop (s : State) (q : Nat) (hq : q < s.queues.length) (h : (s.queue q).loop = true) :
    ((s.rewound q).queue q).head = 0 := by
  rw [State.rewound, if_pos h, State.queue_setQueue_same]
  rwa [State.queues_length_of_fixed (s.abortWait_fixed q)]

theorem State.rewound_stream (s : State) (q : Nat) (hq : q < s.queues.length) (h : (s.queue q).loop = false)
    (hh : (s.queue q).head < 256) (ht : (s.queue q).tail < 256) : ((s.rewound q).queue q).head = (s.queue q).tail := by
  obtain ⟨hhead, htail, hloop⟩ : ((s.abortWait q).queue q).head = (s.queue q).head ∧
      ((s.abortWait q).queue q).tail = (s.queue q).tail ∧ ((s.abortWait q).queue q).loop = (s.queue q).loop := by
    simpa [Queue.place] using s.abortWait_place q q
  have hpend : ((s.abortWait q).queue q).pend = (s.queue q).pend := by
    rw [Queue.pend_stream _ (hloop.trans h), Queue.pend_stream _ h, hhead, htail]
  have hplace := (s.abortWait q).retirePending_place q _ ((State.queues_length_of_fixed (s.abortWait_fixed q)).symm ▸ hq)
    (hloop.trans h) (hhead.trans_lt hh) (htail.trans_lt ht) hpend
  rw [State.rewound, if_neg (Bool.eq_false_iff.mp h)]
  exact (congrArg Prod.fst hplace).trans htail

@[simp] theorem State.resetHalt_place (s : State) (q p : Nat) : ((s.resetHalt q).queue p).place = (s.queue p).place := by
  simp only [State.resetHalt, State.place_ite, State.raise_place, State.haltQueue_place, ite_self]

@[simp] theorem State.resetHalt_fixed (s : State) (q : Nat) : (s.resetHalt q).fixed = s.fixed := by
  unfold State.resetHalt
  split_ifs
  · rfl
  · rw [State.raise_fixed, State.haltQueue_fixed]

theorem State.resetHalt_halted (s : State) (q : Nat) (hq : q < s.queues.length) : ((s.resetHalt q).queue q).halted = true := by
  unfold State.resetHalt
  split_ifs with h
  · exact h
  · rw [State.queue_of_queues (State.raise_queues _ _), State.haltQueue, if_neg h]
    dsimp only
    rw [State.queue_of_queues (State.record_queues _ _ _ _ _ _ (by decide)), State.queue_wr, State.queue_setQueue_same _ _ _ hq]

/-- R178: a reset queue is HALTED with the status QE_ABORTED, and its head is where its rewinding leaves it. -/
theorem State.queueReset_leaves (s : State) (q : Nat) (hq : q < s.queues.length) :
    ((s.queueReset q).queue q).halted = true ∧ (s.queueReset q).get (Reg.QE_Qn_FAULT_status q) = Code.QE_ABORTED ∧
      ((s.queueReset q).queue q).head = ((s.rewound q).queue q).head := by
  have hlen : q < ((s.rewound q).completeAborted q).queues.length := by
    rwa [State.queues_length_of_fixed ((State.completeAborted_fixed _ q).trans (s.rewound_fixed q))]
  obtain ⟨r, hr⟩ : ∃ r, ((s.rewound q).completeAborted q).resetHalt q = r := ⟨_, rfl⟩
  have hhalt := State.resetHalt_halted _ q hlen
  have hplace := (State.resetHalt_place ((s.rewound q).completeAborted q) q q).trans (State.completeAborted_place _ q q)
  rw [State.queueReset_eq, hr] at *
  have hmarks := State.edgesMoved_sansMarks s ((r.setQueue q fun u => { u with cycleDue := false }).put
    (Reg.QE_Qn_FAULT_status q) Code.QE_ABORTED) q
  rw [State.queue_put, r.queue_setQueue_keeps Queue.sansMarks q q (fun u => { u with cycleDue := false }) fun _ => rfl] at hmarks
  refine ⟨(congrArg Queue.halted hmarks).trans hhalt, ?_, (congrArg Queue.head hmarks).trans (congrArg Prod.fst hplace)⟩
  rw [State.get_of_sansQueues (State.edgesMoved_sansQueues _ _), State.get_put_same _ _ _ (by decide : 24 + 8 ≤ 32)]
  rfl

theorem State.busWrite_reset (s : State) (req q : Nat) (hq : q < 16) : s.busWrite req (Reg.QE_Qn_CTRL q) 2 = (s.queueReset q, true) := by
  rw [State.busWrite_QE_Qn_CTRL _ _ _ _ hq, State.wQctrl, if_pos (by decide)]

theorem State.busWrite_resume (s : State) (req q : Nat) (hq : q < 16) : s.busWrite req (Reg.QE_Qn_CTRL q) 1 = (s.queueResume q, true) := by
  rw [State.busWrite_QE_Qn_CTRL _ _ _ _ hq, State.wQctrl, if_neg (by decide), if_pos (by decide)]

/-- Settles O26: each register takes its write by its rule; R178's reset by what its steps leave of the queue. -/
theorem queueControlPredicatesAndFlags : Obligations.QueueControlPredicatesAndFlags := by
  refine ⟨fun s who q hready => ?_, fun s who q hready hlen => ?_, fun s who d hready => ?_, fun s who d hready => ?_,
    fun s who d hready h => ?_, fun s who d hready h => ?_, fun s who d hready h => ⟨?_, ?_⟩⟩
  · exact writes_of_busWrite rfl hready (s.busWrite_resume _ _ q.isLt)
  · have hq : q.val < s.queues.length := q.isLt.trans_eq hlen.symm
    obtain ⟨hhalted, hstatus, hhead⟩ := s.queueReset_leaves q.val hq
    exact ⟨_, writes_of_busWrite rfl hready (s.busWrite_reset _ _ q.isLt), hhalted, hstatus,
      fun hl => hhead.trans (s.rewound_loop _ hq hl), fun hl hh ht => hhead.trans (s.rewound_stream _ hq hl hh ht)⟩
  · exact ⟨_, writes_of_busWrite rfl hready (State.busWrite_QE_PRED_SET _ _ _), s.wPredSet_eq_regs _,
      fun o ho => s.rd_wr_other _ _ o (List.ne_of_not_mem_cons ho), s.bit_wPredSet d⟩
  · exact ⟨_, writes_of_busWrite rfl hready (State.busWrite_QE_PRED_CLR _ _ _), s.wPredClr_eq_regs _,
      fun o ho => s.rd_wr_other _ _ o (List.ne_of_not_mem_cons ho), s.bit_wPredClr d⟩
  · refine ⟨_, writes_of_busWrite rfl hready ?_, s.setFlag_written _ true (Nat.mod_lt _ (by decide))⟩
    rw [State.busWrite_QE_FLAG_SET, s.wFlagExt_owned _ _ h]
    rfl
  · refine ⟨_, writes_of_busWrite rfl hready ?_, s.setFlag_written _ false (Nat.mod_lt _ (by decide))⟩
    rw [State.busWrite_QE_FLAG_CLR, s.wFlagExt_owned _ _ h]
    rfl
  · refine refuses_of_busWrite rfl hready ?_
    rw [State.busWrite_QE_FLAG_SET, s.wFlagExt_refused _ _ h]
    rfl
  · refine refuses_of_busWrite rfl hready ?_
    rw [State.busWrite_QE_FLAG_CLR, s.wFlagExt_refused _ _ h]
    rfl

end Sys2Proof.Machine
end

section
namespace Sys2Proof.Machine

/-! ## SAMPLE (R233 to R236) -/

theorem mem_insertBy {α : Type} (lt : α → α → Bool) (x : α) (l : List α) : x ∈ insertBy lt x l := by
  induction l with
  | nil => exact List.mem_singleton_self x
  | cons y ys ih =>
    unfold insertBy
    split
    · exact List.mem_cons_self
    · exact List.mem_cons_of_mem _ ih

theorem State.mem_takeBank (s : State) (b : Bank) : b ∈ (s.takeBank b).cf.banks := mem_insertBy _ _ _

theorem recLen_pos (n : Nat) : 0 < recLen n := by
  unfold recLen
  omega

/-- An area that does not refuse a record has room for it. -/
theorem State.areaAdmits (s : State) (a n : Nat) (h : s.areaRefuses a n = false) :
    (s.areaStop a && decide (s.areaRoom a < n)) = false ∧ n ≤ s.areaBytes a := by
  rw [State.areaRefuses, Bool.or_eq_false_iff, decide_eq_false_iff_not, Nat.not_lt] at h
  exact h.symm

/-- A SAMPLE that its area admits latches when a bank is free, and else waits for one. -/
theorem State.runSample_admitted (s : State) (q : Nat) (f : Flight)
    (h : s.areaRefuses (field f.cmd 12 1) (recLen (8 * field f.cmd 10 2)) = false) :
    s.runSample q f = if s.bankFree then s.sampleLatch q f else s.setCf fun c => { c with waiting := c.waiting ++ [(q, f.seq)] } := by
  obtain ⟨hroom, hsize⟩ := s.areaAdmits _ _ h
  have hpos := recLen_pos (8 * field f.cmd 10 2)
  unfold State.runSample
  dsimp only
  rw [hroom, if_neg Bool.false_ne_true, if_neg (by omega), if_neg (by omega)]

theorem State.mirrorOf_fleet (s : State) : s.mirrorOf.fleet = s.fleet := by
  unfold State.mirrorOf
  split <;> rfl

theorem State.latchEnts_fst (s : State) (ks : List Nat) : (s.latchEnts ks).1.map Prod.fst = ks := by
  simp [State.latchEnts, Function.comp_def]

/-- The bank that a SAMPLE takes holds its command's range, latched now. -/
theorem State.sampleLatch_bank (s : State) (q : Nat) (f : Flight) :
    ∃ b ∈ (s.sampleLatch q f).cf.banks, b.cmd = some (q, f.seq) ∧ b.kind = 0 ∧ b.area = field f.cmd 12 1 ∧
      b.first = field f.cmd 8 2 ∧ b.count = field f.cmd 10 2 ∧ b.time = s.fleet ∧
      b.ents.map Prod.fst = (upto (field f.cmd 10 2)).map fun i => field f.cmd 8 2 + i := by
  have hents : ∀ (ks : List Nat) (reset : Bool), (if reset then (s.latchEnts ks).1.map fun e =>
      (e.1, if bit e.2 50 then e.2 - 2 ^ 50 else e.2) else (s.latchEnts ks).1).map Prod.fst = ks := by
    intro ks reset
    cases reset
    · exact s.latchEnts_fst ks
    · rw [if_pos rfl, List.map_map]
      exact s.latchEnts_fst ks
  refine ⟨_, State.mem_takeBank _ _, rfl, rfl, rfl, rfl, rfl, ?_, hents _ _⟩
  exact s.mirrorOf_fleet

/-! ## What an issue leaves of the units -/

theorem State.issue_sansQueues {s : State} {q slot o : Nat} {c : List Byte} (h : s.starts q slot c) (ho : cmdOp c = o)
    (run hold : State → Nat → Flight → State) :
    (s.issue q (some o) run hold).sansQueues = (run (s.takeHead q slot c false) q (s.newFlight q slot c false)).sansQueues := by
  rw [State.issue_starts h ho, State.clearRank_sansQueues]

theorem State.cf_of_sansQueues {s t : State} (h : t.sansQueues = s.sansQueues) : t.cf = s.cf :=
  State.kept_of_sansQueues State.cf (fun _ => rfl) h

/-! The cycle of an issue counts the fabric's fast cycles, and moves no bank, waiter, area, queue or time. -/

theorem State.issueCycle_banks (s : State) : s.issueCycle.cf.banks = s.cf.banks := by
  unfold State.issueCycle
  split_ifs <;> rfl

theorem State.issueCycle_waiting (s : State) : s.issueCycle.cf.waiting = s.cf.waiting := by
  unfold State.issueCycle
  split_ifs <;> rfl

theorem State.issueCycle_areaRefuses (s : State) (a n : Nat) : s.issueCycle.areaRefuses a n = s.areaRefuses a n := by
  unfold State.issueCycle
  split_ifs <;> rfl

theorem State.issueCycle_fleet (s : State) : s.issueCycle.fleet = s.fleet := by
  unfold State.issueCycle
  split_ifs <;> rfl

theorem State.issueCycle_queues (s : State) : s.issueCycle.queues = s.queues := by
  unfold State.issueCycle
  split_ifs <;> rfl

theorem State.issueCycle_tb (s : State) : s.issueCycle.tb = s.tb := by
  unfold State.issueCycle
  split_ifs <;> rfl

theorem State.issueCycle_strikeLead (s : State) : s.issueCycle.strikeLead = s.strikeLead := by
  unfold State.issueCycle
  split_ifs <;> rfl

theorem State.takeHead_areaRefuses (s : State) (q slot : Nat) (c : List Byte) (held : Bool) (a n : Nat) :
    (s.takeHead q slot c held).areaRefuses a n = s.areaRefuses a n := rfl

/-- A SAMPLE that starts in its issue's cycle, on a command its area admits. -/
theorem State.issue_sample {s : State} {q slot : Nat} {c : List Byte} (h : s.starts q slot c) (ho : cmdOp c = 0x01)
    (ha : s.areaRefuses (field c 12 1) (recLen (8 * field c 10 2)) = false) :
    (s.issue q (some 0x01) fun t q f => t.issueCycle.runSample q f).sansQueues =
      State.sansQueues (if s.bankFree then (s.takeHead q slot c false).issueCycle.sampleLatch q (s.newFlight q slot c false)
        else (s.takeHead q slot c false).issueCycle.setCf fun x => { x with waiting := x.waiting ++ [(q, (s.queue q).seq)] }) := by
  have hfree : (s.takeHead q slot c false).issueCycle.bankFree = s.bankFree := by
    rw [State.bankFree, State.issueCycle_banks]
    rfl
  have hadmit := (State.issueCycle_areaRefuses (s.takeHead q slot c false) _ _).trans ((s.takeHead_areaRefuses _ _ _ _ _ _).trans ha)
  rw [State.issue_sansQueues h ho, State.runSample_admitted _ q (s.newFlight q slot c false) hadmit, hfree]
  rfl

/-- SAMPLE with a free bank: the bank that it takes. -/
theorem State.issue_sample_latched {s : State} {q slot : Nat} {c : List Byte} (h : s.starts q slot c) (ho : cmdOp c = 0x01)
    (ha : s.areaRefuses (field c 12 1) (recLen (8 * field c 10 2)) = false) (hfree : s.bankFree = true) :
    ∃ t b, s.issue q (some 0x01) (fun t q f => t.issueCycle.runSample q f) = t ∧ b ∈ t.cf.banks ∧ b.cmd = some (q, (s.queue q).seq) ∧
      b.kind = 0 ∧ b.area = field c 12 1 ∧ b.first = field c 8 2 ∧ b.count = field c 10 2 ∧ b.time = s.fleet ∧
      b.ents.map Prod.fst = (upto (field c 10 2)).map fun i => field c 8 2 + i := by
  have hsans := State.issue_sample h ho ha
  rw [if_pos hfree] at hsans
  obtain ⟨b, hb, hcmd, hkind, harea, hfirst, hcount, htime, hents⟩ :=
    (s.takeHead q slot c false).issueCycle.sampleLatch_bank q (s.newFlight q slot c false)
  exact ⟨_, b, rfl, (State.cf_of_sansQueues hsans).symm ▸ hb, hcmd, hkind, harea, hfirst, hcount,
    htime.trans (State.issueCycle_fleet _), hents⟩

/-- SAMPLE without a free bank: it waits. -/
theorem State.issue_sample_waits {s : State} {q slot : Nat} {c : List Byte} (h : s.starts q slot c) (ho : cmdOp c = 0x01)
    (ha : s.areaRefuses (field c 12 1) (recLen (8 * field c 10 2)) = false) (hfree : s.bankFree = false) :
    ∃ t, s.issue q (some 0x01) (fun t q f => t.issueCycle.runSample q f) = t ∧ t.cf.banks = s.cf.banks ∧
      t.cf.waiting = s.cf.waiting ++ [(q, (s.queue q).seq)] := by
  have hsans := State.issue_sample h ho ha
  rw [hfree, if_neg Bool.false_ne_true] at hsans
  have hcf := State.cf_of_sansQueues hsans
  have hwaiting := State.issueCycle_waiting (s.takeHead q slot c false)
  exact ⟨_, rfl, (congrArg Counters.banks hcf).trans (State.issueCycle_banks _),
    (congrArg Counters.waiting hcf).trans (congrArg (· ++ [(q, (s.queue q).seq)]) hwaiting)⟩

/-! ## SNAPSHOT (R216 to R219) -/

/-- The queues and the time base, which the latches of a strike leave alone. -/
def State.queuesTime (s : State) : List Queue × TimeBase := (s.queues, s.tb)

@[simp] theorem State.queuesTime_ite {p : Prop} [Decidable p] (a b : State) :
    (if p then a else b).queuesTime = if p then a.queuesTime else b.queuesTime := apply_ite State.queuesTime p a b

@[simp] theorem State.wr_queuesTime (s : State) (off v : Nat) : (s.wr off v).queuesTime = s.queuesTime :=
  Prod.ext (s.wr_queues off v) (s.wr_tb off v)

@[simp] theorem State.put_queuesTime (s : State) (f : Fld) (v : Nat) : (s.put f v).queuesTime = s.queuesTime :=
  Prod.ext (s.put_queues f v) (s.put_tb f v)

@[simp] theorem State.bump_queuesTime (s : State) (f : Fld) (n : Nat) : (s.bump f n).queuesTime = s.queuesTime :=
  Prod.ext (s.bump_queues f n) (s.bump_tb f n)

@[simp] theorem State.wr64_queuesTime (s : State) (lo v : Nat) : (s.wr64 lo v).queuesTime = s.queuesTime :=
  Prod.ext (s.wr64_queues lo v) (s.wr64_tb lo v)

@[simp] theorem State.setTr_queuesTime (s : State) (f : TraceUnit → TraceUnit) : (s.setTr f).queuesTime = s.queuesTime :=
  Prod.ext (s.setTr_queues f) (s.setTr_tb f)

@[simp] theorem State.setCf_queuesTime (s : State) (f : Counters → Counters) : (s.setCf f).queuesTime = s.queuesTime :=
  Prod.ext (s.setCf_queues f) (s.setCf_tb f)

@[simp] theorem State.raise_queuesTime (s : State) (n : Nat) : (s.raise n).queuesTime = s.queuesTime :=
  Prod.ext (s.raise_queues n) (s.raise_tb n)

@[simp] theorem State.traceFrozen_queuesTime (s : State) : s.traceFrozen.queuesTime = s.queuesTime := by
  simp [State.traceFrozen]

@[simp] theorem State.traceTriggered_queuesTime (s : State) (r : TraceRec) (i : Nat) :
    (s.traceTriggered r i).queuesTime = s.queuesTime := by
  simp [State.traceTriggered, State.traceKeep]

@[simp] theorem State.traceWrite_queuesTime (s : State) (r : TraceRec) : (s.traceWrite r).queuesTime = s.queuesTime := by
  simp [State.traceWrite]

@[simp] theorem State.traceLoss_queuesTime (s : State) : s.traceLoss.queuesTime = s.queuesTime := by
  unfold State.traceLoss
  split
  · simp
  · rfl

@[simp] theorem State.traceStall_queuesTime (s : State) : s.traceStall.queuesTime = s.queuesTime := by
  simp [State.traceStall]

@[simp] theorem State.traceDrain_queuesTime (n : Nat) (s : State) : (State.traceDrain n s).queuesTime = s.queuesTime := by
  induction n generalizing s with
  | zero => rfl
  | succ n ih =>
    unfold State.traceDrain
    split
    · rfl
    · simp [ih]

@[simp] theorem State.traceCycle_queuesTime (s : State) : s.traceCycle.queuesTime = s.queuesTime := by
  simp [State.traceCycle]

@[simp] theorem State.markerIn_queuesTime (s : State) (r : TraceRec) : (s.markerIn r).queuesTime = s.queuesTime := by
  simp [State.markerIn, State.tracePush]

theorem foldl_queuesTime {α : Type} (g : State → α → State) (h : ∀ t x, (g t x).queuesTime = t.queuesTime) (l : List α) (s : State) :
    (l.foldl g s).queuesTime = s.queuesTime := by
  induction l generalizing s with
  | nil => rfl
  | cons a l ih => rw [List.foldl_cons, ih, h]

@[simp] theorem State.traceCatch_queuesTime (s : State) : s.traceCatch.queuesTime = s.queuesTime := by
  simp [State.traceCatch, foldl_queuesTime]

@[simp] theorem State.traceLatch_queuesTime (s : State) (word3 : Nat) : (s.traceLatch word3).queuesTime = s.queuesTime := by
  simp [State.traceLatch, State.traceMark]

@[simp] theorem State.latchEnts_queuesTime (s : State) (ks : List Nat) : (s.latchEnts ks).2.queuesTime = s.queuesTime := by
  have h : s.mirrorOf.queuesTime = s.queuesTime := by
    unfold State.mirrorOf
    split <;> rfl
  exact h

@[simp] theorem State.snapLatch_queuesTime (s : State) : s.snapLatch.queuesTime = s.queuesTime := by
  simp [State.snapLatch, State.takeBank]

/-- Every unit that a strike names latches registers and records of its own. -/
@[simp] theorem State.latchUnits_queuesTime (s : State) (units seq issuer : Nat) (fleet late : Bool) :
    (s.latchUnits units seq issuer fleet late).queuesTime = s.queuesTime := by
  simp [State.latchUnits, State.tapsLatch, State.checkerLatch, State.scoreLatch, State.halyardLatch, State.redLatch]

end Sys2Proof.Machine
end

section
namespace Sys2Proof.Machine

/-- A strike with one waiter ends that SNAPSHOT, and takes no pending strike. -/
theorem State.strikeFire_alone (s : State) (k : Strike) (late : Bool) (q seq r : Nat) (h : k.waiters = [(q, seq, r)]) :
    ∃ u : State, s.strikeFire k late = u.finish q seq (s.strikeEnd k q seq r) ∧ u.queues = s.queues ∧
      u.tb.strikeSeq = s.tb.strikeSeq ∧ u.tb.strikes = s.tb.strikes := by
  have hkeep := s.latchUnits_queuesTime k.units k.seq k.issuer k.fleet late
  have hq : (s.latchUnits k.units k.seq k.issuer k.fleet late).queues = s.queues := congrArg Prod.fst hkeep
  have ht : (s.latchUnits k.units k.seq k.issuer k.fleet late).tb = s.tb := congrArg Prod.snd hkeep
  have hseq := congrArg TimeBase.strikeSeq ht
  have hstrikes := congrArg TimeBase.strikes ht
  unfold State.strikeFire
  rw [h]
  exact ⟨_, rfl, hq, hseq, hstrikes⟩

/-- A latch in the cycle of issue is in time. -/
theorem State.strikeEnd_scope0 (s : State) (k : Strike) (q seq : Nat) (h : k.scope0 = true) :
    (s.strikeEnd k q seq Code.OK).code = Code.OK := by
  unfold State.strikeEnd
  rw [h]
  rfl

/-- A SNAPSHOT of scope 0 strikes at once, under the next number. -/
theorem State.runSnapshot_now (s : State) (q : Nat) (f : Flight) (h : field f.cmd 8 1 = 0) :
    ∃ (u : State) (d : Done), s.runSnapshot q f = u.finish q f.seq d ∧ d.code = Code.OK ∧ u.queues = s.queues ∧
      u.tb.strikeSeq = (s.tb.strikeSeq + 1) % 2 ^ 16 ∧ u.tb.strikes = s.tb.strikes := by
  unfold State.runSnapshot
  rw [h]
  rw [if_neg (fun hc => hc.1 rfl), if_neg (fun hc => absurd hc.1 (by decide)), if_pos rfl]
  obtain ⟨u, hfire, hq, hseq, hstrikes⟩ := State.strikeFire_alone
    { s with tb := { s.tb with strikeSeq := (s.tb.strikeSeq + 1) % 2 ^ 16 } }
    { at_ := field f.cmd 16 8, units := field f.cmd 12 4 &&& s.unitMask, seq := (s.tb.strikeSeq + 1) % 2 ^ 16
      issuer := s.trayId % 2 ^ 14, fleet := false, waiters := [(q, f.seq, Code.OK)], scope0 := true } false q f.seq Code.OK rfl
  exact ⟨u, _, hfire, State.strikeEnd_scope0 _ _ _ _ rfl, hq, hseq, hstrikes⟩

/-- A strike that is added stands among the pending ones with its waiters. -/
theorem State.strikeAdd_pending (s : State) (k : Strike) :
    ∃ x ∈ (s.strikeAdd k).tb.strikes, x.at_ = k.at_ ∧ ∀ w ∈ k.waiters, w ∈ x.waiters := by
  unfold State.strikeAdd
  split
  next hany =>
    obtain ⟨x, hx, hat⟩ := List.any_eq_true.mp hany
    have hat : x.at_ = k.at_ := eq_of_beq hat
    refine ⟨_, List.mem_map.mpr ⟨x, hx, if_pos hat⟩, hat, fun w hw => ?_⟩
    exact List.mem_append_right _ hw
  next => exact ⟨k, List.mem_append_right _ (List.mem_singleton_self k), rfl, fun w hw => hw⟩

/-- A SNAPSHOT of scope 1 or 2 with a place, and its lead, waits in a strike for its time. -/
theorem State.runSnapshot_later (s : State) (q : Nat) (f : Flight) (h : field f.cmd 8 1 ≠ 0) (hfull : s.strikeFull (field f.cmd 16 8) = false)
    (hlead : field f.cmd 8 1 = 2 → later 64 ((s.fleet + s.strikeLead) % 2 ^ 64) (field f.cmd 16 8) = false) :
    ∃ (v : State) (k : Strike) (r : Nat), s.runSnapshot q f = State.strikeAdd v k ∧ k.at_ = field f.cmd 16 8 ∧ (q, f.seq, r) ∈ k.waiters := by
  unfold State.runSnapshot
  dsimp only
  rw [if_neg (fun hc => Bool.false_ne_true (hfull.symm.trans hc.2)),
    if_neg (fun hc => Bool.false_ne_true ((hlead hc.1).symm.trans hc.2)), if_neg h]
  split
  · exact ⟨_, _, _, rfl, rfl, List.mem_singleton_self _⟩
  · exact ⟨_, _, _, rfl, rfl, List.mem_singleton_self _⟩

/-- The units' view of the time base and the lead is that of the state before the issue. -/
theorem State.issue_strikeFull (s : State) (q slot : Nat) (c : List Byte) (t : Nat) :
    (s.takeHead q slot c false).issueCycle.strikeFull t = s.strikeFull t := by
  unfold State.strikeFull
  rw [State.issueCycle_tb]
  rfl

/-- SNAPSHOT of scope 0: it has ended when its step is over. -/
theorem State.issue_snapshot_now {s : State} {q slot : Nat} {c : List Byte} (hlen : s.queues.length = 16) (hq : q < 16)
    (h : s.starts q slot c) (ho : cmdOp c = 0x02) (hscope : field c 8 1 = 0) :
    ∃ t, s.issue q (some 0x02) (fun t q f => t.issueCycle.runSnapshot q f) = t ∧ t.ended q slot Code.OK ∧
      t.tb.strikeSeq = (s.tb.strikeSeq + 1) % 2 ^ 16 ∧ t.tb.strikes = s.tb.strikes := by
  obtain ⟨u, d, hrun, hcode, huq, hseq, hstrikes⟩ :=
    (s.takeHead q slot c false).issueCycle.runSnapshot_now q (s.newFlight q slot c false) hscope
  rw [State.issueCycle_queues] at huq
  rw [State.issueCycle_tb] at hseq hstrikes
  have hu : u.queues.length = s.queues.length := (congrArg List.length huq).trans (s.takeHead_queues_length q slot c false)
  obtain ⟨hend, hsans⟩ := State.issue_finishes hlen hq h ho (fun t q f => t.issueCycle.runSnapshot q f) (fun s _ _ => s) u d hrun hu
    (congrArg Queue.flights (State.queue_of_queues huq q))
  have htb := State.kept_of_sansQueues State.tb (fun _ => rfl) hsans
  rw [hcode] at hend
  exact ⟨_, rfl, hend, (congrArg TimeBase.strikeSeq htb).trans hseq, (congrArg TimeBase.strikes htb).trans hstrikes⟩

/-- SNAPSHOT of scope 1 or 2: it waits in a pending strike. -/
theorem State.issue_snapshot_later {s : State} {q slot : Nat} {c : List Byte} (h : s.starts q slot c) (ho : cmdOp c = 0x02)
    (hscope : field c 8 1 ≠ 0) (hfull : s.strikeFull (field c 16 8) = false)
    (hlead : field c 8 1 = 2 → later 64 ((s.fleet + s.strikeLead) % 2 ^ 64) (field c 16 8) = false) :
    ∃ t k w, s.issue q (some 0x02) (fun t q f => t.issueCycle.runSnapshot q f) = t ∧ k ∈ t.tb.strikes ∧ k.at_ = field c 16 8 ∧
      w ∈ k.waiters ∧ w.1 = q ∧ w.2.1 = (s.queue q).seq := by
  have hlead' : field c 8 1 = 2 → later 64 (((s.takeHead q slot c false).issueCycle.fleet +
      (s.takeHead q slot c false).issueCycle.strikeLead) % 2 ^ 64) (field c 16 8) = false := by
    rw [State.issueCycle_fleet, State.issueCycle_strikeLead]
    exact hlead
  obtain ⟨v, k, r, hrun, hat, hw⟩ := (s.takeHead q slot c false).issueCycle.runSnapshot_later q (s.newFlight q slot c false) hscope
    ((s.issue_strikeFull q slot c _).trans hfull) hlead'
  obtain ⟨x, hx, hxat, hxw⟩ := v.strikeAdd_pending k
  have hsans := State.issue_sansQueues h ho (fun t q f => t.issueCycle.runSnapshot q f) (fun s _ _ => s)
  have htb := State.kept_of_sansQueues State.tb (fun _ => rfl) (hsans.trans (congrArg State.sansQueues hrun))
  exact ⟨_, x, _, rfl, by rw [htb]; exact hx, hxat.trans hat, hxw _ hw, rfl, rfl⟩

end Sys2Proof.Machine
end

section
namespace Sys2Proof.Machine

/-! ## SCORE (R336, R354, R355) -/

theorem State.takeHead_badScore (s : State) (q slot : Nat) (c : List Byte) (held : Bool) :
    (s.takeHead q slot c held).badScore c = s.badScore c := rfl

theorem State.takeHead_get (s : State) (q slot : Nat) (c : List Byte) (held : Bool) (f : Fld) :
    (s.takeHead q slot c held).get f = s.get f := rfl

/-- A SCORE of a model with trees, on operands it may have and with time, goes into service. -/
theorem State.runScore_served (s : State) (q : Nat) (f : Flight) (htrees : s.get (Reg.SC_MD_CFG_m_ntrees (field f.cmd 8 1)) ≠ 0)
    (hbad : s.badScore f.cmd = false) (hbound : s.get Reg.SC_BOUND_us ≠ 0) :
    s.runScore q f = { s with sc := { s.sc with jobs := s.sc.jobs ++ [newScore q f] } } := by
  unfold State.runScore
  dsimp only
  rw [if_neg (fun hc => htrees (eq_of_beq hc)), hbad, if_neg Bool.false_ne_true, if_neg hbound]

/-- A SCORE of a model without trees ends at once, whatever its operands. -/
theorem State.runScore_treeless (s : State) (q : Nat) (f : Flight) (htrees : s.get (Reg.SC_MD_CFG_m_ntrees (field f.cmd 8 1)) = 0) :
    ∃ u : State, s.runScore q f = u.finish q f.seq { code := 0x60 } ∧ u.queues = s.queues := by
  unfold State.runScore
  dsimp only
  rw [if_pos (beq_iff_eq.mpr htrees)]
  refine ⟨_, rfl, ?_⟩
  split
  · exact s.fault_queues _ _ _ _
  · rfl

theorem State.issue_score_served {s : State} {q slot : Nat} {c : List Byte} (h : s.starts q slot c) (ho : cmdOp c = 0x03)
    (htrees : s.get (Reg.SC_MD_CFG_m_ntrees (field c 8 1)) ≠ 0) (hbad : s.badScore c = false) (hbound : s.get Reg.SC_BOUND_us ≠ 0) :
    (s.issue q (some 0x03) State.runScore State.heldScore).sc.jobs = s.sc.jobs ++ [newScore q (s.newFlight q slot c false)] := by
  have hrun := (s.takeHead q slot c false).runScore_served q (s.newFlight q slot c false)
    (((s.takeHead_get q slot c false _).trans_ne htrees)) ((s.takeHead_badScore q slot c false).trans hbad)
    ((s.takeHead_get q slot c false _).trans_ne hbound)
  have hsans := (State.issue_sansQueues h ho State.runScore State.heldScore).trans (congrArg State.sansQueues hrun)
  exact congrArg Scoring.jobs (State.kept_of_sansQueues State.sc (fun _ => rfl) hsans)

theorem State.issue_score_treeless {s : State} {q slot : Nat} {c : List Byte} (hlen : s.queues.length = 16) (hq : q < 16)
    (h : s.starts q slot c) (ho : cmdOp c = 0x03) (htrees : s.get (Reg.SC_MD_CFG_m_ntrees (field c 8 1)) = 0) :
    (s.issue q (some 0x03) State.runScore State.heldScore).ended q slot 0x60 := by
  obtain ⟨u, hrun, huq⟩ := (s.takeHead q slot c false).runScore_treeless q (s.newFlight q slot c false)
    ((s.takeHead_get q slot c false _).trans htrees)
  have hu : u.queues.length = s.queues.length := (congrArg List.length huq).trans (s.takeHead_queues_length q slot c false)
  exact (State.issue_finishes hlen hq h ho State.runScore State.heldScore u _ hrun hu
    (congrArg Queue.flights (State.queue_of_queues huq q))).1

end Sys2Proof.Machine
end

section
namespace Sys2Proof.Machine

/-! ## CHECK (R312, R314) -/

theorem State.xlane_setXlane_same (s : State) (l : Nat) (f : CheckLane → CheckLane) (h : l < s.xc.lanes.length) :
    (s.setXlane l f).xlane l = f (s.xlane l) := modAt_get_same _ _ _ _ h

theorem State.xlane_setXlane_other (s : State) (l m : Nat) (f : CheckLane → CheckLane) (h : m ≠ l) :
    (s.setXlane l f).xlane m = s.xlane m := modAt_get_other _ _ _ _ _ (Ne.symm h)

theorem State.setXlane_lanes_length (s : State) (l : Nat) (f : CheckLane → CheckLane) :
    (s.setXlane l f).xc.lanes.length = s.xc.lanes.length := modAt_length _ _ _

/-- One lane's turn in the checker's pump. -/
def State.pumpLane (s : State) (l : Nat) : State :=
  if s.laneFree l && (s.xlane l).tile.isNone && !(s.laneOwed l) then State.nextTile l ((s.xlane l).jobs.length * 2 + 3) s else s

/-- Without arbitrations the pump gives lane 0 and then lane 1 its turn. -/
theorem State.checkerPump_lanes (s : State) (harb : s.xc.arb = none) (hq : s.xc.arbQ = []) :
    s.checkerPump = (s.pumpLane 0).pumpLane 1 := by
  unfold State.checkerPump
  rw [harb, hq]
  dsimp only
  rw [harb]
  rfl

/-- A lane without CHECKs idles. -/
theorem State.pumpLane_idle (s : State) (l : Nat) (h : s.xlane l = {}) : s.pumpLane l = s := by
  unfold State.pumpLane
  rw [h]
  split
  · unfold State.nextTile
    rw [h]
  · rfl

/-- A lane with a tile under way keeps it. -/
theorem State.pumpLane_busy (s : State) (l : Nat) (h : (s.xlane l).tile.isSome = true) : s.pumpLane l = s := by
  unfold State.pumpLane
  rw [if_neg]
  cases htile : (s.xlane l).tile with
  | none => rw [htile] at h; exact absurd h Bool.false_ne_true
  | some d => simp

/-- A lane that only an arbitration could hold is free without one. -/
theorem State.laneFree_of_idle (s : State) (l : Nat) (hread : (s.xlane l).read = none) (harb : s.xc.arb = none) :
    s.laneFree l = true ∧ s.laneOwed l = false := by
  unfold State.laneFree State.laneOwed
  rw [hread, harb]
  exact ⟨rfl, rfl⟩

/-- The lane shows the reading that starts on it, beside what it had. -/
theorem State.xlane_readDesc (s : State) (l addr : Nat) (again : Bool) (hl : l < s.xc.lanes.length) :
    (s.readDesc l addr again).xlane l = { s.xlane l with read := some { again := again, startAt := s.cyc, lastAt := s.cyc } } :=
  State.xlane_setXlane_same s l _ hl

theorem State.xlane_readDesc_other (s : State) (l m addr : Nat) (again : Bool) (h : m ≠ l) :
    (s.readDesc l addr again).xlane m = s.xlane m :=
  State.xlane_setXlane_other s l m _ h

/-- A lane between CHECKs takes the first that waits. -/
theorem State.nextTile_takes (s : State) (l n : Nat) (j : CheckJob) (js : List CheckJob) (hjob : (s.xlane l).job = none)
    (hjobs : (s.xlane l).jobs = j :: js) :
    State.nextTile l (n + 1) s = State.nextTile l n (s.setXlane l fun x => { x with job := some j, jobs := js }) := by
  rw [State.nextTile, hjob]
  dsimp only
  rw [hjobs]

/-- A lane with a CHECK that has a tile to run reads its descriptor. -/
theorem State.nextTile_begins (s : State) (l n : Nat) (j : CheckJob) (hjob : (s.xlane l).job = some j) (hover : s.checkOver j = false)
    (hidx : j.idx < j.count) :
    State.nextTile l (n + 1) s = (s.setXlane l fun x => { x with tile := some (j.idx, []), job := some { j with idx := j.idx + 1 } }).readDesc l
      (j.desc + 64 * j.idx) false := by
  have hgo : (s.checkOver j || decide (j.count ≤ j.idx)) = false := by
    rw [hover, Bool.false_or, decide_eq_false_iff_not]
    omega
  unfold State.nextTile
  dsimp only
  rw [hjob]
  dsimp only
  rw [hgo, if_neg Bool.false_ne_true]

/-- An idle lane on which a CHECK of a tile or more comes to wait begins its first tile, and the other lane stays. -/
theorem State.pumpLane_begins (s : State) (l : Nat) (j : CheckJob) (hl : l < s.xc.lanes.length) (hlane : s.xlane l = { jobs := [j] })
    (harb : s.xc.arb = none) (hover : s.checkOver j = false) (hidx : j.idx < j.count) :
    ((s.pumpLane l).xlane l).job = some { j with idx := j.idx + 1 } ∧ ((s.pumpLane l).xlane l).tile = some (j.idx, []) ∧
      ∀ m, m ≠ l → (s.pumpLane l).xlane m = s.xlane m := by
  obtain ⟨hfree, howed⟩ := s.laneFree_of_idle l (by rw [hlane]) harb
  have hpump : s.pumpLane l = State.nextTile l 5 s := by
    unfold State.pumpLane
    rw [hfree, howed, hlane]
    rfl
  rw [hpump, s.nextTile_takes l 4 j [] (by rw [hlane]) (by rw [hlane])]
  have htaken : ((s.setXlane l fun x => { x with job := some j, jobs := [] }).xlane l).job = some j := by
    rw [State.xlane_setXlane_same _ _ _ hl]
  rw [State.nextTile_begins _ l 3 j htaken hover hidx]
  refine ⟨?_, ?_, fun m hm => ?_⟩
  · rw [State.xlane_readDesc _ _ _ _ (by simpa only [State.setXlane_lanes_length] using hl),
      State.xlane_setXlane_same _ _ _ (by simpa only [State.setXlane_lanes_length] using hl)]
  · rw [State.xlane_readDesc _ _ _ _ (by simpa only [State.setXlane_lanes_length] using hl),
      State.xlane_setXlane_same _ _ _ (by simpa only [State.setXlane_lanes_length] using hl)]
  · rw [State.xlane_readDesc_other _ _ _ _ _ hm, State.xlane_setXlane_other _ _ _ _ hm, State.xlane_setXlane_other _ _ _ _ hm]

/-- Of two idle lanes the one with a new CHECK begins it. -/
theorem State.checkerPump_begins (s : State) (l : Nat) (j : CheckJob) (hl : l < 2) (hlen : s.xc.lanes.length = 2)
    (hlane : s.xlane l = { jobs := [j] }) (hother : s.xlane (1 - l) = {}) (harb : s.xc.arb = none) (hq : s.xc.arbQ = [])
    (hover : s.checkOver j = false) (hidx : j.idx < j.count) :
    (s.checkerPump.xlane l).job = some { j with idx := j.idx + 1 } ∧ (s.checkerPump.xlane l).tile = some (j.idx, []) := by
  obtain ⟨hjob, htile, hrest⟩ := s.pumpLane_begins l j (hlen ▸ hl) hlane harb hover hidx
  have hpump : s.checkerPump = s.pumpLane l := by
    rw [s.checkerPump_lanes harb hq]
    obtain rfl | rfl : l = 0 ∨ l = 1 := by omega
    · exact State.pumpLane_idle _ 1 ((hrest 1 (by decide)).trans hother)
    · rw [State.pumpLane_idle s 0 hother]
  rw [hpump]
  exact ⟨hjob, htile⟩

/-- Two lanes with tiles under way keep to them. -/
theorem State.checkerPump_busy (s : State) (harb : s.xc.arb = none) (hq : s.xc.arbQ = []) (h0 : (s.xlane 0).tile.isSome = true)
    (h1 : (s.xlane 1).tile.isSome = true) : s.checkerPump = s := by
  rw [s.checkerPump_lanes harb hq, s.pumpLane_busy 0 h0, s.pumpLane_busy 1 h1]

/-- A CHECK that comes to wait leaves the tiles under way. -/
theorem State.tile_setXlane_jobs (s : State) (l m : Nat) (js : List CheckJob) :
    ((s.setXlane l fun x => { x with jobs := x.jobs ++ js }).xlane m).tile = (s.xlane m).tile := by
  by_cases hml : m = l
  · subst hml
    by_cases hlen : m < s.xc.lanes.length
    · rw [State.xlane_setXlane_same _ _ _ hlen]
    · rw [State.setXlane, modAt_beyond _ _ _ (Nat.le_of_not_lt hlen)]
  · rw [State.xlane_setXlane_other _ _ _ _ hml]

/-- A CHECK on a host model, with time: it comes to wait on its lane, and the lanes go on. -/
theorem State.runCheck_pumps (s : State) (q : Nat) (f : Flight) (hm : field f.cmd 16 1 ≤ 15)
    (hfmt : s.get (Reg.XC_HM_IN_n_a_fmt (field f.cmd 16 1)) ≠ 0) (hbound : s.get Reg.XC_BOUND_ms ≠ 0) :
    s.runCheck q f = (s.setXlane (field f.cmd 17 1 % 2) fun x => { x with jobs := x.jobs ++ [s.newCheck q f] }).checkerPump := by
  unfold State.runCheck
  dsimp only
  rw [if_neg (Nat.not_lt.mpr hm), if_neg hfmt, if_neg hbound]

/-- With tiles under way on both lanes, it waits. -/
theorem State.runCheck_busy (s : State) (q : Nat) (f : Flight) (hm : field f.cmd 16 1 ≤ 15)
    (hfmt : s.get (Reg.XC_HM_IN_n_a_fmt (field f.cmd 16 1)) ≠ 0) (hbound : s.get Reg.XC_BOUND_ms ≠ 0)
    (h0 : (s.xlane 0).tile.isSome = true) (h1 : (s.xlane 1).tile.isSome = true) (harb : s.xc.arb = none) (hq : s.xc.arbQ = []) :
    s.runCheck q f = s.setXlane (field f.cmd 17 1 % 2) fun x => { x with jobs := x.jobs ++ [s.newCheck q f] } := by
  rw [s.runCheck_pumps q f hm hfmt hbound]
  exact State.checkerPump_busy _ harb hq ((s.tile_setXlane_jobs _ 0 _).symm ▸ h0) ((s.tile_setXlane_jobs _ 1 _).symm ▸ h1)

/-- A command just taken into flight, with a sequence number no other has there, has not completed. -/
theorem State.checkOver_takeHead (s : State) (q slot : Nat) (c : List Byte) (j : CheckJob) (hq : q < s.queues.length)
    (hnew : ∀ f ∈ (s.queue q).flights, f.seq ≠ (s.queue q).seq) (hjq : j.q = q) (hjs : j.seq = (s.queue q).seq) (hend : j.ended = false) :
    (s.takeHead q slot c false).checkOver j = false := by
  have hfind : (s.takeHead q slot c false).flight? j.q j.seq = some (s.newFlight q slot c false) := by
    rw [State.flight?, hjq, hjs, State.queue_takeHead _ _ _ _ _ hq, List.find?_append,
      List.find?_eq_none.mpr fun f hf => by simpa using hnew f hf]
    simp [State.newFlight]
  unfold State.checkOver
  rw [hfind, hend]
  rfl

/-- CHECK on a free lane: it begins with its first descriptor. -/
theorem State.issue_check_free {s : State} {q slot : Nat} {c : List Byte} (hq : q < s.queues.length) (h : s.starts q slot c)
    (ho : cmdOp c = 0x04) (hm : field c 16 1 ≤ 15) (hfmt : s.get (Reg.XC_HM_IN_n_a_fmt (field c 16 1)) ≠ 0)
    (hbound : s.get Reg.XC_BOUND_ms ≠ 0) (hcount : field c 18 2 ≠ 0) (hlanes : s.xc.lanes = [{}, {}]) (harb : s.xc.arb = none)
    (harbQ : s.xc.arbQ = []) (hnew : ∀ f ∈ (s.queue q).flights, f.seq ≠ (s.queue q).seq) :
    ∃ t j, s.issue q (some 0x04) State.runCheck State.heldCheck = t ∧ (t.xlane (field c 17 1 % 2)).job = some j ∧ j.q = q ∧
      j.seq = (s.queue q).seq ∧ j.desc = field c 8 8 ∧ j.count = field c 18 2 ∧ j.step = field c 20 4 ∧ j.idx = 1 ∧
      (t.xlane (field c 17 1 % 2)).tile = some (0, []) := by
  have hl : field c 17 1 % 2 < 2 := Nat.mod_lt _ (by decide)
  have hlen : (s.takeHead q slot c false).xc.lanes.length = 2 := congrArg List.length hlanes
  have hempty : ∀ l, l < 2 → (s.takeHead q slot c false).xlane l = {} := by
    intro l hl
    have hlane : s.xlane l = {} := by
      rw [State.xlane, hlanes]
      obtain rfl | rfl : l = 0 ∨ l = 1 := by omega
      · rfl
      · rfl
    exact hlane
  have hrun := (s.takeHead q slot c false).runCheck_pumps q (s.newFlight q slot c false) hm
    ((s.takeHead_get q slot c false _).trans_ne hfmt) ((s.takeHead_get q slot c false _).trans_ne hbound)
  have hxc := State.kept_of_sansQueues State.xc (fun _ => rfl)
    ((State.issue_sansQueues h ho State.runCheck State.heldCheck).trans (congrArg State.sansQueues hrun))
  have hlane := State.xlane_setXlane_same (s.takeHead q slot c false) (field c 17 1 % 2)
    (fun x => { x with jobs := x.jobs ++ [(s.takeHead q slot c false).newCheck q (s.newFlight q slot c false)] }) (hlen.symm ▸ hl)
  rw [hempty _ hl] at hlane
  obtain ⟨hjob, htile⟩ := State.checkerPump_begins _ _ _ hl ((State.setXlane_lanes_length _ _ _).trans hlen) hlane
    ((State.xlane_setXlane_other _ _ _ _ (by omega)).trans (hempty _ (by omega))) harb harbQ
    (s.checkOver_takeHead q slot c _ hq hnew rfl rfl rfl) (Nat.pos_of_ne_zero hcount)
  exact ⟨_, _, rfl, (congrArg (fun x => (x.lanes.getD (field c 17 1 % 2) {}).job) hxc).trans hjob, rfl, rfl, rfl, rfl, rfl, rfl,
    (congrArg (fun x => (x.lanes.getD (field c 17 1 % 2) {}).tile) hxc).trans htile⟩

/-- CHECK on busy lanes: it stands last on its own. -/
theorem State.issue_check_busy {s : State} {q slot : Nat} {c : List Byte} (h : s.starts q slot c)
    (ho : cmdOp c = 0x04) (hm : field c 16 1 ≤ 15) (hfmt : s.get (Reg.XC_HM_IN_n_a_fmt (field c 16 1)) ≠ 0)
    (hbound : s.get Reg.XC_BOUND_ms ≠ 0) (hlen : s.xc.lanes.length = 2) (h0 : (s.xlane 0).tile.isSome = true)
    (h1 : (s.xlane 1).tile.isSome = true) (harb : s.xc.arb = none) (harbQ : s.xc.arbQ = []) :
    ∃ t j, s.issue q (some 0x04) State.runCheck State.heldCheck = t ∧
      (t.xlane (field c 17 1 % 2)).jobs = (s.xlane (field c 17 1 % 2)).jobs ++ [j] ∧ j.q = q ∧ j.seq = (s.queue q).seq := by
  have hl : field c 17 1 % 2 < 2 := Nat.mod_lt _ (by decide)
  have hrun := (s.takeHead q slot c false).runCheck_busy q (s.newFlight q slot c false) hm
    ((s.takeHead_get q slot c false _).trans_ne hfmt) ((s.takeHead_get q slot c false _).trans_ne hbound) h0 h1 harb harbQ
  have hxc := State.kept_of_sansQueues State.xc (fun _ => rfl)
    ((State.issue_sansQueues h ho State.runCheck State.heldCheck).trans (congrArg State.sansQueues hrun))
  have hlane := State.xlane_setXlane_same (s.takeHead q slot c false) (field c 17 1 % 2)
    (fun x => { x with jobs := x.jobs ++ [(s.takeHead q slot c false).newCheck q (s.newFlight q slot c false)] }) (hlen.symm ▸ hl)
  exact ⟨_, _, rfl, (congrArg (fun x => (x.lanes.getD (field c 17 1 % 2) {}).jobs) hxc).trans (congrArg CheckLane.jobs hlane), rfl, rfl⟩

end Sys2Proof.Machine
end

section
namespace Sys2Proof.Machine

/-! ## DUMP (R465 to R469) -/

/-- What a dump is of: its command, its kind, its engine and its number. -/
def DumpJob.tag (j : DumpJob) : Option (Nat × Nat) × Nat × Option Nat × Nat := (j.q, j.kind, j.engine, j.dumpid)

/-- The dumps in service and waiting. -/
def State.dumpTags (s : State) : List (Option (Nat × Nat) × Nat × Option Nat × Nat) := s.dc.jobs.map DumpJob.tag

theorem State.setDump_dumpTags (s : State) (k : Nat) (f : DumpJob → DumpJob) (hf : ∀ j, (f j).tag = j.tag) :
    (s.setDump k f).dumpTags = s.dumpTags := by
  unfold State.dumpTags State.setDump State.setDc
  rw [List.map_map]
  refine List.map_congr_left fun j _ => ?_
  rw [Function.comp_apply, apply_ite DumpJob.tag, hf, ite_self]

/-- No dump changes its command, kind, engine or number when it is cut off, or reads its next block. -/
theorem State.dumpCut_dumpTags (s : State) (k : Nat) : (s.dumpCut k).dumpTags = s.dumpTags :=
  s.setDump_dumpTags k _ fun _ => rfl

theorem State.dumpRead_dumpTags (s : State) (k : Nat) : (s.dumpRead k).dumpTags = s.dumpTags := by
  unfold State.dumpRead
  split
  · rfl
  · split
    · split
      · exact s.setDump_dumpTags k _ fun _ => rfl
      · rfl
    · rfl

/-- A DUMP of a tensor or a region takes its engine and the next number. -/
theorem State.dumpStart_dumpTags (s : State) (k : Nat) (j : DumpJob) (hkind : j.kind ≠ 2) :
    (s.dumpStart k j).dumpTags = s.dc.jobs.map fun x => if j.waits x then (j.q, j.kind, some k, s.dc.nextId) else x.tag := by
  have hmap : ∀ j' : DumpJob, j'.tag = (j.q, j.kind, some k, s.dc.nextId) →
      (s.dc.jobs.map fun x => if j.waits x then j' else x).map DumpJob.tag =
        s.dc.jobs.map fun x => if j.waits x then (j.q, j.kind, some k, s.dc.nextId) else x.tag := by
    intro j' hj'
    rw [List.map_map]
    refine List.map_congr_left fun x _ => ?_
    rw [Function.comp_apply, apply_ite DumpJob.tag, hj']
  unfold State.dumpStart
  dsimp only
  rw [if_neg hkind, if_neg hkind]
  split
  · rw [State.dumpCut_dumpTags]
    exact hmap _ rfl
  · rw [State.dumpRead_dumpTags]
    exact hmap _ rfl

/-- With every dump on an engine there is none to start. -/
theorem State.dumpPump_served (n : Nat) (s : State) (h : ∀ j ∈ s.dc.jobs, j.engine ≠ none) : State.dumpPump n s = s := by
  cases n with
  | zero => rfl
  | succ n =>
    have hfind : s.dc.jobs.find? (fun j => j.engine.isNone) = none :=
      List.find?_eq_none.mpr fun j hj hnone => h j hj (Option.isNone_iff_eq_none.mp hnone)
    unfold State.dumpPump
    rw [hfind]
    exact ite_self s

/-- With every engine taken no dump starts. -/
theorem State.dumpPump_full (n : Nat) (s : State) (h : (upto s.engines).find? s.engineIdle = none) : State.dumpPump n s = s := by
  cases n with
  | zero => rfl
  | succ n =>
    unfold State.dumpPump
    rw [h]
    split
    · rfl
    · split
      next hnone => exact absurd hnone (by simp)
      next => rfl

/-- One new dump among dumps in service: it is served by the first idle engine. -/
theorem State.dumpPump_serves (n : Nat) (s : State) (old : List DumpJob) (j : DumpJob) (k : Nat) (hjobs : s.dc.jobs = old ++ [j])
    (hold : ∀ x ∈ old, x.engine ≠ none) (hj : j.engine = none) (hkind : j.kind ≠ 2) (hdrain : s.drainHas 0x11 = false)
    (hk : (upto s.engines).find? s.engineIdle = some k) :
    ∃ x ∈ (State.dumpPump (n + 1) s).dc.jobs, x.tag = (j.q, j.kind, some k, s.dc.nextId) := by
  have hfind : s.dc.jobs.find? (fun x => x.engine.isNone) = some j := by
    rw [hjobs, List.find?_append, List.find?_eq_none.mpr fun x hx hnone => hold x hx (Option.isNone_iff_eq_none.mp hnone)]
    simp [hj]
  have htags : (s.dumpStart k j).dumpTags = old.map DumpJob.tag ++ [(j.q, j.kind, some k, s.dc.nextId)] := by
    rw [s.dumpStart_dumpTags k j hkind, hjobs, List.map_append]
    refine congrArg₂ _ (List.map_congr_left fun x hx => ?_) ?_
    · rw [DumpJob.waits, Option.isNone_eq_false_iff.mpr (Option.isSome_iff_ne_none.mpr (hold x hx))]
      rfl
    · simp [DumpJob.waits, hj]
  have hserved : ∀ x ∈ (s.dumpStart k j).dc.jobs, x.engine ≠ none := by
    intro x hx
    have hmem : x.tag ∈ old.map DumpJob.tag ++ [(j.q, j.kind, some k, s.dc.nextId)] := htags ▸ List.mem_map_of_mem hx
    obtain hmem | hmem := List.mem_append.mp hmem
    · obtain ⟨y, hy, htag⟩ := List.mem_map.mp hmem
      exact fun hnone => hold y hy ((congrArg (fun t => t.2.2.1) htag).trans hnone)
    · have htag := List.mem_singleton.mp hmem
      exact fun hnone => absurd ((congrArg (fun t => t.2.2.1) htag).symm.trans hnone) (Option.some_ne_none k)
  have hpump : State.dumpPump (n + 1) s = s.dumpStart k j := by
    unfold State.dumpPump
    rw [hdrain, if_neg Bool.false_ne_true, hfind, hk]
    exact State.dumpPump_served n _ hserved
  rw [hpump]
  have hlast : (j.q, j.kind, some k, s.dc.nextId) ∈ (s.dumpStart k j).dumpTags := by
    rw [htags]
    exact List.mem_append_right _ (List.mem_singleton_self _)
  exact List.mem_map.mp hlast

/-- A dump that waits takes no engine. -/
theorem State.engineIdle_waiting (s : State) (j : DumpJob) (hj : j.engine = none) :
    (s.setDc fun d => { d with jobs := d.jobs ++ [j] }).engineIdle = s.engineIdle := by
  funext k
  unfold State.engineIdle State.setDc
  dsimp only
  rw [List.any_append]
  simp [hj, State.coder]

/-- The operands that a DUMP of each kind may have: a name that the list holds with blocks to read (R465), a region of host
memory (R466), or hang-list entries (R467). -/
def State.dumpOperands (s : State) (c : List Byte) : Prop :=
  (field c 24 1 = 0 ∧ ∃ e, s.dumpEntry (field c 8 8) = some e ∧ s.get (Reg.DC_DL_CFG_e_layout e) ≠ 3) ∨
    (field c 24 1 = 1 ∧ field c 8 8 % 64 = 0 ∧ field c 8 8 + 4096 * field c 20 4 ≤ 2 ^ 52) ∨ (field c 24 1 = 2 ∧ field c 20 4 ≤ 32)

/-- A DUMP on such operands stands last among the dumps, and the idle engines go on. -/
theorem State.runDump_pumps (s : State) (q : Nat) (f : Flight) (h : s.dumpOperands f.cmd) :
    ∃ j : DumpJob, s.runDump q f = State.dumpPump 8 (s.setDc fun d => { d with jobs := d.jobs ++ [j] }) ∧
      j.q = some (q, f.seq) ∧ j.kind = field f.cmd 24 1 ∧ j.engine = none := by
  unfold State.runDump
  dsimp only
  obtain ⟨hkind, e, hentry, hlayout⟩ | ⟨hkind, halign, hend⟩ | ⟨hkind, hblocks⟩ := h
  · rw [if_pos hkind, hentry]
    dsimp only
    rw [if_neg hlayout]
    exact ⟨_, rfl, rfl, rfl, rfl⟩
  · rw [if_neg (by omega), if_pos hkind, if_neg (by omega)]
    exact ⟨_, rfl, rfl, rfl, rfl⟩
  · rw [if_neg (by omega), if_neg (by omega), if_pos ⟨hkind, hblocks⟩]
    exact ⟨_, rfl, rfl, rfl, rfl⟩

theorem State.takeHead_dumpOperands {s : State} {c : List Byte} (q slot : Nat) (h : s.dumpOperands c) :
    (s.takeHead q slot c false).dumpOperands c := h

/-- DUMP of a tensor or region with an idle engine: it is served. -/
theorem State.issue_dump_served {s : State} {q slot : Nat} {c : List Byte} (h : s.starts q slot c) (ho : cmdOp c = 0x05)
    (hop : s.dumpOperands c) (hkind : field c 24 1 ≠ 2) (hold : ∀ j ∈ s.dc.jobs, j.engine ≠ none) (hdrain : s.drainHas 0x11 = false)
    (hidle : ((upto s.engines).find? s.engineIdle).isSome = true) :
    ∃ t j, s.issue q (some 0x05) State.runDump = t ∧ j ∈ t.dc.jobs ∧ j.q = some (q, (s.queue q).seq) ∧ j.kind = field c 24 1 ∧
      j.engine = (upto s.engines).find? s.engineIdle ∧ j.dumpid = s.dc.nextId := by
  obtain ⟨k, hk⟩ := Option.isSome_iff_exists.mp hidle
  obtain ⟨j, hrun, hjq, hjkind, hjengine⟩ := (s.takeHead q slot c false).runDump_pumps q (s.newFlight q slot c false)
    (State.takeHead_dumpOperands q slot hop)
  have hk' : (upto s.engines).find? ((s.takeHead q slot c false).setDc fun d => { d with jobs := d.jobs ++ [j] }).engineIdle = some k := by
    rw [State.engineIdle_waiting _ j hjengine]
    exact hk
  obtain ⟨x, hx, htag⟩ := State.dumpPump_serves 7 ((s.takeHead q slot c false).setDc fun d => { d with jobs := d.jobs ++ [j] })
    s.dc.jobs j k rfl hold hjengine (hjkind.trans_ne hkind) hdrain hk'
  have hdc := State.kept_of_sansQueues State.dc (fun _ => rfl)
    ((State.issue_sansQueues h ho State.runDump fun s _ _ => s).trans (congrArg State.sansQueues hrun))
  have hcommand : x.q = j.q := congrArg Prod.fst htag
  have hxkind : x.kind = j.kind := congrArg (fun t => t.2.1) htag
  have hengine : x.engine = some k := congrArg (fun t => t.2.2.1) htag
  have hid : x.dumpid = s.dc.nextId := congrArg (fun t => t.2.2.2) htag
  exact ⟨_, x, rfl, hdc.symm ▸ hx, hcommand.trans hjq, hxkind.trans hjkind, hengine.trans hk.symm, hid⟩

/-- DUMP with no idle engine: it waits. -/
theorem State.issue_dump_waits {s : State} {q slot : Nat} {c : List Byte} (h : s.starts q slot c) (ho : cmdOp c = 0x05)
    (hop : s.dumpOperands c) (hidle : (upto s.engines).find? s.engineIdle = none) :
    ∃ t j, s.issue q (some 0x05) State.runDump = t ∧ t.dc.jobs = s.dc.jobs ++ [j] ∧ j.q = some (q, (s.queue q).seq) ∧
      j.kind = field c 24 1 ∧ j.engine = none := by
  obtain ⟨j, hrun, hjq, hjkind, hjengine⟩ := (s.takeHead q slot c false).runDump_pumps q (s.newFlight q slot c false)
    (State.takeHead_dumpOperands q slot hop)
  have hidle' : (upto s.engines).find? ((s.takeHead q slot c false).setDc fun d => { d with jobs := d.jobs ++ [j] }).engineIdle = none := by
    rw [State.engineIdle_waiting _ j hjengine]
    exact hidle
  have hpump := State.dumpPump_full 8 ((s.takeHead q slot c false).setDc fun d => { d with jobs := d.jobs ++ [j] }) hidle'
  have hdc := State.kept_of_sansQueues State.dc (fun _ => rfl)
    ((State.issue_sansQueues h ho State.runDump fun s _ _ => s).trans (congrArg State.sansQueues (hrun.trans hpump)))
  exact ⟨_, j, rfl, congrArg Dumping.jobs hdc, hjq, hjkind, hjengine⟩

theorem State.runDump_nameless (s : State) (q : Nat) (f : Flight) (hkind : field f.cmd 24 1 = 0) (hentry : s.dumpEntry (field f.cmd 8 8) = none) :
    s.runDump q f = s.finish q f.seq { code := 0x80 } := by
  unfold State.runDump
  dsimp only
  rw [if_pos hkind, hentry]

/-- DUMP of a tensor name that no entry has: it has ended. -/
theorem State.issue_dump_nameless {s : State} {q slot : Nat} {c : List Byte} (hlen : s.queues.length = 16) (hq : q < 16)
    (h : s.starts q slot c) (ho : cmdOp c = 0x05) (hkind : field c 24 1 = 0) (hentry : s.dumpEntry (field c 8 8) = none) :
    (s.issue q (some 0x05) State.runDump).ended q slot 0x80 :=
  (State.issue_finishes hlen hq h ho State.runDump (fun s _ _ => s) (s.takeHead q slot c false) _
    ((s.takeHead q slot c false).runDump_nameless q (s.newFlight q slot c false) hkind hentry)
    (s.takeHead_queues_length q slot c false) rfl).1

end Sys2Proof.Machine
end

section
namespace Sys2Proof.Machine

/-! ## SEND (R168, R386) -/

theorem foldl_queues {α : Type} (g : State → α → State) (h : ∀ t x, (g t x).queues = t.queues) (l : List α) (s : State) :
    (l.foldl g s).queues = s.queues := by
  induction l generalizing s with
  | nil => rfl
  | cons a l ih => rw [List.foldl_cons, ih, h]

theorem State.refuseDown_queues (s : State) (c unit : Nat) (hc : c < 4) : (s.refuseDown c unit).queues = s.queues := by
  rw [State.refuseDown, State.refusal_queues]
  exact State.queues_of_unrecorded (s.noteRefusal_unrecorded c unit false hc)

/-- An offer stands in lanes and source buffers: it moves no command. -/
theorem State.offer_queues (s : State) (o : Offer) : (s.offer o).2.queues = s.queues := by
  have hraw : (s.offerRaw o).2.queues = s.queues := State.queues_of_unrecorded (s.offerRaw_unrecorded o)
  unfold State.offer
  dsimp only
  split_ifs
  · exact (foldl_queues _ (fun t _ => t.refuseDown_queues o.cls o.unit o.cls_lt) _ _).trans hraw
  · exact hraw
  · exact (State.refusal_queues _ _ _ _ _).trans hraw

/-- A SEND whose bytes can be read ends with the code of its pennant's admission. -/
theorem State.runSend_offers (s : State) (q : Nat) (f : Flight)
    (hsize : (if field f.cmd 17 1 = 1 then s.dmemSize else 524288) ≥ field f.cmd 12 4 + field f.cmd 16 1)
    (hlost : lostIn (if field f.cmd 17 1 = 1 then s.st.dmBad else s.cf.sbufBad) (field f.cmd 12 4) (field f.cmd 16 1) = false) :
    ∃ u : State, s.runSend q f = u.finish q f.seq { code := (s.offer (s.sendOffer f.cmd)).1 } ∧ u.queues = s.queues := by
  unfold State.runSend
  simp only [beq_iff_eq]
  rw [if_neg (Nat.not_lt.mpr hsize), hlost, if_neg Bool.false_ne_true]
  refine ⟨_, rfl, ?_⟩
  split
  · exact (State.notice_queues _ 21).trans (s.offer_queues _)
  · exact s.offer_queues _

theorem State.issue_send {s : State} {q slot : Nat} {c : List Byte} (hlen : s.queues.length = 16) (hq : q < 16) (h : s.starts q slot c)
    (ho : cmdOp c = 0x06) (hsize : (if field c 17 1 = 1 then s.dmemSize else 524288) ≥ field c 12 4 + field c 16 1)
    (hlost : lostIn (if field c 17 1 = 1 then s.st.dmBad else s.cf.sbufBad) (field c 12 4) (field c 16 1) = false) :
    (s.issue q (some 0x06) State.runSend).ended q slot ((s.takeHead q slot c false).offer ((s.takeHead q slot c false).sendOffer c)).1 := by
  obtain ⟨u, hrun, huq⟩ := (s.takeHead q slot c false).runSend_offers q (s.newFlight q slot c false) hsize hlost
  have hu : u.queues.length = s.queues.length := (congrArg List.length huq).trans (s.takeHead_queues_length q slot c false)
  exact (State.issue_finishes hlen hq h ho State.runSend (fun s _ _ => s) u _ hrun hu
    (congrArg Queue.flights (State.queue_of_queues huq q))).1

/-! ## The six commands together -/

/-- Settles O23: the issue of a command that starts is its unit's work on the queue with the command in flight
(`issue_starts`), of one that may not start nothing (`issue_none`); each unit's effect then is that of its work there. A SCORE
of a model without trees ends with 0x60 whatever its operands (log entry 70). -/
theorem workCommandsStartTheirUnit : Obligations.WorkCommandsStartTheirUnit := by
  unfold Obligations.WorkCommandsStartTheirUnit
  refine ⟨fun s q slot c _ h ho => congrArg Host.Outcome.next (State.issue_starts h ho _ _),
    fun s q slot c _ h ho => congrArg Host.Outcome.next (State.issue_starts h ho _ _),
    fun s q slot c _ h ho => congrArg Host.Outcome.next (State.issue_starts h ho State.runScore State.heldScore),
    fun s q slot c _ h ho => congrArg Host.Outcome.next (State.issue_starts h ho State.runCheck State.heldCheck),
    fun s q slot c _ h ho => congrArg Host.Outcome.next (State.issue_starts h ho State.runDump _),
    fun s q slot c _ h ho => congrArg Host.Outcome.next (State.issue_starts h ho State.runSend _), ?taken, ?idle,
    ?sampleLatched, ?sampleWaits, ?snapshotNow, ?snapshotLater, ?scoreServed, ?scoreTreeless, ?checkFree, ?checkBusy,
    ?dumpServed, ?dumpWaits, ?dumpNameless, ?send⟩
  case taken => exact fun s q slot c hlen _ => s.queue_takeHead q slot c false (q.isLt.trans_eq hlen.symm)
  case idle =>
    intro s q h
    refine ⟨?_, ?_, ?_, ?_, ?_, ?_⟩ <;> exact congrArg Host.Outcome.next (State.issue_none h _ _ _)
  case sampleLatched =>
    intro s q slot c _ h ho ha hfree
    obtain ⟨t, b, ht, hb⟩ := State.issue_sample_latched h ho ha hfree
    exact ⟨t, b, congrArg Host.Outcome.next ht, hb⟩
  case sampleWaits =>
    intro s q slot c _ h ho ha hfree
    obtain ⟨t, ht, hw⟩ := State.issue_sample_waits h ho ha hfree
    exact ⟨t, congrArg Host.Outcome.next ht, hw⟩
  case snapshotNow =>
    intro s q slot c hlen h ho hscope
    obtain ⟨t, ht, hend⟩ := State.issue_snapshot_now hlen q.isLt h ho hscope
    exact ⟨t, congrArg Host.Outcome.next ht, hend⟩
  case snapshotLater =>
    intro s q slot c _ h ho hscope hfull hlead
    obtain ⟨t, k, w, ht, hk⟩ := State.issue_snapshot_later h ho hscope hfull hlead
    exact ⟨t, k, w, congrArg Host.Outcome.next ht, hk⟩
  case scoreServed => exact fun s q slot c _ h ho htrees hbad hbound => ⟨_, rfl, State.issue_score_served h ho htrees hbad hbound⟩
  case scoreTreeless => exact fun s q slot c hlen h ho htrees => ⟨_, rfl, State.issue_score_treeless hlen q.isLt h ho htrees⟩
  case checkFree =>
    intro s q slot c hlen h ho hm hfmt hbound hcount hlanes harb harbQ hnew
    obtain ⟨t, j, ht, hj⟩ := State.issue_check_free (q.isLt.trans_eq hlen.symm) h ho hm hfmt hbound hcount hlanes harb harbQ hnew
    exact ⟨t, j, congrArg Host.Outcome.next ht, hj⟩
  case checkBusy =>
    intro s q slot c _ h ho hm hfmt hbound hlanes h0 h1 harb harbQ
    obtain ⟨t, j, ht, hj⟩ := State.issue_check_busy h ho hm hfmt hbound hlanes h0 h1 harb harbQ
    exact ⟨t, j, congrArg Host.Outcome.next ht, hj⟩
  case dumpServed =>
    intro s q slot c _ h ho hop hold hdrain hidle
    have hoperands : s.dumpOperands c := hop.imp_right Or.inl
    have hkind : field c 24 1 ≠ 2 := by
      obtain ⟨hkind, _⟩ | ⟨hkind, _⟩ := hop <;> omega
    obtain ⟨t, j, ht, hj⟩ := State.issue_dump_served h ho hoperands hkind hold hdrain hidle
    exact ⟨t, j, congrArg Host.Outcome.next ht, hj⟩
  case dumpWaits =>
    intro s q slot c _ h ho hop hidle
    obtain ⟨t, j, ht, hj⟩ := State.issue_dump_waits h ho hop hidle
    exact ⟨t, j, congrArg Host.Outcome.next ht, hj⟩
  case dumpNameless => exact fun s q slot c hlen h ho hkind hentry => ⟨_, rfl, State.issue_dump_nameless hlen q.isLt h ho hkind hentry⟩
  case send => exact fun s q slot c hlen h ho hsize hlost => ⟨_, rfl, State.issue_send hlen q.isLt h ho hsize hlost⟩

end Sys2Proof.Machine
end

section
namespace Sys2Proof.Machine

/-! ## Two's complement readings of words -/

theorem natCast_ofSigned (w : Nat) (i : Int) : (ofSigned w i : Int) = i % (2 ^ w : Nat) :=
  Int.toNat_of_nonneg (Int.emod_nonneg i (Int.natCast_ne_zero.mpr (Nat.two_pow_pos w).ne'))

theorem ofSigned_toSigned (w n : Nat) : ofSigned w (toSigned w n) = n % 2 ^ w := by
  have hmod : toSigned w n % (2 ^ w : Nat) = ((n % 2 ^ w : Nat) : Int) := by
    unfold toSigned
    dsimp only
    split_ifs
    · rw [← Int.natCast_mod, Nat.mod_mod]
    · rw [Int.sub_emod_right, ← Int.natCast_mod, Nat.mod_mod]
  rw [ofSigned, hmod, Int.toNat_natCast]

theorem toSigned_mod (w n : Nat) : toSigned w (n % 2 ^ w) = toSigned w n := by
  rw [toSigned, toSigned, Nat.mod_mod]

/-! ## Words written -/

theorem State.regsBut_wr (s : State) (off v : Nat) : s.regsBut (s.wr off v) [off] :=
  fun _ ho => State.rd_wr_other _ _ _ _ (List.ne_of_not_mem_cons ho)

theorem State.regsBut_wr64 (s : State) (lo v : Nat) : s.regsBut (s.wr64 lo v) [lo, lo + 4] := by
  intro o ho
  obtain ⟨hl, hh⟩ : o ≠ lo ∧ o ≠ lo + 4 := by simpa using ho
  exact State.rd_wr64_other _ _ _ _ hl hh

/-- A field of a written word. -/
theorem State.get_wr_same (s : State) (f : Fld) (v : Nat) : (s.wr f.off v).get f = bits (v % 2 ^ 32) f.lo f.w := by
  rw [State.get, State.rd_wr_same]

theorem State.rd64_lt (s : State) (lo : Nat) : s.rd64 lo < 2 ^ 64 := by
  have hl := s.rd_lt lo
  have hh := s.rd_lt (lo + 4)
  unfold State.rd64
  omega

/-- The two halves of a pair written one after the other are the pair's write. -/
theorem State.wr_halves (s : State) (lo : Nat) {v h : Nat} (hv : v < 2 ^ 32) (hh : h < 2 ^ 32) :
    (s.wr lo v).wr (lo + 4) h = s.wr64 lo (v + 2 ^ 32 * h) := by
  have hlow : (v + 2 ^ 32 * h) % 2 ^ 32 = v := by omega
  have hhigh : (v + 2 ^ 32 * h) / 2 ^ 32 % 2 ^ 32 = h := by omega
  rw [State.wr64, hlow, hhigh]

/-! ## Fleet time by rate and offset (R200 to R202) -/

/-- What rate `r` adds to fleet time at the raw count. -/
def State.rateTerm (s : State) (r : Int) : Int := asr ((s.raw : Int) * r) 40

/-- Fleet time is the raw count, the rate's term, the offset and the fast cycles since the edge, modulo 2⁶⁴. -/
theorem State.fleet_cast (s : State) : (s.fleet : Int) =
    ((s.raw : Int) + s.rateTerm (toSigned 32 (s.rd Reg.TB_RATE)) + (s.rd64 Reg.TB_OFF_LO : Int) + (s.sub : Int)) % (2 ^ 64 : Nat) := by
  rw [State.fleet, State.fleetAon, State.fleetAt, Int.natCast_mod, Int.natCast_add, natCast_ofSigned, Int.emod_add_emod, State.rateTerm]

/-- A new offset steps fleet time by the difference (R204). -/
theorem State.fleet_wr64_offset (s : State) (n : Nat) :
    (s.wr64 Reg.TB_OFF_LO n).fleet = (s.fleet + n + (2 ^ 64 - s.rd64 Reg.TB_OFF_LO)) % 2 ^ 64 := by
  have hs := s.fleet_cast
  have ht := (s.wr64 Reg.TB_OFF_LO n).fleet_cast
  have hrate : (s.wr64 Reg.TB_OFF_LO n).rd Reg.TB_RATE = s.rd Reg.TB_RATE := s.rd_wr64_other _ _ _ (by decide) (by decide)
  have hraw : (s.wr64 Reg.TB_OFF_LO n).raw = s.raw := rfl
  have hterm (r : Int) : (s.wr64 Reg.TB_OFF_LO n).rateTerm r = s.rateTerm r := rfl
  have hsub : (s.wr64 Reg.TB_OFF_LO n).sub = s.sub := rfl
  have hold := s.rd64_lt Reg.TB_OFF_LO
  rw [hraw, hterm, hrate, hsub, State.rd64_wr64_same] at ht
  omega

theorem State.rd_setRate_same (s : State) (v : Nat) : (s.setRate (toSigned 32 v)).rd Reg.TB_RATE = v % 2 ^ 32 := by
  rw [State.setRate, State.rd_wr_same, ofSigned_toSigned, Nat.mod_mod]

/-- A new rate moves the offset by the difference of the old rate's term and the new one's. -/
theorem State.offset_setRate_cast (s : State) (r : Int) : ((s.setRate r).rd64 Reg.TB_OFF_LO : Int) =
    ((s.rd64 Reg.TB_OFF_LO : Int) + s.rateTerm (toSigned 32 (s.rd Reg.TB_RATE)) - s.rateTerm r) % (2 ^ 64 : Nat) := by
  have hkept (u : State) (x : Nat) : (u.wr Reg.TB_RATE x).rd64 Reg.TB_OFF_LO = u.rd64 Reg.TB_OFF_LO := by
    rw [State.rd64, State.rd_wr_other _ _ _ _ (by decide), State.rd_wr_other _ _ _ _ (by decide), State.rd64]
  rw [State.setRate, hkept, State.rd64_wr64_same, Int.natCast_mod, natCast_ofSigned, Int.emod_emod, State.rateTerm, State.rateTerm]

/-- R201: with the offset moved by the difference of the two terms, fleet time is the same under the old and the new rate. -/
theorem State.fleet_setRate (s : State) (v : Nat) : (s.setRate (toSigned 32 v)).fleet = s.fleet := by
  have hs := s.fleet_cast
  have ht := (s.setRate (toSigned 32 v)).fleet_cast
  have hraw : (s.setRate (toSigned 32 v)).raw = s.raw := rfl
  have hterm (r : Int) : (s.setRate (toSigned 32 v)).rateTerm r = s.rateTerm r := rfl
  have hsub : (s.setRate (toSigned 32 v)).sub = s.sub := rfl
  rw [hraw, hterm, State.rd_setRate_same, toSigned_mod, State.offset_setRate_cast, hsub] at ht
  omega

theorem State.regsBut_setRate (s : State) (r : Int) : s.regsBut (s.setRate r) [Reg.TB_RATE, Reg.TB_OFF_LO, Reg.TB_OFF_HI] := by
  intro o ho
  obtain ⟨hrate, hlo, hhi⟩ : o ≠ Reg.TB_RATE ∧ o ≠ Reg.TB_OFF_LO ∧ o ≠ Reg.TB_OFF_HI := by simpa using ho
  exact (State.rd_wr_other _ _ _ _ hrate).trans (State.rd_wr64_other _ _ _ _ hlo hhi)

/-! ## The rules of TB_RATE, TB_CTRL and TB_TOD_NS (R201, R212, R223) -/

theorem State.orRefuse_wRate_free (s : State) (v : Nat) (h : s.servo = false) :
    s.orRefuse (s.wRate v) = (s.setRate (toSigned 32 v), true) := by
  rw [State.wRate, h]
  rfl

theorem State.orRefuse_wRate_servo (s : State) (v : Nat) (h : s.servo = true) : s.orRefuse (s.wRate v) = (s, false) := by
  rw [State.wRate, h]
  rfl

theorem State.orRefuse_wTod_below (s : State) (v : Nat) (htray : s.tray = true) (h : v % 2 ^ 30 < 1000000000) :
    s.orRefuse (s.wTod v) = ({ (s.wr Reg.TB_TOD_NS (v % 2 ^ 30)) with tb := { s.tb with todArmed := true } }, true) := by
  rw [State.wTod, htray, if_neg (by decide), if_neg (Nat.not_le.mpr h)]
  rfl

theorem State.orRefuse_wTod_from (s : State) (v : Nat) (htray : s.tray = true) (h : 1000000000 ≤ v % 2 ^ 30) :
    s.orRefuse (s.wTod v) = (s, false) := by
  rw [State.wTod, htray, if_neg (by decide), if_pos h]
  rfl

theorem State.wTbCtrl_free (s : State) (v : Nat) (h : bit v 1 = false) : s.wTbCtrl v = s.wr Reg.TB_CTRL (v % 4) := by
  rw [State.wTbCtrl, h]
  rfl

theorem State.wTbCtrl_hold (s : State) (v : Nat) (h : bit v 1 = true) : s.wTbCtrl v = (s.wr Reg.TB_CTRL (v % 4)).holdover := by
  rw [State.wTbCtrl, h]
  rfl

theorem State.get_wr_TB_CTRL_hold (s : State) (v : Nat) (h : bit v 1 = true) : (s.wr Reg.TB_CTRL (v % 4)).get Reg.TB_CTRL_hold = 1 := by
  have hbit : bits v 1 1 = 1 := beq_iff_eq.mp h
  refine (s.get_wr_same Reg.TB_CTRL_hold (v % 4)).trans ?_
  change bits (v % 4 % 2 ^ 32) 1 1 = 1
  rw [bits_eq] at hbit ⊢
  omega

theorem State.get_wr_TB_TOD_NS_ns (s : State) (v : Nat) : (s.wr Reg.TB_TOD_NS (v % 2 ^ 30)).get Reg.TB_TOD_NS_ns = v % 2 ^ 30 := by
  refine (s.get_wr_same Reg.TB_TOD_NS_ns (v % 2 ^ 30)).trans ?_
  change bits (v % 2 ^ 30 % 2 ^ 32) 0 30 = v % 2 ^ 30
  rw [bits_eq]
  omega

/-! ## The offset's pair on the bus (R12, R204) -/

/-- Both halves of the offset are in the map of both roles, with no SH field. -/
theorem State.tbOffset_present (s : State) {off : Nat} (h : off = Reg.TB_OFF_LO ∨ off = Reg.TB_OFF_HI) :
    ∃ d, s.reg? off = some d ∧ d.sh = 0 := by
  have hrow : ∀ o ∈ [Reg.TB_OFF_LO, Reg.TB_OFF_HI], (findReg o).map (fun d => (d.role, d.sh)) = some (0, 0) := by decide
  obtain ⟨d, hd, hcode⟩ := Option.map_eq_some_iff.mp (hrow off (by simpa using h))
  obtain ⟨hrole, hsh⟩ := Prod.mk.inj hcode
  refine ⟨d, s.reg_present off d hd (by simp [State.hasReg, hrole]) ?_, hsh⟩
  obtain rfl | rfl := h <;> simp [State.absentPort, Reg.TB_OFF_LO, Reg.TB_OFF_HI]

/-- Each half of the offset takes a word, unless the servo runs. -/
theorem State.regWrite_tbOffset (s : State) (req : Nat) (d : RegDef) {off : Nat} (v : Nat)
    (h : off = Reg.TB_OFF_LO ∨ off = Reg.TB_OFF_HI) :
    s.regWrite req d off v = if s.servo then (s, false) else (s.wr off v, true) := by
  have hrule : s.specialWrite req off v = some (if s.servo then (s, false) else (s.wr off v, true)) := by
    obtain rfl | rfl := h <;> simp [State.specialWrite, State.writeAon, Reg.PM_CTRL, Reg.PM_BOOT, Reg.PM_WARM, Reg.PM_THR_FW,
      Reg.PM_PB_CMD, Reg.IC_DOORBELL, Reg.TB_OFF_LO, Reg.TB_OFF_HI]
  rw [State.regWrite, hrule]

theorem State.pairWrite_tbOffset_free (s : State) (req : Nat) {d : RegDef} {v h : Nat} (hd : d.sh = 0) (hservo : s.servo = false)
    (hv : v < 2 ^ 32) (hh : h < 2 ^ 32) :
    s.pairWrite req d Reg.TB_OFF_LO v h = (s.wr64 Reg.TB_OFF_LO (v + 2 ^ 32 * h), true) := by
  obtain ⟨e, he, -⟩ := s.tbOffset_present (.inr rfl)
  have hlow : s.regWrite req d Reg.TB_OFF_LO v = (s.wr Reg.TB_OFF_LO v, true) := by
    rw [s.regWrite_tbOffset req d v (.inl rfl), hservo]
    rfl
  have hfree : (s.wr Reg.TB_OFF_LO v).servo = false := by
    rw [State.servo, State.get_wr_other _ _ _ _ (by decide)]
    exact hservo
  have hhigh : (s.wr Reg.TB_OFF_LO v).regWrite req e Reg.TB_OFF_HI h = ((s.wr Reg.TB_OFF_LO v).wr Reg.TB_OFF_HI h, true) := by
    rw [State.regWrite_tbOffset _ req e h (.inr rfl), hfree]
    rfl
  have hnext : Reg.TB_OFF_LO + 4 = Reg.TB_OFF_HI := rfl
  rw [State.pairWrite, if_neg (not_not.mpr hd), hlow, ← s.wr_halves _ hv hh, hnext]
  dsimp only
  rw [he, if_pos rfl]
  exact hhigh

theorem State.pairWrite_tbOffset_servo (s : State) (req : Nat) {d : RegDef} (v h : Nat) (hd : d.sh = 0) (hservo : s.servo = true) :
    s.pairWrite req d Reg.TB_OFF_LO v h = (s, false) := by
  rw [State.pairWrite, if_neg (not_not.mpr hd), s.regWrite_tbOffset req d v (.inl rfl), hservo]
  rfl

theorem State.busWrite_tbOffset (s : State) (req v : Nat) :
    ∃ d, d.sh = 0 ∧ s.busWrite req Reg.TB_OFF_LO v = s.heldWrite req d Reg.TB_OFF_LO v := by
  obtain ⟨d, hd, hsh⟩ := s.tbOffset_present (.inl rfl)
  exact ⟨d, hsh, s.busWrite_present _ _ _ d (by decide) (by simp [State.windowWrite, Reg.TB_OFF_LO]) hd⟩

/-- With the high half held and the servo off, a write of the low half sets the offset and ends the holding. -/
theorem State.busWrite_tbOffset_free (s : State) (req : Nat) {v h : Nat} (hservo : s.servo = false) (hv : v < 2 ^ 32) (hh : h < 2 ^ 32)
    (hheld : (s.holding req).wr = some (Reg.TB_OFF_LO, h)) : s.busWrite req Reg.TB_OFF_LO v =
      ((s.wr64 Reg.TB_OFF_LO (v + 2 ^ 32 * h)).setHolding req fun x => { x with wr := none }, true) := by
  obtain ⟨d, hd, hbus⟩ := s.busWrite_tbOffset req v
  have hpair := s.pairWrite_tbOffset_free req hd hservo hv hh
  rw [hbus, s.heldWrite_low req _ v h d (by decide) (by decide) hheld (by rw [hpair]), hpair]

/-- While the servo runs a write of the low half is refused, with a high half held or without. -/
theorem State.busWrite_tbOffset_servo (s : State) (req v : Nat) (hservo : s.servo = true) :
    s.busWrite req Reg.TB_OFF_LO v = (s, false) := by
  obtain ⟨d, hd, hbus⟩ := s.busWrite_tbOffset req v
  have hhigh : highHalf Reg.TB_OFF_LO = false := by decide
  have hlow : lowHalf Reg.TB_OFF_LO = true := by decide
  have hsingle : s.regWrite req d Reg.TB_OFF_LO v = (s, false) := by
    rw [s.regWrite_tbOffset req d v (.inl rfl), hservo]
    rfl
  rw [hbus, State.heldWrite, hhigh, hlow, if_neg Bool.false_ne_true, if_pos rfl, hsingle]
  split
  · rw [s.pairWrite_tbOffset_servo req v _ hd hservo]
    exact ite_self _
  · rfl

/-! ## The four writes -/

/-- Settles O32: each register takes its write by its rule, which for the offset is that of its pair; a rate keeps fleet time
by `fleet_setRate`, an offset steps it by `fleet_wr64_offset`. That the write of TB_TOD_NS arms it, and that it is refused from
10^9 ns on, is R223. -/
theorem timeRegistersStepFleetTime : Obligations.TimeRegistersStepFleetTime := by
  unfold Obligations.TimeRegistersStepFleetTime
  refine ⟨?rate, ?offset, ?servo, ?tod, ?todRefused, ?ctrl, ?hold⟩
  case rate =>
    intro s who d hready hservo
    refine ⟨s.setRate (toSigned 32 d.toNat), writes_of_busWrite rfl hready ?_, ?_, s.fleet_setRate _, s.regsBut_setRate _, rfl⟩
    · rw [State.busWrite_TB_RATE, s.orRefuse_wRate_free _ hservo]
    · rw [State.rd_setRate_same, Nat.mod_eq_of_lt d.isLt]
  case offset =>
    intro s who d h hready hservo hh hheld
    have hlt : d.toNat + 2 ^ 32 * h < 2 ^ 64 := by
      have := d.isLt
      omega
    refine ⟨_, writes_of_busWrite rfl hready (s.busWrite_tbOffset_free _ hservo d.isLt hh hheld), ?_, s.regsBut_wr64 _ _,
      s.fleet_wr64_offset _⟩
    exact (s.rd64_wr64_same _ _).trans (Nat.mod_eq_of_lt hlt)
  case servo =>
    intro s who d hready hservo
    refine ⟨refuses_of_busWrite rfl hready ?_, refuses_of_busWrite rfl hready (s.busWrite_tbOffset_servo _ _ hservo)⟩
    rw [State.busWrite_TB_RATE, s.orRefuse_wRate_servo _ hservo]
  case tod =>
    intro s who d hready htray hns
    refine ⟨_, writes_of_busWrite rfl hready ((s.busWrite_TB_TOD_NS _ _ htray).trans (s.orRefuse_wTod_below _ htray hns)), rfl, ?_,
      s.regsBut_wr _ _, rfl⟩
    exact s.get_wr_TB_TOD_NS_ns d.toNat
  case todRefused =>
    intro s who d hready htray hns
    exact refuses_of_busWrite rfl hready ((s.busWrite_TB_TOD_NS _ _ htray).trans (s.orRefuse_wTod_from _ htray hns))
  case ctrl =>
    intro s who d hready hfree
    refine ⟨s.wr Reg.TB_CTRL (d.toNat % 4), writes_of_busWrite rfl hready ?_, ?_, s.regsBut_wr _ _, rfl⟩
    · rw [State.busWrite_TB_CTRL, s.wTbCtrl_free _ hfree]
    · rw [State.rd_wr_same]
      omega
  case hold =>
    intro s who d hready hhold _
    refine ⟨s.wr Reg.TB_CTRL (d.toNat % 4), writes_of_busWrite rfl hready ?_, s.get_wr_TB_CTRL_hold _ hhold, s.regsBut_wr _ _⟩
    rw [State.busWrite_TB_CTRL, s.wTbCtrl_hold _ hhold]

end Sys2Proof.Machine
end

/-! # Counters and sampling (chapter 07) -/

section
namespace Sys2Proof.Machine

/-! ## One pass over numbered units -/

/-- A unit that a pass does not reach keeps what shows of it. -/
theorem foldl_upto_beyond {σ β : Type} (g : σ → Nat → σ) (view : σ → Nat → β)
    (hother : ∀ t j k, k ≠ j → view (g t j) k = view t k) (s : σ) (n k : Nat) (hk : n ≤ k) :
    view ((upto n).foldl g s) k = view s k := by
  induction n with
  | zero => rfl
  | succ n ih =>
    rw [upto, List.range_succ, List.foldl_append]
    exact (hother _ n k (by omega)).trans (ih (by omega))

/-- A pass of steps that keep `P` keeps it. -/
theorem foldl_keeps {σ α : Type} (g : σ → α → σ) (P : σ → Prop) (hP : ∀ t j, P t → P (g t j)) (l : List α) (s : σ) (hs : P s) :
    P (l.foldl g s) := by
  induction l generalizing s with
  | nil => exact hs
  | cons a l ih => exact ih _ (hP s a hs)

/-- Each unit takes its own step once, where the steps of the others leave it alone and none changes what `P` fixes. -/
theorem foldl_upto_view {σ β : Type} (g : σ → Nat → σ) (view : σ → Nat → β) (P : σ → Prop) (next : Nat → β → β)
    (hP : ∀ t j, P t → P (g t j)) (hsame : ∀ t k, P t → view (g t k) k = next k (view t k))
    (hother : ∀ t j k, k ≠ j → view (g t j) k = view t k) (s : σ) (hs : P s) (n k : Nat) (hk : k < n) :
    view ((upto n).foldl g s) k = next k (view s k) := by
  induction n with
  | zero => omega
  | succ n ih =>
    rw [upto, List.range_succ, List.foldl_append]
    change view (g ((upto n).foldl g s) n) k = _
    obtain hlt | rfl := Nat.lt_succ_iff_lt_or_eq.mp hk
    · rw [hother _ _ _ (by omega), ih hlt]
    · rw [hsame _ _ (foldl_keeps g P hP _ s hs), foldl_upto_beyond g view hother s k k le_rfl]

/-! ## Counts of 48 bits (R228) -/

theorem count48_below {v n : Nat} (sat : Bool) (h : v + n < 2 ^ 48) : count48 sat v n = (v + n, false, false) := if_pos h

theorem count48_saturates {v n : Nat} (h : 2 ^ 48 ≤ v + n) : count48 true v n = (2 ^ 48 - 1, false, true) :=
  if_neg (Nat.not_lt.mpr h)

theorem count48_wraps {v n : Nat} (h : 2 ^ 48 ≤ v + n) : count48 false v n = ((v + n) % 2 ^ 48, true, false) :=
  if_neg (Nat.not_lt.mpr h)

/-- Setting a bit of a mask leaves the others. -/
theorem bit_setBitIf (m i : Nat) (b : Bool) (k : Nat) : bit (setBitIf m i b) k = (bit m k || (decide (k = i) && b)) := by
  unfold setBitIf
  split_ifs with h
  · obtain ⟨rfl, hclear⟩ : b = true ∧ bit m i = false := by simpa using h
    rw [add_two_pow_eq_putBits m i hclear, bit_putBits]
    split_ifs with hk <;> simp [hk]
  · by_cases hk : k = i
    · subst hk
      revert h
      cases b <;> cases bit m k <;> simp
    · simp [hk]

/-! ## Event counters (R225 to R228) -/

/-- Counter `k` counts in a cycle with these levels: it is enabled, its input is high, and it was low where edges count. -/
def State.evHit (s : State) (levels k : Nat) : Bool :=
  s.get (Reg.CF_XB_k_en k) == 1 && bit levels (s.get (Reg.CF_XB_k_input k)) &&
    (s.get (Reg.CF_XB_k_edge k) == 0 || !(bit s.cf.prev (s.get (Reg.CF_XB_k_input k))))

/-- What counter `k` shows: its count and its two marks. -/
def State.evShown (s : State) (k : Nat) : Nat × Bool × Bool := (s.evValue k, bit s.cf.evWrap k, bit s.cf.evSat k)

/-- What a counter shows after a cycle in which it counts or not. -/
def evNext (hit sat : Bool) (x : Nat × Bool × Bool) : Nat × Bool × Bool :=
  if hit then ((count48 sat x.1 1).1, x.2.1 || (count48 sat x.1 1).2.1, x.2.2 || (count48 sat x.1 1).2.2) else x

/-- `t` differs from `s` in counts and marks of event counters alone. -/
def State.evMoved (s t : State) : Prop :=
  ∃ ev evWrap evSat, t = { s with cf := { s.cf with ev := ev, evWrap := evWrap, evSat := evSat } }

theorem State.evStep_eq (s : State) (levels k : Nat) : s.evStep levels k = if s.evHit levels k then
    { s with cf := { s.cf with
        ev := Sparse.set zeroNat s.cf.ev k (count48 (s.get (Reg.CF_XB_k_sat k) == 1) (s.evValue k) 1).1
        evWrap := setBitIf s.cf.evWrap k (count48 (s.get (Reg.CF_XB_k_sat k) == 1) (s.evValue k) 1).2.1
        evSat := setBitIf s.cf.evSat k (count48 (s.get (Reg.CF_XB_k_sat k) == 1) (s.evValue k) 1).2.2 } } else s := by
  unfold State.evStep State.evHit
  rw [Bool.and_assoc]

theorem State.evStep_moves (s t : State) (levels k : Nat) (h : s.evMoved t) : s.evMoved (t.evStep levels k) := by
  obtain ⟨ev, evWrap, evSat, rfl⟩ := h
  rw [State.evStep_eq]
  split
  · exact ⟨_, _, _, rfl⟩
  · exact ⟨_, _, _, rfl⟩

theorem State.evShown_evStep_same (s : State) (levels k : Nat) :
    (s.evStep levels k).evShown k = evNext (s.evHit levels k) (s.get (Reg.CF_XB_k_sat k) == 1) (s.evShown k) := by
  rw [State.evStep_eq, evNext]
  split
  · simp only [State.evShown, State.evValue, Sparse.get_set_same, bit_setBitIf, decide_true, Bool.true_and]
  · rfl

theorem State.evShown_evStep_other (s : State) (levels j k : Nat) (h : k ≠ j) : (s.evStep levels j).evShown k = s.evShown k := by
  rw [State.evStep_eq]
  split
  · simp only [State.evShown, State.evValue, Sparse.get_set_other _ _ _ _ _ h, bit_setBitIf, h, decide_false, Bool.false_and,
      Bool.or_false]
  · rfl

/-- The first `n` counters in one fast cycle. -/
def State.evPass (s : State) (levels n : Nat) : State := (upto n).foldl (fun t k => t.evStep levels k) s

theorem State.eventInputs_eq (s : State) (levels : Nat) : s.eventInputs levels =
    { s.evPass levels 1024 with cf := { (s.evPass levels 1024).cf with prev := levels, fcyc := (s.evPass levels 1024).cf.fcyc + 1 } } := by
  rw [State.eventInputs, State.evPass]

theorem State.evPass_moves (s : State) (levels n : Nat) : s.evMoved (s.evPass levels n) :=
  foldl_keeps _ s.evMoved (fun t k => s.evStep_moves t levels k) _ s ⟨_, _, _, rfl⟩

/-- Each counter counts once in a cycle, by the levels of the cycle and of the one before. -/
theorem State.evShown_evPass (s : State) (levels n k : Nat) (hk : k < n) :
    (s.evPass levels n).evShown k = evNext (s.evHit levels k) (s.get (Reg.CF_XB_k_sat k) == 1) (s.evShown k) := by
  refine foldl_upto_view _ State.evShown s.evMoved (fun k => evNext (s.evHit levels k) (s.get (Reg.CF_XB_k_sat k) == 1))
    (fun t k => s.evStep_moves t levels k) ?_ (fun t j k => t.evShown_evStep_other levels j k) s ⟨_, _, _, rfl⟩ n k hk
  rintro t k ⟨ev, evWrap, evSat, rfl⟩
  exact State.evShown_evStep_same _ levels k

/-- One fast cycle of the inputs stays in the fabric, and its levels become the previous ones. -/
theorem State.eventInputs_frame (s : State) (levels : Nat) : ∃ ev evWrap evSat, s.eventInputs levels =
    { s with cf := { s.cf with prev := levels, fcyc := s.cf.fcyc + 1, ev := ev, evWrap := evWrap, evSat := evSat } } := by
  obtain ⟨ev, evWrap, evSat, h⟩ := s.evPass_moves levels 1024
  rw [State.eventInputs_eq, h]
  exact ⟨ev, evWrap, evSat, rfl⟩

theorem State.evShown_with_levels (s : State) (prev fcyc k : Nat) :
    State.evShown { s with cf := { s.cf with prev := prev, fcyc := fcyc } } k = s.evShown k := rfl

theorem State.evShown_eventInputs (s : State) (levels k : Nat) : (s.eventInputs levels).evShown k = (s.evPass levels 1024).evShown k := by
  rw [State.eventInputs_eq, State.evShown_with_levels]

theorem evNext_false (sat : Bool) (x : Nat × Bool × Bool) : evNext false sat x = x := rfl

theorem evNext_below (sat : Bool) {x : Nat × Bool × Bool} (h : x.1 + 1 < 2 ^ 48) : evNext true sat x = (x.1 + 1, x.2.1, x.2.2) := by
  simp only [evNext, if_true, count48_below sat h, Bool.or_false]

/-- A counter at its greatest count stays there or goes to 0, and is marked for it. -/
theorem evNext_full (sat : Bool) {x : Nat × Bool × Bool} (h : x.1 + 1 = 2 ^ 48) :
    evNext true sat x = (if sat then 2 ^ 48 - 1 else 0, x.2.1 || !sat, x.2.2 || sat) := by
  cases sat with
  | false => simp only [evNext, if_true, count48_wraps h.ge, h, Nat.mod_self, Bool.false_eq_true, if_false, Bool.not_false]
  | true => simp only [evNext, if_true, count48_saturates h.ge, Bool.not_true]

/-- What a counter shows after a cycle, in the terms of R225 and R228. -/
theorem evNext_eq (hit sat : Bool) {x : Nat × Bool × Bool} (h : x.1 < 2 ^ 48) : evNext hit sat x =
    (if hit = false then x.1 else if x.1 + 1 < 2 ^ 48 then x.1 + 1 else if sat then 2 ^ 48 - 1 else 0,
      x.2.1 || (hit && x.1 + 1 == 2 ^ 48 && !sat), x.2.2 || (hit && x.1 + 1 == 2 ^ 48 && sat)) := by
  cases hit with
  | false => simp only [evNext_false, if_true, Bool.false_and, Bool.or_false]
  | true =>
    obtain hlt | hfull := Nat.lt_or_eq_of_le (Nat.succ_le_of_lt h)
    · simp only [evNext_below sat hlt, beq_false_of_ne hlt.ne, hlt, if_true, Bool.true_eq_false, if_false, Bool.and_false,
        Bool.false_and, Bool.or_false]
    · have hfull : x.1 + 1 = 2 ^ 48 := hfull
      simp only [evNext_full sat hfull, hfull, lt_irrefl, Bool.true_eq_false, if_false, beq_self_eq_true, Bool.and_self, Bool.true_and]

theorem execEventInputCount_active (s : State) (v : BitVec 1024) (h : s.active = true) :
    exec (.eventInputCount v) s = .next (s.eventInputs v.toNat) := by
  show execEventInputCount v s = _
  rw [execEventInputCount, if_pos h]

/-! ## The gap count (R226) -/

theorem State.regsBut_incr64 (s : State) (lo n : Nat) : s.regsBut (s.incr64 lo n) [lo, lo + 4] := s.regsBut_wr64 lo _

/-- With the fast clock stopped and a counter enabled the gap is counted and marked. -/
theorem State.gapCount_stopped (s : State) (h : s.stopped = true) (he : s.evEnabled ≠ 0) : s.gapCount =
    { s.incr64 Reg.CF_GAP_LO 1 with cf := { s.cf with evGap := s.cf.evGap ||| s.evEnabled } } := by
  unfold State.gapCount
  exact if_pos (by rw [h, bne_iff_ne.mpr he, Bool.and_self])

theorem State.gapCount_none (s : State) (h : s.stopped = false ∨ s.evEnabled = 0) : s.gapCount = s := by
  unfold State.gapCount
  obtain h | h := h <;> simp [h]

/-- Settles O37: a cycle is one pass over the counters, each of which counts by `evNext`; a gap is counted by `gapCount`. -/
theorem countersCountTheirInputs : Obligations.CountersCountTheirInputs := by
  unfold Obligations.CountersCountTheirInputs
  refine ⟨⟨?levels, ?unseen, ?gap, ?noGap⟩, ?counts⟩
  case levels =>
    intro s v ha
    obtain ⟨ev, evWrap, evSat, h⟩ := s.eventInputs_frame v.toNat
    exact ⟨_, (execEventInputCount_active s v ha).trans (congrArg _ h), rfl, rfl⟩
  case unseen =>
    intro s v ha
    show execEventInputCount v s = _
    rw [execEventInputCount, if_neg (by simp [ha])]
  case gap =>
    intro s hst hen
    exact ⟨_, congrArg Host.Outcome.next (s.gapCount_stopped hst hen), s.rd64_incr64_same _ _, rfl, s.regsBut_incr64 _ _, rfl⟩
  case noGap =>
    intro s h
    exact congrArg Host.Outcome.next (s.gapCount_none h)
  case counts =>
    intro s v ha
    refine ⟨_, execEventInputCount_active s v ha, fun k hk hv hit hhit => ?_⟩
    have hshown := (s.evShown_eventInputs v.toNat k).trans (s.evShown_evPass v.toNat 1024 k hk)
    generalize s.eventInputs v.toNat = t at hshown ⊢
    rw [State.evHit, ← hhit, evNext_eq hit _ (show (s.evShown k).1 < 2 ^ 48 from hv)] at hshown
    obtain ⟨hcount, hwrap, hsat⟩ : _ ∧ _ ∧ _ := by simpa only [State.evShown, Prod.mk.injEq, beq_iff_eq] using hshown
    exact ⟨hcount, hsat, hwrap⟩

end Sys2Proof.Machine
end

section
namespace Sys2Proof.Machine

/-! ## The bunting (R229, R230) -/

/-- `t` differs from `s` in counts and marks of the bunting alone. -/
def State.btMoved (s t : State) : Prop :=
  ∃ bt btWrap btSat, t = { s with cf := { s.cf with bt := bt, btWrap := btWrap, btSat := btSat } }

/-- What counter `b` counts up to from `v` in an AON cycle. -/
def State.btNext (s : State) (incs b v : Nat) : Nat :=
  if s.get (Reg.CF_BTX_b_en b) = 1 then
    (count48 (s.get (Reg.CF_BTX_b_sat b) == 1) v (bits incs (4 * s.get (Reg.CF_BTX_b_input b)) 4)).1
  else v

theorem State.btStep_moves (s t : State) (incs b : Nat) (h : s.btMoved t) : s.btMoved (t.btStep incs b) := by
  obtain ⟨bt, btWrap, btSat, rfl⟩ := h
  unfold State.btStep
  split
  · exact ⟨_, _, _, rfl⟩
  · exact ⟨_, _, _, rfl⟩

theorem State.btValue_btStep_same (s : State) (incs b : Nat) : (s.btStep incs b).btValue b = s.btNext incs b (s.btValue b) := by
  unfold State.btStep State.btNext
  split
  · exact Sparse.get_set_same _ _ _ _
  · rfl

theorem State.btValue_btStep_other (s : State) (incs j b : Nat) (h : b ≠ j) : (s.btStep incs j).btValue b = s.btValue b := by
  unfold State.btStep
  split
  · exact Sparse.get_set_other _ _ _ _ _ h
  · rfl

/-- The first `n` counters of the bunting in one AON cycle. -/
def State.btPass (s : State) (incs n : Nat) : State := (upto n).foldl (fun t b => t.btStep incs b) s

theorem State.btPass_moves (s : State) (incs n : Nat) : s.btMoved (s.btPass incs n) :=
  foldl_keeps _ s.btMoved (fun t b => s.btStep_moves t incs b) _ s ⟨_, _, _, rfl⟩

theorem State.btValue_btPass (s : State) (incs n b : Nat) (hb : b < n) :
    (s.btPass incs n).btValue b = s.btNext incs b (s.btValue b) := by
  refine foldl_upto_view _ State.btValue s.btMoved (s.btNext incs) (fun t b => s.btStep_moves t incs b) ?_
    (fun t j b => t.btValue_btStep_other incs j b) s ⟨_, _, _, rfl⟩ n b hb
  rintro t b ⟨bt, btWrap, btSat, rfl⟩
  exact State.btValue_btStep_same _ incs b

/-- What the bunting replaces is remembered for the mirror. -/
def State.btRemembered (s : State) : State :=
  { s with cf := { s.cf with
      btHist := ((s.cyc + 1, s.cf.bt, s.cf.btWrap, s.cf.btSat) :: s.cf.btHist).filter fun h => decide (s.cyc < h.1 + 6) } }

theorem State.btRemembered_head (s : State) :
    s.btRemembered.cf.btHist.head? = some (s.cyc + 1, s.cf.bt, s.cf.btWrap, s.cf.btSat) := by
  have hnew : s.cyc < s.cyc + 1 + 6 := by omega
  rw [State.btRemembered, List.filter_cons_of_pos (by simpa using hnew), List.head?_cons]

theorem State.bunting_eq (s : State) (incs : Nat) : s.bunting incs =
    { s.btRemembered.btPass incs 128 with cyc := (s.btRemembered.btPass incs 128).cyc + 1 } := by
  rw [State.bunting, State.btPass, State.btRemembered]

/-- One AON cycle of the bunting passes it, remembers what it replaces, and stays in the fabric. -/
theorem State.bunting_frame (s : State) (incs : Nat) : ∃ bt btWrap btSat, s.bunting incs = { s with
    cyc := s.cyc + 1
    cf := { s.cf with bt := bt, btWrap := btWrap, btSat := btSat, btHist := s.btRemembered.cf.btHist } } := by
  obtain ⟨bt, btWrap, btSat, h⟩ := s.btRemembered.btPass_moves incs 128
  rw [State.bunting_eq, h]
  exact ⟨bt, btWrap, btSat, rfl⟩

theorem State.btValue_with_cyc (s : State) (c b : Nat) : State.btValue { s with cyc := c } b = s.btValue b := rfl

theorem State.btValue_bunting (s : State) (incs b : Nat) (hb : b < 128) :
    (s.bunting incs).btValue b = s.btNext incs b (s.btValue b) := by
  rw [State.bunting_eq, State.btValue_with_cyc, State.btValue_btPass _ _ _ _ hb]
  rfl

/-- An enabled counter adds its input, and wraps at 2⁴⁸ or saturates there (R229). -/
theorem State.btNext_eq (s : State) (incs b v n : Nat) (hv : v < 2 ^ 48) (hn : n = v + bits incs (4 * s.get (Reg.CF_BTX_b_input b)) 4) :
    s.btNext incs b v = if s.get (Reg.CF_BTX_b_en b) ≠ 1 then v else if n < 2 ^ 48 then n
      else if s.get (Reg.CF_BTX_b_sat b) = 1 then 2 ^ 48 - 1 else n - 2 ^ 48 := by
  have hin : bits incs (4 * s.get (Reg.CF_BTX_b_input b)) 4 < 2 ^ 4 := bits_lt _ _ _
  unfold State.btNext
  generalize bits incs (4 * s.get (Reg.CF_BTX_b_input b)) 4 = i at hn hin ⊢
  subst hn
  by_cases hen : s.get (Reg.CF_BTX_b_en b) = 1
  · rw [if_pos hen, if_neg (not_not.mpr hen)]
    obtain hlt | hge := Nat.lt_or_ge (v + i) (2 ^ 48)
    · rw [count48_below _ hlt, if_pos hlt]
    · have hwrap : (v + i) % 2 ^ 48 = v + i - 2 ^ 48 := by omega
      rw [if_neg hge.not_gt]
      by_cases hsat : s.get (Reg.CF_BTX_b_sat b) = 1
      · rw [beq_iff_eq.mpr hsat, count48_saturates hge, if_pos hsat]
      · rw [beq_false_of_ne hsat, count48_wraps hge, if_neg hsat, hwrap]
  · rw [if_neg hen, if_pos hen]

theorem execBuntingIncrement_up (s : State) (v : BitVec 512) (hr : s.pw.aonRst = false) (ho : s.pw.st ≠ .off) :
    exec (.buntingIncrement v) s = .next (s.bunting v.toNat) := by
  show execBuntingIncrement v s = _
  rw [execBuntingIncrement, if_neg (by simp [hr, ho])]

theorem execBuntingIncrement_down (s : State) (v : BitVec 512) (h : s.pw.aonRst = true ∨ s.pw.st = .off) :
    exec (.buntingIncrement v) s = .next s := by
  show execBuntingIncrement v s = _
  rw [execBuntingIncrement, if_pos (by simpa using h)]

/-! ## Host-queue monitors (R231) -/

/-- `t` differs from `s` in monitors alone. -/
def State.monMoved (s t : State) : Prop := ∃ mons, t = { s with cf := { s.cf with mons := mons } }

/-- What monitor `h` becomes in a fast cycle with these strobes. -/
def State.monNext (s : State) (levels h : Nat) (m : Monitor) : Monitor :=
  if s.get (Reg.CF_HQ_CFG_h_en h) = 1 then
    (m.strobe (bit levels (s.get (Reg.CF_HQ_CFG_h_enq h))) (bit levels (s.get (Reg.CF_HQ_CFG_h_deq h)))).mark
      (bit levels (s.get (Reg.CF_HQ_CFG_h_enq h))) (bit levels (s.get (Reg.CF_HQ_CFG_h_deq h))) s.fleet
  else m

theorem State.monStep_moves (s t : State) (levels h : Nat) (hm : s.monMoved t) : s.monMoved (t.monStep levels h) := by
  obtain ⟨mons, rfl⟩ := hm
  unfold State.monStep
  split
  · exact ⟨_, rfl⟩
  · exact ⟨_, rfl⟩

theorem State.mon_monStep_same (s : State) (levels h : Nat) : (s.monStep levels h).mon h = s.monNext levels h (s.mon h) := by
  unfold State.monStep State.monNext
  split
  · exact Sparse.get_set_same _ _ _ _
  · rfl

theorem State.mon_monStep_other (s : State) (levels j h : Nat) (hne : h ≠ j) : (s.monStep levels j).mon h = s.mon h := by
  unfold State.monStep
  split
  · exact Sparse.get_set_other _ _ _ _ _ hne
  · rfl

/-- The first `n` monitors in one fast cycle of the strobes. -/
def State.monPass (s : State) (levels n : Nat) : State := (upto n).foldl (fun t h => t.monStep levels h) s

theorem State.monPass_moves (s : State) (levels n : Nat) : s.monMoved (s.monPass levels n) :=
  foldl_keeps _ s.monMoved (fun t h => s.monStep_moves t levels h) _ s ⟨_, rfl⟩

theorem State.mon_monPass (s : State) (levels n h : Nat) (hh : h < n) :
    (s.monPass levels n).mon h = s.monNext levels h (s.mon h) := by
  refine foldl_upto_view _ State.mon s.monMoved (s.monNext levels) (fun t h => s.monStep_moves t levels h) ?_
    (fun t j h => t.mon_monStep_other levels j h) s ⟨_, rfl⟩ n h hh
  rintro t h ⟨mons, rfl⟩
  exact State.mon_monStep_same _ levels h

theorem execHostQueueMonitor_active (s : State) (v : BitVec 1024) (h : s.active = true) :
    exec (.hostQueueMonitor v) s = .next (s.monPass v.toNat 64) := by
  show execHostQueueMonitor v s = _
  rw [execHostQueueMonitor, if_pos h, State.monPass]

/-- What a monitor counts, apart from its delay marker. -/
def Monitor.counted (m : Monitor) : Nat × Nat × Nat × Bool := (m.depth, m.enq, m.deq, m.under)

theorem Monitor.counted_with_delay (m : Monitor) (marker : Option (Nat × Nat)) (delay markers : Nat) (delaySat : Bool) :
    Monitor.counted { m with marker := marker, delay := delay, delaySat := delaySat, markers := markers } = m.counted := rfl

theorem Monitor.counted_with_marker (m : Monitor) (marker : Option (Nat × Nat)) :
    Monitor.counted { m with marker := marker } = m.counted := rfl

/-- Closing a marker and opening one count nothing. -/
theorem Monitor.mark_counted (m : Monitor) (enq deq : Bool) (now : Nat) : (m.mark enq deq now).counted = m.counted := by
  unfold Monitor.mark
  cases m.marker with
  | none =>
    dsimp only
    split_ifs
    · rw [Monitor.counted_with_marker]
    · rfl
  | some x =>
    dsimp only
    split_ifs
    · rw [Monitor.counted_with_marker, Monitor.counted_with_delay]
    · rw [Monitor.counted_with_delay]
    · rw [Monitor.counted_with_marker]
    · rfl

/-- The strobes move what a monitor counts by the four cases of R231; at depth 0 a dequeue only marks the underrun. -/
theorem Monitor.strobe_counted (m : Monitor) (enq deq : Bool) : (m.strobe enq deq).counted =
    match enq, deq with
    | false, false => m.counted
    | true, false => (min (m.depth + 1) (2 ^ 32 - 1), m.enq + 1, m.deq, m.under)
    | true, true => (m.depth, m.enq + 1, m.deq + 1, m.under)
    | false, true => if m.depth = 0 then (0, m.enq, m.deq, true) else (m.depth - 1, m.enq, m.deq + 1, m.under) := by
  cases enq <;> cases deq
  case false.true =>
    split_ifs with h <;> simp [Monitor.counted, Monitor.strobe, b2n, h]
  all_goals simp [Monitor.counted, Monitor.strobe, b2n]

theorem State.monNext_disabled (s : State) (levels h : Nat) (m : Monitor) (he : s.get (Reg.CF_HQ_CFG_h_en h) = 0) :
    s.monNext levels h m = m := if_neg (by omega)

theorem State.monNext_counted (s : State) (levels h : Nat) (m : Monitor) (he : s.get (Reg.CF_HQ_CFG_h_en h) = 1) :
    (s.monNext levels h m).counted =
      (m.strobe (bit levels (s.get (Reg.CF_HQ_CFG_h_enq h))) (bit levels (s.get (Reg.CF_HQ_CFG_h_deq h)))).counted := by
  rw [State.monNext, if_pos he, Monitor.mark_counted]

end Sys2Proof.Machine
end

section
namespace Sys2Proof.Machine

/-- Settles O38: the bunting and the monitors are passes of `btNext` and `monNext` over their units. A dequeue at depth 0 counts
nothing (log entry 57), and the replaced counts head the mirror's history (log entry 55). -/
theorem theBuntingAndTheMonitors : Obligations.TheBuntingAndTheMonitors := by
  unfold Obligations.TheBuntingAndTheMonitors
  refine ⟨?bunting, execBuntingIncrement_down, ?monitors⟩
  case bunting =>
    intro s v hr ho
    have hvalue (b : Nat) := s.btValue_bunting v.toNat b
    obtain ⟨bt, btWrap, btSat, hframe⟩ := s.bunting_frame v.toNat
    have hhead := s.btRemembered_head
    rw [hframe] at hvalue
    refine ⟨_, (execBuntingIncrement_up s v hr ho).trans (congrArg _ hframe), rfl, hhead, rfl, fun b hb hlt n hn => ?_⟩
    exact (hvalue b hb).trans (s.btNext_eq v.toNat b _ n hlt hn)
  case monitors =>
    intro s v ha
    have hmon (h : Nat) := s.mon_monPass v.toNat 64 h
    obtain ⟨mons, hframe⟩ := s.monPass_moves v.toNat 64
    have hexec := execHostQueueMonitor_active s v ha
    generalize s.monPass v.toNat 64 = t at hmon hframe hexec
    refine ⟨t, hexec, by rw [hframe], fun h hh e d he hd => ?_⟩
    have hcounted (hen : s.get (Reg.CF_HQ_CFG_h_en h) = 1) : (t.mon h).counted = ((s.mon h).strobe e d).counted := by
      rw [hmon h hh, s.monNext_counted _ _ _ hen, he, hd]
    rw [Monitor.strobe_counted] at hcounted
    refine ⟨fun hen => (hmon h hh).trans (s.monNext_disabled _ _ _ hen), ?_, ?_, ?_, ?_⟩
    · rintro hen rfl rfl hdepth
      obtain ⟨h1, h2, h3, -⟩ : _ ∧ _ ∧ _ ∧ _ := by simpa only [Monitor.counted, Prod.mk.injEq] using hcounted hen
      exact ⟨by omega, h2, h3⟩
    · rintro hen rfl rfl hdepth
      obtain ⟨h1, h2, h3, -⟩ : _ ∧ _ ∧ _ ∧ _ := by
        simpa only [Monitor.counted, if_neg hdepth.ne', Prod.mk.injEq] using hcounted hen
      exact ⟨h1, h2, h3⟩
    · rintro hen rfl rfl
      obtain ⟨h1, h2, h3, -⟩ : _ ∧ _ ∧ _ ∧ _ := by simpa only [Monitor.counted, Prod.mk.injEq] using hcounted hen
      exact ⟨h1, h2, h3⟩
    · rintro hen rfl rfl hdepth
      obtain ⟨h1, -, h3, h4⟩ : _ ∧ _ ∧ _ ∧ _ := by
        simpa only [Monitor.counted, if_pos hdepth, Prod.mk.injEq] using hcounted hen
      exact ⟨h1, h4, h3⟩

end Sys2Proof.Machine
end

section
namespace Sys2Proof.Machine

/-! ## Registers of the sampling that stand apart -/

theorem State.get_of_regsBut {s t : State} {offs : List Nat} (h : s.regsBut t offs) (f : Fld) (hf : f.off ∉ offs) : t.get f = s.get f := by
  rw [State.get, State.get, h _ hf]

theorem State.regsBut_trans {s t u : State} {offs : List Nat} (h : s.regsBut t offs) (h' : t.regsBut u offs) : s.regsBut u offs :=
  fun o ho => (h' o ho).trans (h o ho)

/-- A count that goes up by 0 stays. -/
theorem State.get_bump_zero (s : State) (f : Fld) (h : f.lo + f.w ≤ 32) : (s.bump f 0).get f = s.get f := by
  rw [State.get_bump_same s f 0 h]
  exact Nat.min_eq_right (Nat.le_sub_one_of_lt (s.get_lt f))

/-- Fleet time depends on the time base's registers, the time and the fast domain's place in it. -/
theorem State.fleet_congr {s t : State} (hc : t.cyc = s.cyc) (hp : t.pw = s.pw) (hr : t.rd Reg.TB_RATE = s.rd Reg.TB_RATE)
    (ho : t.rd64 Reg.TB_OFF_LO = s.rd64 Reg.TB_OFF_LO) : t.fleet = s.fleet := by
  have hsub : t.sub = s.sub := by
    unfold State.sub State.active
    rw [hc, hp]
  have haon : t.fleetAon = s.fleetAon := by
    unfold State.fleetAon State.fleetAt State.raw
    rw [hc, hr, ho]
  rw [State.fleet, haon, hsub, State.fleet]

/-! ## PLAN_LATCH (R232) -/

/-- The registers that a plan's trigger writes before its latch. -/
def planRegs (p : Nat) : List Nat := [Reg.CF_PLAN_TALLY_p p, Reg.CF_PLAN_NEXT_LO_p p, Reg.CF_PLAN_NEXT_LO_p p + 4]

/-- The plan at its due time, with its next due time an interval later. -/
def State.planTimed (s : State) (p : Nat) : State :=
  ((s.passToFleet (s.planNext p)).bump (Reg.CF_PLAN_TALLY_p_missed p) 0).wr64 (Reg.CF_PLAN_NEXT_LO_p p)
    ((s.planNext p + s.planPer p) % 2 ^ 64)

theorem State.planTimed_regsBut (s : State) (p : Nat) : s.regsBut (s.planTimed p) (planRegs p) := by
  intro o ho
  obtain ⟨htally, hlo, hhi⟩ : o ≠ Reg.CF_PLAN_TALLY_p p ∧ o ≠ Reg.CF_PLAN_NEXT_LO_p p ∧ o ≠ Reg.CF_PLAN_NEXT_LO_p p + 4 := by
    simpa [planRegs] using ho
  rw [State.planTimed, State.rd_wr64_other _ _ _ _ hlo hhi, State.rd_bump_other _ _ _ _ htally, State.passToFleet_rd]

theorem State.planTimed_cf (s : State) (p : Nat) : (s.planTimed p).cf = s.cf := by
  rw [State.planTimed, State.wr64_cf, State.bump_cf, State.passToFleet_cf]

theorem State.planTimed_planNext (s : State) (p : Nat) : (s.planTimed p).planNext p = (s.planNext p + s.planPer p) % 2 ^ 64 := by
  rw [State.planNext, State.planTimed, State.rd64_wr64_same, Nat.mod_mod]

theorem State.planTimed_missed (s : State) (p : Nat) :
    (s.planTimed p).get (Reg.CF_PLAN_TALLY_p_missed p) = s.get (Reg.CF_PLAN_TALLY_p_missed p) := by
  have hapart : Reg.CF_PLAN_TALLY_p p ∉ [Reg.CF_PLAN_NEXT_LO_p p, Reg.CF_PLAN_NEXT_LO_p p + 4] := by
    simp only [Reg.CF_PLAN_TALLY_p, Reg.CF_PLAN_NEXT_LO_p, List.mem_cons, List.not_mem_nil, or_false]
    omega
  rw [State.planTimed, State.get_of_regsBut (State.regsBut_wr64 _ _ _) (Reg.CF_PLAN_TALLY_p_missed p) hapart,
    State.get_bump_zero _ _ (by decide : 16 + 16 ≤ 32), State.passToFleet_get]

/-- The time base's registers lie below the sampling's. -/
theorem State.planTimed_fleet (s : State) (p : Nat) : (s.planTimed p).fleet = (s.passToFleet (s.planNext p)).fleet := by
  have hregs := s.planTimed_regsBut p
  have hbelow (o : Nat) (ho : o < 0x12000) : (s.planTimed p).rd o = (s.passToFleet (s.planNext p)).rd o := by
    rw [State.passToFleet_rd]
    refine hregs o ?_
    simp only [planRegs, Reg.CF_PLAN_TALLY_p, Reg.CF_PLAN_NEXT_LO_p, List.mem_cons, List.not_mem_nil, or_false]
    omega
  refine State.fleet_congr (by rw [State.planTimed, State.wr64_cyc, State.bump_cyc]) (by rw [State.planTimed, State.wr64_pw, State.bump_pw])
    (hbelow _ (by decide)) ?_
  rw [State.rd64, State.rd64, hbelow _ (by decide), hbelow _ (by decide)]

/-- A trigger in time, of a plan that no drain holds, latches for its due time. -/
theorem State.planDue_fires (s : State) (p : Nat) (hf : s.planFires p = true)
    (hin : (s.passToFleet (s.planNext p)).sinceFleet (s.planNext p) < s.planPer p) (hh : s.planHeld = false) :
    s.planDue p = (s.planTimed p).planLatch p (s.planNext p % 2 ^ 64) := by
  have hper : (s.passToFleet (s.planNext p)).planPer p = s.planPer p := by
    rw [State.planPer, State.passToFleet_get, State.planPer]
  have hheld : (s.planTimed p).planHeld = false := by
    rw [State.planHeld, State.planTimed, State.wr64_ho, State.bump_ho, State.passToFleet_ho]
    exact hh
  unfold State.planTimed at hheld ⊢
  unfold State.planDue
  simp only [hf, hper, Nat.div_eq_of_lt hin, Nat.zero_add, Nat.one_mul, Nat.zero_mul, Nat.add_zero, hheld, Bool.not_true,
    Bool.false_eq_true, if_false]

theorem State.planDue_off (s : State) (p : Nat) (h : s.planFires p = false) : s.planDue p = s := by
  rw [State.planDue, h]
  rfl

theorem State.planLatch_full (s : State) (p due : Nat) (h : s.bankFree = false) :
    s.planLatch p due = s.bump (Reg.CF_PLAN_TALLY_p_missed p) 1 := by
  unfold State.planLatch
  rw [h]
  rfl

theorem State.clearMons_moves (s : State) (hs : List Nat) : s.monMoved (s.clearMons hs) := by
  refine foldl_keeps _ s.monMoved ?_ hs s ⟨_, rfl⟩
  rintro t h ⟨mons, rfl⟩
  exact ⟨_, rfl⟩

theorem State.mirrorOf_regs (s : State) : s.mirrorOf.regs = s.regs := by
  unfold State.mirrorOf
  split <;> rfl

/-- The bytes of a plan's record before the header and the padding. -/
theorem planBytes (kind len : Nat) : (if kind = 1 then 16 * len else 8 * len) = (if kind = 1 then 16 else 8) * len :=
  (ite_mul _ _ _ _).symm

theorem State.planList_length (s : State) (p : Nat) : (s.planList p).length = s.get (Reg.CF_PLAN_CFG_p_len p) := by
  rw [State.planList, List.length_map, upto, List.length_range]

/-- With a bank free and an area that takes the record, the plan has the bank. -/
theorem State.planLatch_takes (s : State) (p due : Nat) (h : s.bankFree = true) (ha : s.areaRefuses p
      (recLen ((if s.get (Reg.CF_PLAN_CFG_p_kind p) = 1 then 16 else 8) * s.get (Reg.CF_PLAN_CFG_p_len p))) = false) :
    (s.planLatch p due).regs = s.regs ∧ ∃ b ∈ (s.planLatch p due).cf.banks, b.plan = some p ∧ b.area = p ∧ b.time = s.fleet ∧
      b.count = s.get (Reg.CF_PLAN_CFG_p_len p) := by
  rw [← planBytes, ← s.planList_length] at ha
  rw [← s.planList_length]
  unfold State.planLatch
  dsimp only
  rw [h, ha, if_neg (by decide), if_neg Bool.false_ne_true]
  split
  · generalize hu : s.takeBank _ = u
    obtain ⟨mons, hclear⟩ := u.clearMons_moves (s.planList p)
    rw [hclear, ← hu]
    exact ⟨rfl, _, State.mem_takeBank _ _, rfl, rfl, rfl, rfl⟩
  · exact ⟨s.mirrorOf_regs, _, State.mem_takeBank _ _, rfl, rfl, rfl, rfl⟩

theorem State.areaRefuses_congr {s t : State} {a : Nat} (hcf : t.cf = s.cf) (h : t.rd (Reg.CF_AREA_p a) = s.rd (Reg.CF_AREA_p a))
    (hw : t.rd (Reg.CF_AREA_WR_p a) = s.rd (Reg.CF_AREA_WR_p a)) (hr : t.rd (Reg.CF_AREA_RD_p a) = s.rd (Reg.CF_AREA_RD_p a))
    (n : Nat) : t.areaRefuses a n = s.areaRefuses a n := by
  have hsize : t.get (Reg.CF_AREA_p_size a) = s.get (Reg.CF_AREA_p_size a) := congrArg (bits · 16 15) h
  have hmode : t.get (Reg.CF_AREA_p_mode a) = s.get (Reg.CF_AREA_p_mode a) := congrArg (bits · 31 1) h
  have hbytes : t.areaBytes a = s.areaBytes a := by rw [State.areaBytes, hsize, State.areaBytes]
  have hroom : t.areaRoom a = s.areaRoom a := by
    unfold State.areaRoom
    rw [hbytes, hw, hr, hcf]
  rw [State.areaRefuses, hbytes, State.areaStop, hmode, hroom, State.areaRefuses, State.areaStop]

/-- The plan's own registers stand apart from its configuration and its area. -/
theorem planRegs_apart (p o : Nat) (h : o % 64 < 0x20) : o ∉ planRegs p := by
  simp only [planRegs, Reg.CF_PLAN_TALLY_p, Reg.CF_PLAN_NEXT_LO_p, List.mem_cons, List.not_mem_nil, or_false]
  omega

theorem State.planTimed_get_cfg (s : State) (p : Nat) (f : Fld) (h : f.off = Reg.CF_PLAN_CFG_p p) : (s.planTimed p).get f = s.get f := by
  refine State.get_of_regsBut (s.planTimed_regsBut p) f (planRegs_apart p _ ?_)
  rw [h, Reg.CF_PLAN_CFG_p]
  omega

theorem State.planTimed_areaRefuses (s : State) (p n : Nat) : (s.planTimed p).areaRefuses p n = s.areaRefuses p n := by
  have hkept := s.planTimed_regsBut p
  refine State.areaRefuses_congr (s.planTimed_cf p) (hkept _ ?_) (hkept _ ?_) (hkept _ ?_) n
  all_goals
    refine planRegs_apart p _ ?_
    simp only [Reg.CF_AREA_p, Reg.CF_AREA_WR_p, Reg.CF_AREA_RD_p]
    omega

theorem State.planTimed_bankFree (s : State) (p : Nat) : (s.planTimed p).bankFree = s.bankFree := by
  rw [State.bankFree, State.planTimed_cf, State.bankFree]

theorem State.planNext_of_regs {s t : State} (h : t.regs = s.regs) (p : Nat) : t.planNext p = s.planNext p := by
  simp only [State.planNext, State.rd64, State.rd, h]

theorem execPlanLatch_active (s : State) (p : Fin 16) (h : s.active = true) : exec (.planLatch p) s = .next (s.planDue p.val) := by
  show execPlanLatch p s = _
  rw [execPlanLatch, if_pos h]

end Sys2Proof.Machine
end

section
namespace Sys2Proof.Machine

/-! ## LATCH_BANK_DRAIN (R236 to R239) -/

/-- What a record's way into its area leaves alone: the banks and what waits for one, and the queues. -/
def State.latchedQueues (s : State) : List Bank × List (Nat × Nat) × Nat × List Queue :=
  (s.cf.banks, s.cf.waiting, s.cf.snapWait, s.queues)

/-- In overwrite mode the oldest records make room: RD moves over them, and they count as dropped. -/
theorem State.makeRoom_kept (s : State) (a n : Nat) (rs : List (Nat × Nat)) :
    s.regsBut (s.makeRoom a n rs) [Reg.CF_AREA_RD_p a, Reg.CF_AREA_DROP_p a] ∧
      (s.makeRoom a n rs).latchedQueues = s.latchedQueues := by
  induction rs generalizing s with
  | nil => exact ⟨fun _ _ => rfl, rfl⟩
  | cons r rs ih =>
    unfold State.makeRoom
    split
    · exact ⟨fun _ _ => rfl, rfl⟩
    · dsimp only
      generalize hu : State.bump _ _ _ = u
      obtain ⟨hregs, hkept⟩ := ih u
      refine ⟨State.regsBut_trans (fun o ho => ?_) hregs, hkept.trans ?_⟩
      · obtain ⟨hrd, hdrop⟩ := not_or.mp (mt List.mem_pair.mpr ho)
        rw [← hu, State.rd_bump_other _ _ _ _ hdrop, State.rd_wr_other _ _ _ _ hrd, State.setCf_rd]
      · rw [← hu]
        rfl

/-- A record that enters its area moves WR past it and is counted. -/
theorem State.areaWrite_spec (s : State) (b : Bank) :
    (s.areaWrite b).2.rd (Reg.CF_AREA_WR_p b.area) = (s.rd (Reg.CF_AREA_WR_p b.area) + b.len) % 2 ^ 32 ∧
      (s.areaWrite b).2.get Reg.CF_RECORDS_count = satAdd (2 ^ Reg.CF_RECORDS_count.w - 1) (s.get Reg.CF_RECORDS_count) 1 ∧
      (s.areaWrite b).2.latchedQueues = s.latchedQueues := by
  obtain ⟨hregs, hkept⟩ := s.makeRoom_kept b.area b.len (s.areaRecs b.area)
  have hwr := hregs (Reg.CF_AREA_WR_p b.area) (by simp [Reg.CF_AREA_WR_p, Reg.CF_AREA_RD_p, Reg.CF_AREA_DROP_p])
  have hcount := State.get_of_regsBut hregs Reg.CF_RECORDS_count (by
    simp only [Reg.CF_RECORDS_count, Reg.CF_RECORDS, Reg.CF_AREA_RD_p, Reg.CF_AREA_DROP_p, List.mem_cons, List.not_mem_nil, or_false]
    omega)
  have hapart : Reg.CF_AREA_WR_p b.area ≠ Reg.CF_RECORDS := by
    simp only [Reg.CF_AREA_WR_p, Reg.CF_RECORDS]
    omega
  unfold State.areaWrite
  dsimp only
  generalize s.makeRoom b.area b.len (s.areaRecs b.area) = u at hwr hcount hkept ⊢
  rw [State.setCf_rd, State.setCf_get, State.rd_bump_other _ _ _ _ hapart, State.rd_wr_same,
    State.get_bump_same _ Reg.CF_RECORDS_count _ (by decide), State.get_wr_other _ _ _ _ hapart.symm, Nat.mod_mod]
  refine ⟨?_, ?_, hkept⟩
  · rw [← hwr]
  · rw [← hcount, State.areaPut, State.setCf_get]

/-- The end of a record touches the plan's tally or the snapshot's offset, and of the queues that of its SAMPLE. -/
theorem State.bankDone_kept (s : State) (b : Bank) (off : Nat) : (s.bankDone b off).cf = s.cf ∧
    (s.bankDone b off).rd (Reg.CF_AREA_WR_p b.area) = s.rd (Reg.CF_AREA_WR_p b.area) ∧
      (s.bankDone b off).rd Reg.CF_RECORDS = s.rd Reg.CF_RECORDS := by
  unfold State.bankDone
  split
  · exact ⟨rfl, rfl, rfl⟩
  · split
    next p _ =>
      refine ⟨rfl, State.rd_bump_other _ _ _ _ ?_, State.rd_bump_other _ _ _ _ ?_⟩
      all_goals
        simp only [Reg.CF_PLAN_TALLY_p_fired, Reg.CF_PLAN_TALLY_p, Reg.CF_AREA_WR_p, Reg.CF_RECORDS]
        omega
    next =>
      have hapart : Reg.CF_AREA_WR_p b.area ≠ Reg.CF_SNAP_OFF := by
        simp only [Reg.CF_AREA_WR_p, Reg.CF_SNAP_OFF]
        omega
      refine ⟨by rw [State.put_cf, State.put_cf], ?_, ?_⟩
      · rw [State.rd_put_other _ _ _ _ hapart, State.rd_put_other _ _ _ _ hapart]
      · rw [State.rd_put_other _ _ _ _ (by decide), State.rd_put_other _ _ _ _ (by decide)]

/-- A queue with a command in flight is one of the queues. -/
theorem State.lt_of_mem_flights {s : State} {q : Nat} {f : Flight} (h : f ∈ (s.queue q).flights) : q < s.queues.length := by
  by_contra hq
  rw [State.queue, List.getD_eq_default _ _ (Nat.le_of_not_lt hq)] at h
  exact absurd h List.not_mem_nil

/-- A SAMPLE's record ends it with the code of its latch. -/
theorem State.ended_bankDone (s : State) (b : Bank) (off : Nat) (q : Nat) (f : Flight) (hb : b.cmd = some (q, f.seq))
    (hf : f ∈ (s.queue q).flights) (hd : f.done = none) : (s.bankDone b off).ended q f.slot b.code := by
  unfold State.bankDone
  rw [hb]
  exact s.ended_finish q f _ (State.lt_of_mem_flights hf) hf hd

/-- With nothing waiting for a bank, none is taken. -/
theorem State.bankWaiters_none (s : State) (hw : s.cf.waiting = []) (hs : s.cf.snapWait = 0) : s.bankWaiters = s := by
  have hsame : (s.setCf fun c => { c with waiting := [] }) = s := by rw [State.setCf, ← hw]
  rw [State.bankWaiters, hw, State.sampleWaiters, hsame, hs, State.snapWaiters]

/-- The state in which the oldest bank's record enters its area: the banks behind it stand, in the next fast cycle. -/
def State.bankOut (s : State) (bs : List Bank) : State := s.nextCycle.setCf fun c => { c with banks := bs }

/-- What a drain leaves once the record has its area. -/
theorem State.bankDrain_done (s : State) (b : Bank) (bs : List Bank) (hb : s.cf.banks = b :: bs) (hw : s.cf.waiting = [])
    (hs : s.cf.snapWait = 0) :
    s.bankDrain = (((s.bankOut bs).areaWrite b).2.bankDone b ((s.bankOut bs).areaWrite b).1).need := by
  obtain ⟨-, -, hkept⟩ := (s.bankOut bs).areaWrite_spec b
  simp only [State.latchedQueues, Prod.mk.injEq] at hkept
  obtain ⟨-, hwait, hsnap, -⟩ := hkept
  have hcf := (((s.bankOut bs).areaWrite b).2.bankDone_kept b ((s.bankOut bs).areaWrite b).1).1
  unfold State.bankDrain
  rw [hb]
  dsimp only
  rw [← State.bankOut, State.bankWaiters_none]
  · rw [hcf, hwait]
    exact hw
  · rw [hcf, hsnap]
    exact hs

theorem State.bankDrain_none (s : State) (h : s.cf.banks = []) : s.bankDrain = s := by
  unfold State.bankDrain
  rw [h]

/-- The oldest bank empties (R236): what shows in the fabric, in the area and in the queue of its SAMPLE. -/
theorem State.bankDrain_spec (s : State) (b : Bank) (bs : List Bank) (hb : s.cf.banks = b :: bs) (hw : s.cf.waiting = [])
    (hs : s.cf.snapWait = 0) : s.bankDrain.cf.banks = bs ∧
      s.bankDrain.get Reg.CF_RECORDS_count = satAdd (2 ^ Reg.CF_RECORDS_count.w - 1) (s.get Reg.CF_RECORDS_count) 1 ∧
      s.bankDrain.rd (Reg.CF_AREA_WR_p b.area) = (s.rd (Reg.CF_AREA_WR_p b.area) + b.len) % 2 ^ 32 ∧
      ∀ (q seq : Nat) (f : Flight), b.cmd = some (q, seq) → f ∈ (s.queue q).flights → f.seq = seq → f.done = none →
        s.bankDrain.ended q f.slot b.code := by
  obtain ⟨hwr, hcount, hkept⟩ := (s.bankOut bs).areaWrite_spec b
  simp only [State.latchedQueues, Prod.mk.injEq] at hkept
  obtain ⟨hbanks, -, -, hqueues⟩ := hkept
  rw [s.bankDrain_done b bs hb hw hs]
  generalize (s.bankOut bs).areaWrite b = r at hwr hcount hbanks hqueues
  obtain ⟨hcf, hdoneWr, hdoneCount⟩ := r.2.bankDone_kept b r.1
  refine ⟨?_, ?_, ?_, ?_⟩
  · rw [State.need_cf, hcf, hbanks]
    rfl
  · rw [State.need_get, State.get, show Reg.CF_RECORDS_count.off = Reg.CF_RECORDS from rfl, hdoneCount]
    exact hcount
  · rw [State.need_rd, hdoneWr, hwr]
    rfl
  · rintro q seq f hcmd hf rfl hd
    have hmem : f ∈ (r.2.queue q).flights := by rwa [State.queue_of_queues hqueues]
    refine State.ended_of_flights ?_ (r.2.ended_bankDone b r.1 q f hcmd hmem hd)
    rw [State.queue_of_queues (State.need_queues _)]

theorem execLatchBankDrain_active (s : State) (h : s.active = true) : exec .latchBankDrain s = .next s.bankDrain := by
  show execLatchBankDrain s = _
  rw [execLatchBankDrain, if_pos h]

end Sys2Proof.Machine
end

section
namespace Sys2Proof.Machine

/-! ## STRIKE_LATCH (R216 to R219) -/

/-- The time base's unit is the last to latch: it shows the time and the strike's identity. -/
theorem State.latchUnits_timeBase (s : State) (units seq issuer : Nat) (fleet late : Bool) (h : bit units 9 = true) :
    ∃ (t : State) (v : Nat), s.latchUnits units seq issuer fleet late = (t.wr64 Reg.TB_STRIKE_LO t.fleet).wr Reg.TB_STRIKE_ID v := by
  unfold State.latchUnits
  exact ⟨_, _, if_pos h⟩

/-- The time that TB_STRIKE shows is the fleet time of the latch. -/
theorem State.rd64_strike (t : State) (v : Nat) :
    ((t.wr64 Reg.TB_STRIKE_LO t.fleet).wr Reg.TB_STRIKE_ID v).rd64 Reg.TB_STRIKE_LO =
      ((t.wr64 Reg.TB_STRIKE_LO t.fleet).wr Reg.TB_STRIKE_ID v).fleet := by
  generalize hu : (t.wr64 Reg.TB_STRIKE_LO t.fleet).wr Reg.TB_STRIKE_ID v = u
  have hother (o : Nat) (hid : o ≠ Reg.TB_STRIKE_ID) : u.rd o = (t.wr64 Reg.TB_STRIKE_LO t.fleet).rd o := by
    rw [← hu, State.rd_wr_other _ _ _ _ hid]
  have hbase (o : Nat) (hid : o ≠ Reg.TB_STRIKE_ID) (hlo : o ≠ Reg.TB_STRIKE_LO) (hhi : o ≠ Reg.TB_STRIKE_LO + 4) : u.rd o = t.rd o := by
    rw [hother o hid, State.rd_wr64_other _ _ _ _ hlo hhi]
  have hfleet : u.fleet = t.fleet := by
    refine State.fleet_congr (by rw [← hu, State.wr_cyc, State.wr64_cyc]) (by rw [← hu, State.wr_pw, State.wr64_pw])
      (hbase _ (by decide) (by decide) (by decide)) ?_
    rw [State.rd64, State.rd64, hbase _ (by decide) (by decide) (by decide), hbase _ (by decide) (by decide) (by decide)]
  have hlt : t.fleet < 2 ^ 64 := Nat.mod_lt _ (Nat.two_pow_pos 64)
  rw [hfleet, State.rd64, hother _ (by decide), hother _ (by decide), ← State.rd64, State.rd64_wr64_same, Nat.mod_eq_of_lt hlt]

/-- A command whose work has ended stays so when other work ends. -/
theorem State.ended_finish_of_ended (s : State) (q slot code p seq : Nat) (d : Done) (h : s.ended q slot code) :
    (s.finish p seq d).ended q slot code := by
  obtain ⟨f, hf, hslot, e, he, hcode⟩ := h
  by_cases hq : q = p
  · subst hq
    refine ⟨f, ?_, hslot, e, he, hcode⟩
    rw [State.finish, State.queue_setQueue_same _ _ _ (State.lt_of_mem_flights hf)]
    exact List.mem_map.mpr ⟨f, hf, by simp [he]⟩
  · refine ⟨f, ?_, hslot, e, he, hcode⟩
    rwa [State.finish, State.queue_setQueue_other _ _ _ _ hq]

/-- The end of other work leaves a command in flight to its work. -/
theorem State.mem_flights_finish (s : State) (q p seq : Nat) (d : Done) (f : Flight) (hf : f ∈ (s.queue q).flights)
    (hne : q ≠ p ∨ f.seq ≠ seq) : f ∈ ((s.finish p seq d).queue q).flights := by
  by_cases hq : q = p
  · subst hq
    rw [State.finish, State.queue_setQueue_same _ _ _ (State.lt_of_mem_flights hf)]
    refine List.mem_map.mpr ⟨f, hf, ?_⟩
    simp [hne.resolve_left (not_not.mpr rfl)]
  · rwa [State.finish, State.queue_setQueue_other _ _ _ _ hq]

/-- The SNAPSHOTs `ws` of a strike end, each with its `d`. -/
def State.finishAll (s : State) (ws : List (Nat × Nat × Nat)) (d : Nat × Nat × Nat → Done) : State :=
  ws.foldl (fun u w => u.finish w.1 w.2.1 (d w)) s

theorem State.finishAll_sansQueues (s : State) (ws : List (Nat × Nat × Nat)) (d : Nat × Nat × Nat → Done) :
    (s.finishAll ws d).sansQueues = s.sansQueues :=
  foldl_sansQueues _ (fun _ _ => State.finish_sansQueues _ _ _ _) ws s

theorem State.ended_finishAll (s : State) (ws : List (Nat × Nat × Nat)) (d : Nat × Nat × Nat → Done) (q slot code : Nat)
    (h : s.ended q slot code) : (s.finishAll ws d).ended q slot code :=
  foldl_keeps _ (fun t => t.ended q slot code) (fun t w => t.ended_finish_of_ended q slot code w.1 w.2.1 (d w)) ws s h

/-- Every command in flight that waits among them has ended. -/
theorem State.finishAll_ends (ws : List (Nat × Nat × Nat)) (s : State) (d : Nat × Nat × Nat → Done) (w : Nat × Nat × Nat) (hw : w ∈ ws)
    (f : Flight) (hf : f ∈ (s.queue w.1).flights) (hseq : f.seq = w.2.1) (hd : f.done = none) :
    ∃ code, (s.finishAll ws d).ended w.1 f.slot code := by
  induction ws generalizing s with
  | nil => cases hw
  | cons x xs ih =>
    change ∃ code, ((s.finish x.1 x.2.1 (d x)).finishAll xs d).ended w.1 f.slot code
    by_cases hx : w.1 = x.1 ∧ f.seq = x.2.1
    · obtain ⟨hq, hs⟩ := hx
      refine ⟨(d x).code, State.ended_finishAll _ xs d w.1 f.slot _ ?_⟩
      rw [← hq, ← hs]
      exact s.ended_finish w.1 f (d x) (State.lt_of_mem_flights hf) hf hd
    · have hin : w ∈ xs := (List.mem_cons.mp hw).resolve_left fun hwx => hx (hwx ▸ ⟨rfl, hwx ▸ hseq⟩)
      exact ih _ hin (s.mem_flights_finish w.1 x.1 x.2.1 (d x) f hf (not_and_or.mp hx))

/-- The state a pending strike fires in: its time is reached, and it is pending no longer. -/
def State.strikeDue (s : State) (k : Strike) : State :=
  { s.passToFleet k.at_ with tb := { s.tb with strikes := s.tb.strikes.filter fun x => x.at_ != k.at_ } }

theorem State.with_tb_kept (s : State) (tb : TimeBase) :
    State.cyc { s with tb := tb } = s.cyc ∧ State.regs { s with tb := tb } = s.regs ∧ State.queues { s with tb := tb } = s.queues :=
  ⟨rfl, rfl, rfl⟩

theorem State.strikeDue_kept (s : State) (k : Strike) :
    (s.strikeDue k).cyc = (s.passToFleet k.at_).cyc ∧ (s.strikeDue k).regs = s.regs ∧ (s.strikeDue k).queues = s.queues := by
  rw [← s.passToFleet_regs k.at_, ← s.passToFleet_queues k.at_]
  exact State.with_tb_kept _ _

theorem State.strikeLatch_fires (s : State) (k : Strike) (h : firstStrike s.tb.strikes = some k) :
    s.strikeLatch = (s.strikeDue k).strikeFire k false := by
  unfold State.strikeLatch
  rw [h]
  dsimp only
  rw [State.passToFleet_tb, State.strikeDue]

theorem State.strikeLatch_none (s : State) (h : s.tb.strikes = []) : s.strikeLatch = s := by
  rw [State.strikeLatch, h, firstStrike]

/-- The fleet-wide strikes that a latch answers for, by sequence and issuer. -/
def Strike.ids (k : Strike) : List (Nat × Nat) := (if k.fleet then [(k.seq, k.issuer)] else []) ++ k.merged

/-- The state at a strike's latch: its units have latched, and it counts as struck. -/
def State.strikeStruck (s : State) (k : Strike) (late : Bool) : State :=
  let t := s.latchUnits k.units k.seq k.issuer k.fleet late
  { t with tb := { t.tb with struck := t.tb.struck ++ k.ids.map fun i => (k.at_, i.1, i.2) } }

theorem State.strikeFire_eq (s : State) (k : Strike) (late : Bool) : s.strikeFire k late =
    (s.strikeStruck k late).finishAll k.waiters fun w => s.strikeEnd k w.1 w.2.1 w.2.2 := by
  rw [State.strikeFire, State.finishAll, State.strikeStruck, Strike.ids]

theorem State.strikeStruck_queues (s : State) (k : Strike) (late : Bool) : (s.strikeStruck k late).queues = s.queues :=
  congrArg Prod.fst (s.latchUnits_queuesTime k.units k.seq k.issuer k.fleet late)

theorem State.strikeStruck_strikes (s : State) (k : Strike) (late : Bool) : (s.strikeStruck k late).tb.strikes = s.tb.strikes :=
  congrArg (fun x => x.2.strikes) (s.latchUnits_queuesTime k.units k.seq k.issuer k.fleet late)

theorem State.strikeStruck_ids (s : State) (k : Strike) (late : Bool) (h : k.fleet = true) :
    (k.at_, k.seq, k.issuer) ∈ (s.strikeStruck k late).tb.struck := by
  refine List.mem_append_right _ (List.mem_map.mpr ⟨(k.seq, k.issuer), ?_, rfl⟩)
  rw [Strike.ids, h]
  exact List.mem_cons_self

theorem State.strikeStruck_time (s : State) (k : Strike) (late : Bool) (h : bit k.units 9 = true) :
    (s.strikeStruck k late).rd64 Reg.TB_STRIKE_LO = (s.strikeStruck k late).fleet := by
  obtain ⟨t, v, hu⟩ := s.latchUnits_timeBase k.units k.seq k.issuer k.fleet late h
  have htime := t.rd64_strike v
  rw [← hu] at htime
  exact htime

/-- What a strike that fires leaves: the pending strikes, the time shown, the strikes remembered and the SNAPSHOTs ended. -/
theorem State.strikeFire_spec (s : State) (k : Strike) (late : Bool) : (s.strikeFire k late).tb.strikes = s.tb.strikes ∧
    (bit k.units 9 = true → (s.strikeFire k late).rd64 Reg.TB_STRIKE_LO = (s.strikeFire k late).fleet) ∧
    (k.fleet = true → (k.at_, k.seq, k.issuer) ∈ (s.strikeFire k late).tb.struck) ∧
    ∀ w ∈ k.waiters, ∀ f ∈ (s.queue w.1).flights, f.seq = w.2.1 → f.done = none → ∃ code, (s.strikeFire k late).ended w.1 f.slot code := by
  have hsans := (s.strikeStruck k late).finishAll_sansQueues k.waiters fun w => s.strikeEnd k w.1 w.2.1 w.2.2
  have hends := State.finishAll_ends k.waiters (s.strikeStruck k late) fun w => s.strikeEnd k w.1 w.2.1 w.2.2
  rw [← State.strikeFire_eq] at hsans hends
  have htb := State.kept_of_sansQueues State.tb (fun _ => rfl) hsans
  refine ⟨htb ▸ s.strikeStruck_strikes k late, fun h => ?_, fun h => htb ▸ s.strikeStruck_ids k late h, fun w hw f hf => ?_⟩
  · rw [State.kept_of_sansQueues (fun u => u.rd64 Reg.TB_STRIKE_LO) (fun _ => rfl) hsans,
      State.kept_of_sansQueues State.fleet (fun _ => rfl) hsans]
    exact s.strikeStruck_time k late h
  · refine hends w hw f ?_
    rwa [State.queue_of_queues (s.strikeStruck_queues k late)]

theorem execStrikeLatch_active (s : State) (h : s.active = true) : exec .strikeLatch s = .next s.strikeLatch := by
  show execStrikeLatch s = _
  rw [execStrikeLatch, if_pos h]

end Sys2Proof.Machine
end

section
namespace Sys2Proof.Machine

/-- Settles O39: a plan in time is `planTimed` and its latch, a drain is `bankDrain_spec`, and a strike `strikeFire_spec` in the state
in which it falls due. -/
theorem plansLatchAndBanksDrain : Obligations.PlansLatchAndBanksDrain := by
  unfold Obligations.PlansLatchAndBanksDrain
  refine ⟨?off, ?timed, ?takes, ?misses, State.planLatch_full, ?idle, ?drains, ?due, ?strikes, ?noStrike⟩
  case off =>
    intro s p ha hf
    rw [execPlanLatch_active s p ha, s.planDue_off _ hf]
  case timed =>
    rintro s p u ha hf rfl hin hh
    refine ⟨s.planTimed p.val, ?_, ?_, s.planTimed_planNext _, s.planTimed_missed _⟩
    · rw [execPlanLatch_active s p ha, s.planDue_fires _ hf hin hh]
    · rw [State.planTimed, State.wr64_cyc, State.bump_cyc]
  case takes =>
    rintro s p u ha hf rfl hin hh hfree harea
    have hkind := s.planTimed_get_cfg p.val (Reg.CF_PLAN_CFG_p_kind p.val) rfl
    have hlen := s.planTimed_get_cfg p.val (Reg.CF_PLAN_CFG_p_len p.val) rfl
    obtain ⟨hregs, b, hb, hplan, hbarea, htime, hcount⟩ := (s.planTimed p.val).planLatch_takes p.val (s.planNext p.val % 2 ^ 64)
      ((s.planTimed_bankFree p.val).trans hfree) (by rw [hkind, hlen, State.planTimed_areaRefuses, harea])
    refine ⟨_, b, ?_, hb, hplan, hbarea, htime.trans (s.planTimed_fleet p.val), hcount.trans hlen, ?_⟩
    · rw [execPlanLatch_active s p ha, s.planDue_fires _ hf hin hh]
    · rw [State.planNext_of_regs hregs, State.planTimed_planNext]
  case misses =>
    rintro s p u ha hf rfl hin hh hfree
    refine ⟨(s.planTimed p.val).bump (Reg.CF_PLAN_TALLY_p_missed p.val) 1, ?_, ?_, ?_⟩
    · rw [execPlanLatch_active s p ha, s.planDue_fires _ hf hin hh, State.planLatch_full _ _ _ ((s.planTimed_bankFree p.val).trans hfree)]
    · rw [State.bump_cf, State.planTimed_cf]
    · rw [State.get_bump_same _ _ _ (by decide : 16 + 16 ≤ 32), State.planTimed_missed]
  case idle =>
    intro s ha hb
    rw [execLatchBankDrain_active s ha, s.bankDrain_none hb]
  case drains =>
    intro s b bs ha hb hw hs _ _
    exact ⟨_, execLatchBankDrain_active s ha, s.bankDrain_spec b bs hb hw hs⟩
  case due =>
    intro s k ha hk
    obtain ⟨hcyc, hregs, -⟩ := s.strikeDue_kept k
    refine ⟨s.strikeDue k, ?_, hcyc, hregs, rfl⟩
    rw [execStrikeLatch_active s ha, s.strikeLatch_fires k hk]
  case strikes =>
    intro s k ha hk
    obtain ⟨-, -, hqueues⟩ := s.strikeDue_kept k
    obtain ⟨hstrikes, htime, hstruck, hends⟩ := (s.strikeDue k).strikeFire_spec k false
    refine ⟨_, (execStrikeLatch_active s ha).trans (congrArg _ (s.strikeLatch_fires k hk)), hstrikes, htime, hstruck, fun w hw f hf => ?_⟩
    refine hends w hw f ?_
    rwa [State.queue_of_queues hqueues]
  case noStrike =>
    intro s ha h
    rw [execStrikeLatch_active s ha, s.strikeLatch_none h]

end Sys2Proof.Machine
end

/-! # Check taps: the report of a waiting error (chapter 08) -/

section
namespace Sys2Proof.Machine

theorem execMtErrReportTimeout_active (s : State) (r : Fin 64) (f : BitVec 52) (w : Bool) (ha : s.active = true) :
    exec (.mtErrReportTimeout r f w) s = .next (s.mtErrTimeout r.val f.toNat w) := by
  show execMtErrReportTimeout r f w s = _
  rw [execMtErrReportTimeout, if_pos ha]

/-- A traversal of frame 5 of region 0 whose error is noted under tap 256, a number no tap has: the memory taps are 0 to 15,
and the read-master tap 24. -/
def tap256Error : Tracker := { region := 0, frame := 5, wr := false, firstAt := 0, err := some (256, 0) }

/-- A die with its fast clock running that tracks this traversal alone. -/
def tap256Waits : State :=
  { State.reset with
    pw := { State.reset.pw with st := .active, ack := true, fastRst := false, laneRst := 0, portRst := 0 }
    ck := { State.reset.ck with trackers := [tap256Error] } }

/-- Tap 256 does not fit the 8 bits of `CK_LAST_SRC.src` (R269), and its ninth bit makes the region read 1. -/
theorem tap256Waits_reports_region_one :
    (tap256Waits.mtErrTimeout 0 5 false).rd Reg.CK_LAST_SRC / 2 ^ 16 % 256 = 1 := by
  decide +kernel

/-- Refutes O42: its clause on the last fault lets the tap of a waiting error be any number. That of `tap256Waits`, which no
beat notes, carries into the region's byte of `CK_LAST_SRC`: region 0 is reported as region 1. -/
theorem not_traversalsTaintsAndTheJackEndInTime : ¬ Obligations.TraversalsTaintsAndTheJackEndInTime := by
  unfold Obligations.TraversalsTaintsAndTheJackEndInTime
  rintro ⟨-, -, -, -, hlast, -, -, -⟩
  have hactive : tap256Waits.active = true := rfl
  obtain ⟨t, hexec, -, -, hregion⟩ := hlast tap256Waits 0 5 false tap256Error 256 0 hactive (by decide +kernel) rfl
  obtain rfl : tap256Waits.mtErrTimeout 0 5 false = t :=
    Host.Outcome.next.inj ((execMtErrReportTimeout_active tap256Waits 0 5 false hactive).symm.trans hexec)
  have hone_eq_zero : 1 = 0 := tap256Waits_reports_region_one.symm.trans hregion
  exact Nat.one_ne_zero hone_eq_zero

end Sys2Proof.Machine
end

/-! # The spot checker's verdicts (chapter 10) -/

section
namespace Sys2Proof.Machine

/-! ## What a verdict leaves alone -/

/-- The registers that count known answers, and the work of the lanes (R332). -/
def checkCount (off : Nat) : Bool := decide (off = Reg.XC_KAT ∨ 0x30100 ≤ off ∧ off < 0x30200)

theorem not_recordReg_of_checkCount {off : Nat} (h : checkCount off = true) : recordReg off = false := by
  have hcount : off = 0x30020 ∨ 0x30100 ≤ off ∧ off < 0x30200 := of_decide_eq_true h
  exact decide_eq_false (by omega)

/-- The time and the counts of the checker. -/
def State.counts (s : State) : Nat × Sparse Word := (s.cyc, s.regs.filter fun e => checkCount e.1)

/-- The time and the counts of the checker, with the arbitration under way and those that wait. -/
def State.judging (s : State) : (Nat × Sparse Word) × Option Arb × List Nat := (s.counts, s.xc.arb, s.xc.arbQ)

theorem State.cyc_of_counts {s t : State} (h : t.counts = s.counts) : t.cyc = s.cyc := congrArg Prod.fst h

theorem State.rd_of_counts {s t : State} (h : t.counts = s.counts) (off : Nat) (ho : checkCount off = true) : t.rd off = s.rd off := by
  have hr := congrArg (fun c => Sparse.get resetWord c.2 off) h
  dsimp only [State.counts] at hr
  rw [Sparse.get_filter resetWord checkCount t.regs off ho, Sparse.get_filter resetWord checkCount s.regs off ho] at hr
  exact congrArg BitVec.toNat hr

theorem State.get_of_counts {s t : State} (h : t.counts = s.counts) (f : Fld) (ho : checkCount f.off = true) : t.get f = s.get f := by
  rw [State.get, State.get, State.rd_of_counts h f.off ho]

theorem State.rd64_of_counts {s t : State} (h : t.counts = s.counts) (lo : Nat) (hl : checkCount lo = true)
    (hh : checkCount (lo + 4) = true) : t.rd64 lo = s.rd64 lo := by
  rw [State.rd64, State.rd64, State.rd_of_counts h lo hl, State.rd_of_counts h _ hh]

theorem State.counts_of_judging {s t : State} (h : t.judging = s.judging) : t.counts = s.counts := congrArg Prod.fst h

theorem State.arb_of_judging {s t : State} (h : t.judging = s.judging) : t.xc.arb = s.xc.arb := congrArg (fun x => x.2.1) h

theorem State.arbQ_of_judging {s t : State} (h : t.judging = s.judging) : t.xc.arbQ = s.xc.arbQ := congrArg (fun x => x.2.2) h

/-- Recording touches none of it. -/
theorem State.judging_of_unrecorded {s t : State} (h : t.unrecorded = s.unrecorded) : t.judging = s.judging := by
  refine State.kept_of_unrecorded State.judging (fun u => ?_) h
  have hregs : u.unrecorded.regs.filter (fun e => checkCount e.1) = u.regs.filter fun e => checkCount e.1 := by
    refine (List.filter_filter ..).trans (List.filter_congr fun e _ => ?_)
    cases he : checkCount e.1 with
    | true => rw [not_recordReg_of_checkCount he]; rfl
    | false => rfl
  rw [State.judging, State.counts, hregs]
  rfl

theorem State.wr_judging (s : State) (off v : Nat) (h : checkCount off = false) : (s.wr off v).judging = s.judging := by
  have hregs : (s.wr off v).regs.filter (fun e => checkCount e.1) = s.regs.filter fun e => checkCount e.1 :=
    Sparse.filter_set resetWord checkCount s.regs off _ h
  rw [State.judging, State.counts, hregs]
  rfl

theorem State.put_judging (s : State) (f : Fld) (v : Nat) (h : checkCount f.off = false) : (s.put f v).judging = s.judging :=
  s.wr_judging f.off _ h

theorem State.bump_judging (s : State) (f : Fld) (n : Nat) (h : checkCount f.off = false) : (s.bump f n).judging = s.judging :=
  s.wr_judging f.off _ h

theorem State.incr_judging (s : State) (off n : Nat) (h : checkCount off = false) : (s.incr off n).judging = s.judging :=
  s.wr_judging off _ h

theorem State.setCk_judging (s : State) (f : Taps → Taps) : (s.setCk f).judging = s.judging := rfl

theorem State.raise_judging (s : State) (n : Nat) : (s.raise n).judging = s.judging := State.judging_of_unrecorded (s.raise_unrecorded n)

theorem State.notice_judging (s : State) (e : Nat) (h : e < 32) : (s.notice e).judging = s.judging :=
  State.judging_of_unrecorded (s.notice_unrecorded e h)

theorem State.fault_judging (s : State) (code unit inst arg : Nat) : (s.fault code unit inst arg).judging = s.judging :=
  State.judging_of_unrecorded (s.fault_unrecorded code unit inst arg)

theorem State.refuseDown_unrecorded (s : State) (c unit : Nat) (h : c < 4) : (s.refuseDown c unit).unrecorded = s.unrecorded := by
  rw [State.refuseDown, State.refusal, State.record_unrecorded _ _ _ _ _ _ (by decide), State.noteRefusal_unrecorded _ _ _ _ h]

theorem State.offer_unrecorded (s : State) (o : Offer) : (s.offer o).2.unrecorded = s.unrecorded := by
  unfold State.offer
  dsimp only
  split_ifs
  · exact (foldl_unrecorded _ (fun t _ => t.refuseDown_unrecorded _ _ o.cls_lt) _ _).trans (s.offerRaw_unrecorded o)
  · exact s.offerRaw_unrecorded o
  · exact (State.record_unrecorded _ 1 _ _ _ _ (by decide)).trans (s.offerRaw_unrecorded o)

theorem State.offer_judging (s : State) (o : Offer) : (s.offer o).2.judging = s.judging :=
  State.judging_of_unrecorded (s.offer_unrecorded o)

theorem State.ringPut_judging {s t : State} {dest ents addr wr rd : Nat} {bs : List Byte}
    (h : s.ringPut dest ents addr wr rd bs = some (some t)) : t.judging = s.judging := by
  unfold State.ringPut at h
  dsimp only at h
  split_ifs at h <;> cases h <;> rfl

/-! ### Taints (R321 to R326) -/

theorem State.taintRecord_judging (s : State) (pay : List Byte) (flags origin sent : Nat) :
    (s.taintRecord pay flags origin sent).judging = s.judging := by
  unfold State.taintRecord
  dsimp only
  rw [State.notice_judging _ _ (by decide)]
  split
  · rfl
  · exact State.bump_judging _ _ _ (by decide)
  next h => exact (State.incr_judging _ _ _ (by decide)).trans (State.ringPut_judging h)

theorem State.taintSweep_judging (s : State) : s.taintSweep.judging = s.judging := s.setCk_judging _

theorem State.setTaint_judging (s : State) (i : Nat) (e : Option TaintEntry) : (s.setTaint i e).judging = s.judging :=
  s.setCk_judging _

theorem State.taintEntry_judging (s : State) (step : Nat) : (s.taintEntry step).2.judging = s.judging := by
  unfold State.taintEntry
  split
  · rfl
  · extract_lets swept entered
    have hswept : swept.judging = s.judging := s.taintSweep_judging
    split
    · exact hswept
    · split
      · exact (swept.setTaint_judging _ _).trans hswept
      · exact (State.setTaint_judging _ _ _).trans ((swept.bump_judging _ _ (by decide)).trans hswept)

/-- A pennant of a taint goes out, or is counted as refused. -/
theorem State.taintOffered_judging (s : State) (d : Detection) (target seq det : Nat) (inc wide : Bool) :
    (s.offerTaint d target seq det inc wide).2.judging = s.judging ∧
      ((s.offerTaint d target seq det inc wide).2.bump Reg.XC_TAINT_MISS_refused 1).judging = s.judging := by
  have ho : (s.offerTaint d target seq det inc wide).2.judging = s.judging := s.offer_judging _
  exact ⟨ho, (State.bump_judging _ _ _ (by decide)).trans ho⟩

theorem State.taintSend_judging (d : Detection) (seq det : Nat) (inc : Bool) (ts : List Nat) (x : State × List Nat) :
    (State.taintSend d seq det inc ts x).1.judging = x.1.judging := by
  induction ts generalizing x with
  | nil => rfl
  | cons t ts ih =>
    obtain ⟨s, ok⟩ := x
    obtain ⟨hsent, hrefused⟩ := s.taintOffered_judging d t seq det inc false
    unfold State.taintSend
    rw [ih]
    split
    · exact hsent
    · exact hrefused

theorem State.taintSpread_judging (s : State) (d : Detection) (seq det : Nat) (inc : Bool) (targets : List Nat) :
    (s.taintSpread d seq det inc targets).1.judging = s.judging := by
  unfold State.taintSpread
  dsimp only
  split <;> exact State.taintSend_judging d seq det _ targets (s, [])

theorem State.taintWide_judging (s : State) (d : Detection) (seq det : Nat) : (s.taintWide d seq det).1.judging = s.judging := by
  obtain ⟨hsent, hrefused⟩ := s.taintOffered_judging d 0x1FFFF seq det true true
  unfold State.taintWide
  dsimp only
  split
  · exact hsent
  · exact hrefused

theorem State.taintEnd_judging (d : Detection) (entry : Option Nat) (seq det : Nat) (fresh sent : List Nat)
    (r : State × List Nat × Bool) : (State.taintEnd d entry seq det fresh sent r).judging = r.1.judging := by
  unfold State.taintEnd
  extract_lets self wide w numbered entered
  have hw : w.1.judging = r.1.judging := by
    unfold w
    split
    · exact State.taintWide_judging _ _ _ _
    · rfl
  have hnumbered : numbered.judging = r.1.judging := by
    unfold numbered
    split <;> exact hw
  have hentered : entered.judging = r.1.judging := by
    unfold entered
    split <;> exact hnumbered
  split
  · exact (State.taintRecord_judging _ _ _ _ _).trans hentered
  · exact hentered

theorem State.detect_judging (s : State) (d : Detection) : (s.detect d).judging = s.judging := by
  have hentry : (if d.any then (none, s) else s.taintEntry d.step).2.judging = s.judging := by
    split
    · rfl
    · exact s.taintEntry_judging d.step
  unfold State.detect
  dsimp only
  rw [State.taintEnd_judging, State.taintSpread_judging]
  split <;> exact (State.bump_judging _ _ _ (by decide)).trans hentry

/-! ### The yellow jack and the verdict (R319, R320, R328) -/

theorem State.jackTo_judging (s : State) (st : Nat) : (s.jackTo st).judging = s.judging :=
  (State.judging_of_unrecorded (State.record_unrecorded _ 3 _ _ _ _ (by decide))).trans (s.put_judging _ _ (by decide))

theorem State.jackLate_judging (s : State) : s.jackLate.judging = s.judging := by
  unfold State.jackLate
  split
  · exact State.fault_judging _ _ _ _ _
  · rfl

theorem State.jack_judging (s : State) (local_ : Bool) : (s.jack local_).judging = s.judging := by
  unfold State.jack
  split
  · exact s.bump_judging _ _ (by decide)
  · extract_lets jacked noticed offered
    have hjacked : jacked.judging = s.judging :=
      (State.jackTo_judging _ _).trans (s.put_judging _ _ (by decide))
    have hnoticed : noticed.judging = s.judging :=
      (State.raise_judging _ _).trans ((State.notice_judging _ _ (by decide)).trans hjacked)
    have hoffered : offered.judging = s.judging := by
      unfold offered
      split
      · exact (State.offer_judging _ _).trans hnoticed
      · exact hnoticed
    split
    · exact offered.jackLate_judging.trans hoffered
    · exact hoffered

theorem State.tallyVerdict_judging (s : State) (v : Nat) : (s.tallyVerdict v).judging = s.judging := by
  unfold State.tallyVerdict
  split
  case h_5 => rfl
  all_goals exact s.bump_judging _ _ (by decide)

theorem State.verdictRing_judging (s : State) (bs : List Byte) : (s.verdictRing bs).judging = s.judging := by
  unfold State.verdictRing
  dsimp only
  split
  · rfl
  · exact s.bump_judging _ _ (by decide)
  next h => exact (State.incr_judging _ _ _ (by decide)).trans (State.ringPut_judging h)

theorem State.verdictActs_judging (s : State) (j : CheckJob) (vr : List Byte) (v : Nat) :
    (s.verdictActs j vr v).judging = s.judging := by
  unfold State.verdictActs
  extract_lets raised offered
  have hoffered : offered.judging = s.judging :=
    (State.offer_judging _ _).trans ((State.raise_judging _ _).trans (s.tallyVerdict_judging v))
  split_ifs
  · exact (State.jack_judging _ _).trans ((State.detect_judging _ _).trans hoffered)
  · exact (State.detect_judging _ _).trans hoffered
  · exact hoffered

theorem State.verdict_judging (s : State) (l v flags : Nat) (sum : List Byte) : (s.verdict l v flags sum).judging = s.judging := by
  unfold State.verdict
  extract_lets x
  split
  · extract_lets vr noted recorded told
    have hrecorded : recorded.judging = s.judging := by
      unfold recorded
      split
      · rfl
      · exact State.fault_judging _ _ _ _ _
    have htold : told.judging = s.judging := by
      unfold told
      split
      · exact (State.notice_judging _ _ (by decide)).trans ((State.verdictRing_judging _ _).trans hrecorded)
      · exact hrecorded
    split
    · exact htold
    · exact (State.verdictActs_judging _ _ _ _).trans htold
  · rfl

end Sys2Proof.Machine
end

section
namespace Sys2Proof.Machine

/-! ## What starting the lanes leaves alone (R312, R315) -/

theorem State.checkEnd_judging (s : State) (j : CheckJob) : (s.checkEnd j).judging = s.judging := by
  unfold State.checkEnd
  split <;> rfl

theorem State.ended_checkEnd {s : State} {q slot code : Nat} (j : CheckJob) (h : s.ended q slot code) :
    (s.checkEnd j).ended q slot code := by
  unfold State.checkEnd
  split
  · exact h
  · exact s.ended_finish_of_ended q slot code _ _ _ h

theorem State.nextTile_judging (l n : Nat) (s : State) : (State.nextTile l n s).judging = s.judging := by
  induction n generalizing s with
  | zero => rfl
  | succ n ih =>
    unfold State.nextTile
    dsimp only
    split
    · split
      · rfl
      · exact ih _
    · split
      · exact (ih _).trans (State.checkEnd_judging _ _)
      · rfl

theorem State.ended_nextTile (l n : Nat) {s : State} {q slot code : Nat} (h : s.ended q slot code) :
    (State.nextTile l n s).ended q slot code := by
  induction n generalizing s with
  | zero => exact h
  | succ n ih =>
    unfold State.nextTile
    dsimp only
    split
    · split
      · exact h
      · exact ih h
    · split
      next j _ _ => exact ih (State.ended_checkEnd (s := s.setXlane l fun x => { x with job := none }) j h)
      · exact h

theorem State.pumpLane_judging (s : State) (l : Nat) : (s.pumpLane l).judging = s.judging := by
  unfold State.pumpLane
  split
  · exact State.nextTile_judging _ _ _
  · rfl

theorem State.ended_pumpLane {s : State} (l : Nat) {q slot code : Nat} (h : s.ended q slot code) : (s.pumpLane l).ended q slot code := by
  unfold State.pumpLane
  split
  · exact State.ended_nextTile _ _ h
  · exact h

/-- The next arbitration that waits begins, when none is under way. -/
def State.arbBegun (s : State) : State :=
  match s.xc.arb, s.xc.arbQ with
  | none, l :: ls => s.setXc fun c => { c with arb := some { lane := l }, arbQ := ls }
  | _, _ => s

/-- The other lane begins the recompute of the arbitration under way, when it is free. -/
def State.recomputeBegun (s : State) : State :=
  match s.xc.arb with
  | some a =>
    if a.stage = 1 ∧ a.started = false ∧ s.laneFree (1 - a.lane) = true then
      match (s.xlane a.lane).job, (s.xlane a.lane).tile with
      | some j, some (i, _) =>
        (s.setXc fun c => { c with arb := some { a with started := true } }).readDesc (1 - a.lane) (j.desc + 64 * i) true
      | _, _ => s
    else s
  | none => s

theorem State.checkerPump_eq (s : State) : s.checkerPump = (s.arbBegun.recomputeBegun.pumpLane 0).pumpLane 1 := rfl

theorem State.arbBegun_kept (s : State) : s.arbBegun.counts = s.counts ∧ s.arbBegun.queues = s.queues := by
  unfold State.arbBegun
  split <;> exact ⟨rfl, rfl⟩

theorem State.recomputeBegun_kept (s : State) : s.recomputeBegun.counts = s.counts ∧ s.recomputeBegun.queues = s.queues := by
  unfold State.recomputeBegun
  split
  · split
    · split <;> exact ⟨rfl, rfl⟩
    · exact ⟨rfl, rfl⟩
  · exact ⟨rfl, rfl⟩

theorem State.checkerPump_counts (s : State) : s.checkerPump.counts = s.counts := by
  rw [State.checkerPump_eq, State.counts_of_judging (State.pumpLane_judging _ 1), State.counts_of_judging (State.pumpLane_judging _ 0),
    s.arbBegun.recomputeBegun_kept.1, s.arbBegun_kept.1]

theorem State.checkerPump_cyc (s : State) : s.checkerPump.cyc = s.cyc := State.cyc_of_counts s.checkerPump_counts

theorem State.ended_checkerPump {s : State} {q slot code : Nat} (h : s.ended q slot code) : s.checkerPump.ended q slot code := by
  have hqueues : s.arbBegun.recomputeBegun.queues = s.queues := s.arbBegun.recomputeBegun_kept.2.trans s.arbBegun_kept.2
  rw [State.checkerPump_eq]
  exact State.ended_pumpLane 1 (State.ended_pumpLane 0 (State.ended_of_flights (by rw [State.queue_of_queues hqueues]) h))

/-- Without an arbitration under way or waiting, the pump begins none. -/
theorem State.checkerPump_judging (s : State) (harb : s.xc.arb = none) (hq : s.xc.arbQ = []) : s.checkerPump.judging = s.judging := by
  rw [s.checkerPump_lanes harb hq, State.pumpLane_judging, State.pumpLane_judging]

/-! ## TILE_SUMMARY (R310, R312) -/

/-- The operations and the tiles of both lanes are among the checker's counts. -/
theorem checkCount_lane {l : Nat} (hl : l < 2) : checkCount (Reg.XC_L_OPS_LO_L l) = true ∧
    checkCount (Reg.XC_L_OPS_LO_L l + 4) = true ∧ checkCount (Reg.XC_L_TILES_L l) = true := by
  unfold Reg.XC_L_OPS_LO_L Reg.XC_L_TILES_L
  exact ⟨decide_eq_true (.inr (by omega)), decide_eq_true (.inr (by omega)), decide_eq_true (.inr (by omega))⟩

@[simp] theorem State.laneBusy_cyc (s : State) (l from_ : Nat) : (s.laneBusy l from_).cyc = s.cyc := rfl

@[simp] theorem State.laneBusy_xc (s : State) (l from_ : Nat) : (s.laneBusy l from_).xc = s.xc := rfl

@[simp] theorem State.laneBusy_free (s : State) (l from_ : Nat) : (s.laneBusy l from_).free = s.free := rfl

theorem State.rd_laneBusy_other (s : State) (l from_ o : Nat) (hl : o ≠ Reg.XC_L_BUSY_LO_L l) (hh : o ≠ Reg.XC_L_BUSY_LO_L l + 4) :
    (s.laneBusy l from_).rd o = s.rd o :=
  s.rd_wr64_other _ _ _ hl hh

@[simp] theorem State.laneDone_cyc (s : State) (l : Nat) (h : HostModel) (r : TileRead) (compute : Bool) :
    (s.laneDone l h r compute).cyc = s.cyc := by
  unfold State.laneDone
  dsimp only
  split
  · rw [State.bump_cyc, State.incr64_cyc, State.incr64_cyc, State.laneBusy_cyc]
  · rw [State.incr64_cyc, State.laneBusy_cyc]

/-- A lane that has computed counts the tile's operations and the tile. -/
theorem State.laneDone_computes (s : State) (l : Nat) (h : HostModel) (r : TileRead) :
    (s.laneDone l h r true).rd64 (Reg.XC_L_OPS_LO_L l) = (s.rd64 (Reg.XC_L_OPS_LO_L l) + 2 * 16384 * dK (r.desc.getD [])) % 2 ^ 64 ∧
      (s.laneDone l h r true).get (Reg.XC_L_TILES_L_count l) =
        satAdd (2 ^ (Reg.XC_L_TILES_L_count l).w - 1) (s.get (Reg.XC_L_TILES_L_count l)) 1 := by
  unfold State.laneDone
  dsimp only
  rw [if_pos rfl, if_pos rfl]
  generalize hwaited : State.incr64 (s.laneBusy l r.startAt) _ _ = waited
  have hrd (o : Nat) (ho : o ≤ Reg.XC_L_OPS_LO_L l + 4 ∨ Reg.XC_L_TILES_L l ≤ o) : waited.rd o = s.rd o := by
    simp only [Reg.XC_L_OPS_LO_L, Reg.XC_L_TILES_L] at ho
    have hbusy : o ≠ Reg.XC_L_BUSY_LO_L l ∧ o ≠ Reg.XC_L_BUSY_LO_L l + 4 := by
      unfold Reg.XC_L_BUSY_LO_L
      omega
    have hstall : o ≠ Reg.XC_L_STALL_LO_L l ∧ o ≠ Reg.XC_L_STALL_LO_L l + 4 := by
      unfold Reg.XC_L_STALL_LO_L
      omega
    rw [← hwaited, State.incr64, State.rd_wr64_other _ _ _ _ hstall.1 hstall.2, State.rd_laneBusy_other _ _ _ _ hbusy.1 hbusy.2]
  have hapart : Reg.XC_L_TILES_L l ≠ Reg.XC_L_OPS_LO_L l ∧ Reg.XC_L_TILES_L l ≠ Reg.XC_L_OPS_LO_L l + 4 := by
    unfold Reg.XC_L_TILES_L Reg.XC_L_OPS_LO_L
    omega
  refine ⟨?_, ?_⟩
  · rw [State.rd64, State.rd_bump_other _ _ _ _ hapart.1.symm, State.rd_bump_other _ _ _ _ hapart.2.symm, ← State.rd64,
      State.rd64_incr64_same, State.rd64, State.rd64, hrd _ (.inl (Nat.le_add_right _ 4)), hrd _ (.inl le_rfl)]
  · have hword : (waited.incr64 (Reg.XC_L_OPS_LO_L l) (2 * 16384 * dK (r.desc.getD []))).rd (Reg.XC_L_TILES_L l) =
        s.rd (Reg.XC_L_TILES_L l) := (State.rd_wr64_other _ _ _ _ hapart.1 hapart.2).trans (hrd _ (.inr le_rfl))
    have hcount := congrArg (bits · 0 32) hword
    rw [State.get_bump_same _ _ _ (by decide : 0 + 32 ≤ 32)]
    exact congrArg (satAdd _ · 1) hcount

theorem State.arbAsk_counts (s : State) (l : Nat) (res : TileRes) : (s.arbAsk l res).counts = s.counts := by
  unfold State.arbAsk
  extract_lets tie asked
  split
  · split <;> rfl
  · rfl

/-- What a lane that can end its primary reading ends with: the time of its computation's end, its counts, and the pump. -/
theorem State.tileDone_pumps (s : State) (l : Nat) (r : TileRead) (j : CheckJob) (hread : (s.xlane l).read = some r)
    (hjob : (s.xlane l).job = some j) (hagain : r.again = false) (hdesc : r.desc.isSome = true) (hleft : r.left = 0) :
    ∃ u : State, s.tileDone l = u.checkerPump ∧
      u.counts = ((s.passTo (r.startAt + computeCycles j.model (dK (r.desc.getD [])))).laneDone l j.model r (!r.unread)).counts := by
  have hcomplete : (r.again || r.desc.isNone || r.left != 0) = false := by
    simp [hagain, hleft, hdesc]
  unfold State.tileDone
  rw [hread, hjob]
  dsimp only
  rw [if_neg (by rw [hcomplete]; exact Bool.false_ne_true)]
  refine ⟨_, rfl, ?_⟩
  split
  · exact State.counts_of_judging ((State.verdict_judging _ _ _ _ _).trans (State.fault_judging _ _ _ _ _))
  · split
    · exact State.counts_of_judging (State.verdict_judging _ _ _ _ _)
    · exact State.arbAsk_counts _ _ _

theorem execTileSummary_active (s : State) (l : Fin 2) (h : s.active = true) : exec (.tileSummary l) s = .next (s.tileDone l.val) := by
  show execTileSummary l s = _
  rw [execTileSummary, if_pos h]

/-! ## RECOMPUTE_DONE (R315) -/

/-- A recompute that is complete leaves the arbitration at the known answer, from the end of the computation on. -/
theorem State.recomputed_spec (s : State) (l : Nat) (r : TileRead) (j : CheckJob) (a : Arb) (hread : (s.xlane l).read = some r)
    (hjob : s.readJob l true = some j) (harb : s.xc.arb = some a) (hagain : r.again = true) (hdesc : r.desc.isSome = true)
    (hleft : r.left = 0) (hother : a.lane ≠ l) :
    (s.recomputed l).cyc = max s.cyc (r.startAt + computeCycles j.model (dK (r.desc.getD []))) ∧
      ∃ res, (s.recomputed l).xc.arb = some { a with stage := 2, res := some res, kaAt := (s.recomputed l).cyc } := by
  have hcomplete : (!r.again || r.desc.isNone || r.left != 0 || a.lane == l) = false := by
    simp [hagain, hleft, hother, hdesc]
  unfold State.recomputed
  rw [hread, hjob, harb]
  dsimp only
  rw [if_neg (by rw [hcomplete]; exact Bool.false_ne_true)]
  refine ⟨?_, _, rfl⟩
  exact (State.laneDone_cyc _ _ _ _ _).trans (s.passTo_cyc _)

theorem execRecomputeDone_active (s : State) (l : Fin 2) (h : s.active = true) :
    exec (.recomputeDone l) s = .next (s.recomputed l.val) := by
  show execRecomputeDone l s = _
  rw [execRecomputeDone, if_pos h]

/-! ## KNOWN_ANSWER_DONE (R304, R317, R318) -/

/-- Both lanes have run the known answer from cycle `at_` on: two runs, each with a drawn outcome (log entry 64), end the
arbitration. -/
def State.answersIn (s : State) (at_ : Nat) (h : HostModel) : State :=
  let t := ((s.passTo (at_ + knownAnswerCycles h)).laneBusy 0 at_).laneBusy 1 at_
  ((t.draw.draw.bump Reg.XC_KAT_runs 2).bump Reg.XC_KAT_fails
    (b2n (!Config.knownAnswerGood t.free) + b2n (!Config.knownAnswerGood (t.free + 1)))).setXc fun c => { c with arb := none }

theorem State.setXc_xc (s : State) (f : Checker → Checker) : (s.setXc f).xc = f s.xc := rfl

theorem State.draw_free (s : State) : s.draw.free = s.free + 1 := rfl

theorem State.answersIn_kept (s : State) (at_ : Nat) (h : HostModel) :
    (s.answersIn at_ h).xc = { s.xc with arb := none } ∧ (s.answersIn at_ h).free = s.free + 2 := by
  unfold State.answersIn
  dsimp only
  refine ⟨?_, ?_⟩
  · rw [State.setXc_xc, State.bump_xc, State.bump_xc, State.draw_xc, State.draw_xc, State.laneBusy_xc, State.laneBusy_xc, State.passTo_xc]
  · rw [State.setXc_free, State.bump_free, State.bump_free, State.draw_free, State.draw_free, State.laneBusy_free, State.laneBusy_free,
      State.passTo_free]

/-- A count leaves the other fields of its register alone. -/
theorem State.get_bump_apart (s : State) (f g : Fld) (n : Nat) (hw : f.lo + f.w ≤ 32) (ho : g.off = f.off)
    (h : g.lo + g.w ≤ f.lo ∨ f.lo + f.w ≤ g.lo) : (s.bump f n).get g = s.get g :=
  s.get_put_apart f g _ hw ho h

theorem State.get_laneBusy_runs (s : State) (l from_ : Nat) : (s.laneBusy l from_).get Reg.XC_KAT_runs = s.get Reg.XC_KAT_runs := by
  have hword : (s.laneBusy l from_).rd Reg.XC_KAT = s.rd Reg.XC_KAT := by
    refine s.rd_laneBusy_other l from_ _ ?_ ?_ <;> (unfold Reg.XC_KAT Reg.XC_L_BUSY_LO_L; omega)
  exact congrArg (bits · 16 16) hword

theorem State.answersIn_runs (s : State) (at_ : Nat) (h : HostModel) :
    (s.answersIn at_ h).get Reg.XC_KAT_runs = satAdd (2 ^ Reg.XC_KAT_runs.w - 1) (s.get Reg.XC_KAT_runs) 2 := by
  unfold State.answersIn
  dsimp only
  rw [State.setXc_get, State.get_bump_apart _ Reg.XC_KAT_fails Reg.XC_KAT_runs _ (by decide) rfl (by decide),
    State.get_bump_same _ _ _ (by decide), State.draw_get, State.draw_get, State.get_laneBusy_runs, State.get_laneBusy_runs, State.passTo_get]

/-- An arbitration gives none of the verdicts above 4: verdict 5 is that of a bad descriptor (R307). -/
theorem verdictOf_le (ka : Nat) (p r : TileRes) (cls : Nat) : verdictOf ka p r cls ≤ 4 := by
  unfold verdictOf
  split_ifs <;> decide

/-- With the known answers in, a recompute that could not be read is recorded (R318) and the verdict of the arbitration's lane is
given. -/
theorem State.knownAnswer_judges (s : State) (a : Arb) (r p : TileRes) (j : CheckJob) (x : Nat × List Byte) (harb : s.xc.arb = some a)
    (hstage : a.stage = 2) (hres : a.res = some r) (hjob : (s.xlane a.lane).job = some j) (htile : (s.xlane a.lane).tile = some x)
    (hprim : (s.xlane a.lane).prim = some p) :
    ∃ (v : State) (k fl : Nat) (sm : List Byte), s.knownAnswer = (v.verdict a.lane k fl sm).checkerPump ∧ k ≤ 4 ∧
      v.unrecorded = (s.answersIn a.kaAt j.model).unrecorded := by
  obtain ⟨lane, stage, started, res, kaAt⟩ := a
  obtain ⟨i, d⟩ := x
  dsimp only at hstage hres hjob htile hprim
  subst hstage hres
  unfold State.knownAnswer
  simp only [harb, hjob, htile, hprim]
  refine ⟨_, _, _, _, rfl, verdictOf_le _ _ _ _, ?_⟩
  split
  · exact State.fault_unrecorded _ _ _ _ _
  · rfl

theorem State.knownAnswer_none (s : State) (h : s.xc.arb = none) : s.knownAnswer = s := by
  unfold State.knownAnswer
  rw [h]

theorem execKnownAnswerDone_active (s : State) (h : s.active = true) : exec .knownAnswerDone s = .next s.knownAnswer := by
  show execKnownAnswerDone s = _
  rw [execKnownAnswerDone, if_pos h]

/-! ## CHECK_BOUND (R314) -/

/-- The oldest CHECK of a queue that has not ended ends at its bound. -/
theorem State.checkBound_ends (s : State) (q : Nat) (f : Flight)
    (hf : ((s.queue q).flights.find? fun f => cmdOp f.cmd == 4 && f.done.isNone) = some f) :
    ∃ u : State, s.checkBound q = u.checkerPump ∧ u.ended q f.slot Code.DEADLINE_MISS ∧
      u.cyc = (s.passToFleet ((f.at_ + s.get Reg.XC_BOUND_ms * 1600000) % 2 ^ 64)).cyc := by
  have hmem : f ∈ (s.queue q).flights := List.mem_of_find?_eq_some hf
  have hopen : f.done = none := by
    have hp := List.find?_some hf
    simp only [Bool.and_eq_true, Option.isNone_iff_eq_none] at hp
    exact hp.2
  unfold State.checkBound
  rw [hf]
  dsimp only
  refine ⟨_, rfl, ?_, ?_⟩
  · have hflights (t : Nat) (g : Checker → Checker) : f ∈ (((s.passToFleet t).setXc g).queue q).flights := by
      rwa [State.queue_of_queues ((State.setXc_queues _ g).trans (s.passToFleet_queues t))]
    exact State.ended_finish _ q f _ (State.lt_of_mem_flights (hflights _ _)) (hflights _ _) hopen
  · rw [State.finish, State.setQueue_cyc, State.setXc_cyc]
    rfl

theorem execCheckBound_active (s : State) (q : Fin 16) (h : s.active = true) : exec (.checkBound q) s = .next (s.checkBound q.val) := by
  show execCheckBound q s = _
  rw [execCheckBound, if_pos h]

/-! ## DRAINED_WRITE (R328) -/

theorem State.jackState_jackTo (s : State) (st : Nat) (h : st < 4) : (s.jackTo st).jackState = st := by
  have hrecorded : ((s.put Reg.XC_YJ_state st).record 3 0x07 Unit_.checker 0 st).unrecorded = (s.put Reg.XC_YJ_state st).unrecorded :=
    State.record_unrecorded _ _ _ _ _ _ (by decide)
  rw [State.jackState, State.jackTo, State.get_of_unrecorded hrecorded _ (by decide), State.get_put_same _ _ _ (by decide)]
  exact Nat.mod_eq_of_lt h

/-- A drained write in JACKED sends the drained pennant and goes on to DRAINED. -/
theorem State.wDrained_drains (s : State) (v : Nat) (hbit : bit v 0 = true) (hjack : s.jackState = 1) :
    ∃ w : State, s.wDrained v = w.jackTo 2 := by
  unfold State.wDrained
  rw [hbit, hjack]
  exact ⟨_, rfl⟩

theorem State.wDrained_ignored (s : State) (v : Nat) (h : bit v 0 = false ∨ s.jackState ≠ 1) : s.wDrained v = s := by
  unfold State.wDrained
  rw [if_neg]
  rw [Bool.and_eq_true, beq_iff_eq]
  rintro ⟨hbit, hjack⟩
  exact h.elim (fun hb => Bool.false_ne_true (hb.symm.trans hbit)) fun hj => hj hjack

end Sys2Proof.Machine
end

section
namespace Sys2Proof.Machine

/-- Settles O43: a reading that ends is `tileDone_pumps` or `recomputed_spec`, the known answers are `knownAnswer_judges`, a bound is
`checkBound_ends`; a verdict and the pump leave the time and the counts alone. That a summary waits for the computation's time is
log entry 69, and that the known answer runs twice log entry 64. -/
theorem checksRunTilesToVerdicts : Obligations.ChecksRunTilesToVerdicts := by
  unfold Obligations.ChecksRunTilesToVerdicts
  refine ⟨?summary, ?counted, ?recompute, ?judged, ?runs, ?noArb, ?bound, ?drains, ?ignored⟩
  case summary =>
    intro s l r j ha hread hjob hagain hdesc hleft
    obtain ⟨u, hu, hcounts⟩ := s.tileDone_pumps l.val r j hread hjob hagain hdesc hleft
    refine ⟨u, (execTileSummary_active s l ha).trans (congrArg _ hu), le_of_eq ?_⟩
    rw [State.cyc_of_counts hcounts, State.laneDone_cyc, State.passTo_cyc]
  case counted =>
    intro s l r j ha hread hjob hagain hdesc hleft hunread
    obtain ⟨u, hu, hcounts⟩ := s.tileDone_pumps l.val r j hread hjob hagain hdesc hleft
    rw [← u.checkerPump_counts, ← hu, hunread] at hcounts
    obtain ⟨hops, htiles⟩ := (s.passTo (r.startAt + computeCycles j.model (dK (r.desc.getD [])))).laneDone_computes l.val j.model r
    obtain ⟨hlo, hhi, hcount⟩ := checkCount_lane l.isLt
    rw [State.passTo_rd64] at hops
    rw [State.passTo_get] at htiles
    refine ⟨_, execTileSummary_active s l ha, le_of_eq ?_, ?_, ?_⟩
    · rw [State.cyc_of_counts hcounts, State.laneDone_cyc, State.passTo_cyc]
    · exact (State.rd64_of_counts hcounts _ hlo hhi).trans hops
    · exact (State.get_of_counts hcounts _ hcount).trans htiles
  case recompute =>
    intro s l r j a ha hread hjob harb hagain hdesc hleft hother
    obtain ⟨hcyc, res, hres⟩ := s.recomputed_spec l.val r j a hread hjob harb hagain hdesc hleft hother
    exact ⟨_, execRecomputeDone_active s l ha, _, hres, rfl, rfl, rfl, hcyc, rfl⟩
  case judged =>
    intro s a r p j x ha harb hstage hres hjob htile hprim
    obtain ⟨v, k, fl, sm, hka, hk, hv⟩ := s.knownAnswer_judges a r p j x harb hstage hres hjob htile hprim
    obtain ⟨hxc, hfree⟩ := s.answersIn_kept a.kaAt j.model
    refine ⟨_, execKnownAnswerDone_active s ha, v, k, fl, sm, hka, ?_, ?_, hk⟩
    · rw [State.kept_of_unrecorded State.xc (fun _ => rfl) hv, hxc]
    · rw [State.kept_of_unrecorded State.free (fun _ => rfl) hv, hfree]
  case runs =>
    intro s a r p j x ha harb hstage hres hjob htile hprim hq
    obtain ⟨v, k, fl, sm, hka, -, hv⟩ := s.knownAnswer_judges a r p j x harb hstage hres hjob htile hprim
    obtain ⟨hxc, -⟩ := s.answersIn_kept a.kaAt j.model
    have hjudged : (v.verdict a.lane k fl sm).judging = (s.answersIn a.kaAt j.model).judging :=
      (v.verdict_judging a.lane k fl sm).trans (State.judging_of_unrecorded hv)
    have hpump : s.knownAnswer.judging = (s.answersIn a.kaAt j.model).judging := by
      rw [hka, State.checkerPump_judging, hjudged]
      · rw [State.arb_of_judging hjudged, hxc]
      · rw [State.arbQ_of_judging hjudged, hxc]
        exact hq
    refine ⟨_, execKnownAnswerDone_active s ha, ?_, ?_⟩
    · rw [State.arb_of_judging hpump, hxc]
    · rw [State.get_of_counts (State.counts_of_judging hpump) _ (by decide), State.answersIn_runs]
  case noArb =>
    intro s ha harb
    rw [execKnownAnswerDone_active s ha, s.knownAnswer_none harb]
  case bound =>
    rintro s q f due ha - hf rfl
    obtain ⟨u, hu, hends, hcyc⟩ := s.checkBound_ends q.val f hf
    exact ⟨_, u, execCheckBound_active s q ha, hu, hends, hu ▸ State.ended_checkerPump hends,
      le_of_eq (by rw [hu, State.checkerPump_cyc, hcyc])⟩
  case drains =>
    intro s who d hready htray hbit hjack
    obtain ⟨v, hv⟩ := s.wDrained_drains d.toNat hbit hjack
    refine ⟨_, v, writes_of_busWrite rfl hready ((s.busWrite_XC_YJ_CTRL _ _ htray).trans (by rw [hv])), rfl, ?_⟩
    exact v.jackState_jackTo 2 (by decide)
  case ignored =>
    intro s who d hready htray h
    exact writes_of_busWrite rfl hready ((s.busWrite_XC_YJ_CTRL _ _ htray).trans (by rw [s.wDrained_ignored _ h]))

end Sys2Proof.Machine
end

section
namespace Sys2Proof.Machine

/-! ## Which commands can be refused (R369, R70, R87) -/

theorem execSyncExchangeLost_next (s : State) : ∃ t, exec .syncExchangeLost s = .next t := by
  show ∃ t, execSyncExchangeLost s = .next t
  unfold execSyncExchangeLost
  split <;> exact ⟨_, rfl⟩

theorem execRetiredTagExpire_next (s : State) (p : Fin 128) : ∃ t, exec (.retiredTagExpire p) s = .next t := by
  show ∃ t, execRetiredTagExpire p s = .next t
  unfold execRetiredTagExpire
  split <;> exact ⟨_, rfl⟩

theorem execFreezeTimeout_next (s : State) : ∃ t, exec .freezeTimeout s = .next t := by
  show ∃ t, execFreezeTimeout s = .next t
  unfold execFreezeTimeout
  split <;> exact ⟨_, rfl⟩

theorem execNvPageProgram_next (s : State) : ∃ t, exec .nvPageProgram s = .next t := by
  show ∃ t, execNvPageProgram s = .next t
  unfold execNvPageProgram
  split <;> exact ⟨_, rfl⟩

/-- Settles O7: the three commands that bring data of a fixed length by that length, each other one by its meaning, which is a next
state in every branch. That every command completes, and that data of another length are ill-formed, is log entry 25. -/
theorem onlyBlocksOfTheWrongLengthAreRefused : Obligations.OnlyBlocksOfTheWrongLengthAreRefused := by
  intro c s
  cases c with
  | laneBlockReceive n b =>
    by_cases hb : b.length = 72
    · exact .inl ⟨_, if_pos hb⟩
    · exact .inr ⟨if_neg hb, .inl ⟨n, b, rfl, hb⟩⟩
  | hostReadResponse g b e =>
    by_cases hb : b.length = 64
    · exact .inl ⟨_, if_neg (not_not_intro hb)⟩
    · exact .inr ⟨if_pos hb, .inr (.inl ⟨g, b, e, rfl, hb⟩)⟩
  | fleetStoreResponse g b e =>
    by_cases hb : b.length = 64
    · exact .inl ⟨_, if_neg (not_not_intro hb)⟩
    · exact .inr ⟨if_pos hb, .inr (.inr ⟨g, b, e, rfl, hb⟩)⟩
  | syncExchangeLost => exact .inl (execSyncExchangeLost_next s)
  | retiredTagExpire p => exact .inl (execRetiredTagExpire_next s p)
  | freezeTimeout => exact .inl (execFreezeTimeout_next s)
  | nvPageProgram => exact .inl (execNvPageProgram_next s)
  | _ => exact .inl ⟨_, rfl⟩

end Sys2Proof.Machine
end

section
namespace Sys2Proof.Machine

/-! ## A lane and its block boundary (R371 to R373, R390) -/

@[simp] theorem State.need_lane (s : State) (n : Nat) : s.need.lane n = s.lane n := by
  rw [State.lane, State.need_hl, State.lane]

@[simp] theorem State.need_laneCount (s : State) : s.need.laneCount = s.laneCount := by
  rw [State.laneCount, State.tray, State.need_role, State.laneCount, State.tray]

@[simp] theorem State.need_laneRst (s : State) : s.need.pw.laneRst = s.pw.laneRst := by
  unfold State.need
  (repeat' split) <;> rfl

@[simp] theorem State.need_laneVerOk (s : State) (n : Nat) : s.need.laneVerOk n = s.laneVerOk n := by
  simp only [State.laneVerOk, State.tray, State.need_role, State.need_get, State.need_lane]

theorem State.lane_setLane (s : State) (n : Nat) (f : Lane → Lane) (h : n < s.hl.lanes.length) :
    (s.setLane n f).lane n = f (s.lane n) :=
  modAt_get_same _ _ _ _ h

theorem State.setLane_lanes_length (s : State) (n : Nat) (f : Lane → Lane) :
    (s.setLane n f).hl.lanes.length = s.hl.lanes.length :=
  modAt_length _ _ _

/-- Beside the block that goes out, only the lane's count of blocks since the last LINK changes. -/
theorem State.lane_sendBlock (s : State) (n : Nat) (b : List Byte) (link : Bool) (h : n < s.hl.lanes.length) :
    (s.sendBlock n b link).lane n = { s.lane n with sinceLink := if link then 0 else (s.lane n).sinceLink + 1 } :=
  s.lane_setLane n _ h

theorem modAt_modAt {α : Type} (l : List α) (i : Nat) (f g : α → α) : modAt (modAt l i f) i g = modAt l i fun x => g (f x) := by
  induction l generalizing i with
  | nil => rfl
  | cons a as ih => cases i with
    | zero => rfl
    | succ n => exact congrArg (a :: ·) (ih n)

theorem State.setLane_setLane (s : State) (n : Nat) (f g : Lane → Lane) :
    (s.setLane n f).setLane n g = s.setLane n fun l => g (f l) := by
  unfold State.setLane
  dsimp only
  rw [modAt_modAt]

/-- A block that is no SYNC request and no answer of a parent leaves as it is and brings no other. -/
theorem State.syncLeaves_other (s : State) (lane : Bool) (b : List Byte) (h5 : penType b ≠ 0x005) (h6 : penType b ≠ 0x006) :
    s.syncLeaves lane b = (s, []) := by
  simp only [State.syncLeaves, if_neg h5, if_neg h6]

theorem State.withhold_ok (s : State) (n : Nat) (h : s.laneVerOk n = true) : s.withhold n = s :=
  if_pos h

/-- A lane after block `u` is sent again at `cyc`, with the blocks `us` to follow. -/
def Lane.resent (l : Lane) (cyc : Nat) (u : Unacked) (us : List Unacked) : Lane :=
  { l with rpl := us, unacked := l.unacked.map fun v => if v.bseq = u.bseq then { v with at_ := cyc } else v }

/-- A lane of the role, not in reset, that may send what it holds. -/
structure State.laneSends (s : State) (n : Nat) : Prop where
  rst : bit s.pw.laneRst n = false
  present : n < s.laneCount
  ver : s.laneVerOk n = true

theorem State.laneSends_need {s : State} {n : Nat} (h : s.laneSends n) : s.need.laneSends n where
  rst := s.need_laneRst ▸ h.rst
  present := s.need_laneCount ▸ h.present
  ver := (s.need_laneVerOk n).trans h.ver

section
variable {w : State} {n : Nat} (h : w.laneSends n)
include h

theorem State.laneSends.not_barred : ¬(bit w.pw.laneRst n = true ∨ w.laneCount ≤ n) := by
  rw [h.rst]
  exact fun hb => hb.elim Bool.false_ne_true (Nat.not_le.mpr h.present)

theorem State.laneBoundary_control (b : List Byte) (bs : List (List Byte)) (hc : (w.lane n).control = b :: bs)
    (h5 : penType b ≠ 0x005) (h6 : penType b ≠ 0x006) :
    w.laneBoundary n = (w.setLane n fun l => { l with control := bs }).sendBlock n b false := by
  simp only [State.laneBoundary, if_neg h.not_barred, w.withhold_ok n h.ver, hc, State.syncLeaves_other _ _ _ h5 h6,
    State.setLane_setLane, List.append_nil]

variable (hc : (w.lane n).control = [])
include hc

theorem State.laneBoundary_outOfService (hst : (w.lane n).state ≠ 2) :
    w.laneBoundary n = w.sendBlock n (controlBlock 0 []) false := by
  simp only [State.laneBoundary, if_neg h.not_barred, w.withhold_ok n h.ver, hc, if_pos hst]

variable (hst : (w.lane n).state = 2)
include hst

theorem State.laneBoundary_link (hdue : 31 ≤ (w.lane n).sinceLink) :
    w.laneBoundary n = w.sendBlock n (w.linkBlock (w.lane n)) true := by
  simp only [State.laneBoundary, if_neg h.not_barred, w.withhold_ok n h.ver, hc, if_neg (not_not_intro hst), if_pos hdue]

variable (hlink : (w.lane n).sinceLink < 31)
include hlink

theorem State.laneBoundary_replay (k : Nat) (hdue : (w.lane n).rplDue = some k) : w.laneBoundary n =
    (w.setLane n fun l => { l with rplDue := none }).sendBlock n (controlBlock 0x003 (leBytes 2 k)) false := by
  simp only [State.laneBoundary, if_neg h.not_barred, w.withhold_ok n h.ver, hc, if_neg (not_not_intro hst),
    if_neg (Nat.not_le.mpr hlink), hdue]

variable (hdue : (w.lane n).rplDue = none)
include hdue

theorem State.laneBoundary_replayed (u : Unacked) (us : List Unacked) (hrpl : (w.lane n).rpl = u :: us) : w.laneBoundary n =
    ((w.setLane n fun l => l.resent w.cyc u us).bump (Reg.HL_LN_BLK_n_count n) 1).sendBlock n u.ent.pen false := by
  simp only [State.laneBoundary, if_neg h.not_barred, w.withhold_ok n h.ver, hc, if_neg (not_not_intro hst),
    if_neg (Nat.not_le.mpr hlink), hdue, hrpl]
  rfl

variable (hrpl : (w.lane n).rpl = [])
include hrpl

theorem State.laneBoundary_idle (hch : w.laneChoice n = none) : w.laneBoundary n = w.sendBlock n (controlBlock 0 []) false := by
  simp only [State.laneBoundary, if_neg h.not_barred, w.withhold_ok n h.ver, hc, if_neg (not_not_intro hst),
    if_neg (Nat.not_le.mpr hlink), hdue, hrpl, hch]

theorem State.laneBoundary_pennant (c : Nat) (p : QEntry) (hch : w.laneChoice n = some (c, p))
    (hroom : (w.lane n).unacked.length < w.rplCap) : w.laneBoundary n = w.sendPennant n c p := by
  simp only [State.laneBoundary, if_neg h.not_barred, w.withhold_ok n h.ver, hc, if_neg (not_not_intro hst),
    if_neg (Nat.not_le.mpr hlink), hdue, hrpl, hch, if_pos hroom]

end

theorem execEgressBoundary_lane (s : State) (e : Fin 20) (ha : s.active = true) (he : e.val < 16) :
    exec (.egressBoundary e) s = .next (s.need.laneBoundary e.val).settle := by
  show execEgressBoundary e s = _
  rw [execEgressBoundary, if_pos ha, State.egressBoundary, if_pos he]

/-- A block that goes out of a lane with nothing local to consume is all of its boundary. -/
theorem execEgressBoundary_sends (s t : State) (e : Fin 20) (b : List Byte) (link : Bool) (ha : s.active = true) (he : e.val < 16)
    (h : s.need.laneBoundary e.val = t.sendBlock e.val b link) (hlocals : t.hl.locals = []) (hseen : t.hl.seen = []) :
    exec (.egressBoundary e) s = .next (t.sendBlock e.val b link) := by
  rw [execEgressBoundary_lane s e ha he, h, State.settle_quiet (t.sendBlock e.val b link) hlocals hseen]

/-- Settles O46: a boundary of a lane that may send is its `laneBoundary`, one lemma a branch, which leaves nothing to settle but
after a pennant. That a LINK goes out after just 31 blocks without one is log entry 76. -/
theorem anEgressBoundarySendsOneBlock : Obligations.AnEgressBoundarySendsOneBlock := by
  refine ⟨?running, fun s e ha hal => ?_, fun s e ha hal => ?_⟩
  case running =>
    rintro s w e ha rfl he hrst hpresent hver hlocals hseen
    have h : s.need.laneSends e.val := State.laneSends_need ⟨hrst, hpresent, hver⟩
    rw [← s.need_hl] at hlocals hseen
    rw [← s.need_lane]
    refine ⟨fun b bs hc h5 h6 => ?_, fun hc hst => ?_, fun hc hst hdue => ?_, fun hc hst hlink => ⟨fun k hdue => ?_,
      fun hdue u us hrpl => ?_, fun hdue hrpl hch => ?_, fun hdue hrpl c p hch hroom => ?_⟩⟩
    · exact execEgressBoundary_sends s _ e _ _ ha he (State.laneBoundary_control h b bs hc h5 h6) hlocals hseen
    · exact execEgressBoundary_sends s _ e _ _ ha he (State.laneBoundary_outOfService h hc hst) hlocals hseen
    · exact execEgressBoundary_sends s _ e _ _ ha he (State.laneBoundary_link h hc hst hdue) hlocals hseen
    · exact execEgressBoundary_sends s _ e _ _ ha he (State.laneBoundary_replay h hc hst hlink k hdue) hlocals hseen
    · refine ⟨_, execEgressBoundary_sends s _ e _ _ ha he (State.laneBoundary_replayed h hc hst hlink hdue u us hrpl) hlocals hseen,
        ?_, fun hlen => ?_⟩
      · show s.need.hl.out ++ _ = _
        rw [s.need_hl]
      · have hn : e.val < s.need.hl.lanes.length := by rw [s.need_hl, hlen]; exact he
        rw [State.lane_sendBlock _ _ _ _ ((s.need.setLane_lanes_length _ _).symm ▸ hn)]
        exact congrArg Lane.rpl (s.need.lane_setLane _ _ hn)
    · exact execEgressBoundary_sends s _ e _ _ ha he (State.laneBoundary_idle h hc hst hlink hdue hrpl hch) hlocals hseen
    · rw [execEgressBoundary_lane s e ha he, State.laneBoundary_pennant h hc hst hlink hdue hrpl c p hch hroom]
  · show execEgressBoundary e s = _
    rw [execEgressBoundary, ha, hal]
    rfl
  · show execEgressBoundary e s = _
    rw [execEgressBoundary, ha, hal]
    rfl

end Sys2Proof.Machine
end

section
namespace Sys2Proof.Machine

/-! ## Blocks received on a lane (R369 to R373) -/

theorem execLaneBlockReceive_active (s : State) (n : Fin 16) (b : List Byte) (hb : b.length = 72) (ha : s.active = true)
    (hal : s.laneAlive n.val = true) :
    exec (.laneBlockReceive n b) s = .next (s.need.laneReceive n.val s.fleet b).settle := by
  show execLaneBlockReceive n b s = _
  rw [execLaneBlockReceive, if_pos hb, hal, ha]
  rfl

theorem execLaneBlockReceive_stopped (s : State) (n : Fin 16) (b : List Byte) (hb : b.length = 72) (ha : s.active = false)
    (hal : s.laneAlive n.val = true) : exec (.laneBlockReceive n b) s = .next (s.hold (.block n.val b s.fleet)) := by
  show execLaneBlockReceive n b s = _
  rw [execLaneBlockReceive, if_pos hb, hal, ha]
  rfl

theorem execLaneBlockReceive_inReset (s : State) (n : Fin 16) (b : List Byte) (hb : b.length = 72) (hal : s.laneAlive n.val = false) :
    exec (.laneBlockReceive n b) s = .next s := by
  show execLaneBlockReceive n b s = _
  rw [execLaneBlockReceive, if_pos hb, hal]
  rfl

theorem State.laneAlive_spec {s : State} {n : Nat} (h : s.laneAlive n = true) : bit s.pw.laneRst n = false ∧ n < s.laneCount := by
  simp only [State.laneAlive, Bool.and_eq_true, decide_eq_true_eq, Bool.not_eq_true'] at h
  exact ⟨h.2, h.1.2⟩

/-- The count of a slot changes nothing else of the block. -/
theorem State.noteSlot_kept (s : State) (n : Nat) (classC : Bool) :
    ∃ slots, s.noteSlot n classC = { s with hl := { s.hl with slots := slots } } := by
  unfold State.noteSlot
  split
  · exact ⟨_, rfl⟩
  · exact ⟨_, rfl⟩

theorem State.noteSlot_lanes (s : State) (n : Nat) (classC : Bool) : (s.noteSlot n classC).hl.lanes = s.hl.lanes := by
  obtain ⟨slots, hslots⟩ := s.noteSlot_kept n classC
  rw [hslots]

theorem State.noteSlot_lane (s : State) (n m : Nat) (classC : Bool) : (s.noteSlot n classC).lane m = s.lane m := by
  rw [State.lane, State.noteSlot_lanes, State.lane]

theorem State.noteSlot_locals (s : State) (n : Nat) (classC : Bool) : (s.noteSlot n classC).hl.locals = s.hl.locals := by
  obtain ⟨slots, hslots⟩ := s.noteSlot_kept n classC
  rw [hslots]

theorem State.noteSlot_seen (s : State) (n : Nat) (classC : Bool) : (s.noteSlot n classC).hl.seen = s.hl.seen := by
  obtain ⟨slots, hslots⟩ := s.noteSlot_kept n classC
  rw [hslots]

@[simp] theorem State.noteVer_hl (s : State) (n : Nat) : (s.noteVer n).hl = s.hl := by
  unfold State.noteVer
  split <;> rfl

theorem State.noteVer_lane (s : State) (n m : Nat) : (s.noteVer n).lane m = s.lane m := by
  rw [State.lane, State.noteVer_hl, State.lane]

/-- An acknowledgement takes the blocks before its number from the replay buffer. -/
theorem State.lane_laneAck (s : State) (n ack : Nat) (h : n < s.hl.lanes.length) :
    ((s.laneAck n ack).lane n).unacked = (s.lane n).unacked.filter (fun u => !(later 16 ack u.bseq)) ∧
      ((s.laneAck n ack).lane n).state = (s.lane n).state ∧ ((s.laneAck n ack).lane n).rxSeq = (s.lane n).rxSeq := by
  rw [State.laneAck, State.lane_setLane _ _ _ h]
  exact ⟨rfl, rfl, rfl⟩

theorem State.laneWord_clean (s : State) (n : Nat) (cw d : List Byte) (h : rsDecode cw = .clean d) :
    s.laneWord n cw = (s, some d) := by
  rw [State.laneWord, h]

theorem later_self (n a : Nat) : later n a a = false := by
  have hmul : a + 2 ^ n - a % 2 ^ n = 2 ^ n * (a / 2 ^ n + 1) := by
    have hdiv := Nat.div_add_mod a (2 ^ n)
    rw [Nat.mul_add, Nat.mul_one]
    omega
  rw [later, hmul, Nat.mul_mod_right]
  rfl

theorem State.laneRx_outOfUse (s : State) (n now : Nat) (b : List Byte) (next : State → List Byte → State)
    (h1 : (s.lane n).state ≠ 1) (h2 : (s.lane n).state ≠ 2) : s.laneRx n now b next = s :=
  if_pos (.inr (.inr (by simp [h1, h2])))

/-- A lane in service of the role, not in reset. -/
structure State.laneServes (s : State) (n : Nat) : Prop where
  rst : bit s.pw.laneRst n = false
  present : n < s.laneCount
  state : (s.lane n).state = 2

theorem State.laneServes_counted {s : State} {n : Nat} (hal : s.laneAlive n = true) (hst : (s.lane n).state = 2) :
    (s.need.noteSlot n false).laneServes n := by
  obtain ⟨hrst, hpresent⟩ := State.laneAlive_spec hal
  obtain ⟨slots, hslots⟩ := s.need.noteSlot_kept n false
  rw [hslots]
  exact ⟨s.need_laneRst ▸ hrst, s.need_laneCount ▸ hpresent, s.need_lane n ▸ hst⟩

/-- A block without an error on a lane in service is a control block or a pennant. -/
theorem State.laneRx_clean {s : State} {n : Nat} (h : s.laneServes n) (now : Nat) {b x y : List Byte} (next : State → List Byte → State)
    (hx : rsDecode (b.take 36) = .clean x) (hy : rsDecode (b.drop 36) = .clean y) :
    s.laneRx n now b next =
      if penClass (x ++ y) = 3 then s.laneControl n now (x ++ y)
      else
        let r := s.lanePennant n ((s.lane n).plov || penCrcOk (x ++ y))
        if r.2 then next r.1 (x ++ y) else r.1 := by
  have hused : ¬(bit s.pw.laneRst n = true ∨ s.laneCount ≤ n ∨ (!((s.lane n).state == 1 || (s.lane n).state == 2)) = true) := by
    simp [h.rst, h.present, h.state]
  have htrained : (s.lane n).state ≠ 1 := by rw [h.state]; decide
  simp only [State.laneRx, if_neg hused, State.laneWord_clean _ _ _ _ hx, State.laneWord_clean _ _ _ _ hy, if_neg htrained]

theorem State.laneControl_link (s : State) (n now : Nat) (d : List Byte) (hcrc : penCrcOk d = true) (ht : field d 0 2 = 0x3001) :
    s.laneControl n now d = ((s.laneAck n (field d 2 2)).setLane n fun l => { l with
      limits := [field d 4 2, field d 6 2, field d 8 2], ver := field d 10 1 }).noteVer n := by
  simp only [State.laneControl, hcrc, ht]
  rfl

/-- The pennant block expected moves both numbers on. -/
theorem State.lanePennant_taken (s : State) (n : Nat) (hd : (s.lane n).discard = false) (hin : (s.lane n).rxIn = (s.lane n).rxSeq) :
    s.lanePennant n true =
      (s.setLane n fun l => { l with rxIn := (l.rxIn + 1) % 2 ^ 16, rxSeq := (l.rxSeq + 1) % 2 ^ 16 }, true) := by
  simp [State.lanePennant, hd, hin, later_self, State.setLane_setLane]

/-- A LINK block gives the peer's limits and version, and acknowledges what lies before its number. -/
theorem State.laneReceive_link {s : State} {n now : Nat} {b x y : List Byte} (h : (s.noteSlot n false).laneServes n)
    (hx : rsDecode (b.take 36) = .clean x) (hy : rsDecode (b.drop 36) = .clean y) (hclass : penClass (x ++ y) = 3)
    (hcrc : penCrcOk (x ++ y) = true) (ht : field (x ++ y) 0 2 = 0x3001) :
    s.laneReceive n now b = (((s.noteSlot n false).laneAck n (field (x ++ y) 2 2)).setLane n fun l => { l with
      limits := [field (x ++ y) 4 2, field (x ++ y) 6 2, field (x ++ y) 8 2], ver := field (x ++ y) 10 1 }).noteVer n := by
  rw [State.laneReceive, State.laneRx_clean h now _ hx hy, if_pos hclass, State.laneControl_link _ _ _ _ hcrc ht]

/-- A whole pennant block in its turn arrives after the lane's numbers have moved on. -/
theorem State.laneReceive_pennant {s : State} {n now : Nat} {b x y : List Byte} (h : (s.noteSlot n false).laneServes n)
    (hlen : n < s.hl.lanes.length)
    (hx : rsDecode (b.take 36) = .clean x) (hy : rsDecode (b.drop 36) = .clean y) (hclass : penClass (x ++ y) ≠ 3)
    (hd : (s.lane n).discard = false) (hin : (s.lane n).rxIn = (s.lane n).rxSeq) (hplov : (s.lane n).plov = false)
    (hcrc : penCrcOk (x ++ y) = true) {u : State}
    (hu : u = (s.noteSlot n false).setLane n fun l => { l with rxIn := (l.rxIn + 1) % 2 ^ 16, rxSeq := (l.rxSeq + 1) % 2 ^ 16 }) :
    s.laneReceive n now b = (if penClass (x ++ y) = 2 then u.noteSlot n true else u).arrive (.lane n) n (s.lane n).ver none (x ++ y) := by
  have hlane := s.noteSlot_lane n n false
  have hu_lane : u.lane n = { s.lane n with
      rxIn := ((s.lane n).rxIn + 1) % 2 ^ 16, rxSeq := ((s.lane n).rxSeq + 1) % 2 ^ 16 } := by
    rw [hu, State.lane_setLane _ _ _ ((s.noteSlot_lanes n false).symm ▸ hlen), hlane]
  rw [State.laneReceive, State.laneRx_clean h now _ hx hy, if_neg hclass, hcrc, Bool.or_true,
    State.lanePennant_taken _ _ (hlane ▸ hd) (hlane ▸ hin), ← hu]
  simp only [hu_lane, hplov, if_true, Bool.false_eq_true, if_false]

end Sys2Proof.Machine
end

section
namespace Sys2Proof.Machine

/-! ## Frames received on a port (R377 to R380, R393) -/

theorem execEthernetFrameReceive_active (s : State) (p : Fin 4) (f : List Byte) (e : Bool) (ha : s.active = true)
    (hal : s.portAlive p.val = true) :
    exec (.ethernetFrameReceive p f e) s = .next (s.need.frameReceive p.val s.fleet f e).settle := by
  show execEthernetFrameReceive p f e s = _
  rw [execEthernetFrameReceive, hal, ha]
  rfl

theorem execEthernetFrameReceive_stopped (s : State) (p : Fin 4) (f : List Byte) (e : Bool) (ha : s.active = false)
    (hal : s.portAlive p.val = true) : exec (.ethernetFrameReceive p f e) s = .next (s.hold (.frame p.val f e s.fleet)) := by
  show execEthernetFrameReceive p f e s = _
  rw [execEthernetFrameReceive, hal, ha]
  rfl

theorem execEthernetFrameReceive_inReset (s : State) (p : Fin 4) (f : List Byte) (e : Bool) (hal : s.portAlive p.val = false) :
    exec (.ethernetFrameReceive p f e) s = .next s := by
  show execEthernetFrameReceive p f e s = _
  rw [execEthernetFrameReceive, hal]
  rfl

theorem State.frameReceive_notInUse (s : State) (p now : Nat) (f : List Byte) (e : Bool) (h : p ∉ s.portsUp) :
    s.frameReceive p now f e = s :=
  if_pos (by simpa using h)

theorem State.frameReceive_bad (s : State) (p now : Nat) (f : List Byte) (e : Bool) (h : p ∈ s.portsUp) (hbad : s.frameOk p f e = none) :
    s.frameReceive p now f e = s.bump (Reg.HL_EP_DISC_p_count p) 1 := by
  rw [State.frameReceive, if_neg (by simpa using h), hbad]

/-- A sequenced frame of an open association, after its header. -/
theorem State.frameReceive_open (s : State) (p now : Nat) (f : List Byte) (e : Bool) (pcp peer : Nat) (bs : List (List Byte)) (a : Assoc)
    (h : p ∈ s.portsUp) (hok : s.frameOk p f e = some (pcp, peer, bs)) (hseq : bit (field f 29 1) 0 = false)
    (ha : (s.frameHeader peer f).assoc? peer = some a) (hst : a.state = 2) :
    s.frameReceive p now f e =
      if field f 24 2 = a.rxSeq then (s.frameHeader peer f).frameTaken p peer pcp f bs
      else if later 16 (field f 24 2) a.rxSeq = true then (s.frameHeader peer f).setAssoc peer fun a => { a with nak := true }
      else (s.frameHeader peer f).setAssoc peer fun a => { a with ackDue := true } := by
  simp only [State.frameReceive, hok, hseq, ha, if_neg (not_not_intro hst)]
  rw [if_neg (by simpa using h)]
  rfl

/-- The header of a frame of an open association gives its limits and its acknowledgement. -/
theorem State.assoc?_frameHeader (s : State) (peer : Nat) (f : List Byte) (a : Assoc) (h : s.assoc? peer = some a) (hst : a.state = 2) :
    ∃ b, (s.frameHeader peer f).assoc? peer = some b ∧ b.state = 2 ∧ b.rxSeq = a.rxSeq ∧
      b.limits = [field f 30 2, field f 32 2, field f 34 2] ∧
      b.unacked = a.unacked.filter fun g => !(later 16 (field f 26 2) g.fseq) := by
  refine ⟨_, s.assoc?_setAssoc peer _ a (fun b => ?_) h, ?_⟩
  · split <;> rfl
  · rw [if_neg (not_not_intro hst)]
    exact ⟨hst, rfl, rfl, rfl⟩

@[simp] theorem State.need_assoc? (s : State) (p : Nat) : s.need.assoc? p = s.assoc? p := by
  rw [State.assoc?, State.need_hl, State.assoc?]

/-- Settles O47: what arrives is held, lost with its lane or port, or taken by `laneReceive` and `frameReceive`, one lemma a branch. That
a crossing holds an arrival with its time is log entry 99, and that a block's number is implicit log entry 79. -/
theorem blocksAndFramesAreReceived : Obligations.BlocksAndFramesAreReceived := by
  refine ⟨?outOfUse, fun s n b hb hal => execLaneBlockReceive_inReset s n b hb hal, ?held, ?link, ?pennant, ?notInUse, ?bad, ?sequenced,
    ?outOfTurn, ?frameHeld, fun s p f e hal => execEthernetFrameReceive_inReset s p f e hal⟩
  case outOfUse =>
    intro s n b hb ha hal hlocals hseen h1 h2
    rw [← s.need.noteSlot_lane n.val n.val false] at h1 h2
    rw [← s.need_hl, ← s.need.noteSlot_locals n.val false] at hlocals
    rw [← s.need_hl, ← s.need.noteSlot_seen n.val false] at hseen
    rw [execLaneBlockReceive_active s n b hb ha hal, State.laneReceive, State.laneRx_outOfUse _ _ _ _ _ h1 h2,
      State.settle_quiet _ hlocals hseen]
  case held =>
    intro s n b hb ha hal
    refine ⟨_, execLaneBlockReceive_stopped s n b hb ha hal, ?_⟩
    rw [State.hold_hl]
    exact ⟨rfl, rfl⟩
  case link =>
    intro s n b x y hb ha hal hlen hlocals hseen hst hx hy hclass hcrc ht
    have hexec := execLaneBlockReceive_active s n b hb ha hal
    rw [State.laneReceive_link (State.laneServes_counted hal hst) hx hy hclass hcrc ht] at hexec
    rw [← s.need_hl, ← s.need.noteSlot_lanes n.val false] at hlen
    rw [← s.need_hl, ← s.need.noteSlot_locals n.val false] at hlocals
    rw [← s.need_hl, ← s.need.noteSlot_seen n.val false] at hseen
    have hn : n.val < (s.need.noteSlot n.val false).hl.lanes.length := hlen.symm ▸ n.isLt
    obtain ⟨hun, hstate, hseq⟩ := State.lane_laneAck (s.need.noteSlot n.val false) n.val (field (x ++ y) 2 2) hn
    rw [State.noteSlot_lane, State.need_lane] at hun hstate hseq
    rw [State.settle_quiet] at hexec
    refine ⟨_, hexec, ?_⟩
    rw [State.noteVer_lane, State.lane_setLane _ _ _ ((State.setLane_lanes_length _ _ _).symm ▸ hn)]
    exact ⟨rfl, rfl, hun, hstate.trans hst, hseq⟩
    · rw [State.noteVer_hl]
      exact hlocals
    · rw [State.noteVer_hl]
      exact hseen
  case pennant =>
    intro s u n b x y hb ha hal hlen _ hst hd hin hx hy hclass hplov hcrc hu
    have hserves := State.laneServes_counted hal hst
    rw [← s.need_hl] at hlen
    rw [← s.need_lane] at hd hin hplov ⊢
    rw [execLaneBlockReceive_active s n b hb ha hal,
      State.laneReceive_pennant hserves (hlen.symm ▸ n.isLt) hx hy hclass hd hin hplov hcrc hu]
  case notInUse =>
    intro s p f e ha hal hlocals hseen hp
    rw [← s.need_hl] at hlocals hseen
    rw [execEthernetFrameReceive_active s p f e ha hal, State.frameReceive_notInUse _ _ _ _ _ hp, State.settle_quiet _ hlocals hseen]
  case bad =>
    intro s p f e ha hal hlocals hseen hp hbad
    rw [← s.need_hl] at hlocals hseen
    rw [execEthernetFrameReceive_active s p f e ha hal, State.frameReceive_bad _ _ _ _ _ hp hbad,
      State.settle_quiet (s.need.bump _ 1) hlocals hseen]
  case sequenced =>
    rintro s u p f e pcp peer bs a ha hal hp hok rfl hseq hassoc hst
    rw [execEthernetFrameReceive_active s p f e ha hal, State.frameReceive_open _ _ _ _ _ _ _ _ _ hp hok hseq hassoc hst]
  case outOfTurn =>
    intro s p f e pcp peer bs a ha hal hlocals hseen hp hok hseq hassoc hst hturn
    obtain ⟨b, hb, hbst, hbseq, hlimits, hun⟩ := s.need.assoc?_frameHeader peer f a ((s.need_assoc? peer).trans hassoc) hst
    have hexec := execEthernetFrameReceive_active s p f e ha hal
    rw [State.frameReceive_open _ _ _ _ _ _ _ _ _ hp hok hseq hb hbst, hbseq, if_neg hturn] at hexec
    rw [← s.need_hl] at hlocals hseen
    by_cases hahead : later 16 (field f 24 2) a.rxSeq = true
    · rw [if_pos hahead, State.settle_quiet ((s.need.frameHeader peer f).setAssoc peer _) hlocals hseen] at hexec
      exact ⟨_, _, hexec, State.assoc?_setAssoc _ _ _ b (fun _ => rfl) hb, hlimits, hun, hbseq, fun _ => rfl,
        fun hbehind => absurd hahead (by simp [hbehind])⟩
    · rw [if_neg hahead, State.settle_quiet ((s.need.frameHeader peer f).setAssoc peer _) hlocals hseen] at hexec
      exact ⟨_, _, hexec, State.assoc?_setAssoc _ _ _ b (fun _ => rfl) hb, hlimits, hun, hbseq, fun h => absurd h hahead, fun _ => rfl⟩
  case frameHeld =>
    intro s p f e ha hal
    refine ⟨_, execEthernetFrameReceive_stopped s p f e ha hal, ?_⟩
    rw [State.hold_hl]
    exact ⟨rfl, rfl⟩

end Sys2Proof.Machine
end

section
namespace Sys2Proof.Machine

/-! ## A retired tag's time comes while the fast clock runs (R418, R98) -/

/-- Time that passes to a deadline still ahead ends in work of the fast domain, from which its idle time counts (R98). -/
theorem State.passToFleet_idleFrom (s : State) (t : Nat) (ha : s.active = true) (hahead : s.reached t = false) :
    (s.passToFleet t).pw.idleFrom = (s.passToFleet t).cyc := by
  rw [State.passToFleet, if_neg (by simp [hahead]), if_pos ha]

theorem execRetiredTagExpire_held (s : State) (p : Fin 128) (a tag t : Nat)
    (h : (s.red.retired.find? fun e => e.1 == p.val) = some (a, tag, t)) :
    exec (.retiredTagExpire p) s =
      .next ((s.passToFleet t).setRed fun r => { r with retired := r.retired.filter fun e => e.1 != p.val }) := by
  show execRetiredTagExpire p s = _
  rw [execRetiredTagExpire, h]

/-- While the fast clock runs, the idle time starts again at the cycle in which the tag is freed. -/
theorem execRetiredTagExpire_idleFrom (s u : State) (p : Fin 128) (a tag t : Nat) (ha : s.active = true)
    (h : (s.red.retired.find? fun e => e.1 == p.val) = some (a, tag, t)) (hahead : s.reached t = false)
    (hexec : exec (.retiredTagExpire p) s = .next u) : u.pw.idleFrom = (s.passToFleet t).cyc := by
  rw [execRetiredTagExpire_held s p a tag t h, Host.Outcome.next.injEq] at hexec
  rw [← hexec, State.setRed_pw, s.passToFleet_idleFrom t ha hahead]

/-- A tray with its fast clock running, idle since cycle 0, that holds tag 1 back in place 0 until fleet time 50. -/
def tagHeldBack : State :=
  { State.reset with
    role := 1
    pw := { State.reset.pw with st := .active, ack := true, fastRst := false, laneRst := 0, portRst := 0 }
    red := { State.reset.red with retired := [(0, (1, 50))] } }

/-- Fleet time 50 lies two fast cycles behind the edge of AON cycle 3. -/
theorem tagHeldBack_freed_in_cycle_three :
    tagHeldBack.reached 50 = false ∧ (tagHeldBack.passToFleet 50).cyc = 3 := by
  decide +kernel

/-- Refutes O49: its clause on a retired tag lets a tag that is freed change the cycle and the retired list alone. While the fast
clock runs, its idle time starts again when time passes to a deadline (R98, log entry 28): `tagHeldBack` is idle from cycle 0 before
and from cycle 3 after. -/
theorem not_epochsFoldAndResultsPublish : ¬ Obligations.EpochsFoldAndResultsPublish := by
  unfold Obligations.EpochsFoldAndResultsPublish
  rintro ⟨-, -, -, -, -, hfreed, -⟩
  obtain ⟨hahead, hcyc⟩ := tagHeldBack_freed_in_cycle_three
  have hkept := execRetiredTagExpire_idleFrom _ _ 0 0 1 50 rfl rfl hahead (hfreed tagHeldBack 0 0 1 50 rfl)
  have hzero_eq_three : 0 = 3 := hkept.trans hcyc
  exact absurd hzero_eq_three (by decide)

end Sys2Proof.Machine
end

section
namespace Sys2Proof.Machine

/-! ## Time that passes to a moment of the fast domain (R98, R202) -/

/-- A die whose fast clock runs, idle since cycle 0. -/
def clockRunning : State :=
  { State.reset with pw := { State.reset.pw with st := .active, ack := true, fastRst := false, laneRst := 0, portRst := 0 } }

/-- Time that passes to a moment ahead changes the power state: the idle time counts from that moment (R98). -/
theorem State.passToFleet_pw_ne (s : State) (t : Nat) (ha : s.active = true) (hahead : s.reached t = false)
    (hidle : s.pw.idleFrom ≠ (s.passToFleet t).cyc) : (s.passToFleet t).pw ≠ s.pw := fun h =>
  hidle ((congrArg Power.idleFrom h).symm.trans (s.passToFleet_idleFrom t ha hahead))

/-! ## The steward's timer (R520) -/

theorem execStewardTimer_enabled (s : State) (ha : s.active = true) (hen : s.get Reg.ST_TMR_CTRL_en = 1) :
    exec .stewardTimer s = .next (s.passToFleet (s.rd64 Reg.ST_TMR_LO)) := by
  show execStewardTimer s = _
  rw [execStewardTimer, if_pos ha, State.stewardTimer, if_pos hen]

/-- The steward's timer is enabled and stands at fleet time 50, two fast cycles past the edge of AON cycle 3. -/
def timerAhead : State := (clockRunning.put Reg.ST_TMR_CTRL_en 1).wr Reg.ST_TMR_LO 50

theorem timerAhead_enabled : timerAhead.get Reg.ST_TMR_CTRL_en = 1 := by decide +kernel

theorem timerAhead_passes_to_cycle_three :
    timerAhead.reached (timerAhead.rd64 Reg.ST_TMR_LO) = false ∧ (timerAhead.passToFleet (timerAhead.rd64 Reg.ST_TMR_LO)).cyc = 3 := by
  decide +kernel

/-- Refutes O59: its clause on an enabled timer lets the cycle alone change. While the fast clock runs, the idle time counts from the
timer's moment (R98, log entry 28), and the fast domain stands two fast cycles past the edge of AON cycle 3 (R202). -/
theorem not_stewardTimersAndRecords : ¬ Obligations.StewardTimersAndRecords := by
  unfold Obligations.StewardTimersAndRecords
  rintro ⟨htimer, -⟩
  obtain ⟨hahead, hcyc⟩ := timerAhead_passes_to_cycle_three
  have hexec := htimer timerAhead rfl timerAhead_enabled
  rw [execStewardTimer_enabled _ rfl timerAhead_enabled, Host.Outcome.next.injEq] at hexec
  have hpw := congrArg State.pw hexec
  exact State.passToFleet_pw_ne _ _ rfl hahead (by rw [hcyc]; decide) hpw

end Sys2Proof.Machine
end

section
namespace Sys2Proof.Machine

/-! ## Saturation windows (R450, R451) -/

/-- The end of a window passes time alone. -/
theorem State.windowEnd_shape (s : State) (last : Nat) : ∃ c p, s.windowEnd last = { s with cyc := c, pw := p } := by
  unfold State.windowEnd
  split
  · exact ⟨s.cyc, s.pw, rfl⟩
  · exact State.passToFleet_shape s _

@[simp] theorem State.windowEnd_red (s : State) (last : Nat) : (s.windowEnd last).red = s.red := by
  obtain ⟨c, p, h⟩ := s.windowEnd_shape last
  rw [h]

@[simp] theorem State.windowEnd_hl (s : State) (last : Nat) : (s.windowEnd last).hl = s.hl := by
  obtain ⟨c, p, h⟩ := s.windowEnd_shape last
  rw [h]

theorem State.windowEnd_ahead (s : State) (last : Nat) (h : s.fleet / s.satWindow ≤ last) :
    s.windowEnd last = s.passToFleet ((s.fleet / s.satWindow + 1) * s.satWindow % 2 ^ 64) :=
  if_neg (Nat.not_lt.mpr h)

/-- A window without lane pairs whose delay stays below the limit ends with the next one begun. -/
theorem State.satEnd_below (s : State) (ht : s.tray = true) (hw : s.satWindow ≠ 0) (hs : s.hl.slots = [])
    (hd : s.hl.satDelay < s.get Reg.FA_SAT_sat_us * usTicks) : s.satEnd = (s.windowEnd s.fa.satWin).satBegin := by
  obtain ⟨c, p, h⟩ := s.windowEnd_shape s.fa.satWin
  have hget : State.get { s with cyc := c, pw := p } Reg.FA_SAT_sat_us = s.get Reg.FA_SAT_sat_us := rfl
  unfold State.satEnd
  rw [if_neg (by simp [ht, hw]), h]
  simp only [hget, hs, decide_eq_false (Nat.not_le.mpr hd), List.any_nil, Bool.and_false, Bool.false_eq_true, if_false]

/-- With no fold waiting and no pennant to observe, the analytics has nothing to take. -/
theorem State.faRun_quiet (s : State) (hdue : s.red.due = []) (hseen : s.hl.seen = []) : s.faRun = s := by
  have hred : { s.red with due := [] } = s.red := by rw [← hdue]
  unfold State.faRun
  split
  · rfl
  · rw [hdue, hred]
    exact State.observeSeen_quiet 64 s hseen

theorem State.satBegin_eq_setFa (s : State) : s.satBegin =
    { (s.setFa fun a => { a with satWin := s.fleet / s.satWindow }) with
      hl := { (s.setFa fun a => { a with satWin := s.fleet / s.satWindow }).hl with satDelay := 0, slots := [] } } :=
  rfl

theorem State.setFa_recounted (s : State) (f : Analytics → Analytics) :
    { s.setFa f with hl := { (s.setFa f).hl with satDelay := 0, slots := [] } } =
      { s with fa := f s.fa, hl := { s.hl with satDelay := 0, slots := [] } } :=
  rfl

/-- A window's beginning clears what the last one counted and takes a number. -/
theorem State.satBegin_shape (s : State) :
    ∃ w, s.satBegin = { s with fa := { s.fa with satWin := w }, hl := { s.hl with satDelay := 0, slots := [] } } := by
  rw [State.satBegin_eq_setFa, State.setFa_recounted]
  exact ⟨_, rfl⟩

@[simp] theorem State.satBegin_pw (s : State) : s.satBegin.pw = s.pw := by
  obtain ⟨w, h⟩ := s.satBegin_shape
  rw [h]

@[simp] theorem State.satBegin_red (s : State) : s.satBegin.red = s.red := by
  obtain ⟨w, h⟩ := s.satBegin_shape
  rw [h]

@[simp] theorem State.satBegin_seen (s : State) : s.satBegin.hl.seen = s.hl.seen := by
  obtain ⟨w, h⟩ := s.satBegin_shape
  rw [h]

theorem execSatWindowEnd_below (s : State) (ha : s.active = true) (ht : s.tray = true) (hw : s.satWindow ≠ 0) (hs : s.hl.slots = [])
    (hdue : s.red.due = []) (hseen : s.hl.seen = []) (hd : s.hl.satDelay < s.get Reg.FA_SAT_sat_us * usTicks) :
    exec .satWindowEnd s = .next (s.windowEnd s.fa.satWin).satBegin := by
  show execSatWindowEnd s = _
  rw [execSatWindowEnd, if_pos ha, State.satEnd_below s ht hw hs hd, State.faRun_quiet]
  · rw [State.satBegin_red, State.windowEnd_red, hdue]
  · rw [State.satBegin_seen, State.windowEnd_hl, hseen]

/-- A tray in the first saturation window of 1 ms, with a delay limit of 1 µs. -/
def windowOpen : State := ({ clockRunning with role := 1 }.put Reg.FA_SAT_win_ms 1).put Reg.FA_SAT_sat_us 1

theorem windowOpen_ends_in_cycle_100000 :
    windowOpen.reached ((windowOpen.fleet / windowOpen.satWindow + 1) * windowOpen.satWindow % 2 ^ 64) = false ∧
      (windowOpen.windowEnd windowOpen.fa.satWin).cyc = 100000 := by
  decide +kernel

/-- Refutes O51: its clause on a delay below the limit lets the cycle, the window's number and the delay alone change. While the fast
clock runs, the idle time counts from the window's end (R98, log entry 28): `windowOpen` is idle from cycle 0 before and from cycle
100,000 after. -/
theorem not_saturationWindowsEnd : ¬ Obligations.SaturationWindowsEnd := by
  unfold Obligations.SaturationWindowsEnd
  rintro ⟨hends, -⟩
  obtain ⟨hahead, hcyc⟩ := windowOpen_ends_in_cycle_100000
  have hbelow : windowOpen.hl.satDelay < windowOpen.get Reg.FA_SAT_sat_us * 1600 := by decide +kernel
  obtain ⟨u, rfl, hexec, -⟩ := hends windowOpen rfl rfl (by decide +kernel) rfl rfl rfl
  have hsteps := (execSatWindowEnd_below windowOpen rfl rfl (by decide +kernel) rfl rfl rfl hbelow).symm.trans (hexec hbelow)
  rw [Host.Outcome.next.injEq] at hsteps
  have hpw := congrArg State.pw hsteps
  rw [State.satBegin_pw, State.windowEnd_ahead _ _ (by decide +kernel)] at hpw
  rw [State.windowEnd_ahead _ _ (by decide +kernel)] at hcyc
  exact State.passToFleet_pw_ne _ _ rfl hahead (by rw [hcyc]; decide) hpw

end Sys2Proof.Machine
end

section
namespace Sys2Proof.Machine

/-! ## A dump's bound (R469) -/

theorem State.dumpCut_pw (s : State) (k : Nat) : (s.dumpCut k).pw = s.pw := rfl

/-- The dump of queue `q` in service before its bound. -/
def State.boundedDump (s : State) (q : Nat) : Option DumpJob :=
  s.dc.jobs.find? fun j => (match j.q with | some (n, _) => n == q | none => false) && j.engine.isSome && !j.partial_

theorem execDumpBound_inService (s : State) (q : Fin 16) (j : DumpJob) (k : Nat) (ha : s.active = true)
    (hj : s.boundedDump q.val = some j) (hk : j.engine = some k) :
    exec (.dumpBound q) s = .next ((s.passToFleet ((j.at_ + j.bound * msTicks) % 2 ^ 64)).dumpCut k) := by
  have hfound : s.dumpBound q.val = (match s.boundedDump q.val with
    | none => s
    | some j => match j.engine with
      | none => s
      | some k => (s.passToFleet ((j.at_ + j.bound * msTicks) % 2 ^ 64)).dumpCut k) := rfl
  show execDumpBound q s = _
  rw [execDumpBound, if_pos ha, hfound, hj]
  simp only [hk]

/-- A dump of queue 0 on engine 0, issued at fleet time 0 with a bound of 1 ms. -/
def boundJob : DumpJob := { q := some (0, 0), kind := 0, engine := some 0, at_ := 0, bound := 1, cfg := 0 }

/-- A die that serves `boundJob`. -/
def dumpInService : State := { clockRunning with dc := { clockRunning.dc with jobs := [boundJob] } }

theorem dumpInService_bound_in_cycle_100000 :
    dumpInService.reached ((boundJob.at_ + boundJob.bound * msTicks) % 2 ^ 64) = false ∧
      (dumpInService.passToFleet ((boundJob.at_ + boundJob.bound * msTicks) % 2 ^ 64)).cyc = 100000 := by
  decide +kernel

/-- Refutes O54: its clause on DUMP_BOUND lets the cut start from the state before with its cycle alone moved. While the fast clock
runs, the idle time counts from the bound (R98, log entry 28): `dumpInService` is idle from cycle 0 before and from cycle 100,000
after, and the cut leaves that alone. -/
theorem not_dumpsSendTheirSegments : ¬ Obligations.DumpsSendTheirSegments := by
  unfold Obligations.DumpsSendTheirSegments
  rintro ⟨-, -, -, -, -, -, hbound, -⟩
  obtain ⟨hahead, hcyc⟩ := dumpInService_bound_in_cycle_100000
  obtain ⟨t, hexec, hcut, -⟩ := hbound dumpInService 0 boundJob 0 rfl rfl rfl
  rw [execDumpBound_inService dumpInService 0 boundJob 0 rfl rfl rfl, Host.Outcome.next.injEq] at hexec
  have hpw := congrArg State.pw (hexec.trans hcut)
  rw [State.dumpCut_pw, State.dumpCut_pw] at hpw
  exact State.passToFleet_pw_ne _ _ rfl hahead (by rw [hcyc]; decide) hpw

end Sys2Proof.Machine
end

section
namespace Sys2Proof.Machine

/-! ## PN_SEND in a commit's drain (R142, R517) -/

theorem rvF3_encR (f7 rs2 rs1 f3 rd op : Nat) (hf3 : f3 < 8) (hrd : rd < 32) (hop : op < 128) :
    rvF3 (encR f7 rs2 rs1 f3 rd op) = f3 := by
  rw [rvF3, bits_eq, encR]
  omega

theorem rvF7_encR (f7 rs2 rs1 f3 rd op : Nat) (hf7 : f7 < 128) (hrs2 : rs2 < 32) (hrs1 : rs1 < 32) (hf3 : f3 < 8) (hrd : rd < 32)
    (hop : op < 128) : rvF7 (encR f7 rs2 rs1 f3 rd op) = f7 := by
  rw [rvF7, bits_eq, encR]
  omega

theorem rvOp_encR (f7 rs2 rs1 f3 rd op : Nat) (hop : op < 128) : rvOp (encR f7 rs2 rs1 f3 rd op) = op := by
  rw [rvOp, bits_eq, encR]
  omega

theorem State.rvExec_custom (s : State) (w len : Nat) (h : rvOp w = 0x0B) : s.rvExec w len = s.rvCustom w len := by
  simp only [State.rvExec, h]

/-- A drain of the halyard's fields holds the hart at `pn.send`. -/
theorem State.rvCustom_held (s : State) (w len : Nat) (h7 : rvF7 w = 0) (h3 : rvF3 w = 3) (hd : s.drainHas 0x0B = true) :
    s.rvCustom w len = s := by
  rw [State.rvCustom, if_neg (not_not.mpr h7), if_pos ⟨h3, by rw [hd, Bool.true_or]⟩]

/-- PN_SEND held by a drain changes nothing. -/
theorem execPnSend_held (s : State) (rd rs1 rs2 : BitVec 5) (hi : s.issues = true) (hw : s.hart.wfi = false) (hs : s.st.swapDue = false)
    (hd : s.drainHas 0x0B = true) : exec (.pnSend rd rs1 rs2) s = .next s := by
  have hwake : s.wakeHart = s := by rw [State.wakeHart, hw]; rfl
  have hop := rvOp_encR 0 rs2.toNat rs1.toNat 3 rd.toNat 0x0B (by decide)
  have h7 := rvF7_encR 0 rs2.toNat rs1.toNat 3 rd.toNat 0x0B (by decide) rs2.isLt rs1.isLt (by decide) rd.isLt (by decide)
  have h3 := rvF3_encR 0 rs2.toNat rs1.toNat 3 rd.toNat 0x0B (by decide) rd.isLt (by decide)
  show Host.Outcome.next (s.xbospenRow 3 rd rs1 rs2) = _
  rw [State.xbospenRow, if_pos hi, hwake, State.rvExec_custom s _ 4 hop,
    State.rvCustom_held s _ 4 h7 h3 hd, State.swapBanks, hs]
  rfl

/-- A hart that runs an image while a commit drains the halyard's fields. -/
def sendHeld : State :=
  { clockRunning with
    ho := { clockRunning.ho with phase := 1, changed := 2 ^ 0x0B }
    st := { clockRunning.st with runs := true, hart := { clockRunning.st.hart with wfi := false } } }

/-- Refutes O58: its clause on the Xbospen commands lets PN_SEND of a hart that issues retire at once. While a commit drains the
halyard's fields new sends are held (R142), and the hart waits at its instruction: `sendHeld` is left as it stands, where the clause
counts one instruction retired. -/
theorem not_theStewardStepsAndItsOwnInstructions : ¬ Obligations.TheStewardStepsAndItsOwnInstructions := by
  unfold Obligations.TheStewardStepsAndItsOwnInstructions
  rintro ⟨-, -, -, -, hxbospen, -⟩
  obtain ⟨-, hretires⟩ := hxbospen sendHeld sendHeld 0 0 0 3 Code.QE_BAD_CMD (.pnSend 0 0 0) rfl rfl (by simp) rfl
  obtain ⟨t, hexec, -, -, -, hretired, -⟩ := hretires rfl
  rw [execPnSend_held sendHeld 0 0 0 rfl rfl rfl rfl, Host.Outcome.next.injEq] at hexec
  have hzero_eq_one : 0 = 1 := (congrArg (fun s : State => s.hart.minstret) hexec).trans hretired
  exact absurd hzero_eq_one (by decide)

end Sys2Proof.Machine
end

section
namespace Sys2Proof.Machine

/-! ## Writes whose rule may refuse them -/

theorem writes_of_rule {c : Instr} {s : State} {who : Who} {off v : Nat} {u : State} {o : Option State}
    (hc : exec c s = .next (s.writeBy who off v)) (hready : s.ready who) (hb : s.busWrite (Who.num who) off v = s.orRefuse o)
    (ho : o = some u) : Writes c s who u :=
  writes_of_busWrite hc hready (by rw [hb, ho]; rfl)

theorem refuses_of_rule {c : Instr} {s : State} {who : Who} {off v : Nat} {o : Option State}
    (hc : exec c s = .next (s.writeBy who off v)) (hready : s.ready who) (hb : s.busWrite (Who.num who) off v = s.orRefuse o)
    (ho : o = none) : Refuses c s who s :=
  refuses_of_busWrite hc hready (by rw [hb, ho]; rfl)

theorem State.get_of_regs {s t : State} (h : t.regs = s.regs) (f : Fld) : t.get f = s.get f := by
  rw [State.get, State.rd, h]
  rfl

/-! ## IMAGE_LOAD (R530) -/

/-- The cases in which a write of `ST_IM_LOAD` with `go` is refused. -/
def State.imLoadRefused (s : State) (v : Nat) : Prop :=
  bits v 28 1 = s.st.bank ∨ s.st.load.isSome = true ∨ (s.tray = false ∧ (bits v 29 2 = 1 ∨ bits v 29 2 = 2)) ∨
    (bit v 26 = true ∧ s.secAuth = false)

theorem State.wImLoad_refused (s : State) (v : Nat) (hgo : bit v 31 = true) (h : s.imLoadRefused v) : s.wImLoad v = none := by
  unfold State.imLoadRefused at h
  unfold State.wImLoad
  rw [if_neg (by simp [hgo]), if_pos h]

@[simp] theorem State.setSt_st (s : State) (f : Steward → Steward) : (s.setSt f).st = f s.st := rfl

/-- A write of `ST_IM_LOAD` that is accepted: `go` shows, and the bank's image is no longer accepted (R530). -/
def State.imLoadTaken (s : State) (v : Nat) : State :=
  (((s.wr Reg.ST_IM_LOAD (bits v 26 5 * 2 ^ 26 + (s.rd Reg.ST_IM_LOAD / 2 ^ 31) * 2 ^ 31)).put Reg.ST_IM_LOAD_go 1).setBank
    (bits v 28 1) fun b => { b with ok := false }).setSt fun t => { t with imBad := t.imBad.filter fun e => e.1 != bits v 28 1 }

/-- The load that the word and the source registers describe (R530). -/
def State.imLoadJob (s : State) (v : Nat) : ImLoad :=
  let addr := s.rd Reg.ST_IM_SRC_LO + 2 ^ 32 * s.get Reg.ST_IM_SRC_HI_addr_hi
  let addr := if bits v 29 2 = 3 then addr % 2 ^ 32 - addr % 8 else addr - addr % 64
  { bank := bits v 28 1, kind := bits v 29 2, nosig := bit v 26, addr := addr, len := s.rd Reg.ST_IM_LEN, slot := bits v 27 1,
    failed := if bits v 29 2 = 3 && lostIn s.st.dmBad addr (s.rd Reg.ST_IM_LEN) then some Code.UNCORRECTABLE else none }

theorem State.imLoadJob_bank (s : State) (v : Nat) : (s.imLoadJob v).bank = bits v 28 1 := rfl

theorem State.imLoadJob_len (s : State) (v : Nat) : (s.imLoadJob v).len = s.rd Reg.ST_IM_LEN := rfl

theorem State.wImLoad_starts (s : State) (v : Nat) (hgo : bit v 31 = true) (h : ¬ s.imLoadRefused v) :
    s.wImLoad v = some ((s.imLoadTaken v).imgStart ((s.imLoadTaken v).imLoadJob v)) := by
  unfold State.imLoadRefused at h
  unfold State.wImLoad
  rw [if_neg (by simp [hgo]), if_neg h]
  rfl

theorem State.imLoadTaken_go (s : State) (v : Nat) : (s.imLoadTaken v).get Reg.ST_IM_LOAD_go = 1 := by
  rw [State.imLoadTaken, State.setSt_get, State.setBank, State.setSt_get, State.get_put_same _ _ _ (by decide)]
  rfl

theorem State.imLoadTaken_st (s : State) (v : Nat) : (s.imLoadTaken v).st = { s.st with
    banks := modAt s.st.banks (bits v 28 1) (fun b => { b with ok := false })
    imBad := s.st.imBad.filter fun e => e.1 != bits v 28 1 } := by
  rw [State.imLoadTaken, State.setSt_st, State.setBank, State.setSt_st, State.put_st, State.wr_st]

theorem State.imLoadTaken_rd (s : State) (v o : Nat) (h : o ≠ Reg.ST_IM_LOAD) : (s.imLoadTaken v).rd o = s.rd o := by
  rw [State.imLoadTaken, State.setSt_rd, State.setBank, State.setSt_rd, State.rd_put_other _ _ _ _ h, State.rd_wr_other _ _ _ _ h]

/-- A bank other than the one loaded keeps its image. -/
theorem State.imLoadTaken_imBank_other (s : State) (v k : Nat) (h : bits v 28 1 ≠ k) : (s.imLoadTaken v).imBank k = s.imBank k := by
  rw [State.imBank, State.imLoadTaken_st]
  exact modAt_get_other _ _ _ _ _ h

theorem State.imLoadTaken_imBank_same (s : State) (v : Nat) (h : s.st.banks.length = 2) :
    ((s.imLoadTaken v).imBank (bits v 28 1)).ok = false := by
  rw [State.imBank, State.imLoadTaken_st, modAt_get_same _ _ _ _ (h.symm ▸ bits_lt v 28 1)]

/-- The start of a load holds it with its bank and length, asks for lines, and leaves the rest alone. -/
theorem State.imgStart_shape (s : State) (l : ImLoad) : ∃ (m : ImLoad) (h f : ReqPort),
    s.imgStart l = { s with st := { s.st with load := some m }, host := h, fsp := f } ∧ m.bank = l.bank ∧ m.len = l.len := by
  unfold State.imgStart
  split
  · exact ⟨l, s.host, s.fsp, rfl, rfl, rfl⟩
  · unfold State.imgFetch
    dsimp only
    split_ifs
    · exact ⟨_, _, s.fsp, rfl, rfl, rfl⟩
    · exact ⟨_, s.host, _, rfl, rfl, rfl⟩
    · exact ⟨_, s.host, s.fsp, rfl, rfl, rfl⟩
    · exact ⟨l, s.host, s.fsp, rfl, rfl, rfl⟩

theorem State.imgStart_load (s : State) (l : ImLoad) : ∃ m, (s.imgStart l).st.load = some m ∧ m.bank = l.bank ∧ m.len = l.len := by
  obtain ⟨m, h, f, hstart, hbank, hlen⟩ := s.imgStart_shape l
  exact ⟨m, by rw [hstart], hbank, hlen⟩

@[simp] theorem State.imgStart_bank (s : State) (l : ImLoad) : (s.imgStart l).st.bank = s.st.bank := by
  obtain ⟨m, h, f, hstart, -, -⟩ := s.imgStart_shape l
  rw [hstart]

@[simp] theorem State.imgStart_imBank (s : State) (l : ImLoad) (k : Nat) : (s.imgStart l).imBank k = s.imBank k := by
  obtain ⟨m, h, f, hstart, -, -⟩ := s.imgStart_shape l
  rw [hstart]
  rfl

@[simp] theorem State.imgStart_get (s : State) (l : ImLoad) (f : Fld) : (s.imgStart l).get f = s.get f := by
  obtain ⟨m, h, f, hstart, -, -⟩ := s.imgStart_shape l
  rw [hstart]
  rfl

/-! ## IMAGE_LOAD_END (R530) -/

/-- The end of a load with the code `code`, before its bank is filled. -/
def State.imLoadEnded (s : State) (code : Nat) : State :=
  (((s.put Reg.ST_IM_LOAD_go 0).put Reg.ST_IM_STAT_code code).setSt fun t => { t with load := none }).need

theorem State.imLoadEnded_st (s : State) (code : Nat) : (s.imLoadEnded code).st = { s.st with load := none } := by
  rw [State.imLoadEnded, State.need_st, State.setSt_st, State.put_st, State.put_st]

theorem State.imLoadEnded_queues (s : State) (code : Nat) : (s.imLoadEnded code).queues = s.queues := by
  rw [State.imLoadEnded, State.need_queues, State.setSt_queues, State.put_queues, State.put_queues]

theorem State.imLoadEnded_code (s : State) (code : Nat) (h : code < 256) :
    (s.imLoadEnded code).get Reg.ST_IM_STAT_code = code := by
  rw [State.imLoadEnded, State.need_get, State.setSt_get, State.get_put_same _ _ _ (by decide)]
  exact Nat.mod_eq_of_lt h

theorem State.imLoadEnded_go (s : State) (code : Nat) : (s.imLoadEnded code).get Reg.ST_IM_LOAD_go = 0 := by
  rw [State.imLoadEnded, State.need_get, State.setSt_get, State.get_put_other _ _ _ _ (by decide), State.get_put_same _ _ _ (by decide)]
  rfl

theorem State.imageLoadEnd_idle (s : State) (h : s.st.load = none) : s.imageLoadEnd = s := by
  unfold State.imageLoadEnd
  rw [h]

/-- A load with its lines in, outside start-up, ends with its judgement; an accepted image fills its bank. -/
theorem State.imageLoadEnd_judged (s : State) (l : ImLoad) (hl : s.st.load = some l) (hlines : l.awaiting = 0) (hstage : s.stage ≠ 3)
    (hflash : l.kind ≠ 2 ∨ s.fl.op = none) (hdata : (s.imgJudge l).1 ≠ Code.DATA_FAULT)
    (hunc : (s.imgJudge l).1 ≠ Code.UNCORRECTABLE) :
    s.imageLoadEnd = if (s.imgJudge l).1 = Code.OK then (s.imLoadEnded (s.imgJudge l).1).setBank l.bank fun _ => (s.imgJudge l).2
      else s.imLoadEnded (s.imgJudge l).1 := by
  have hready : ¬ (l.awaiting ≠ 0 ∨ s.stage = 3 ∨ (l.kind = 2 ∧ s.fl.op.isSome = true)) := by
    rintro (h | h | ⟨hkind, hop⟩)
    · exact h hlines
    · exact hstage h
    · exact hflash.elim (fun hne => hne hkind) fun hnone => by simp [hnone] at hop
  have hquiet : ¬ ((s.imgJudge l).1 = Code.DATA_FAULT ∨ (s.imgJudge l).1 = Code.UNCORRECTABLE) := not_or.mpr ⟨hdata, hunc⟩
  unfold State.imageLoadEnd
  rw [hl]
  dsimp only
  rw [if_neg hready, if_neg hquiet]
  rfl

theorem execImageLoadEnd_idle (s : State) (h : s.st.load = none) : exec .imageLoadEnd s = .next s := by
  show Host.Outcome.next (if s.active then s.imageLoadEnd else s) = _
  rw [s.imageLoadEnd_idle h, ite_self]

theorem execImageLoadEnd_active (s : State) (ha : s.active = true) : exec .imageLoadEnd s = .next s.imageLoadEnd := by
  show Host.Outcome.next (if s.active then s.imageLoadEnd else s) = _
  rw [if_pos ha]

theorem State.imBank_setBank_same (s : State) (k : Nat) (f : ImBank → ImBank) (h : k < s.st.banks.length) :
    (s.setBank k f).imBank k = f (s.imBank k) :=
  modAt_get_same _ _ _ _ h

/-! ## IMAGE_SWAP (R531) -/

theorem State.wSwapKey_accepts (s : State) (req v : Nat) (hreq : req = 14 ∨ req = 15) (hkey : v % 2 ^ 16 = 0x3C3C)
    (hok : s.idleBank.ok = true) (hload : s.st.load = none) (hfloor : s.secFloor ≤ s.idleBank.sec) :
    s.wSwapKey req v = some { s with st := { s.st with swapDue := true } } :=
  if_pos ⟨hreq, hkey, hok, by rw [hload]; rfl, hfloor⟩

theorem State.wSwapKey_refuses (s : State) (req v : Nat) (h : (req ≠ 14 ∧ req ≠ 15) ∨ v % 2 ^ 16 ≠ 0x3C3C ∨ s.idleBank.ok = false ∨
    s.st.load.isSome = true ∨ s.idleBank.sec < s.secFloor) : s.wSwapKey req v = none := by
  refine if_neg ?_
  rintro ⟨hreq, hkey, hok, hload, hfloor⟩
  obtain ⟨h14, h15⟩ | hne | hbad | hbusy | hlow := h
  · exact hreq.elim h14 h15
  · exact hne hkey
  · simp [hok] at hbad
  · rw [Option.isNone_iff_eq_none] at hload
    simp [hload] at hbusy
  · omega

/-- The hart's start keeps the banks and what runs. -/
theorem State.hartStart_bank (s : State) : s.hartStart.st.bank = s.st.bank ∧ s.hartStart.st.runs = s.st.runs := ⟨rfl, rfl⟩

theorem State.swapBanks_due (s : State) (h : s.st.swapDue = true) :
    s.swapBanks.st.bank = 1 - s.st.bank ∧ s.swapBanks.st.runs = true := by
  unfold State.swapBanks
  rw [if_pos h]
  exact State.hartStart_bank _

theorem Who.num_eq_steward_or_debug {who : Who} (h : who = .steward ∨ who = .debug) : Who.num who = 14 ∨ Who.num who = 15 := by
  obtain rfl | rfl := h
  · exact .inl rfl
  · exact .inr rfl

/-- A ready port's requester number is neither the steward's nor the debugger's. -/
theorem Who.num_ne_of_port {s : State} {who : Who} (hready : s.ready who) (h : who ≠ .steward ∧ who ≠ .debug) :
    Who.num who ≠ 14 ∧ Who.num who ≠ 15 := by
  obtain ⟨-, -, hport, -⟩ := hready
  cases who with
  | port src =>
    have hlt := hport rfl
    exact ⟨by omega, by omega⟩
  | steward => exact absurd rfl h.1
  | debug => exact absurd rfl h.2

/-! ## ROM_BOOT and BOOT_GO (R526, R528) -/

theorem execRomBoot_eq (s : State) : exec .romBoot s = .next s.romBoot := rfl

theorem State.romBoot_inStage {s : State} (ha : s.active = true) (hs : s.stage = 3) :
    s.romBoot = s.bootStep.bootStep.bootStep.bootStep.bootStep :=
  if_pos ⟨ha, hs⟩

/-- Boot that has ended stays ended (log entry 223). -/
theorem State.bootStep_ended (s : State) (h : s.st.boot.phase = 4) : s.bootStep = s := by
  simp only [State.bootStep, h]

theorem State.bootStep_waits (s : State) (h : s.st.boot.phase = 1) (hgo : s.get Reg.ST_BOOT_CFG_go = 0) : s.bootStep = s := by
  unfold State.bootStep
  rw [h]
  simp [hgo]

/-- A die whose boot waits for `go`: the hart is in ROM, and the slot tried first is the preferred one. -/
def State.bootWaiting (s : State) : State :=
  (s.setHart fun h => { h with inRom := true, wfi := false }).setBoot fun b =>
    { b with phase := 1, slot := s.get Reg.ST_BOOT_CFG_prefer }

theorem State.bootStep_begins (s : State) (h : s.st.boot.phase = 0) (ht : s.tray = false) (hgo : s.get Reg.ST_BOOT_CFG_go = 0) :
    s.bootStep = s.bootWaiting := by
  have htray : (s.setHart fun h => { h with inRom := true, wfi := false }).tray = false := ht
  have hgo' : (s.setHart fun h => { h with inRom := true, wfi := false }).get Reg.ST_BOOT_CFG_go = 0 := hgo
  unfold State.bootStep
  rw [h]
  dsimp only
  rw [htray, hgo']
  rfl

theorem State.romBoot_waits {s : State} (ha : s.active = true) (hs : s.stage = 3) (h : s.st.boot.phase = 0) (ht : s.tray = false)
    (hgo : s.get Reg.ST_BOOT_CFG_go = 0) : s.romBoot = s.bootWaiting := by
  have hstands : s.bootWaiting.bootStep = s.bootWaiting := State.bootStep_waits _ rfl hgo
  rw [State.romBoot_inStage ha hs, s.bootStep_begins h ht hgo, hstands, hstands, hstands, hstands]

theorem State.romBoot_done (s : State) (h : s.active = false ∨ s.stage ≠ 3 ∨ s.st.boot.phase = 4) : s.romBoot = s := by
  unfold State.romBoot
  split_ifs with hruns
  · obtain ⟨ha, hs⟩ := hruns
    have hended : s.bootStep = s := by
      obtain hoff | hstage | hphase := h
      · simp [hoff] at ha
      · exact absurd hs hstage
      · exact s.bootStep_ended hphase
    rw [hended, hended, hended, hended, hended]
  · rfl

/-! ## FLASH_COMMAND (R529) -/

theorem State.wFlCmd_refused (s : State) (v : Nat) (ht : s.tray = true) (hgo : bit v 31 = true)
    (h : 513 < bits v 4 10 ∨ s.get Reg.ST_FL_CMD_go = 1) : s.wFlCmd v = none := by
  unfold State.wFlCmd
  rw [if_neg (by simp [ht]), if_neg (by simp [hgo]), if_pos h]

/-- An operation that runs ahead of those of `e` starts at once on an idle flash. -/
theorem State.flPump_ahead (s : State) (e : Recorder) (a : Nat) (b : List Byte) (w : Nat) (hop : s.fl.op = none) :
    ∃ u, State.flPump { s with ev := { e with nvQueue := (a, b, w) :: e.nvQueue } } = u ∧ u.fl.op = some (b.isEmpty, a, b, w) ∧
      u.fl.since = s.cyc ∧ u.ev = e ∧ u.regs = s.regs :=
  ⟨_, State.flPump_start _ a b w e.nvQueue hop rfl, rfl, rfl, rfl, rfl⟩

/-- The flash command taken, with `go` shown. -/
def State.flCmdTaken (s : State) (v : Nat) : State :=
  (s.wr Reg.ST_FL_CMD (s.get Reg.ST_FL_CMD_go * 2 ^ 31 + bits v 30 1 * 2 ^ 30 + s.get Reg.ST_FL_CMD_status * 2 ^ 16 + v % 2 ^ 14)).put
    Reg.ST_FL_CMD_go 1

theorem State.flCmdTaken_go (s : State) (v : Nat) : (s.flCmdTaken v).get Reg.ST_FL_CMD_go = 1 := by
  rw [State.flCmdTaken, State.get_put_same _ _ _ (by decide)]
  rfl

theorem State.flCmdTaken_fl (s : State) (v : Nat) : (s.flCmdTaken v).fl = s.fl := by
  rw [State.flCmdTaken, State.put_fl, State.wr_fl]

theorem State.flCmdTaken_cyc (s : State) (v : Nat) : (s.flCmdTaken v).cyc = s.cyc := by
  rw [State.flCmdTaken, State.put_cyc, State.wr_cyc]

theorem State.flCmdTaken_regs (s : State) (v : Nat) : s.regsBut (s.flCmdTaken v) [Reg.ST_FL_CMD] :=
  s.regsBut_put _ _ _ _ (s.regsBut_wr _ _) List.mem_cons_self

/-- An erase of the steward's on an idle flash starts at once. -/
theorem State.wFlCmd_erases (s : State) (v : Nat) (ht : s.tray = true) (hgo : bit v 31 = true) (hsect : bits v 4 10 ≤ 513)
    (hidle : s.get Reg.ST_FL_CMD_go = 0) (herase : bit v 30 = false) (hop : s.fl.op = none) :
    ∃ u, s.wFlCmd v = some u ∧ u.fl.op = some (true, bits v 4 10 * 4096, [], 0) ∧ u.fl.since = s.cyc ∧ u.ev = s.ev ∧
      u.regs = (s.flCmdTaken v).regs := by
  have hnot : ¬ (513 < bits v 4 10 ∨ s.get Reg.ST_FL_CMD_go = 1) := by
    rw [hidle]
    omega
  obtain ⟨u, hu, hop', hsince, hev, hregs⟩ := (s.flCmdTaken v).flPump_ahead s.ev (bits v 4 10 * 4096) [] 0
    (by rw [State.flCmdTaken_fl, hop])
  refine ⟨u, ?_, hop', hsince.trans (s.flCmdTaken_cyc v), hev, hregs⟩
  unfold State.wFlCmd
  rw [if_neg (by simp [ht]), if_neg (by simp [hgo]), if_neg hnot, herase, State.wr_ev, ← hu]
  rfl

/-! ## SEC_FLOOR_WRITE (R527) -/

theorem State.wSecFloor_unauthorised (s : State) (req v : Nat) (hreq : req ≠ 14) (ha : s.secAuth = false) : s.wSecFloor req v = none :=
  if_pos ⟨hreq, ha⟩

/-- The security floor and the disabled keys raised by `v`. -/
def State.floorRaised (s : State) (v : Nat) : State :=
  (s.put Reg.ST_SEC_FLOOR_koff (s.get Reg.ST_SEC_FLOOR_koff ||| bits v 16 4)).put Reg.ST_SEC_FLOOR_floor
    (max (s.get Reg.ST_SEC_FLOOR_floor) (v % 2 ^ 16))

theorem State.wSecFloor_raises (s : State) (req v : Nat) (h : req = 14 ∨ s.secAuth = true) :
    s.wSecFloor req v = some (s.floorRaised v) := by
  have hallowed : ¬ (req ≠ 14 ∧ s.secAuth = false) := by
    rintro ⟨hne, ha⟩
    exact h.elim hne fun hs => by simp [hs] at ha
  have hapart : (s.put Reg.ST_SEC_FLOOR_koff (s.get Reg.ST_SEC_FLOOR_koff ||| bits v 16 4)).get Reg.ST_SEC_FLOOR_floor =
      s.get Reg.ST_SEC_FLOOR_floor := State.get_put_apart _ _ _ _ (by decide) rfl (.inl (by decide))
  unfold State.wSecFloor
  rw [if_neg hallowed]
  dsimp only
  rw [hapart]
  rfl

theorem State.floorRaised_floor (s : State) (v : Nat) :
    (s.floorRaised v).get Reg.ST_SEC_FLOOR_floor = max (s.get Reg.ST_SEC_FLOOR_floor) (v % 2 ^ 16) := by
  rw [State.floorRaised, State.get_put_same _ _ _ (by decide)]
  exact Nat.mod_eq_of_lt (max_lt (s.get_lt Reg.ST_SEC_FLOOR_floor) (Nat.mod_lt v (by decide)))

theorem State.floorRaised_koff (s : State) (v : Nat) :
    (s.floorRaised v).get Reg.ST_SEC_FLOOR_koff = s.get Reg.ST_SEC_FLOOR_koff ||| bits v 16 4 := by
  rw [State.floorRaised, State.get_put_apart _ Reg.ST_SEC_FLOOR_floor Reg.ST_SEC_FLOOR_koff _ (by decide) rfl (.inr (by decide)), State.get_put_same _ _ _ (by decide)]
  exact Nat.mod_eq_of_lt (Nat.or_lt_two_pow (s.get_lt Reg.ST_SEC_FLOOR_koff) (bits_lt v 16 4))

theorem State.floorRaised_regs (s : State) (v : Nat) : s.regsBut (s.floorRaised v) [Reg.ST_SEC_FLOOR] :=
  s.regsBut_put _ _ _ _ (s.regsBut_put _ _ _ _ (s.regsBut_self _) List.mem_cons_self) List.mem_cons_self

/-- Settles O60: each write takes the branch of its rule that its word and the state name, and each event the branch of its own. That a
swap stands until the instruction's end is log entry 139, that `go` refuses a second flash command log entry 142, and that boot that
has ended stays ended log entry 223. -/
theorem imagesAreLoadedAndSwapped : Obligations.ImagesAreLoadedAndSwapped := by
  refine ⟨fun s who d hready hgo h => ?refused, fun s who d hready hgo hbank hload hkind hsig hlen => ?loads,
    fun s l ha hl hlines hstage hflash hdata hunc hcode => ?ends, execImageLoadEnd_idle,
    fun s who d hready hwho hkey hok hload hfloor => ?swaps, fun s who d hready h => ?noSwap, fun s h => ?booted,
    fun s ha hs hphase ht hgo => ?waits, fun s who d hready hphase => ?go, fun s who d hready hphase => ?goes,
    fun s who d hready ht hgo => ⟨fun h => ?flashBusy, fun hsect hidle herase hop => ?erases⟩,
    fun s who d hready h => ?raises, fun s who d hready hwho ha => ?unauthorised⟩
  case refused => exact refuses_of_rule rfl hready (State.busWrite_ST_IM_LOAD _ _ _) (s.wImLoad_refused _ hgo h)
  case loads =>
    have hnot : ¬ s.imLoadRefused d.toNat := by
      rintro (h | h | ⟨-, h⟩ | ⟨h, ha⟩)
      · exact hbank h
      · simp [hload] at h
      · omega
      · exact hsig.elim (fun hsigned => by simp [hsigned] at h) fun hs => by simp [hs] at ha
    have hst := s.imLoadTaken_st d.toNat
    obtain ⟨l, hl, hlbank, hllen⟩ := (s.imLoadTaken d.toNat).imgStart_load ((s.imLoadTaken d.toNat).imLoadJob d.toNat)
    rw [State.imLoadJob_bank] at hlbank
    rw [State.imLoadJob_len, s.imLoadTaken_rd _ _ (by decide)] at hllen
    refine ⟨_, l, writes_of_rule rfl hready (State.busWrite_ST_IM_LOAD _ _ _) (s.wImLoad_starts _ hgo hnot), hl, hlbank, hllen,
      ?_, ?_, ?_, ?_⟩
    · rw [State.imgStart_imBank, s.imLoadTaken_imBank_same _ hlen]
    · rw [State.imgStart_bank, hst]
    · rw [State.imgStart_imBank, s.imLoadTaken_imBank_other _ _ hbank]
    · rw [State.imgStart_get, s.imLoadTaken_go]
  case ends =>
    have hexec := execImageLoadEnd_active s ha
    rw [s.imageLoadEnd_judged l hl hlines hstage hflash hdata hunc] at hexec
    by_cases hok : (s.imgJudge l).1 = Code.OK
    · rw [if_pos hok] at hexec
      refine ⟨_, hexec, ?_, s.imLoadEnded_code _ hcode, s.imLoadEnded_go _, fun _ hlen => ?_, fun h => absurd hok h,
        s.imLoadEnded_queues _⟩
      · exact congrArg Steward.load (s.imLoadEnded_st _)
      · exact State.imBank_setBank_same _ _ _ (by rw [s.imLoadEnded_st]; exact hlen)
    · rw [if_neg hok] at hexec
      exact ⟨_, hexec, congrArg Steward.load (s.imLoadEnded_st _), s.imLoadEnded_code _ hcode, s.imLoadEnded_go _,
        fun h => absurd h hok, fun _ => by rw [s.imLoadEnded_st], s.imLoadEnded_queues _⟩
  case swaps =>
    have hw := s.wSwapKey_accepts (Who.num who) d.toNat (Who.num_eq_steward_or_debug hwho) hkey hok hload hfloor
    exact ⟨_, writes_of_rule rfl hready (State.busWrite_ST_IM_SWAP _ _ _) hw, rfl, State.swapBanks_due _ rfl⟩
  case noSwap =>
    exact refuses_of_rule rfl hready (State.busWrite_ST_IM_SWAP _ _ _)
      (s.wSwapKey_refuses _ _ (h.imp_left (Who.num_ne_of_port hready)))
  case booted => rw [execRomBoot_eq, s.romBoot_done h]
  case waits =>
    exact ⟨_, (execRomBoot_eq s).trans (congrArg _ (State.romBoot_waits ha hs hphase ht hgo)), rfl, rfl, rfl, rfl⟩
  case go => exact writes_of_busWrite rfl hready ((State.busWrite_ST_BOOT_CFG _ _ _).trans (congrArg (·, true) (if_neg hphase)))
  case goes => exact writes_of_busWrite rfl hready ((State.busWrite_ST_BOOT_CFG _ _ _).trans (congrArg (·, true) (if_pos hphase)))
  case flashBusy => exact refuses_of_rule rfl hready (State.busWrite_ST_FL_CMD _ _ _ ht) (s.wFlCmd_refused _ ht hgo h)
  case erases =>
    obtain ⟨u, hw, hstarted, hsince, hev, hregs⟩ := s.wFlCmd_erases _ ht hgo hsect hidle herase hop
    exact ⟨u, writes_of_rule rfl hready (State.busWrite_ST_FL_CMD _ _ _ ht) hw, hstarted, hsince,
      (State.get_of_regs hregs _).trans (s.flCmdTaken_go _), hev, State.regsBut_trans_rd (s.flCmdTaken_regs _) hregs⟩
  case raises =>
    have hallowed : Who.num who = 14 ∨ s.secAuth = true := h.imp_left fun hs => by rw [hs]; rfl
    exact ⟨_, writes_of_rule rfl hready (State.busWrite_ST_SEC_FLOOR _ _ _) (s.wSecFloor_raises _ _ hallowed), s.floorRaised_floor _,
      s.floorRaised_koff _, s.floorRaised_regs _⟩
  case unauthorised =>
    exact refuses_of_rule rfl hready (State.busWrite_ST_SEC_FLOOR _ _ _)
      (s.wSecFloor_unauthorised _ _ (Who.num_ne_steward hready hwho) ha)

end Sys2Proof.Machine
end

section
namespace Sys2Proof.Machine

/-! ## The recorder's part of the state -/

/-- The state with the recorder `e`. -/
def State.withEv (s : State) (e : Recorder) : State := { s with ev := e }

@[simp] theorem State.withEv_ev (s : State) (e : Recorder) : (s.withEv e).ev = e := rfl
@[simp] theorem State.withEv_cyc (s : State) (e : Recorder) : (s.withEv e).cyc = s.cyc := rfl
@[simp] theorem State.withEv_regs (s : State) (e : Recorder) : (s.withEv e).regs = s.regs := rfl
@[simp] theorem State.withEv_queues (s : State) (e : Recorder) : (s.withEv e).queues = s.queues := rfl
@[simp] theorem State.withEv_rd (s : State) (e : Recorder) (off : Nat) : (s.withEv e).rd off = s.rd off := rfl
@[simp] theorem State.withEv_get (s : State) (e : Recorder) (f : Fld) : (s.withEv e).get f = s.get f := rfl

/-! ## Operating seconds (R487) -/

theorem satAdd_lt (w a b : Nat) : satAdd (2 ^ w - 1) a b < 2 ^ w :=
  Nat.lt_of_le_of_lt (satAdd_le _ _ _) (Nat.sub_lt (Nat.two_pow_pos w) Nat.one_pos)

theorem execOpsecTick_eq (s t : State) (ht : t = s.passTo (s.ev.opsAt + secCycles)) :
    exec .opsecTick s =
      .next ((t.bump { off := Reg.EV_OPSEC, lo := 0, w := 32 } 1).withEv { t.ev with opsAt := t.ev.opsAt + secCycles }) := by
  rw [ht]
  rfl

/-! ### A die's base counts (R487) -/

theorem State.wLife_again (s : State) (pcc : Bool) (v : Nat) (ht : s.tray = false)
    (h : (if pcc then s.ev.lifePcc.isSome else s.ev.lifeOps.isSome) = true) : s.wLife pcc v = none := by
  unfold State.wLife
  rw [ht, if_neg (by decide)]
  cases pcc with
  | true =>
    obtain ⟨p, hp⟩ := Option.isSome_iff_exists.mp h
    rw [if_pos rfl, hp]
  | false =>
    obtain ⟨o, ho⟩ := Option.isSome_iff_exists.mp h
    rw [if_neg (by decide), ho]

/-- The first write of `EV_LIFE_OPS` is kept. -/
def State.lifeOpsKept (s : State) (v : Nat) : State := (s.wr Reg.EV_LIFE_OPS v).withEv { s.ev with lifeOps := some v }

theorem State.wLife_ops (s : State) (v : Nat) (ht : s.tray = false) (ho : s.ev.lifeOps = none) :
    s.wLife false v = some (s.lifeOpsKept v).applyLife := by
  unfold State.wLife
  rw [ht, if_neg (by decide), if_neg (by decide), ho]
  rfl

theorem State.applyLife_alone (s : State) (h : s.ev.lifePcc = none) : s.applyLife = s := by
  unfold State.applyLife
  rw [h]
  cases s.ev.lifeOps <;> rfl

/-- With both base counts written the counts read base plus local, and `life_v` is set. -/
theorem State.applyLife_both (s : State) (o p : Nat) (ho : s.ev.lifeOps = some o) (hp : s.ev.lifePcc = some p) :
    s.applyLife.ev.lifeV = true ∧ s.applyLife.rd Reg.EV_OPSEC = satAdd (2 ^ 32 - 1) o (s.rd Reg.EV_OPSEC) ∧
      s.applyLife.get Reg.EV_PCC_pcc = satAdd (2 ^ 24 - 1) p 1 := by
  have happly : s.applyLife = ((s.wr Reg.EV_OPSEC (satAdd (2 ^ 32 - 1) o (s.rd Reg.EV_OPSEC))).put Reg.EV_PCC_pcc
      (satAdd (2 ^ 24 - 1) p 1)).withEv { s.ev with lifeV := true } := by
    unfold State.applyLife
    rw [ho, hp]
    rfl
  rw [happly]
  refine ⟨rfl, ?_, ?_⟩
  · rw [State.withEv_rd, State.rd_put_other _ _ _ _ (by decide), State.rd_wr_same]
    exact Nat.mod_eq_of_lt (satAdd_lt 32 _ _)
  · rw [State.withEv_get, State.get_put_same _ _ _ (by decide)]
    exact Nat.mod_eq_of_lt (satAdd_lt 24 _ _)

/-! ### A tray's life block (R487) -/

theorem State.flPump_ev (s : State) : s.flPump.ev = { s.ev with nvQueue := s.flPump.ev.nvQueue } := by
  unfold State.flPump
  split <;> rfl

/-- Appending an entry moves the block's place and the time of the save, and leaves registers, queues and time alone. -/
theorem State.lifeAppend_kept (s : State) : s.lifeAppend.regs = s.regs ∧ s.lifeAppend.queues = s.queues ∧ s.lifeAppend.cyc = s.cyc ∧
    s.lifeAppend.ev.lifeAt = s.ev.lifeAt % 256 + 1 ∧ s.lifeAppend.ev.saveAt = s.cyc ∧ s.lifeAppend.ev.lifeV = s.ev.lifeV := by
  unfold State.lifeAppend State.flQueue
  dsimp only
  rw [State.flPump_ev, State.flPump_regs, State.flPump_queues, State.flPump_cyc]
  exact ⟨rfl, rfl, rfl, rfl, rfl, rfl⟩

theorem execLifeSave_saves (s : State) (ht : s.tray = true) (hv : s.ev.lifeV = true) (hn : s.get Reg.EV_LIFE_CFG_save_s ≠ 0) :
    exec .lifeSave s = .next (s.passTo (s.ev.saveAt + s.get Reg.EV_LIFE_CFG_save_s * secCycles)).lifeAppend := by
  show execLifeSave s = _
  unfold execLifeSave
  dsimp only
  rw [if_pos (by simp [ht, hv, hn])]

theorem execLifeSave_none (s : State) (h : s.tray = false ∨ s.ev.lifeV = false ∨ s.get Reg.EV_LIFE_CFG_save_s = 0) :
    exec .lifeSave s = .next s := by
  show execLifeSave s = _
  unfold execLifeSave
  dsimp only
  rw [if_neg]
  obtain h | h | h := h <;> simp [h]

/-- The counts that the life block's best entry `(pcc, opsec)` gives, with `life_v` and the next place `i` (R487). -/
def State.lifeCounted (s : State) (pcc opsec i : Nat) : State :=
  ((s.put Reg.EV_PCC_pcc (satAdd (2 ^ 24 - 1) pcc 1)).wr Reg.EV_OPSEC (satAdd (2 ^ 32 - 1) opsec (s.rd Reg.EV_OPSEC))).withEv
    { s.ev with lifeV := true, lifeAt := i }

theorem State.lifeCounted_pcc (s : State) (pcc opsec i : Nat) :
    (s.lifeCounted pcc opsec i).get Reg.EV_PCC_pcc = satAdd (2 ^ 24 - 1) pcc 1 := by
  rw [State.lifeCounted, State.withEv_get, State.get_wr_other _ _ _ _ (by decide), State.get_put_same _ _ _ (by decide)]
  exact Nat.mod_eq_of_lt (satAdd_lt 24 _ _)

theorem State.lifeCounted_opsec (s : State) (pcc opsec i : Nat) :
    (s.lifeCounted pcc opsec i).rd Reg.EV_OPSEC = satAdd (2 ^ 32 - 1) opsec (s.rd Reg.EV_OPSEC) := by
  rw [State.lifeCounted, State.withEv_rd, State.rd_wr_same]
  exact Nat.mod_eq_of_lt (satAdd_lt 32 _ _)

theorem State.lifeCounted_regsBut (s : State) (pcc opsec i : Nat) :
    s.regsBut (s.lifeCounted pcc opsec i) [Reg.EV_PCC, Reg.EV_OPSEC] := by
  intro o ho
  obtain ⟨hpcc, hopsec⟩ : o ≠ Reg.EV_PCC ∧ o ≠ Reg.EV_OPSEC := by simpa using ho
  rw [State.lifeCounted, State.withEv_rd, State.rd_wr_other _ _ _ _ hopsec, State.rd_put_other _ _ _ _ hpcc]

/-- The life block is counted from its best entry, or from nothing, and a new entry appended. -/
theorem State.lifeBlockRead_eq (s : State) : ∃ i, s.lifeBlockRead =
    (s.lifeCounted ((s.lifeBest.map fun b => b.1).getD 0) ((s.lifeBest.map fun b => b.2.1).getD 0) i).lifeAppend := by
  unfold State.lifeBlockRead
  cases s.lifeBest with
  | none => exact ⟨0, rfl⟩
  | some b => exact ⟨b.2.2 + 1, rfl⟩

theorem execLifeBlockReadEnd_reads (s : State) (ht : s.tray = true) (hv : s.ev.lifeV = false) :
    exec .lifeBlockReadEnd s = .next s.lifeBlockRead := by
  show execLifeBlockReadEnd s = _
  rw [execLifeBlockReadEnd, if_pos (by simp [ht, hv])]

theorem execLifeBlockReadEnd_none (s : State) (h : s.tray = false ∨ s.ev.lifeV = true) : exec .lifeBlockReadEnd s = .next s := by
  show execLifeBlockReadEnd s = _
  rw [execLifeBlockReadEnd, if_neg]
  obtain h | h := h <;> simp [h]

/-! ## The scrubber (R499 to R501) -/

/-- Before a memory's last codeword the scrubber goes on within it. -/
theorem State.scrubNext_within (s : State) (h : s.ev.scrubPos + 1 < s.codewords s.ev.scrubMem) :
    s.scrubNext = s.withEv { s.ev with scrubPos := s.ev.scrubPos + 1 } :=
  if_pos h

theorem State.codewords_of_tray {s t : State} (h : t.tray = s.tray) (m : Nat) : t.codewords m = s.codewords m := by
  unfold State.codewords
  rw [h]

theorem State.withEv_tray (s : State) (e : Recorder) : (s.withEv e).tray = s.tray := rfl

theorem State.passTo_tray (s : State) (c : Nat) : (s.passTo c).tray = s.tray := by
  rw [State.tray, State.passTo_role, State.tray]

theorem execScrubStep_clean (s : State) (ha : s.active = true) (hn : s.get Reg.EV_SCRUB_cycles ≠ 0) : exec (.scrubStep .clean) s =
    .next (State.scrubNext ((s.passTo (s.ev.scrubAt + (s.get Reg.EV_SCRUB_cycles + 15) / 16)).withEv
      { s.ev with scrubAt := (s.passTo (s.ev.scrubAt + (s.get Reg.EV_SCRUB_cycles + 15) / 16)).cyc })) := by
  have hev := (s.passTo_ev (s.ev.scrubAt + (s.get Reg.EV_SCRUB_cycles + 15) / 16))
  show execScrubStep .clean s = _
  unfold execScrubStep
  dsimp only
  rw [if_pos (by simp [ha, hn]), hev]
  rfl

theorem execScrubStep_off (s : State) (f : Codeword) (h : s.active = false ∨ s.get Reg.EV_SCRUB_cycles = 0) :
    exec (.scrubStep f) s = .next s := by
  show execScrubStep f s = _
  unfold execScrubStep
  dsimp only
  rw [if_neg]
  obtain h | h := h <;> simp [h]

/-- What a record does not change of the recorder's own state. -/
theorem State.scrubLate_of_unrecorded {s t : State} (h : t.unrecorded = s.unrecorded) : t.ev.scrubLate = s.ev.scrubLate :=
  State.kept_of_unrecorded (fun u => u.ev.scrubLate) (fun _ => rfl) h

theorem execScrubLate_late (s : State) (ha : s.active = true) (hmax : s.get Reg.EV_SCRUB_max_s ≠ 0)
    (hn : s.get Reg.EV_SCRUB_cycles ≠ 0) (hl : s.ev.scrubLate = false) :
    exec .scrubLate s = .next (((s.passToFleet ((s.ev.passAt + s.get Reg.EV_SCRUB_max_s * 1000 * msTicks) % 2 ^ 64)).withEv
      { s.ev with scrubLate := true }).fault Code.EV_SCRUB_LATE Unit_.recorder 0 0) := by
  show execScrubLate s = _
  unfold execScrubLate
  dsimp only
  rw [if_pos (by simp [ha, hmax, hn, hl]), State.passToFleet_ev]
  rfl

theorem execScrubLate_none (s : State)
    (h : s.active = false ∨ s.get Reg.EV_SCRUB_max_s = 0 ∨ s.get Reg.EV_SCRUB_cycles = 0 ∨ s.ev.scrubLate = true) :
    exec .scrubLate s = .next s := by
  show execScrubLate s = _
  unfold execScrubLate
  dsimp only
  rw [if_neg]
  obtain h | h | h | h := h <;> simp [h]

/-- Settles O57: one lemma for each meaning says what it does, and what each of its steps leaves alone closes the clauses. The cycles of
a scrub step are counted in AON cycles (log entry 38), and the codewords of a memory are log entry 37's. -/
theorem lifeCountsAndScrubbing : Obligations.LifeCountsAndScrubbing := by
  refine ⟨fun s => ?tick, fun s who d hready ht ho hp => ?firstOps, fun s who d p hready ht ho hp _ => ?both,
    fun s who d hready ht => ⟨fun h => ?opsAgain, fun h => ?pccAgain⟩, fun s ht hv hn => ?saves, execLifeSave_none,
    fun s ht hv => ?reads, execLifeBlockReadEnd_none, fun s ha hn hpos => ?scrubs, execScrubStep_off,
    fun s ha hmax hn hl => ?late, execScrubLate_none⟩
  case tick =>
    refine ⟨_, execOpsecTick_eq s _ rfl, ?_, ?_, ?_, ?_, ?_⟩
    · rw [State.withEv_cyc, State.bump_cyc, State.passTo_cyc]
      rfl
    · rw [State.withEv_ev, State.passTo_ev]
      rfl
    · rw [State.withEv_rd, State.rd_bump_word, State.passTo_rd]
      rfl
    · intro o ho
      rw [State.withEv_rd, State.rd_bump_other _ _ _ _ (List.ne_of_not_mem_cons ho), State.passTo_rd]
    · rw [State.withEv_queues, State.bump_queues, State.passTo_queues]
  case firstOps =>
    have hw := s.wLife_ops d.toNat ht ho
    rw [State.applyLife_alone (s.lifeOpsKept d.toNat) hp] at hw
    exact writes_of_rule rfl hready (State.busWrite_EV_LIFE_OPS _ _ _ ht) hw
  case both =>
    obtain ⟨hv, hopsec, hpcc⟩ := (s.lifeOpsKept d.toNat).applyLife_both d.toNat p rfl hp
    rw [State.lifeOpsKept, State.withEv_rd, State.rd_wr_other _ _ _ _ (by decide)] at hopsec
    exact ⟨_, writes_of_rule rfl hready (State.busWrite_EV_LIFE_OPS _ _ _ ht) (s.wLife_ops _ ht ho), hv, hopsec, hpcc⟩
  case opsAgain => exact refuses_of_rule rfl hready (State.busWrite_EV_LIFE_OPS _ _ _ ht) (s.wLife_again false _ ht h)
  case pccAgain => exact refuses_of_rule rfl hready (State.busWrite_EV_LIFE_PCC _ _ _ ht) (s.wLife_again true _ ht h)
  case saves =>
    have hpass := s.passTo_eq (s.ev.saveAt + s.get Reg.EV_LIFE_CFG_save_s * secCycles)
    obtain ⟨hregs, hqueues, hcyc, hat, hsave, -⟩ := (s.passTo (s.ev.saveAt + s.get Reg.EV_LIFE_CFG_save_s * secCycles)).lifeAppend_kept
    refine ⟨_, execLifeSave_saves s ht hv hn, ?_, hcyc.trans (State.passTo_cyc _ _), ?_, hsave.trans hcyc.symm, ?_⟩
    · rw [hcyc, State.passTo_cyc, ← State.passTo_eq]
    · rw [hat, State.passTo_ev]
    · rw [hqueues, State.passTo_queues]
  case reads =>
    obtain ⟨i, hi⟩ := s.lifeBlockRead_eq
    obtain ⟨hregs, -, -, -, -, hv'⟩ := (s.lifeCounted ((s.lifeBest.map fun b => b.1).getD 0) ((s.lifeBest.map fun b => b.2.1).getD 0)
      i).lifeAppend_kept
    rw [← hi] at hregs hv'
    refine ⟨_, execLifeBlockReadEnd_reads s ht hv, hv', ?_, State.regsBut_trans_rd (s.lifeCounted_regsBut _ _ i) hregs, ?_⟩
    · rw [State.get_of_regs hregs, State.lifeCounted_pcc]
    · rw [State.rd, hregs]
      exact s.lifeCounted_opsec _ _ i
  case scrubs =>
    refine ⟨_, (execScrubStep_clean s ha hn).trans (congrArg _ (State.scrubNext_within _ ?_)), ?_, ?_, ?_, ?_⟩
    · rw [State.codewords_of_tray (State.withEv_tray _ _), State.codewords_of_tray (State.passTo_tray s _)]
      exact hpos
    · rw [State.withEv_cyc, State.withEv_cyc, State.passTo_cyc]
    · rfl
    · rfl
    · rw [State.withEv_regs, State.withEv_regs, State.passTo_regs]
  case late =>
    have hkept := State.fault_unrecorded ((s.passToFleet ((s.ev.passAt + s.get Reg.EV_SCRUB_max_s * 1000 * msTicks) % 2 ^ 64)).withEv
      { s.ev with scrubLate := true }) Code.EV_SCRUB_LATE Unit_.recorder 0 0
    refine ⟨_, _, execScrubLate_late s ha hmax hn hl, rfl, rfl, ?_, ?_, ?_, ?_⟩
    · rw [State.withEv_regs, State.passToFleet_regs]
    · exact State.scrubLate_of_unrecorded hkept
    · exact State.cyc_of_unrecorded hkept
    · rw [State.withEv_cyc, Nat.mul_assoc]
      rfl

end Sys2Proof.Machine
end

section
namespace Sys2Proof.Machine

/-! ## What the tables of the analytics leave alone (R432, R448) -/

/-- The state without registers and what the tables of the analytics are kept in. -/
def State.sansTables (s : State) : State := { s with regs := [], red := {}, fa := {}, fs := [], fsp := {} }

theorem State.cyc_of_sansTables {s t : State} (h : t.sansTables = s.sansTables) : t.cyc = s.cyc := by
  show t.sansTables.cyc = s.sansTables.cyc
  rw [h]

theorem State.queues_of_sansTables {s t : State} (h : t.sansTables = s.sansTables) : t.queues = s.queues := by
  show t.sansTables.queues = s.sansTables.queues
  rw [h]

@[simp] theorem State.wr_sansTables (s : State) (off v : Nat) : (s.wr off v).sansTables = s.sansTables := rfl
@[simp] theorem State.put_sansTables (s : State) (f : Fld) (v : Nat) : (s.put f v).sansTables = s.sansTables := rfl
@[simp] theorem State.setFa_sansTables (s : State) (f : Analytics → Analytics) : (s.setFa f).sansTables = s.sansTables := rfl
@[simp] theorem State.setRed_sansTables (s : State) (f : Reduction → Reduction) : (s.setRed f).sansTables = s.sansTables := rfl

@[simp] theorem State.faStore_sansTables (s : State) (o : Nat) (bs : List Byte) : (s.faStore o bs).sansTables = s.sansTables := by
  unfold State.faStore State.fsWrite
  split_ifs <;> rfl

@[simp] theorem State.faStore_regs (s : State) (o : Nat) (bs : List Byte) : (s.faStore o bs).regs = s.regs := by
  unfold State.faStore State.fsWrite
  split_ifs <;> rfl

@[simp] theorem State.faStore_rd (s : State) (o : Nat) (bs : List Byte) (off : Nat) : (s.faStore o bs).rd off = s.rd off := by
  rw [State.rd, State.faStore_regs, State.rd]

@[simp] theorem State.faWr_sansTables (s : State) (off v : Nat) : (s.faWr off v).sansTables = s.sansTables := by
  rw [State.faWr, State.faStore_sansTables, State.wr_sansTables]

@[simp] theorem State.faPut_sansTables (s : State) (f : Fld) (v : Nat) : (s.faPut f v).sansTables = s.sansTables :=
  s.faWr_sansTables _ _

/-- A word of the tables reads as written. -/
theorem State.rd_faWr_same (s : State) (off v : Nat) : (s.faWr off v).rd off = v % 2 ^ 32 := by
  rw [State.faWr, State.faStore_rd, State.rd_wr_same]

theorem State.rd_faWr_other (s : State) (off v o : Nat) (h : o ≠ off) : (s.faWr off v).rd o = s.rd o := by
  rw [State.faWr, State.faStore_rd, State.rd_wr_other _ _ _ _ h]

theorem State.faPut_regs (s : State) (f : Fld) (v : Nat) : (s.faPut f v).regs = (s.put f v).regs := by
  rw [State.faPut, State.faWr, State.faStore_regs, State.put]

theorem State.rd_faPut_other (s : State) (f : Fld) (v o : Nat) (h : o ≠ f.off) : (s.faPut f v).rd o = s.rd o :=
  s.rd_faWr_other _ _ _ h

theorem State.get_faPut_same (s : State) (f : Fld) (v : Nat) (h : f.lo + f.w ≤ 32) : (s.faPut f v).get f = v % 2 ^ f.w := by
  rw [State.get_of_regs (s.faPut_regs f v), State.get_put_same _ _ _ h]

theorem State.get_faPut_other (s : State) (f g : Fld) (v : Nat) (h : g.off ≠ f.off) : (s.faPut f v).get g = s.get g := by
  rw [State.get_of_regs (s.faPut_regs f v), State.get_put_other _ _ _ _ h]

theorem State.get_faPut_apart (s : State) (f g : Fld) (v : Nat) (hw : f.lo + f.w ≤ 32) (ho : g.off = f.off)
    (h : g.lo + g.w ≤ f.lo ∨ f.lo + f.w ≤ g.lo) : (s.faPut f v).get g = s.get g := by
  rw [State.get_of_regs (s.faPut_regs f v), State.get_put_apart _ _ _ _ hw ho h]

/-! ## Tokens (R445) -/

/-- A saturated count whose cap a field holds. -/
theorem satAdd_mod_of_cap_lt {cap m : Nat} (h : cap < m) (a b : Nat) : satAdd cap a b % m = satAdd cap a b :=
  Nat.mod_eq_of_lt (Nat.lt_of_le_of_lt (satAdd_le cap a b) h)

theorem State.tokens_faPut_same (s : State) (c v : Nat) (h : v < 2 ^ 8) : (s.faPut (Reg.FA_QB_TOK_c_tokens c) v).tokens c = v :=
  (s.get_faPut_same (Reg.FA_QB_TOK_c_tokens c) v (by decide : 24 + 8 ≤ 32)).trans (Nat.mod_eq_of_lt h)

theorem State.tokens_faPut_other (s : State) (c k v : Nat) (h : k ≠ c) :
    (s.faPut (Reg.FA_QB_TOK_c_tokens c) v).tokens k = s.tokens k := by
  refine s.get_faPut_other _ _ _ ?_
  simp only [Reg.FA_QB_TOK_c_tokens, Reg.FA_QB_TOK_c]
  omega

@[simp] theorem State.setFa_tokens (s : State) (f : Analytics → Analytics) (c : Nat) : (s.setFa f).tokens c = s.tokens c := rfl

/-- The state at the moment of a cube's next refill: now, when one is overdue, else at the next multiple of the period. -/
def State.refillMoment (s : State) (c p : Nat) : State :=
  if Sparse.get (fun _ => 0) s.fa.refilled c < s.fleet / p then s else s.passToFleet ((s.fleet / p + 1) * p % 2 ^ 64)

@[simp] theorem State.refillMoment_get (s : State) (c p : Nat) (f : Fld) : (s.refillMoment c p).get f = s.get f := by
  unfold State.refillMoment
  split_ifs <;> simp

@[simp] theorem State.refillMoment_queues (s : State) (c p : Nat) : (s.refillMoment c p).queues = s.queues := by
  unfold State.refillMoment
  split_ifs <;> simp

/-- One token more for cube `c`, up to the burst, its refill noted as that of period `n`. -/
def State.refilled (s : State) (c n : Nat) : State :=
  (s.setFa fun a => { a with refilled := Sparse.insert a.refilled c n }).faPut (Reg.FA_QB_TOK_c_tokens c)
    (satAdd (s.get Reg.FA_QB_CUBE_burst) (s.tokens c) 1)

theorem State.refilled_sansTables (s : State) (c n : Nat) : (s.refilled c n).sansTables = s.sansTables := by
  rw [State.refilled, State.faPut_sansTables, State.setFa_sansTables]

theorem State.refilled_tokens_same (s : State) (c n : Nat) :
    (s.refilled c n).tokens c = satAdd (s.get Reg.FA_QB_CUBE_burst) (s.tokens c) 1 := by
  rw [State.refilled, State.tokens_faPut_same _ _ _ (Nat.lt_of_le_of_lt (satAdd_le _ _ _) (s.get_lt Reg.FA_QB_CUBE_burst))]

theorem State.refilled_tokens_other (s : State) (c n k : Nat) (h : k ≠ c) : (s.refilled c n).tokens k = s.tokens k := by
  rw [State.refilled, State.tokens_faPut_other _ _ _ _ h, State.setFa_tokens]

theorem State.refill_runs (s : State) (c p : Nat) (h : s.faRuns 2 = true) (hp : p = s.get Reg.FA_QB_CUBE_refill_s * 1000 * msTicks)
    (hpos : p ≠ 0) : ∃ n, s.refill c = (s.refillMoment c p).refilled c n := by
  unfold State.refill
  dsimp only
  rw [← hp, h, if_pos (by simpa using hpos)]
  exact ⟨_, rfl⟩

theorem execCubeTokenRefill_active (s : State) (c : Fin 2048) (ha : s.active = true) :
    exec (.cubeTokenRefill c) s = .next (s.refill c.val) := by
  show execCubeTokenRefill c s = _
  rw [execCubeTokenRefill, if_pos ha]

theorem execCubeTokenRefill_off (s : State) (c : Fin 2048) (h : s.faRuns 2 = false ∨ s.get Reg.FA_QB_CUBE_refill_s = 0) :
    exec (.cubeTokenRefill c) s = .next s := by
  have hnone : s.refill c.val = s := by
    unfold State.refill
    dsimp only
    rw [if_neg]
    obtain h | h := h <;> simp [h]
  show execCubeTokenRefill c s = _
  rw [execCubeTokenRefill, hnone, ite_self]

theorem State.wSpares_tokens (s : State) (v : Nat) : (s.wSpares v).get Reg.FA_QB_TOKENS_tokens =
    satAdd (s.get Reg.FA_QB_FLEET_burst) (s.get Reg.FA_QB_TOKENS_tokens) (v % 2 ^ 16) := by
  rw [State.wSpares, State.get_faPut_same _ _ _ (by decide)]
  exact satAdd_mod_of_cap_lt (s.get_lt Reg.FA_QB_FLEET_burst) _ _

theorem State.wSpares_queues (s : State) (v : Nat) : (s.wSpares v).queues = s.queues :=
  State.queues_of_sansTables (s.faPut_sansTables _ _)

end Sys2Proof.Machine
end

section
namespace Sys2Proof.Machine

/-! ## A die's cells (R435, R452) -/

/-- Cell `k` of slot `d` returns to 0. -/
def State.clearCell (d : Nat) (s : State) (k : Nat) : State :=
  let t := if s.rd (Reg.FA_CELL_ERR_s_k d k) = 0 then s else s.faWr (Reg.FA_CELL_ERR_s_k d k) 0
  if t.rd (Reg.FA_CELL_EXP_s_k d k) = 0 then t else t.faWr (Reg.FA_CELL_EXP_s_k d k) 0

/-- A word that is cleared where it is not 0 already. -/
theorem State.rd_clearWord (s : State) (off o : Nat) :
    (if s.rd off = 0 then s else s.faWr off 0).rd o = if o = off then 0 else s.rd o := by
  by_cases ho : o = off
  · subst ho
    rw [if_pos rfl]
    split_ifs with h
    · exact h
    · exact s.rd_faWr_same o 0
  · rw [if_neg ho]
    split_ifs with h
    · rfl
    · exact s.rd_faWr_other _ _ _ ho

theorem State.clearWord_sansTables (s : State) (off : Nat) :
    (if s.rd off = 0 then s else s.faWr off 0).sansTables = s.sansTables := by
  split_ifs
  · rfl
  · exact s.faWr_sansTables off 0

theorem State.rd_clearCell (s : State) (d k o : Nat) : (State.clearCell d s k).rd o =
    if o = Reg.FA_CELL_ERR_s_k d k ∨ o = Reg.FA_CELL_EXP_s_k d k then 0 else s.rd o := by
  unfold State.clearCell
  dsimp only
  rw [State.rd_clearWord, State.rd_clearWord]
  by_cases herr : o = Reg.FA_CELL_ERR_s_k d k <;> simp [herr]

theorem State.clearCell_sansTables (s : State) (d k : Nat) : (State.clearCell d s k).sansTables = s.sansTables := by
  unfold State.clearCell
  dsimp only
  rw [State.clearWord_sansTables, State.clearWord_sansTables]

/-- Clearing the cells of a list: they read 0, and every other register as before. -/
theorem State.rd_foldl_clearCell (s : State) (d o : Nat) (ks : List Nat) : (ks.foldl (State.clearCell d) s).rd o =
    if ∃ k ∈ ks, o = Reg.FA_CELL_ERR_s_k d k ∨ o = Reg.FA_CELL_EXP_s_k d k then 0 else s.rd o := by
  induction ks generalizing s with
  | nil => simp
  | cons k ks ih =>
    rw [List.foldl_cons, ih, State.rd_clearCell]
    by_cases hk : o = Reg.FA_CELL_ERR_s_k d k ∨ o = Reg.FA_CELL_EXP_s_k d k <;> simp [hk]

theorem State.foldl_clearCell_sansTables (s : State) (d : Nat) (ks : List Nat) :
    (ks.foldl (State.clearCell d) s).sansTables = s.sansTables := by
  induction ks generalizing s with
  | nil => rfl
  | cons k ks ih => rw [List.foldl_cons, ih, State.clearCell_sansTables]

theorem State.clearCells_eq (s : State) (d : Nat) : s.clearCells d = ((upto 128).foldl (State.clearCell d) s).setHot d 0 := rfl

/-! ### A die's entry of the table (R447, R448) -/

theorem State.setHot_eq (s : State) (d m : Nat) : ∃ o bs, s.setHot d m =
    ((s.setFa fun a => { a with hot := modAt a.hot d fun _ => m }).faPut (Reg.FA_DIE_s_hot d) (popcount 128 m)).faStore o bs :=
  ⟨_, _, rfl⟩

theorem State.setHot_sansTables (s : State) (d m : Nat) : (s.setHot d m).sansTables = s.sansTables := by
  obtain ⟨o, bs, h⟩ := s.setHot_eq d m
  rw [h, State.faStore_sansTables, State.faPut_sansTables, State.setFa_sansTables]

theorem State.rd_setHot_other (s : State) (d m o : Nat) (h : o ≠ Reg.FA_DIE_s d) : (s.setHot d m).rd o = s.rd o := by
  obtain ⟨off, bs, heq⟩ := s.setHot_eq d m
  rw [heq, State.faStore_rd, State.rd_faPut_other _ _ _ _ h, State.setFa_rd]

/-- The hot cells of a die are apart from its state. -/
theorem State.setHot_dieState (s : State) (d m : Nat) : (s.setHot d m).dieState d = s.dieState d := by
  obtain ⟨off, bs, heq⟩ := s.setHot_eq d m
  rw [State.dieState, heq, State.get_of_regs (State.faStore_regs _ _ _),
    State.get_faPut_apart _ (Reg.FA_DIE_s_hot d) (Reg.FA_DIE_s_state d) _ (by decide : 24 + 8 ≤ 32) rfl (.inl (by decide : 0 + 3 ≤ 24)),
    State.setFa_get, State.dieState]

theorem State.clearCells_sansTables (s : State) (d : Nat) : (s.clearCells d).sansTables = s.sansTables := by
  rw [State.clearCells_eq, State.setHot_sansTables, State.foldl_clearCell_sansTables]

/-- A register below the cells reads as before. -/
theorem State.rd_foldl_clearCell_below (s : State) (d o : Nat) (ks : List Nat) (h : o < 0xF4000) :
    (ks.foldl (State.clearCell d) s).rd o = s.rd o := by
  rw [State.rd_foldl_clearCell, if_neg]
  rintro ⟨k, -, hk⟩
  simp only [Reg.FA_CELL_ERR_s_k, Reg.FA_CELL_EXP_s_k] at hk
  omega

theorem State.rd_clearCells_below (s : State) (d o : Nat) (h : o < 0xF4000) (hne : o ≠ Reg.FA_DIE_s d) :
    (s.clearCells d).rd o = s.rd o := by
  rw [State.clearCells_eq, State.rd_setHot_other _ _ _ _ hne, State.rd_foldl_clearCell_below _ _ _ _ h]

theorem State.clearCells_dieState (s : State) (d : Nat) (hd : d < 8) : (s.clearCells d).dieState d = s.dieState d := by
  rw [State.clearCells_eq, State.setHot_dieState, State.dieState, State.get, State.rd_foldl_clearCell_below]
  · rfl
  · simp only [Reg.FA_DIE_s_state, Reg.FA_DIE_s]
    omega

/-- The cells of the slot read 0. -/
theorem State.rd_clearCells (s : State) (d k : Nat) (hd : d < 8) (hk : k < 128) :
    (s.clearCells d).rd (Reg.FA_CELL_ERR_s_k d k) = 0 ∧ (s.clearCells d).rd (Reg.FA_CELL_EXP_s_k d k) = 0 := by
  have hmem : k ∈ upto 128 := List.mem_range.mpr hk
  have hne : ∀ o, 0xF4000 ≤ o → o ≠ Reg.FA_DIE_s d := by
    rintro o ho rfl
    simp only [Reg.FA_DIE_s] at ho
    omega
  rw [State.clearCells_eq, State.rd_setHot_other _ _ _ _ (hne _ (by unfold Reg.FA_CELL_ERR_s_k; omega)),
    State.rd_setHot_other _ _ _ _ (hne _ (by unfold Reg.FA_CELL_EXP_s_k; omega)), State.rd_foldl_clearCell, State.rd_foldl_clearCell]
  exact ⟨if_pos ⟨k, hmem, .inl rfl⟩, if_pos ⟨k, hmem, .inr rfl⟩⟩

theorem State.setDie_sansTables (s : State) (d st : Nat) : (s.setDie d st).sansTables = s.sansTables := s.faPut_sansTables _ _

theorem State.setDie_dieState (s : State) (d st : Nat) (h : st < 8) : (s.setDie d st).dieState d = st :=
  (s.get_faPut_same (Reg.FA_DIE_s_state d) st (by decide : 0 + 3 ≤ 32)).trans (Nat.mod_eq_of_lt h)

theorem State.rd_setDie_other (s : State) (d st o : Nat) (h : o ≠ Reg.FA_DIE_s d) : (s.setDie d st).rd o = s.rd o :=
  s.rd_faPut_other _ _ _ h

/-- A slot's averages leave every register alone. -/
theorem State.setAvg_regs (s : State) (i : Nat) (v : Option (Int × Int)) : (s.setAvg i v).regs = s.regs := by
  unfold State.setAvg
  cases v <;> exact State.faStore_regs _ _ _

theorem State.setAvg_sansTables (s : State) (i : Nat) (v : Option (Int × Int)) : (s.setAvg i v).sansTables = s.sansTables := by
  unfold State.setAvg
  cases v <;> exact State.faStore_sansTables _ _ _

/-! ### Exclusions (R414, R448) -/

/-- A sum of powers below `n` that leaves out those `p` names is below `2 ^ n`. -/
theorem sum_powers_lt (p : Nat → Prop) [DecidablePred p] (n : Nat) :
    (List.range n).foldl (fun m d => m + if p d then 0 else 2 ^ d) 0 < 2 ^ n := by
  induction n with
  | zero => simp
  | succ n ih =>
    rw [List.range_succ, List.foldl_append, List.foldl_cons, List.foldl_nil, pow_succ]
    split_ifs <;> omega

/-- A power that `p` names is not in the sum. -/
theorem testBit_sum_powers (p : Nat → Prop) [DecidablePred p] (n i : Nat) (hi : p i) :
    ((List.range n).foldl (fun m d => m + if p d then 0 else 2 ^ d) 0).testBit i = false := by
  induction n with
  | zero => simp
  | succ n ih =>
    have hlt := sum_powers_lt p n
    rw [List.range_succ, List.foldl_append, List.foldl_cons, List.foldl_nil]
    split_ifs with hp
    · exact ih
    · obtain hin | rfl | hni := lt_trichotomy i n
      · rw [Nat.add_comm, Nat.testBit_two_pow_add_gt hin, ih]
      · exact absurd hi hp
      · have hle : 2 ^ (n + 1) ≤ 2 ^ i := Nat.pow_le_pow_right (by decide) hni
        refine Nat.testBit_lt_two_pow (Nat.lt_of_lt_of_le ?_ hle)
        rw [pow_succ]
        omega

/-- A slot whose die is CLEAR is not in the mask of those out. -/
theorem State.bit_outMask (s : State) (d : Nat) (h : s.dieState d = 0) : s.outMask.testBit d = false :=
  testBit_sum_powers (fun d => s.get (Reg.FA_DIE_s_state d) = 0) 8 d h

theorem State.outMask_of_regs {s t : State} (h : t.regs = s.regs) : t.outMask = s.outMask := by
  have hget : ∀ f, t.get f = s.get f := State.get_of_regs h
  unfold State.outMask
  simp only [hget]

theorem State.wTsExcl_eq (s : State) (v : Nat) : ∃ f : Reduction → Reduction,
    s.wTsExcl v = (s.setRed f).put Reg.RD_TS_EXCL_mask (v % 256 ||| (s.setRed f).outMask) :=
  ⟨_, rfl⟩

theorem State.wTsExcl_sansTables (s : State) (v : Nat) : (s.wTsExcl v).sansTables = s.sansTables := by
  obtain ⟨f, h⟩ := s.wTsExcl_eq v
  rw [h, State.put_sansTables, State.setRed_sansTables]

theorem State.wTsExcl_regs (s : State) (v : Nat) : (s.wTsExcl v).regs = (s.put Reg.RD_TS_EXCL_mask (v % 256 ||| s.outMask)).regs := by
  obtain ⟨f, h⟩ := s.wTsExcl_eq v
  rw [h, State.outMask_of_regs (s := s) (t := s.setRed f) rfl]
  rfl

theorem State.wTsExcl_dieState (s : State) (v d : Nat) (hd : d < 8) : (s.wTsExcl v).dieState d = s.dieState d := by
  rw [State.dieState, State.get_of_regs (s.wTsExcl_regs v), State.get_put_other]
  · rfl
  · simp only [Reg.FA_DIE_s_state, Reg.FA_DIE_s, Reg.RD_TS_EXCL_mask, Reg.RD_TS_EXCL]
    omega

/-- The exclusion of a slot whose die is CLEAR is taken back. -/
theorem State.setExcl_mask (s : State) (d : Nat) (h : s.dieState d = 0) :
    bit ((s.setExcl d false).get Reg.RD_TS_EXCL_mask) d = false := by
  have hbit : (putBits (s.get Reg.RD_TS_EXCL_mask) d 1 0).testBit d = false := by
    have hsame := bits_putBits_same (s.get Reg.RD_TS_EXCL_mask) d 1 0
    rw [← bit_eq_testBit]
    unfold bit
    unfold bits at hsame
    simpa using hsame
  rw [State.setExcl, State.get_of_regs (s.wTsExcl_regs _), State.get_put_same _ _ _ (by decide), bit_eq_testBit]
  show ((putBits (s.get Reg.RD_TS_EXCL_mask) d 1 0 % 2 ^ 8 ||| s.outMask) % 2 ^ 8).testBit d = false
  rw [Nat.testBit_mod_two_pow, Nat.testBit_or, Nat.testBit_mod_two_pow, hbit, s.bit_outMask d h, Bool.and_false, Bool.or_false,
    Bool.and_false]

/-! ### An admitted die (R448, R452) -/

/-- The averages of slot `d` at 0. -/
def State.clearAvgs (s : State) (d : Nat) : State :=
  (s.setAvg (2 * (s.slotDie d % 64)) none).setAvg (2 * (s.slotDie d % 64) + 1) none

/-- The die of slot `d` taken back: CLEAR, in the exclusion no more, its cells and averages at 0. -/
def State.readmitted (s : State) (d : Nat) : State :=
  (((s.setDie d 0).setExcl d false).clearCells d).clearAvgs d

theorem State.readmitted_sansTables (s : State) (d : Nat) : (s.readmitted d).sansTables = s.sansTables := by
  rw [State.readmitted, State.clearAvgs, State.setAvg_sansTables, State.setAvg_sansTables, State.clearCells_sansTables, State.setExcl,
    State.wTsExcl_sansTables, State.setDie_sansTables]

theorem State.readmitted_regs (s : State) (d : Nat) :
    (s.readmitted d).regs = (((s.setDie d 0).setExcl d false).clearCells d).regs := by
  rw [State.readmitted, State.clearAvgs, State.setAvg_regs, State.setAvg_regs]

theorem State.readmitted_dieState (s : State) (d : Nat) (hd : d < 8) : (s.readmitted d).dieState d = 0 := by
  rw [State.dieState, State.get_of_regs (s.readmitted_regs d)]
  show State.dieState _ d = 0
  rw [State.clearCells_dieState _ _ hd, State.setExcl, State.wTsExcl_dieState _ _ _ hd, State.setDie_dieState _ _ _ (by decide)]

theorem State.readmitted_mask (s : State) (d : Nat) : bit ((s.readmitted d).get Reg.RD_TS_EXCL_mask) d = false := by
  have hkept : (s.readmitted d).get Reg.RD_TS_EXCL_mask = ((s.setDie d 0).setExcl d false).get Reg.RD_TS_EXCL_mask := by
    rw [State.get_of_regs (s.readmitted_regs d), State.get, State.get, State.rd_clearCells_below _ _ _ (by decide)]
    simp only [Reg.RD_TS_EXCL_mask, Reg.RD_TS_EXCL, Reg.FA_DIE_s]
    omega
  rw [hkept, State.setExcl_mask _ _ (State.setDie_dieState _ _ _ (by decide))]

theorem State.rd_of_regs {s t : State} (h : t.regs = s.regs) (o : Nat) : t.rd o = s.rd o := by
  rw [State.rd, h, State.rd]

theorem State.readmitted_cells (s : State) (d k : Nat) (hd : d < 8) (hk : k < 128) :
    (s.readmitted d).rd (Reg.FA_CELL_ERR_s_k d k) = 0 ∧ (s.readmitted d).rd (Reg.FA_CELL_EXP_s_k d k) = 0 := by
  rw [State.rd_of_regs (s.readmitted_regs d), State.rd_of_regs (s.readmitted_regs d)]
  exact State.rd_clearCells _ d k hd hk

/-- The moment at which slot `d` is due back. -/
def State.admitMoment (s : State) (d : Nat) : State := s.passToFleet (s.rd64 (Reg.FA_DIE_ADM_LO_s d))

theorem execAdmitTimeReached_active (s : State) (d : Fin 8) (ha : s.active = true) (hr : s.faRuns 0 = true) (hd : s.dieState d.val = 5) :
    exec (.admitTimeReached d) s = .next (if s.fa.jackSeen.getD d.val none = some (s.admitMoment d.val).cyc
      then (s.admitMoment d.val).setDie d.val 1 else (s.admitMoment d.val).readmitted d.val) := by
  have hrun : (s.faRuns 0 && s.dieState d.val == 5) = true := by rw [hr, hd]; rfl
  show execAdmitTimeReached d s = _
  rw [execAdmitTimeReached, if_pos ha, State.admitReached, if_pos hrun]
  dsimp only
  rw [State.passToFleet_fa]
  rfl

theorem execAdmitTimeReached_off (s : State) (d : Fin 8) (h : s.faRuns 0 = false ∨ s.dieState d.val ≠ 5) :
    exec (.admitTimeReached d) s = .next s := by
  have hnone : s.admitReached d.val = s := by
    rw [State.admitReached, if_neg]
    obtain h | h := h <;> simp [h]
  show execAdmitTimeReached d s = _
  rw [execAdmitTimeReached, hnone, ite_self]

/-- A jack in the very cycle of the admission: the die is JACKED, the exclusions as they were. -/
theorem State.setDie_jacked (s : State) (d : Fin 8) :
    ((s.admitMoment d.val).setDie d.val 1).dieState d.val = 1 ∧
      ((s.admitMoment d.val).setDie d.val 1).get Reg.RD_TS_EXCL_mask = s.get Reg.RD_TS_EXCL_mask := by
  refine ⟨State.setDie_dieState _ _ _ (by decide), ?_⟩
  rw [State.setDie, State.get_faPut_other]
  · exact State.passToFleet_get _ _ _
  · simp only [Reg.FA_DIE_s_state, Reg.FA_DIE_s, Reg.RD_TS_EXCL_mask, Reg.RD_TS_EXCL]
    omega

theorem admitTimeReached_takes_back (s : State) (d : Fin 8) (ha : s.active = true) (hr : s.faRuns 0 = true) (hd : s.dieState d.val = 5) :
    ∃ t, exec (.admitTimeReached d) s = .next t ∧
      t.cyc = (s.passToFleet (s.rd64 (Reg.FA_DIE_ADM_LO_s d.val))).cyc ∧
      (s.fa.jackSeen.getD d.val none = some t.cyc → t.dieState d.val = 1 ∧ t.get Reg.RD_TS_EXCL_mask = s.get Reg.RD_TS_EXCL_mask) ∧
      (s.fa.jackSeen.getD d.val none ≠ some t.cyc → t.dieState d.val = 0 ∧ bit (t.get Reg.RD_TS_EXCL_mask) d.val = false ∧
        ∀ k < 128, t.rd (Reg.FA_CELL_ERR_s_k d.val k) = 0 ∧ t.rd (Reg.FA_CELL_EXP_s_k d.val k) = 0) := by
  rw [execAdmitTimeReached_active s d ha hr hd]
  split_ifs with hj
  · have hcyc := State.cyc_of_sansTables ((s.admitMoment d.val).setDie_sansTables d.val 1)
    exact ⟨_, rfl, hcyc, fun _ => s.setDie_jacked d, fun hno => absurd (hcyc ▸ hj) hno⟩
  · have hcyc := State.cyc_of_sansTables ((s.admitMoment d.val).readmitted_sansTables d.val)
    refine ⟨_, rfl, hcyc, fun hyes => absurd (hcyc ▸ hyes) hj, fun _ => ⟨?_, ?_, fun k hk => ?_⟩⟩
    · exact State.readmitted_dieState _ _ d.isLt
    · exact State.readmitted_mask _ _
    · exact State.readmitted_cells _ _ _ d.isLt hk

/-- A refill gives its cube, and no other, one token. -/
theorem cubeTokenRefill_adds (s : State) (c : Fin 2048) (ha : s.active = true) (hr : s.faRuns 2 = true)
    (hs : s.get Reg.FA_QB_CUBE_refill_s ≠ 0) :
    ∃ t, exec (.cubeTokenRefill c) s = .next t ∧ t.tokens c.val = satAdd (s.get Reg.FA_QB_CUBE_burst) (s.tokens c.val) 1 ∧
      (∀ k, k ≠ c.val → t.tokens k = s.tokens k) ∧ t.queues = s.queues ∧
      t.cyc = (s.refillMoment c.val (s.get Reg.FA_QB_CUBE_refill_s * 1600000000)).cyc := by
  have hperiod : s.get Reg.FA_QB_CUBE_refill_s * 1600000000 = s.get Reg.FA_QB_CUBE_refill_s * 1000 * msTicks := by
    rw [Nat.mul_assoc]
    rfl
  obtain ⟨n, hn⟩ := s.refill_runs c.val _ hr hperiod (Nat.mul_ne_zero hs (by decide))
  have hsans := (s.refillMoment c.val (s.get Reg.FA_QB_CUBE_refill_s * 1600000000)).refilled_sansTables c.val n
  refine ⟨_, (execCubeTokenRefill_active s c ha).trans (congrArg _ hn), ?_, fun k hk => ?_, ?_, State.cyc_of_sansTables hsans⟩
  · rw [State.refilled_tokens_same, State.tokens, State.refillMoment_get, State.refillMoment_get, State.tokens]
  · rw [State.refilled_tokens_other _ _ _ _ hk, State.tokens, State.refillMoment_get, State.tokens]
  · rw [State.queues_of_sansTables hsans, State.refillMoment_queues]

theorem State.refillMoment_cyc (s : State) (c p : Nat) : (s.refillMoment c p).cyc =
    if Sparse.get (fun _ => 0) s.fa.refilled c < s.fleet / p then s.cyc else (s.passToFleet ((s.fleet / p + 1) * p % 2 ^ 64)).cyc := by
  rw [State.refillMoment, apply_ite State.cyc]

end Sys2Proof.Machine

namespace Sys2Proof

open Machine

/-- Settles O50: refills stand at the multiples of the interval and an overdue one is made up at once (log entry 113), and a jack
in the cycle of the admission leaves the die JACKED (log entry 121). -/
theorem tokensAndAdmissions : Obligations.TokensAndAdmissions := by
  refine ⟨fun s c ha hr hs => ?_, execCubeTokenRefill_off, fun s who d hready ht => ?_,
    fun s d ha hr hd => admitTimeReached_takes_back s d ha hr hd, execAdmitTimeReached_off⟩
  · obtain ⟨t, hexec, hsame, hother, hqueues, hcyc⟩ := cubeTokenRefill_adds s c ha hr hs
    exact ⟨t, hexec, hsame, fun k _ hk => hother k hk, hqueues, hcyc.trans (s.refillMoment_cyc _ _)⟩
  · exact ⟨s.wSpares d.toNat, writes_of_busWrite rfl hready (State.busWrite_FA_QB_ADD _ _ _ ht), s.wSpares_queues _,
      s.wSpares_tokens _⟩

end Sys2Proof
end
